-- ==== Sys2Proof/Word.lean ====
section
/-! DEFINITION. The plainest word types of the LYS-4000 (R6, R7): bytes, 32-bit and 64-bit words,
128-byte line data and lane masks. Everything a repair could touch stands under Machine/. -/

namespace Sys2Proof

/-- A byte (R7). -/
abbrev Byte := BitVec 8
/-- A 32-bit register word (R66). -/
abbrev W32 := BitVec 32
/-- A 64-bit register, record or descriptor word (R7, R9). -/
abbrev W64 := BitVec 64
/-- One bit per lane of a crew, lane 0 in bit 0 (R63). -/
abbrev LaneMask := BitVec 32
/-- A table keyed by natural numbers, keys rising; an absent key reads as the table's default. -/
abbrev Sparse (α : Type) := List (Nat × α)

end Sys2Proof
end

