-- ==== Sys2Proof/Syntax.lean ====
section
/-! DEFINITION. The commands of the block: one constructor of `Instr` per row of spec/opcode_table.json,
in the table's order, with the operand types they carry. An operand is what the row's step takes from
outside the state: a packet on a command port, the stream whose next record the dispatcher takes, the crew and the
instruction word it issues, a protocol message as it arrives, a sensor's reading, or which of several
pending items the step is about. -/

namespace Sys2Proof

/-- The three command ports (R343): host window, I3C sideband, node-core service window. -/
inductive Port where
  | h | b | n
  deriving DecidableEq, Repr

/-- An Ebior command packet less its opcode, which the row names (R341, Table 14.1). -/
structure Packet where
  flags : Nat
  plen  : Nat
  seq   : Nat
  crc   : W32
  rsv   : Nat
  body  : List Byte
  /-- On port B: the requester's endpoint and its message tag (R345). -/
  eid   : Nat := 0
  tag   : Nat := 0
  deriving DecidableEq, Repr

/-- A crew: compute die 0–3, physical tile 0–67, crew slot 0–47 (Table 3.16). -/
structure CrewId where
  die  : Nat
  tile : Nat
  slot : Nat
  deriving DecidableEq, Repr

/-- What Cairn meets at one attempt to bring up the H–P link (R291). -/
structure LinkOffer where
  /-- UCIe version: major × 16 + minor. -/
  version : Nat
  /-- Advanced package. -/
  advanced : Bool
  modules : Nat
  lanes : Nat
  /-- PCIe and CXL mapped in the 256-byte flit format; with retry. -/
  flit256 : Bool
  retry : Bool
  /-- Negotiated rate in GT/s: 32 or 16. -/
  rate : Nat
  /-- The mainband trained within its time. -/
  trained : Bool
  /-- P's UCIe vendor and device identity. -/
  ident : W64
  deriving DecidableEq, Repr

/-- Who asks for a maintenance activity (R433, R437): a MAINT_START packet on a port, or firmware under
R432, which names the die and target bytes 4 and 5. -/
inductive ActReq where
  | port (p : Port) (k : Packet)
  | firmware (die t4 t5 : Nat)
  deriving DecidableEq, Repr

/-- DIE_RESET as a command, or as MAINT_START with activity 0x09 (R351). -/
inductive DieResetReq where
  | command (p : Port) (k : Packet)
  | maint (p : Port) (k : Packet)
  deriving DecidableEq, Repr

/-- Who writes a register (R9, R27): a node core in a privilege mode, or the host through BAR0. -/
inductive RegWriter where
  | node (machine : Bool) (core : Nat)
  | host
  deriving DecidableEq, Repr

/-- The kinds of a node-core or aperture access (R30, R196, R230). -/
inductive NodeKind where
  | load | ifetch | store | amo | lr | sc | evict | fence
  deriving DecidableEq, Repr

/-- A node-core access (R29, R30): address, size in bytes, kind, write data; for an AMO, `sub` is its operation: ATOM's SUB codes (R87),
8 AMOMINU, 9 AMOMAXU; for a FENCE its sets, bits 0–3 reads, writes, device input and device output before it, 4–7 the same after it (R196). -/
structure NodeAccess where
  kind : NodeKind
  addr : Nat
  size : Nat
  data : W64
  sub  : Nat
  /-- The aq and rl bits of an AMO, LR or SC (R196). -/
  aq   : Bool := false
  rl   : Bool := false
  /-- The core is in machine mode. -/
  machine : Bool := true
  deriving DecidableEq, Repr

/-- Which request the debug block takes (DBG_REQ, R415) with DBG_DATA as it stands. -/
structure DbgReq where
  /-- The node core that writes it (R417: SELF). -/
  core  : Nat
  die   : Nat
  unit  : Nat
  space : Nat
  addr  : Nat
  deriving DecidableEq, Repr

/-- The 1,024 data bits of a 128-byte line and the poison marks of its four sectors (R227, PMASK). -/
structure Line where
  data  : BitVec 1024
  pmask : BitVec 4
  deriving DecidableEq, Repr

/-- Errors that an access meets at its home, by the line's sector 0–3: erroneous symbols as L2 holds the sector (R215, R216), and link CRC
failures of the sector's transfer to or from memory (R277). An absent entry is 0. -/
structure AccErrs where
  l2  : List Nat := []
  crc : List Nat := []
  deriving DecidableEq, Repr

/-- The messages of the coherence protocol (Table 9.5). -/
inductive MsgOp where
  | rds | rdw | rdu | upg | vicd | vicc
  | fwds | fwdu | inv | cur | rcl
  | invack | fwddone | rspi
  | datas | datae | datau | wbd
  | cmp | vcmp | cack
  deriving DecidableEq, Repr

/-- A coherence message (Table 9.6). Agents are the 7-bit identities of R222; 0x7F names a home, 0x7E none. -/
structure CMsg where
  op     : MsgOp
  /-- LINE: bits [47:7] of the device physical address. -/
  line   : Nat
  /-- The agent the message goes to, or 0x7F for the line's home. -/
  dst    : Nat
  /-- SRC: the sender. -/
  src    : Nat
  /-- RQ: device address of the original requester (R315), for a snoop; of whom an InvAck goes to, for an Inv. -/
  rq     : Nat
  /-- DSRC, in Cmp: sender of the data. -/
  dsrc   : Nat
  /-- INVSET, in Cmp: the agents whose InvAcks the requester must collect. -/
  invset : List Nat
  /-- STALE, in VCmp. -/
  stale  : Bool
  /-- Data of DAT and VicD/VicC. -/
  line'  : Line
  /-- HPKG: package slot of the line's home. -/
  hpkg   : Nat := 0
  /-- TAG: the requester's transaction tag. -/
  tag    : Nat := 0
  /-- Errors that a request meets at its home, once it is there; MODEL'S OWN. -/
  errs   : AccErrs := {}
  deriving DecidableEq, Repr

/-- A Bucker: a tile Bucker of (die, tile) on one of its channels, or heavy Bucker b of Fn (Table 6.1). -/
inductive BuckerId where
  | tile (die tile ch : Nat)
  | heavy (die b : Nat)
  deriving DecidableEq, Repr

/-- The admission levels (Tables 12.5 and 12.8). `col d k` is the port direction leaving pair d: k 0 ring to
C(d+1), 1 ring to C(d+3), 2 spoke to H; `colHub d` the direction leaving H to Cd. -/
inductive Level where
  | tileEgress (die tile : Nat)
  | hubEgress
  | heavyEgress (die : Nat)
  | engineEgress (die : Nat)
  | serviceEgress (die : Nat)
  | srcFabric (die : Nat)
  | col (die k : Nat)
  | colHub (die : Nat)
  | dstFabric (die : Nat)
  | slice (die s : Nat)
  | bank (die b : Nat)
  | hbm (die stack ch : Nat)
  | lpddr (die ch : Nat)
  | hostLevel
  | ridge (link : Nat)
  deriving DecidableEq, Repr

/-- The sources that hold tokens (R293, R299). -/
inductive Source where
  | tile (die tile : Nat)
  | hub
  | heavy (die : Nat)
  | engine (die : Nat)
  | service (die : Nat)
  /-- Requests that a Ridge link delivers (R295, R320). -/
  | ridge (link : Nat)
  deriving DecidableEq, Repr

/-- A memory request as it crosses Ridge (R315, R320): 0 read, 1 write, 2 atomic, 3 reduction, 4 add-to-line, 5 and 6 a Bucker's read and
write, 7 a flush of a line; the device physical address at its destination, size, data and whether it is poison, compare value, byte or
element mask, operation and format (R87). -/
structure RAcc where
  kind : Nat
  pa   : Nat
  size : Nat
  data : BitVec 1024
  cmp  : W64
  mask : BitVec 128
  sub  : Nat
  ty   : Nat
  psn  : Bool := false
  deriving DecidableEq, Repr

/-- A memory response as it crosses Ridge (R314, R319, R327). -/
inductive RAns where
  | line (l : Line)
  | ok | poison | decode | host | unreachable
  deriving DecidableEq, Repr

/-- A message crossing Ridge (R315, R318): destination and source device addresses, virtual channel of Table 13.3, hop limit, the
request number its sender gave it, and the memory request or response, the coherence message (R223) or the Dead notice (R244)
it carries. -/
structure RMsg where
  dest : Nat
  src  : Nat
  vc   : Nat
  /-- The hop limit, which each link it crosses lowers by one: sent as 6, it arrives as 5 (R318). -/
  hops : Nat
  req  : Nat
  acc  : Option RAcc
  ans  : Option RAns
  coh  : Option CMsg := none
  dead : Option Nat := none
  deriving DecidableEq, Repr

/-- A request to another package whose response has not come within its bound: an access, or a coherent request of an agent (R314). -/
inductive Overdue where
  | access (id : Nat)
  | line (agent line : Nat)
  deriving DecidableEq, Repr

/-- The receiver's answer to a chunk (R327). -/
inductive ChunkAns where
  | ack | nack | busy
  deriving DecidableEq, Repr

/-- A job-start message on BC (R331–R335): START, or REFEED naming a subtree root. -/
structure StartMsg where
  bid     : Nat
  sender  : Nat
  n       : Nat
  f       : Nat
  members : List Nat
  /-- The member index the message concerns. -/
  index   : Nat
  payload : List Byte
  deriving DecidableEq, Repr

/-- Why a unit's read of a table, a record or a descriptor failed. -/
inductive ReadFail where
  | poison | decode | translation
  deriving DecidableEq, Repr

/-- The 16 counts of Table 16.2 at one 100 µs sample, and the egress refusals and tile requests of R384's boost. -/
structure SigSample where
  counts   : List Nat
  refusals : Nat
  requests : Nat
  deriving DecidableEq, Repr

/-- A frame on a rail's AVSBus (R443, R444): voltage and current, or no frame with a valid CRC. -/
inductive AvsFrame where
  | ok (mv ma : Nat)
  | bad
  deriving DecidableEq, Repr

/-- The sources of heartbeats (R244, R302). -/
inductive Beat where
  | cluster (k : Nat)
  | package (slot : Nat)
  | foundation (die : Nat)
  deriving DecidableEq, Repr

/-- A time beacon (R336, R428): the master it descends from and the domain time at departure. -/
structure Beacon where
  master : Nat
  time   : Nat
  link   : Nat
  deriving DecidableEq, Repr

/-- What CXL.cache answers to a D2H request (R240, R242): the state granted, or GO-Err. -/
inductive Go where
  | grantS | grantE | grantM | err
  deriving DecidableEq, Repr

/-- What the outcome of a memory training or retraining of a group's channels was (R274–R276). -/
structure ChanOutcome where
  die    : Nat
  /-- MEM_CHAN index, 0–111. -/
  chan   : Nat
  /-- It fails the pattern test. -/
  failed : Bool
  /-- Failing lanes. -/
  lrep   : Nat
  deriving DecidableEq, Repr

/-- The commands of the block, one constructor per row of spec/opcode_table.json, in its order; each docstring names the
row and the rule the table gives it. -/
inductive Instr where
  /-- PWR_GOOD_ASSERT (R360). -/
  | pwrGoodAssert (straps : BitVec 8)
  /-- PWR_GOOD_LOSS (R395). -/
  | pwrGoodLoss (ns : Nat)
  /-- VDD_CAIRN_LOSS (R442). -/
  | vddCairnLoss
  /-- REFCLK_CORE_LOSS (R448). -/
  | refclkCoreLoss
  /-- REFCLK_RIDGE_LOSS (R448). -/
  | refclkRidgeLoss
  /-- REFCLK_PCIE_LOSS (R448). -/
  | refclkPcieLoss
  /-- PORT_LINK_BRINGUP (R291). -/
  | portLinkBringup (offers : List LinkOffer)
  /-- PORT_LINK_RETRAIN (R292). -/
  | portLinkRetrain (ok : Bool)
  /-- PERST_N_ASSERT (R340). -/
  | perstNAssert
  /-- PERST_N_DEASSERT (R449). -/
  | perstNDeassert
  /-- FUNCTION_LEVEL_RESET (R340). -/
  | functionLevelReset
  /-- CACHE_ENABLE_CLEAR (R339). -/
  | cacheEnableClear
  /-- CACHE_ENABLE_SET (R339). -/
  | cacheEnableSet
  /-- IMAGE_BEGIN (R363). -/
  | imageBegin (p : Port) (k : Packet)
  /-- IMAGE_DATA (R363). -/
  | imageData (p : Port) (k : Packet)
  /-- IMAGE_END (R364). -/
  | imageEnd (p : Port) (k : Packet)
  /-- MEMORY_BRINGUP_END (R274). -/
  | memoryBringupEnd (outcomes : List ChanOutcome)
  /-- CONFIG_WRITE (R366). -/
  | configWrite (p : Port) (k : Packet)
  /-- CONFIG_READ (R366). -/
  | configRead (p : Port) (k : Packet)
  /-- CONFIG_COMMIT (R367). -/
  | configCommit (p : Port) (k : Packet) (badWays : List (Nat × Nat × Nat))
  /-- SAFETY_PROFILE (R407). -/
  | safetyProfile (p : Port) (k : Packet)
  /-- SAFETY_ARM (R408). -/
  | safetyArm (p : Port) (k : Packet)
  /-- QUERY_IDENTITY (R349). -/
  | queryIdentity (p : Port) (k : Packet)
  /-- ATTEST (R370). -/
  | attest (p : Port) (k : Packet)
  /-- TIME_SET (R430). -/
  | timeSet (p : Port) (k : Packet)
  /-- TIME_READ (R428). -/
  | timeRead (p : Port) (k : Packet)
  /-- TELEMETRY_READ (R425). -/
  | telemetryRead (p : Port) (k : Packet)
  /-- EVENT_LOG_READ (R438). -/
  | eventLogRead (p : Port) (k : Packet)
  /-- MAINT_STATUS (R436). -/
  | maintStatus (p : Port) (k : Packet)
  /-- MAINT_ABORT (R433). -/
  | maintAbort (p : Port) (k : Packet)
  /-- SCRUB (R433). -/
  | scrub (q : ActReq)
  /-- HBM_RETRAIN (R276). -/
  | hbmRetrain (q : ActReq)
  /-- LP_RETRAIN (R276). -/
  | lpRetrain (q : ActReq)
  /-- RIDGE_RETRAIN (R312). -/
  | ridgeRetrain (q : ActReq)
  /-- CHAN_EVAC (R278). -/
  | chanEvac (q : ActReq)
  /-- CHAN_EVAC_BLOCK_WRITTEN (R279). -/
  | chanEvacBlockWritten (die group : Nat)
  /-- WAY_TEST (R219). -/
  | wayTest (q : ActReq)
  /-- TILE_RETIRE (R434). -/
  | tileRetire (q : ActReq)
  /-- TILE_RETIRE_DEADLINE (R434). -/
  | tileRetireDeadline (die tile : Nat)
  /-- SENSOR_CAL (R434). -/
  | sensorCal (q : ActReq)
  /-- DIE_RESET (R300). -/
  | dieReset (q : DieResetReq)
  /-- DIE_RESET_DRAIN_END (R300). -/
  | dieResetDrainEnd (die : Nat)
  /-- ACTIVITY_END (R435). -/
  | activityEnd (num : Nat) (passed : Bool) (result : List Byte)
  /-- WAITING_ACTIVITY_START (R437). -/
  | waitingActivityStart (num : Nat)
  /-- PACKAGE_PARK (R350). -/
  | packagePark (p : Port) (k : Packet)
  /-- PARK_ENTRY (R350). -/
  | parkEntry
  /-- PARK_TIMEOUT (R350). -/
  | parkTimeout
  /-- RESUME (R402). -/
  | resume (p : Port) (k : Packet)
  /-- RESUME_COMPLETE (R402). -/
  | resumeComplete
  /-- STREAM_OPEN (R357). -/
  | streamOpen (p : Port) (k : Packet)
  /-- STREAM_CLOSE (R358). -/
  | streamClose (p : Port) (k : Packet)
  /-- STREAM_CLOSE_DRAINED (R358). -/
  | streamCloseDrained (n : Nat)
  /-- STREAM_MIGRATE (R359). -/
  | streamMigrate (p : Port) (k : Packet)
  /-- MIGRATE_DRAINED (R359). -/
  | migrateDrained (n : Nat)
  /-- STREAM_DRAIN_TIMEOUT (R359). -/
  | streamDrainTimeout (n : Nat)
  /-- DEBUG_UNLOCK_CHALLENGE (R411). -/
  | debugUnlockChallenge (p : Port) (k : Packet) (rand : List Byte)
  /-- DEBUG_UNLOCK_KEY (R411). -/
  | debugUnlockKey (p : Port) (k : Packet)
  /-- DEBUG_UNLOCK_SIGNATURE (R413). -/
  | debugUnlockSignature (p : Port) (k : Packet)
  /-- CHALLENGE_EXPIRY (R412). -/
  | challengeExpiry
  /-- DEBUG_LOCK (R414). -/
  | debugLock (p : Port) (k : Packet)
  /-- POWER_LIMIT_SET (R375). -/
  | powerLimitSet (p : Port) (k : Packet)
  /-- PORT_B_MESSAGE (R345). -/
  | portBMessage (opcode : Nat) (vendorOk : Bool) (k : Packet)
  /-- REGISTER_WRITE (R9). -/
  | registerWrite (by_ : RegWriter) (addr : Nat) (v : W64)
  /-- ROUTE_ENTRY_WRITE (R35). -/
  | routeEntryWrite (i : Nat) (v : W64)
  /-- INTERRUPT_EVENT (R32). -/
  | interruptEvent (src : Nat)
  /-- APERTURE_ACCESS (R31). -/
  | apertureAccess (core : Nat) (a : NodeAccess)
  /-- DEVICE_REGISTER_ACCESS_FAULT (R30). -/
  | deviceRegisterAccessFault (core : Nat) (a : NodeAccess)
  /-- TRAP_ANSWER_REPLAY (R93). -/
  | trapAnswerReplay (die : Nat) (trapId : BitVec 17)
  /-- TRAP_ANSWER_SKIP (R93). -/
  | trapAnswerSkip (die : Nat) (trapId : BitVec 17)
  /-- TRAP_ANSWER_KILL (R93). -/
  | trapAnswerKill (die : Nat) (trapId : BitVec 17)
  /-- TRAP_HEAD_WRITE (R96). -/
  | trapHeadWrite (die : Nat) (v : W64)
  /-- TRAP_RECORD_WRITE (R92). -/
  | trapRecordWrite (die : Nat)
  /-- XLT_REPLY_WALK (R261). -/
  | xltReplyWalk (pid : BitVec 16)
  /-- XLT_REPLY_ERROR (R261). -/
  | xltReplyError (pid : BitVec 16) (code : Byte)
  /-- XLT_RING_HEAD_WRITE (R260). -/
  | xltRingHeadWrite (v : W64)
  /-- XLT_INVAL_PAGE (R266). -/
  | xltInvalPage (space page : Nat)
  /-- XLT_INVAL_SPACE (R266). -/
  | xltInvalSpace (space : Nat)
  /-- XLT_INVAL_ALL (R266). -/
  | xltInvalAll
  /-- INVALIDATION_COMPLETE (R267). -/
  | invalidationComplete
  /-- STREAM_EHEAD_WRITE (R356). -/
  | streamEheadWrite (n : Nat) (v : W64)
  /-- STREAM_CONT (R356). -/
  | streamCont (n : Nat)
  /-- TAL_TEL_HEAD_WRITE (R426). -/
  | talTelHeadWrite (v : W64)
  /-- MEM_L2_WAY_READ (R219). -/
  | memL2WayRead (die s : Nat)
  /-- MEM_STACK_TEMP_READ (R284). -/
  | memStackTempRead (die : Nat)
  /-- COL_SAT_READ (R297). -/
  | colSatRead (die l : Nat)
  /-- READ (R416). -/
  | dbgRead (q : DbgReq)
  /-- WRITE (R416). -/
  | dbgWrite (q : DbgReq)
  /-- HALT (R417). -/
  | dbgHalt (q : DbgReq)
  /-- RUN (R417). -/
  | dbgRun (q : DbgReq)
  /-- STEP (R417). -/
  | dbgStep (q : DbgReq)
  /-- BKSET (R417). -/
  | bkset (q : DbgReq)
  /-- BKCLR (R417). -/
  | bkclr (q : DbgReq)
  /-- INJECT (R418). -/
  | inject (q : DbgReq)
  /-- SAMPLE (R416). -/
  | sample (q : DbgReq)
  /-- EXTEST (R422). -/
  | extest
  /-- IDCODE (R422). -/
  | idcode
  /-- SAMPLE_PRELOAD (R422). -/
  | samplePreload
  /-- CLAMP (R423). -/
  | clamp
  /-- HIGHZ (R423). -/
  | highz
  /-- BYPASS (R422). -/
  | bypass (code : Byte)
  /-- LAUNCH (R69). -/
  | launch (n : Nat)
  /-- STAND_PLACE (R64). -/
  | standPlace (launch die tile : Nat)
  /-- STAND_END (R82). -/
  | standEnd (die tile slot : Nat)
  /-- COPY (R149). -/
  | copy (n : Nat)
  /-- SIGNAL (R193). -/
  | signal (n : Nat)
  /-- WAIT (R193). -/
  | wait (n : Nat)
  /-- WAIT_TIMEOUT (R356). -/
  | waitTimeout (n : Nat)
  /-- PHASE_HINT (R385). -/
  | phaseHint (n : Nat)
  /-- OP_REQUEST (R388). -/
  | opRequest (n : Nat)
  /-- FLUSH_RANGE (R195). -/
  | flushRange (n : Nat)
  /-- COLLECTIVE (R322). -/
  | collective (n : Nat)
  /-- EPOCH (R355). -/
  | epoch (n : Nat)
  /-- LINK (R355). -/
  | link (n : Nat)
  /-- EMPTY (R355). -/
  | empty (n : Nat)
  /-- STREAM_WAKE (R238). -/
  | streamWake (n : Nat)
  /-- RECORD_COMPLETE (R354). -/
  | recordComplete (n addr : Nat)
  /-- MOV (R78). -/
  | mov (c : CrewId) (w : W64)
  /-- SEL (R78). -/
  | sel (c : CrewId) (w : W64)
  /-- SREAD (R68). -/
  | sread (c : CrewId) (w : W64)
  /-- IADD (R78). -/
  | iadd (c : CrewId) (w : W64)
  /-- ISUB (R78). -/
  | isub (c : CrewId) (w : W64)
  /-- IMUL (R78). -/
  | imul (c : CrewId) (w : W64)
  /-- IMULHI (R78). -/
  | imulhi (c : CrewId) (w : W64)
  /-- IMULHU (R78). -/
  | imulhu (c : CrewId) (w : W64)
  /-- IMAD (R78). -/
  | imad (c : CrewId) (w : W64)
  /-- IMIN (R78). -/
  | imin (c : CrewId) (w : W64)
  /-- IMAX (R78). -/
  | imax (c : CrewId) (w : W64)
  /-- UMIN (R78). -/
  | umin (c : CrewId) (w : W64)
  /-- UMAX (R78). -/
  | umax (c : CrewId) (w : W64)
  /-- AND (R78). -/
  | and (c : CrewId) (w : W64)
  /-- OR (R78). -/
  | or (c : CrewId) (w : W64)
  /-- XOR (R78). -/
  | xor (c : CrewId) (w : W64)
  /-- NOT (R78). -/
  | not (c : CrewId) (w : W64)
  /-- SHL (R78). -/
  | shl (c : CrewId) (w : W64)
  /-- SHR (R78). -/
  | shr (c : CrewId) (w : W64)
  /-- SAR (R78). -/
  | sar (c : CrewId) (w : W64)
  /-- POPC (R78). -/
  | popc (c : CrewId) (w : W64)
  /-- CLZ (R78). -/
  | clz (c : CrewId) (w : W64)
  /-- BFX (R78). -/
  | bfx (c : CrewId) (w : W64)
  /-- ISETP (R78). -/
  | isetp (c : CrewId) (w : W64)
  /-- FADD (R78). -/
  | fadd (c : CrewId) (w : W64)
  /-- FSUB (R78). -/
  | fsub (c : CrewId) (w : W64)
  /-- FMUL (R78). -/
  | fmul (c : CrewId) (w : W64)
  /-- FFMA (R78). -/
  | ffma (c : CrewId) (w : W64)
  /-- FMIN (R51). -/
  | fmin (c : CrewId) (w : W64)
  /-- FMAX (R51). -/
  | fmax (c : CrewId) (w : W64)
  /-- FSETP (R52). -/
  | fsetp (c : CrewId) (w : W64)
  /-- CVT (R48). -/
  | cvt (c : CrewId) (w : W64)
  /-- LD (R79). -/
  | ld (c : CrewId) (w : W64) (lost : List Nat)
  /-- ST (R79). -/
  | st (c : CrewId) (w : W64)
  /-- BCOPY (R81). -/
  | bcopy (c : CrewId) (w : W64)
  /-- NOP (R83). -/
  | nop (c : CrewId) (w : W64)
  /-- BRA (R84). -/
  | bra (c : CrewId) (w : W64)
  /-- BRX (R84). -/
  | brx (c : CrewId) (w : W64)
  /-- CALL (R84). -/
  | call (c : CrewId) (w : W64)
  /-- RET (R84). -/
  | ret (c : CrewId) (w : W64)
  /-- EXIT (R84). -/
  | exit (c : CrewId) (w : W64)
  /-- TRAP (R91). -/
  | trap (c : CrewId) (w : W64)
  /-- BRK (R91). -/
  | brk (c : CrewId) (w : W64)
  /-- BAR (R89). -/
  | bar (c : CrewId) (w : W64)
  /-- FENCE_ACQ (R180). -/
  | fenceAcq (c : CrewId) (w : W64)
  /-- FENCE_REL (R180). -/
  | fenceRel (c : CrewId) (w : W64)
  /-- FENCE_AR (R180). -/
  | fenceAr (c : CrewId) (w : W64)
  /-- ATOM (R188). -/
  | atom (c : CrewId) (w : W64)
  /-- RED (R192). -/
  | red (c : CrewId) (w : W64)
  /-- REDL (R191). -/
  | redl (c : CrewId) (w : W64)
  /-- SHFL (R88). -/
  | shfl (c : CrewId) (w : W64)
  /-- VOTE (R88). -/
  | vote (c : CrewId) (w : W64)
  /-- BWAIT (R169). -/
  | bwait (c : CrewId) (w : W64)
  /-- WAITF (R90). -/
  | waitf (c : CrewId) (w : W64)
  /-- PAUSE (R87). -/
  | pause (c : CrewId) (w : W64)
  /-- WAIT_CONDITION_MET (R85). -/
  | waitConditionMet (c : CrewId)
  /-- MMA (R104). -/
  | mma (c : CrewId) (w : W64)
  /-- MMAP (R114). -/
  | mmap (c : CrewId) (w : W64)
  /-- ACCLD (R106). -/
  | accld (c : CrewId) (w : W64)
  /-- ACCST (R106). -/
  | accst (c : CrewId) (w : W64)
  /-- MWAIT (R110). -/
  | mwait (c : CrewId) (w : W64)
  /-- MATRIX_START (R107). -/
  | matrixStart (die tile : Nat) (transfer : Bool)
  /-- MATRIX_COMPLETE (R110). -/
  | matrixComplete (die tile : Nat) (transfer : Bool)
  /-- EPRUN (R129). -/
  | eprun (c : CrewId) (w : W64)
  /-- VGET (R120). -/
  | vget (c : CrewId) (w : W64)
  /-- VPUT (R120). -/
  | vput (c : CrewId) (w : W64)
  /-- VFLAGS (R139). -/
  | vflags (c : CrewId) (w : W64)
  /-- VWAIT (R121). -/
  | vwait (c : CrewId) (w : W64)
  /-- ELEMENT_START (R122). -/
  | elementStart (die tile : Nat)
  /-- ELEMENT_COMPLETE (R123). -/
  | elementComplete (die tile : Nat) (bad : Bool)
  /-- BUCKER_TURN (R148). -/
  | buckerTurn (b : BuckerId) (count : Nat)
  /-- HEAVY_BUCKER_TAKE (R149). -/
  | heavyBuckerTake (die b n addr : Nat)
  /-- INDEX_LIST_READ (R455). -/
  | indexListRead (b : BuckerId)
  /-- FLAGGED_FINAL_WRITE (R165). -/
  | flaggedFinalWrite (b : BuckerId) (serial : Nat)
  /-- DESCRIPTOR_COMPLETE (R166). -/
  | descriptorComplete (b : BuckerId) (serial : Nat)
  /-- COPY_DATA_PATH_ERROR (R168). -/
  | copyDataPathError (b : BuckerId) (serial cause addr : Nat)
  /-- HOME_ACCESS (R208). -/
  | homeAccess (id : Nat) (errs : AccErrs)
  /-- L2_FILL_RETURN (R208). -/
  | l2FillReturn (line : Nat) (crc : List Nat)
  /-- L1_FILL_RETURN (R204). -/
  | l1FillReturn (id : Nat)
  /-- EVICTION_WRITE_ISSUE (R212). -/
  | evictionWriteIssue (line : Nat) (crc : List Nat)
  /-- EVICTION_WRITE_ACK (R212). -/
  | evictionWriteAck (line : Nat)
  /-- CLEAN_VICTIM_OFFER (R210). -/
  | cleanVictimOffer (cluster line : Nat) (data : Line)
  /-- WAY_DISABLE (R217). -/
  | wayDisable (die s way : Nat)
  /-- HOUR_BUCKET_ADVANCE (R432). -/
  | hourBucketAdvance
  /-- NODE_CORE_ACCESS (R230). -/
  | nodeCoreAccess (core : Nat) (a : NodeAccess)
  /-- RDS (R231). -/
  | rds (m : CMsg) (errs : AccErrs)
  /-- RDW (R231). -/
  | rdw (m : CMsg) (errs : AccErrs)
  /-- RDU (R231). -/
  | rdu (m : CMsg) (errs : AccErrs)
  /-- UPG (R231). -/
  | upg (m : CMsg) (errs : AccErrs)
  /-- VICD (R231). -/
  | vicd (m : CMsg)
  /-- VICC (R231). -/
  | vicc (m : CMsg)
  /-- RDC (R234). -/
  | rdc (id : Nat)
  /-- WR (R234). -/
  | wrReq (id : Nat)
  /-- AT (R234). -/
  | atReq (id : Nat)
  /-- FWDS (R236). -/
  | fwds (m : CMsg)
  /-- FWDU (R236). -/
  | fwdu (m : CMsg)
  /-- INV (R236). -/
  | inv (m : CMsg)
  /-- CUR (R236). -/
  | cur (m : CMsg)
  /-- RCL (R236). -/
  | rcl (m : CMsg)
  /-- DATA_RECEIVE (R237). -/
  | dataReceive (m : CMsg)
  /-- CMP (R237). -/
  | cmp (m : CMsg)
  /-- INVACK (R237). -/
  | invack (m : CMsg)
  /-- VCMP (R236). -/
  | vcmp (m : CMsg)
  /-- FWDDONE (R233). -/
  | fwddone (m : CMsg)
  /-- WBD (R235). -/
  | wbd (m : CMsg)
  /-- RSPI (R235). -/
  | rspi (m : CMsg)
  /-- CACK (R233). -/
  | cack (m : CMsg)
  /-- CLUSTER_HEARTBEAT_TIMEOUT (R244). -/
  | clusterHeartbeatTimeout (k : Nat)
  /-- PACKAGE_HEARTBEAT_TIMEOUT (R244). -/
  | packageHeartbeatTimeout (slot : Nat)
  /-- CLUSTER_RESET (R244). -/
  | clusterReset (k : Nat)
  /-- DEAD_NOTICE (R245). -/
  | deadNotice (agent dst : Nat)
  /-- RECLAMATION_COMPLETE (R245). -/
  | reclamationComplete (agent : Nat)
  /-- SNPINV (R241); `half` is the host physical address over 64. -/
  | snpinv (half : Nat)
  /-- SNPDATA (R241); `half` is the host physical address over 64. -/
  | snpdata (half : Nat)
  /-- SNPCUR (R241); `half` is the host physical address over 64. -/
  | snpcur (half : Nat)
  /-- GO_RECEIVE (R242); `half` is the host physical address over 64. -/
  | goReceive (half : Nat) (g : Go)
  /-- HOST_DATA_RECEIVE (R242); `half` is the host physical address over 64. -/
  | hostDataReceive (half : Nat) (data : BitVec 512) (poisoned : Bool)
  /-- HOST_LINE_EVICT (R243). -/
  | hostLineEvict (line : Nat)
  /-- TRANSLATION_MISS (R257). -/
  | translationMiss (id : Nat)
  /-- WALK_COMPLETE (R259). -/
  | walkComplete (index : Nat)
  /-- REQUEST_RECORD_WRITE (R260). -/
  | requestRecordWrite (index : Nat)
  /-- FILL_COMPLETE (R258). -/
  | fillComplete (index : Nat)
  /-- TOKEN_GRANT (R294). -/
  | tokenGrant (src : Source) (l : Level) (count : Nat)
  /-- TOKEN_IDLE_RETURN (R294). -/
  | tokenIdleReturn (src : Source) (l : Level) (count : Nat)
  /-- TOKEN_RETURN (R294). -/
  | tokenReturn (id : Nat) (l : Level)
  /-- RETRY_BACKOFF_EXPIRY (R296). -/
  | retryBackoffExpiry (id : Nat)
  /-- COL_MODULE_RETIRE (R289). -/
  | colModuleRetire (port retries : Nat)
  /-- PORT_SEVERED (R303). -/
  | portSevered (port : Nat)
  /-- SERVICE_CLOCK_STOP (R301). -/
  | serviceClockStop (die : Nat)
  /-- COMPUTE_DIE_LOST (R301). -/
  | computeDieLost (die : Nat)
  /-- TILE_LOST (R301). -/
  | tileLost (die tile : Nat)
  /-- FOUNDATION_LOST (R302). -/
  | foundationLost (die : Nat)
  /-- FLIT_RECEIVE (R309); with the FEC codewords that came corrected and uncorrectable (Table 18.1). -/
  | flitReceive (link : Nat) (bytes : List Byte) (fecC fecU : Nat)
  /-- NAK_RECEIVE (R309). -/
  | nakReceive (link last : Nat)
  /-- LINK_TRAINING_START (R307). -/
  | linkTrainingStart (link : Nat)
  /-- LINK_TRAINING_END (R307). -/
  | linkTrainingEnd (link : Nat) (lanes : BitVec 4) (peer : Nat)
  /-- LINK_RETRAIN_END (R307). -/
  | linkRetrainEnd (link : Nat) (lanes : BitVec 4)
  /-- LANE_PERMANENT_FAULT (R312). -/
  | lanePermanentFault (link lane : Nat)
  /-- LINK_FAILOVER (R314). -/
  | linkFailover (link : Nat)
  /-- RIDGE_MESSAGE_ARRIVE (R318). -/
  | ridgeMessageArrive (link : Nat) (m : RMsg)
  /-- CHUNK_RECEIVE (R327). -/
  | chunkReceive (die : Nat) (bytes : List Byte)
  /-- CHUNK_HOLD_EXPIRY (R327). -/
  | chunkHoldExpiry (die cid chunk : Nat)
  /-- CHUNK_ANSWER (R328). -/
  | chunkAnswer (die cid step chunk : Nat) (a : ChunkAns)
  /-- CHUNK_TIMEOUT (R328). -/
  | chunkTimeout (die cid step chunk : Nat)
  /-- STEP_TIMEOUT (R329). -/
  | stepTimeout (die cid step : Nat)
  /-- PLAN_COMPLETE (R330). -/
  | planComplete (die cid : Nat)
  /-- START (R332). -/
  | startMsg (m : StartMsg)
  /-- START_ACK (R333). -/
  | startAck (bid child : Nat)
  /-- DONE (R333). -/
  | doneMsg (bid child : Nat)
  /-- UNREACHED (R334). -/
  | unreached (bid member : Nat)
  /-- REFEED (R334). -/
  | refeed (m : StartMsg)
  /-- REFEED_DONE (R335). -/
  | refeedDone (bid alt member : Nat)
  /-- TACK_TIMEOUT (R333). -/
  | tackTimeout (bid child : Nat)
  /-- TDONE_TIMEOUT (R333). -/
  | tdoneTimeout (bid child : Nat)
  /-- BEACON_SEND (R336). -/
  | beaconSend (link : Nat)
  /-- BEACON_RECEIVE (R429). -/
  | beaconReceive (b : Beacon)
  /-- DELAY_EXCHANGE (R336). -/
  | delayExchange (link delay : Nat)
  /-- BEACON_LOSS (R428). -/
  | beaconLoss
  /-- STACK_TEMP_SAMPLE (R284). -/
  | stackTempSample (die stack temp : Nat)
  /-- STACK_LEVEL_EXIT (R284). -/
  | stackLevelExit (die stack : Nat)
  /-- LPDDR_TEMP_SAMPLE (R285). -/
  | lpddrTempSample (die k temp : Nat)
  /-- PATROL_SCRUB_VISIT (R283). -/
  | patrolScrubVisit (die chan unit : Nat) (crc : List (Nat × Nat))
  /-- THRESHOLD_CROSSED (R432). -/
  | thresholdCrossed (row die obj count : Nat)
  /-- SIGNATURE_SAMPLE (R383). -/
  | signatureSample (die : Nat) (x : SigSample)
  /-- VOLTAGE_STEP (R373). -/
  | voltageStep (die : Nat)
  /-- VOLTAGE_REPORTED (R373). -/
  | voltageReported (die mv : Nat)
  /-- BUDGET_EXCHANGE (R377). -/
  | budgetExchange
  /-- GRANT_RECEIVE (R378). -/
  | grantReceive (die : Nat)
  /-- GRANT_RAISE_EFFECT (R378). -/
  | grantRaiseEffect (die : Nat)
  /-- GRANT_TIMEOUT (R378). -/
  | grantTimeout (die : Nat)
  /-- HINT_PREPARE (R387). -/
  | hintPrepare (die i : Nat) (voltage : Bool)
  /-- HINT_START (R387). -/
  | hintStart (die i : Nat)
  /-- HINT_END (R386). -/
  | hintEnd (die i : Nat)
  /-- EXPLORATION_SAMPLE (R384). -/
  | explorationSample (die : Nat)
  /-- MARGIN_LOW (R390). -/
  | marginLow (die tile : Nat) (covered : Bool)
  /-- STRETCH_END (R390). -/
  | stretchEnd (die tile : Nat)
  /-- STRETCH_INTERVAL (R392). -/
  | stretchInterval (die stretched total : Nat)
  /-- SUPPLY_WARN_ASSERT (R393). -/
  | supplyWarnAssert
  /-- SUPPLY_WARN_DEASSERT (R393). -/
  | supplyWarnDeassert
  /-- SUPPLY_EPISODE_END (R393). -/
  | supplyEpisodeEnd
  /-- JUNCTION_SAMPLE (R396); the hottest reading of each pair and of H, sensors ignored or excluded left out (R432). -/
  | junctionSample (pairs : List Nat) (hub : Nat)
  /-- JUNCTION_LEVEL_EXIT (R396). -/
  | junctionLevelExit (die : Nat)
  /-- THERM_TRIP (R398). -/
  | thermTrip
  /-- COOLANT_OK_DEASSERT (R400). -/
  | coolantOkDeassert
  /-- COOLANT_HALT (R400). -/
  | coolantHalt
  /-- COOLANT_OK_ASSERT (R402). -/
  | coolantOkAssert
  /-- IDLE_ENTRY (R399). -/
  | idleEntry
  /-- IDLE_EXIT (R399). -/
  | idleExit
  /-- POWER_SAFETY_NET (R381). -/
  | powerSafetyNet
  /-- LOCKSTEP_MISMATCH (R405). -/
  | lockstepMismatch
  /-- CAIRN_RESTART_COMPLETE (R405). -/
  | cairnRestartComplete
  /-- TALLY_SAMPLE (R426); the temperatures as they are read. -/
  | tallySample (levels : List (Nat × W64))
  /-- TELEMETRY_PERIOD_END (R426). -/
  | telemetryPeriodEnd
  /-- AVSBUS_SAMPLE (R443). -/
  | avsbusSample (rail : Nat) (f : AvsFrame)
  /-- AVSBUS_FRAME_TIMEOUT (R444). -/
  | avsbusFrameTimeout (rail : Nat)
  /-- HEARTBEAT (R244). -/
  | heartbeat (b : Beat)
  /-- ACCESS_COMPLETION_RECEIVE (R295). -/
  | accessCompletionReceive (id : Nat)
  /-- RIDGE_REQUEST_BOUND_EXPIRY (R314). -/
  | ridgeRequestBoundExpiry (q : Overdue)
  /-- REFCLK_RIDGE_RETURN (R448). -/
  | refclkRidgeReturn
  /-- REFCLK_PCIE_RETURN (R448). -/
  | refclkPcieReturn
  /-- CHANNEL_RETRAIN_COMPLETE (R276). -/
  | channelRetrainComplete (die chan lrep : Nat)
  deriving DecidableEq, Repr

end Sys2Proof
end

