-- ==== Sys2Proof/Decode.lean ====
section
/-! DEFINITION. Words that spell a command by the bits of spec/opcode_table.json. No row of that table gives bits, so no word
spells a command. -/

namespace Sys2Proof

/-- The command that `nbits` bits `w` spell by the table's bits: none, since no row gives any. -/
def decodeTableWord (_nbits _w : Nat) : Option Instr := none

end Sys2Proof
end

