-- ==== Sys2Proof/Config.lean ====
section
/-! DEFINITION. Values the spec leaves open, as constants with no body: no proof can see what they are, so a claim holds
whatever they are. Each names the log entry that lists it. -/

namespace Sys2Proof

/-- ML-DSA-65 key generation (FIPS 204, cited by R371): public key of 1,952 bytes from a seed (log entry 6). -/
opaque Free.mldsaPk : List Byte → List Byte
/-- ML-DSA-65 signing with an empty context (R370): seed, message (log entry 6). -/
opaque Free.mldsaSign : List Byte → List Byte → List Byte
/-- ML-DSA-65 verification with an empty context (R364, R411): public key, message, signature (log entry 6). -/
opaque Free.mldsaVerify : List Byte → List Byte → List Byte → Bool
/-- ROM version (Table 15.6); the spec gives no number (log entry 7). -/
opaque Free.romVersion : Nat
/-- Enterprise number and 16-byte die-set identity of QUERY_IDENTITY (Table 14.6); fixed by the part (log entry 7). -/
opaque Free.enterprise : Nat
opaque Free.dieSet : List Byte
/-- JEDEC manufacturer code in IDCODE (R422) (log entry 7). -/
opaque Free.jedec : Nat
/-- A random challenge drawn when none came with the command (R412) (log entry 7). -/
opaque Free.challenge : Nat → List Byte

/-- The 64 bytes of VALUE that the measurement log's first fold finds in entry 64 (R369 names no first value) (log entry 23). -/
opaque Free.foldFirst : List Byte

/-- How the fields that Table 18.9 lists for an event code stand in the 40 bytes of DATA, which the spec does not lay out: the code and the
fields (log entry 10). -/
opaque Free.eventData : Nat → List Nat → List Byte

/-- Largest possible count of signature counter j over 100 µs at OP7; R382 names it and gives no number (log entry 7). -/
opaque Free.sigMax : Nat → Nat

/-- Firmware reason code of a lost REFCLK_CORE in CODE 0x0015 (R448); no number is given (log entry 7). -/
opaque Free.refclkReason : Nat
/-- How the parameters of R291 are written into measurement TYPE 3 after P's identity (log entry 7): rate. -/
opaque Free.linkParams : Nat → List Byte
/-- VALUE of the TYPE 6 entry of DEBUG_LOCK (R414), which the spec does not lay out (log entry 7). -/
opaque Free.lockValue : Nat → List Byte

/-- What FBK_PKG.LASTH reads after a Halt from a third lockstep mismatch (R405), which Table 16's codes do not cover (log entry 7). -/
opaque Free.mismLasth : Nat
/-- Levels of the I3C pins when the boundary register takes them (R422) (log entry 7). -/
opaque Free.i3cPins : Nat → Nat

/-- Whether a line's diagonal route takes the relay C(n+1) rather than C(n+3): the address hash of Table 12.3, which the spec does
not give (log entry 7). -/
opaque Free.relayHash : Nat → Bool
/-- The hashes of R317 over line addresses and over CID and CHUNK (log entry 7). -/
opaque Free.ridgeHash : Nat → Nat
opaque Free.chunkHash : Nat → Nat → Nat
/-- Set of a line in the host-line cache (R239), which the spec does not give (log entry 7). -/
opaque Free.hostSet : Nat → Nat
/-- What another package's memory answers to a read (R319), one value for each answer (log entry 7). -/
opaque Free.remoteData : Nat → BitVec 1024

/-- What a node core's load of a poisoned sector returns (R272), which the spec does not state (log entry 14). -/
opaque Free.poisonLoad : Nat → BitVec 64

/-- The 16-bit draws of the random sources of tiles and foundation dies (R45, R46), one value for each draw (log entry 16). -/
opaque Free.rand : Nat → BitVec 16

/-- The draws of one matrix or element instruction: its number, the micro-op or row, the element (R45, R46) (log entry 16). -/
opaque Free.randIn : Nat → Nat → Nat → BitVec 16

/-- The fixed, unpublished order in which the engine adds the K products of output (m, n): the rank of product k for a pair of formats
(R54, R114) (log entry 17). -/
opaque Free.macRank : Nat → Nat → Nat → Nat → Nat → Nat
/-- Where the fixed tree of a floating-point scan divides the columns lo to hi − 1 (R132) (log entry 17). -/
opaque Free.scanSplit : Nat → Nat → Nat
/-- Bits above a 16- or 32-bit value in its 64-bit temporary (R128): number of the EPRUN, micro-op, element (log entry 18). -/
opaque Free.tempHigh : Nat → Nat → Nat → BitVec 64
/-- Flags that an element computed from an uncorrectable sector raises (R142): number of the EPRUN (log entry 18). -/
opaque Free.badFlags : Nat → BitVec 5
/-- ABS of the most negative integer of a type (Table 5.6 states none) (log entry 18). -/
opaque Free.absMin : Nat → BitVec 64
/-- Rank of a lane among lanes that store to one location, or act on it atomically, in one instruction (R172): draw, lane (log entry 60). -/
opaque Free.laneRank : Nat → Nat → Nat
/-- At which moment since its instruction started an engine read a sector of local store (R109, R124): draw, sector (log entry 31). -/
opaque Free.moment : Nat → Nat → Nat
/-- Whether an executing ACCST has written a sector of its target by now (R109): draw, sector (log entry 31). -/
opaque Free.early : Nat → Nat → Bool
/-- Whether an element in which an input and an output of an EPRUN overlap is read, or left, with its old value (R124): draw, stream,
element (log entry 60). -/
opaque Free.keepsOld : Nat → Nat → Nat → Bool
/-- What a line of DBUF holds after a collective error (R329): draw, line (log entry 61). -/
opaque Free.ruined : Nat → Nat → BitVec 1024
/-- What a copied element whose source bytes are also destination bytes of its descriptor holds (R163): descriptor, element (log
entry 20). -/
opaque Free.overlap : Nat → Nat → BitVec 64
/-- Which of the colliding rows of a SCATTER a sector or line ends with (R155): descriptor, sector or line (log entry 20). -/
opaque Free.collide : Nat → Nat → Nat
/-- Which of the results within the bound of Table 5.11 a T-unit micro-op gives: micro-op, format, argument (R137) (log entry 19). -/
opaque Free.within : Nat → Nat → Nat → Nat

/-- Repair lanes of an HBM4 channel (R274 cites JEDEC for them) (log entry 7). -/
opaque Free.repairLanes : Nat
/-- What an abstract command's read of a cluster's debug module returns (Table 17.5 cites the RISC-V Debug Specification, which this spec
does not restate) (log entry 7). -/
opaque Free.debugModule : Nat → BitVec 64
/-- What a node core reads at an offset that holds no register, in P's block, or in the block of a lost die (log entry 7). -/
opaque Free.strayReg : Nat → BitVec 64
/-- The ways that the test of a CONFIG_COMMIT arriving as an I3C message finds bad: pair, slice, way (R219, R367) (log entry 7). -/
opaque Free.badWays : Nat → List (Nat × Nat × Nat)
/-- The rate in ppm by which a package steers to remove an offset e (ns) within 16 beacons, from the offset and the rate in force; R429
bounds it and gives no control law (log entry 7). -/
opaque Free.steer : Int → Int → Int

end Sys2Proof
end

