-- ==== Sys2Proof/Machine/Tables.lean ====
section
/-! DEFINITION. Tables keyed by naturals with rising keys, bit fields, little-endian byte lists (R7), and CRC-32C (R341). -/

namespace Sys2Proof.Machine

/-- The entry at key `n`, if listed. -/
def alFind {α : Type} : Sparse α → Nat → Option α
  | [], _ => none
  | (k, v) :: r, n => if k = n then some v else alFind r n

/-- The entry at key `n`, or `d`. -/
def alGet {α : Type} (d : α) (t : Sparse α) (n : Nat) : α := (alFind t n).getD d

/-- Sets the entry at key `n`, keeping keys rising. -/
def alPut {α : Type} (t : Sparse α) (n : Nat) (v : α) : Sparse α :=
  match t with
  | [] => [(n, v)]
  | (k, w) :: r => if k = n then (n, v) :: r else if n < k then (n, v) :: (k, w) :: r else (k, w) :: alPut r n v

/-- Removes the entry at key `n`. -/
def alDel {α : Type} (t : Sparse α) (n : Nat) : Sparse α := t.filter (fun e => e.1 != n)

/-- Applies `f` to the entry at key `n`, taken as `d` when absent. -/
def alMod {α : Type} (d : α) (t : Sparse α) (n : Nat) (f : α → α) : Sparse α := alPut t n (f (alGet d t n))

/-- Applies `f` to a listed entry only. -/
def alUpd {α : Type} (t : Sparse α) (n : Nat) (f : α → α) : Sparse α :=
  match alFind t n with
  | some v => alPut t n (f v)
  | none => t

/-- The first key not listed below `lim`, from `n` on. -/
def alFree {α : Type} (t : Sparse α) (lim : Nat) : Option Nat :=
  (List.range lim).find? (fun k => (alFind t k).isNone)

/-- Element `n` of a list, or `d`. -/
def nth {α : Type} (d : α) (l : List α) (n : Nat) : α := (l[n]?).getD d

/-- Replaces element `n` by `f` of it. -/
def updNth {α : Type} (l : List α) (n : Nat) (f : α → α) : List α :=
  match l, n with
  | [], _ => []
  | a :: r, 0 => f a :: r
  | a :: r, n + 1 => a :: updNth r n f

/-- Field of `len` bits at bit `lo` of a natural. -/
def fld (w lo len : Nat) : Nat := (w >>> lo) % 2 ^ len

/-- Field of a 64-bit word. -/
def wfld (w : W64) (lo len : Nat) : Nat := fld w.toNat lo len

/-- Bit `n` of a natural. -/
def bitOf (w n : Nat) : Bool := fld w n 1 == 1

/-- Puts `v` into the field of `len` bits at `lo` of `w`. -/
def setFld (w lo len v : Nat) : Nat :=
  w - (fld w lo len) * 2 ^ lo + (v % 2 ^ len) * 2 ^ lo

/-- 1 for true. -/
def b2n (b : Bool) : Nat := if b then 1 else 0

/-- The signed value of the low `n` bits of `v`. -/
def signed (n v : Nat) : Int :=
  let m := v % 2 ^ n
  if n ≠ 0 ∧ 2 ^ (n - 1) ≤ m then (m : Int) - (2 ^ n : Nat) else (m : Int)

/-- The low `n` bits of an integer. -/
def wrapTo (n : Nat) (v : Int) : Nat := (v % ((2 ^ n : Nat) : Int)).toNat

/-- Clamps an integer to a signed range of `n` bits, with whether it was outside. -/
def satS (n : Nat) (v : Int) : Int × Bool :=
  let hi : Int := ((2 ^ (n - 1) : Nat) : Int) - 1
  let lo : Int := -((2 ^ (n - 1) : Nat) : Int)
  if v > hi then (hi, true) else if v < lo then (lo, true) else (v, false)

/-- Clamps an integer to an unsigned range of `n` bits, with whether it was outside. -/
def satU (n : Nat) (v : Int) : Int × Bool :=
  let hi : Int := ((2 ^ n : Nat) : Int) - 1
  if v > hi then (hi, true) else if v < 0 then (0, true) else (v, false)

/-- Addition that stops at `m`. -/
def satAdd (m a b : Nat) : Nat := min m (a + b)

/-- `n` bytes of `v`, least significant first (R7). -/
def leBytes (n v : Nat) : List Byte :=
  match n with
  | 0 => []
  | n + 1 => BitVec.ofNat 8 v :: leBytes n (v / 256)

/-- The value of bytes, least significant first (R7). -/
def leNat : List Byte → Nat
  | [] => 0
  | b :: r => b.toNat + 256 * leNat r

/-- The field of `n` bytes at byte `o` of a byte list; bytes past its end read 0. -/
def byteFld (l : List Byte) (o n : Nat) : Nat := leNat ((l.drop o).take n)

/-- `l` cut or padded with zeros to `n` bytes. -/
def padTo (n : Nat) (l : List Byte) : List Byte := (l.take n) ++ List.replicate (n - l.length) 0

/-- Words of a byte list, 8 bytes each. -/
def bytesToWords (n : Nat) (l : List Byte) : List W64 :=
  match n with
  | 0 => []
  | n + 1 => BitVec.ofNat 64 (leNat (l.take 8)) :: bytesToWords n (l.drop 8)

/-- One step of CRC-32C per bit, reflected polynomial 0x82F63B78. -/
def crcBits : Nat → Nat → Nat
  | 0, c => c
  | k + 1, c => crcBits k (if c % 2 = 1 then (c / 2) ^^^ 0x82F63B78 else c / 2)

/-- CRC-32C register after a list of bytes. -/
def crcRun : Nat → List Byte → Nat
  | c, [] => c
  | c, b :: r => crcRun (crcBits 8 (c ^^^ b.toNat)) r

/-- CRC-32C of a byte list (R341). -/
def crc32c (l : List Byte) : Nat := (crcRun 0xFFFFFFFF l) ^^^ 0xFFFFFFFF

/-- The index of the first element that meets `p`. -/
def indexWhere {α : Type} (p : α → Bool) : List α → Option Nat
  | [] => none
  | a :: r => if p a then some 0 else (indexWhere p r).map (· + 1)

/-- Set bits of a natural below `n`, rising. -/
def bitsOf (n w : Nat) : List Nat := (List.range n).filter (fun k => bitOf w k)

/-- Number of set bits below `n`. -/
def popCount (n w : Nat) : Nat := (bitsOf n w).length

/-- Keeps the last `n` elements of a list. -/
def lastN {α : Type} (n : Nat) (l : List α) : List α := l.drop (l.length - n)

end Sys2Proof.Machine
end

