-- ==== Sys2Proof/Machine/Keccak.lean ====
section
/-! DEFINITION. SHAKE256 (FIPS 202, which R364, R369, R371 and R411 cite): Keccak-f[1600] over 25 lanes of 64 bits, rate 136
bytes. -/

namespace Sys2Proof.Machine

/-- Rotation offsets of lane x + 5y. -/
def keccakRot : List Nat :=
  [0, 1, 62, 28, 27, 36, 44, 6, 55, 20, 3, 10, 43, 25, 39, 41, 45, 15, 21, 8, 18, 2, 61, 56, 14]

/-- Round constants. -/
def keccakRc : List W64 :=
  [0x0000000000000001#64, 0x0000000000008082#64, 0x800000000000808A#64, 0x8000000080008000#64,
   0x000000000000808B#64, 0x0000000080000001#64, 0x8000000080008081#64, 0x8000000000008009#64,
   0x000000000000008A#64, 0x0000000000000088#64, 0x0000000080008009#64, 0x000000008000000A#64,
   0x000000008000808B#64, 0x800000000000008B#64, 0x8000000000008089#64, 0x8000000000008003#64,
   0x8000000000008002#64, 0x8000000000000080#64, 0x000000000000800A#64, 0x800000008000000A#64,
   0x8000000080008081#64, 0x8000000000008080#64, 0x0000000080000001#64, 0x8000000080008008#64]

/-- One round: theta, rho, pi, chi, iota. -/
def keccakRound (a : List W64) (rc : W64) : List W64 :=
  let at_ := fun (l : List W64) (x y : Nat) => nth 0 l (x % 5 + 5 * (y % 5))
  let c := (List.range 5).map (fun x => (List.range 5).foldl (fun v y => v ^^^ at_ a x y) 0#64)
  let d := (List.range 5).map (fun x => nth 0 c ((x + 4) % 5) ^^^ (nth 0 c ((x + 1) % 5)).rotateLeft 1)
  let t := (List.range 25).map (fun i => nth 0 a i ^^^ nth 0 d (i % 5))
  let b := (List.range 25).map (fun i =>
    let x := i % 5
    let y := i / 5
    let sx := (x + 3 * y) % 5
    (at_ t sx x).rotateLeft (nth 0 keccakRot (sx + 5 * x)))
  let e := (List.range 25).map (fun i =>
    let x := i % 5
    let y := i / 5
    at_ b x y ^^^ ((~~~ at_ b (x + 1) y) &&& at_ b (x + 2) y))
  match e with
  | [] => []
  | v :: r => (v ^^^ rc) :: r

/-- The permutation of 24 rounds. -/
def keccakF (a : List W64) : List W64 := keccakRc.foldl keccakRound a

/-- XORs a block of 136 bytes into the state. -/
def keccakAbsorb (a : List W64) (block : List Byte) : List W64 :=
  let w := bytesToWords 17 block
  keccakF ((List.range 25).map (fun i => nth 0 a i ^^^ nth 0 w i))

/-- Absorbs `n` blocks. -/
def shakeAbsorb : Nat → List W64 → List Byte → List W64
  | 0, a, _ => a
  | n + 1, a, l => shakeAbsorb n (keccakAbsorb a (l.take 136)) (l.drop 136)

/-- Squeezes `n` blocks of 136 bytes. -/
def shakeSqueeze : Nat → List W64 → List Byte
  | 0, _ => []
  | n + 1, a => ((a.take 17).map (fun w => leBytes 8 w.toNat)).flatten ++ shakeSqueeze n (keccakF a)

/-- The message padded to whole blocks: 0x1F, zeros, and 0x80 in the last byte. -/
def shakePad (l : List Byte) : List Byte :=
  let z := 135 - l.length % 136
  if z = 0 then l ++ [0x9F#8] else l ++ [0x1F#8] ++ List.replicate (z - 1) 0 ++ [0x80#8]

/-- SHAKE256 of a byte list, taken to `n` bytes. -/
def shake (n : Nat) (l : List Byte) : List Byte :=
  let p := shakePad l
  (shakeSqueeze (n / 136 + 1) (shakeAbsorb (p.length / 136) (List.replicate 25 0) p)).take n

end Sys2Proof.Machine
end

