-- ==== Sys2Proof/Machine/MemTypes.lean ====
section
/-! DEFINITION. State types of the memory side: coded stores, accesses in flight, L2 slices with their directory,
eviction buffer and busy lines, the host-line cache, caching agents, translation caches and the pending table, and
the memory channels. Plain data only. -/

namespace Sys2Proof.Machine

/-- A coded store (R271, R272): data bytes in canonical form (addresses rising, no zero listed: an unlisted byte
reads 0), the poisoned 32-byte sectors and the sectors whose codeword holds corrupted symbols (INJECT,
R418) with how many. -/
structure Store where
  /-- Bytes at rising addresses, zeros unlisted (R143, R144, R274). Reset: none listed. -/
  cells  : List Host.Cell := []
  /-- Numbers of the poisoned 32-byte sectors (R272). Reset: none. -/
  poison : List Nat := []
  /-- Sectors with 1 or 2 corrupted symbols (R418). Reset: none. -/
  bad    : Sparse Nat := []
  deriving DecidableEq, Repr

/-- Who made an access (R171, R248, R299). -/
inductive Who where
  /-- Lane `lane` of a crew; `grp` numbers the crew instruction it belongs to. -/
  | lane (c : CrewId) (lane grp : Nat)
  /-- An instruction fetch for the lanes of a path. -/
  | fetch (c : CrewId) (lanes : LaneMask)
  | bucker (b : BuckerId) (serial : Nat)
  /-- A stream record's own access: SIGNAL, WAIT, EPOCH, FLUSH_RANGE, a status record. -/
  | stream (n addr : Nat)
  /-- A step of a plan on a collective engine. -/
  | engine (die cid step : Nat)
  | aperture (core : Nat)
  /-- Another package's request that crossed Ridge: its sender's device address and request number, and the link that delivered it (R290,
  R320). -/
  | remote (src req link : Nat)
  /-- A unit's own access at a physical address, and to what: 0 the trap ring, 1 the request ring, 2 the telemetry ring, 3 the start ring, 16 + k
  the walk of pending entry k. -/
  | unit (q : Source) (n : Nat)
  deriving DecidableEq, Repr

/-- What an access does at its home (Tables 8.2, 9.9). -/
inductive AccKind where
  | load | store | atomic | red | redl | bread | bwrite | fetch | flush
  deriving DecidableEq, Repr

/-- What came back for an access (R25, R192, R295, R314, R338). -/
inductive AccResult where
  /-- The line, as read or as it stood before an ATOM. -/
  | line (l : Line)
  | ok | poison | decode | host | unreachable | xlatError
  deriving DecidableEq, Repr

/-- Where an access in flight stands. -/
inductive Stage where
  /-- Missed in translation; not yet at the pending table (R80, R256). -/
  | xlat
  /-- A waiter of a pending-table entry (R257). -/
  | pended (index : Nat)
  /-- Refused, `k` refusals in a row (R296). -/
  | backoff (k : Nat)
  /-- Accepted, on its way to its home. -/
  | sent
  /-- Waiting at its home for a busy line (R235). -/
  | atHome
  /-- Waiting at its home for a fill (R208, R213). -/
  | filling
  /-- Performed; its reply is on the way. -/
  | replied (r : AccResult)
  deriving DecidableEq, Repr

/-- An access in flight. -/
structure Req where
  id    : Nat
  who   : Who
  kind  : AccKind
  space : Nat
  va    : Nat
  /-- Translated address, once known. -/
  pa    : Nat
  /-- Byte count, 1–128, within one line. -/
  size  : Nat
  /-- Write data or operand, byte 0 in bits [7:0]. -/
  data  : BitVec 1024
  /-- CAS compare value. -/
  cmp   : W64
  /-- Bytes (store) or 4-byte elements (REDL) taking part. -/
  mask  : BitVec 128
  /-- ATOM/RED sub-operation and format code (R87). -/
  sub   : Nat
  ty    : Nat
  /-- Destination register of a load or ATOM; 255 none. -/
  dst   : Nat
  /-- A uniform access: `dst` is a u register. -/
  uni   : Bool
  /-- Sign-extend a load (SX). -/
  sx    : Bool
  /-- The fill must not be installed in L1 (R204). -/
  noInstall : Bool
  /-- The data written is poison. -/
  poisoned  : Bool
  /-- Levels whose tokens the access holds (R293, R294). -/
  levels : List Level
  stage : Stage
  /-- Errors that the access meets at its home (R215, R277). -/
  errs  : AccErrs := {}
  /-- Sectors of L1, by physical address over 32, in which a load meets an uncorrectable error (R205). -/
  lost  : List Nat := []
  /-- The level whose token it lacked when it was last refused (R296). -/
  lacks : Option Level := none
  /-- Its place in the order in which accesses were answered; MODEL'S OWN. -/
  seq   : Nat := 0
  deriving DecidableEq, Repr

/-- A line held in an L2 slice (R208, R209). -/
structure L2Line where
  addr  : Nat
  line  : Line
  dirty : Bool
  deriving DecidableEq, Repr

/-- An eviction-buffer entry (R212). -/
structure EvEntry where
  addr   : Nat
  line   : Line
  issued : Bool
  /-- Held for a dirty victim or coherence write-back (R211). -/
  coh    : Bool
  deriving DecidableEq, Repr

/-- A directory entry (Table 9.4): Shared when `owner` is none, else Owned. -/
structure DirEntry where
  addr  : Nat
  owner : Option Nat
  pres  : List Nat
  deriving DecidableEq, Repr

/-- What a busy line waits to do (Table 9.10). -/
inductive BusyWhy where
  /-- A coherent request in home-ordered mode, with the Cmp still to send when `cmp` is some. -/
  | coherent (req : CMsg) (cmp : Option CMsg)
  | uncached (id : Nat)
  /-- A recall under R226 (`then` an access or message waits in the queue). -/
  | recall
  /-- A host snoop's or host eviction's device side (R241, R243). -/
  | host (snoop : Nat) (half : Nat)
  deriving DecidableEq, Repr

/-- A busy line at a home (R235). -/
structure Busy where
  addr    : Nat
  why     : BusyWhy
  /-- Agents whose InvAck is due. -/
  acks    : List Nat
  /-- The owner whose WbD, RspI or FwdDone is due. -/
  due     : Option Nat
  /-- CAck due (home-ordered mode). -/
  cack    : Bool
  deriving DecidableEq, Repr

/-- What waits at a home: a coherence message or an uncached access (R214, R235). -/
inductive Waiting where
  | msg (m : CMsg)
  | acc (id : Nat)
  deriving DecidableEq, Repr

/-- A fill on its way to a slice, with the accesses that wait for it in order (R208, R214). -/
structure Fill where
  addr    : Nat
  /-- The way kept for it (R209). -/
  way     : Nat
  /-- The controller performs the fill behind the eviction-buffer entry's write (Table 8.3). -/
  behind  : Bool
  waiters : List Waiting
  deriving DecidableEq, Repr

/-- An L2 slice with its directory, eviction buffer and home queues. -/
structure Slice where
  /-- Lines by set × 16 + way (R206, R209). Reset: none. -/
  lines   : Sparse L2Line := []
  /-- Tree pseudo-LRU bits by set (R209). Reset: DESIGN CHOICE 0. -/
  plru    : Sparse Nat := []
  /-- Directory entries by set × 16 + way (R225). Reset: none. -/
  dir     : Sparse DirEntry := []
  /-- Directory pseudo-LRU bits by set (R226). Reset: DESIGN CHOICE 0. -/
  dirPlru : Sparse Nat := []
  /-- Eviction buffer, oldest first, at most 32 (R212). Reset: empty. -/
  evb     : List EvEntry := []
  /-- Fills outstanding (R208). Reset: none. -/
  fills   : List Fill := []
  /-- Busy lines, at most 64 (R235). Reset: none. -/
  busy    : List Busy := []
  /-- REQs waiting for busy lines, arrival order, at most 256 (R235). Reset: none. -/
  waitq   : List Waiting := []
  /-- MEM_L2_WAY.DIS (R217). Reset: 0. -/
  dis     : BitVec 16 := 0
  /-- Ways removed from allocation whose lines are still leaving (R217). Reset: 0. -/
  leaving : BitVec 16 := 0
  /-- MEM_L2_WAY.MAINT (R218). Reset: 0. -/
  maint   : Bool := false
  /-- MEM_L2_WAY.TEST and TESTW (R219). Reset: 0. -/
  test    : Option Nat := none
  /-- MEM_L2_WAY.EVHI (R219). Reset: 0. -/
  evhi    : Nat := 0
  /-- Corrected errors by way × 24 + hour bucket (R216). Reset: 0. -/
  ce      : Sparse Nat := []
  deriving DecidableEq, Repr

/-- CXL.cache state of a 64-byte half line (R239). -/
inductive HSt where
  | i | s | e | m
  deriving DecidableEq, Repr

/-- A D2H request outstanding for a half (R240, R242). -/
structure D2H where
  /-- 0 RdShared, 1 RdOwn, 2 RdOwnNoData, 3 RdCurr, 4 DirtyEvict, 5 CleanEvictNoData. -/
  op  : Nat
  /-- GO has arrived; for RdCurr, its data. -/
  go  : Option Go
  /-- The reads that a RdCurr serves, which keeps nothing for another (Table 9.12). -/
  ids : List Nat := []
  deriving DecidableEq, Repr

/-- What the package sends the host on CXL.cache: kind 0 a D2H request, 1 the response to a snoop, 2 the data of a WritePull or a flush; its
code (Table 9.12 with 4 DirtyEvict and 5 CleanEvictNoData; Table 9.13); the host physical address over 64 (R26); data and its two poison
marks. -/
structure HostMsg where
  kind : Nat
  op   : Nat
  half : Nat
  data : Option (BitVec 512 × BitVec 2)
  deriving DecidableEq, Repr

/-- A device line of the host-line cache (R239). -/
structure HostLine where
  addr : Nat
  line : Line
  h0   : HSt
  h1   : HSt
  d0   : Option D2H
  d1   : Option D2H
  owner : Option Nat
  pres  : List Nat
  /-- Accesses that wait for a half (R240). -/
  waiters : List Waiting
  /-- Halves whose data has come while the access that waited for it has not been performed (R242). -/
  hold : List Nat := []
  deriving DecidableEq, Repr

/-- Agent states, stable and transient (Tables 9.3, 9.11). -/
inductive ASt where
  | i | s | e | o | m
  | isD | isDI | imAD | smA | omA | miA | eiA | siA | xiW | iiA
  deriving DecidableEq, Repr

/-- A line at a caching agent. -/
structure ALine where
  addr : Nat
  st   : ASt
  line : Line
  /-- Data recorded towards completion: message kind (R237). -/
  got  : Option MsgOp
  /-- Cmp recorded: DSRC and the InvAcks to collect. -/
  cmp  : Option (Nat × List Nat)
  /-- InvAcks recorded. -/
  acks : List Nat
  /-- The access that waits (R230), with its core and, of one that crosses a line, the first byte of this piece. -/
  acc  : Option (Nat × Option Nat × NodeAccess)
  /-- The victim sent was clean (XI_W of Table 9.11). -/
  cleanVictim : Bool
  /-- TAG of its request (Table 9.6). -/
  tag  : Nat := 0
  deriving DecidableEq, Repr

/-- A caching agent of the coherence set (R221): node-core cluster or dispatcher, named by its identity (R222). -/
structure Agent where
  lines : Sparse ALine := []
  /-- Forward queue, arrival order, at most 32 (R237). -/
  fq    : List CMsg := []
  deriving DecidableEq, Repr

/-- An entry of the translation cache or of a micro-cache (R254): a leaf, or a refusal record of an ERROR reply
(R261) when `leaf` is none. -/
structure TcEntry where
  space : Nat
  /-- VA[51:25], or VA[51:30] for a 1 GiB page. -/
  page  : Nat
  big   : Bool
  leaf  : Option W64
  /-- Refused kinds, bit 0 read, 1 write, 2 execute. -/
  refused : BitVec 3
  deriving DecidableEq, Repr

/-- Pending-entry states (Table 10.4). -/
inductive PSt where
  | walk | ringWait | posted | fill
  deriving DecidableEq, Repr

/-- A pending-table entry (R257, R258). -/
structure PEntry where
  st    : PSt
  space : Nat
  page  : Nat
  need  : BitVec 3
  /-- Kinds that aperture accesses ORed into NEED; the aperture mark when there are some (R257, R259). -/
  aperture : BitVec 3
  /-- Ids of the waiting accesses. -/
  waiters : List Nat
  /-- Pairs whose micro-cache serves waiters (SRC bits 3:0) and dispatcher (bit 4). -/
  src   : BitVec 5
  cause : Nat
  level : Nat
  entry : W64
  /-- An invalidation overtook the walk (R265). -/
  restart : Bool
  deriving DecidableEq, Repr

/-- The translation unit (chapter 10). -/
structure Xlt where
  /-- XLT_ROOT(s), 64 bits each (R248). Reset: 0. -/
  root   : Sparse W64 := []
  /-- Translation cache entries by set × 16 + way (R254). Reset: none. -/
  tc     : Sparse TcEntry := []
  /-- Translation-cache pseudo-LRU bits by set (R254). Reset: DESIGN CHOICE 0. -/
  tcPlru : Sparse Nat := []
  /-- Micro-cache entries by pair × 1,024 + set × 8 + way (R254). Reset: none. -/
  mc     : Sparse TcEntry := []
  /-- Micro-cache pseudo-LRU bits by pair × 128 + set (R254). Reset: DESIGN CHOICE 0. -/
  mcPlru : Sparse Nat := []
  /-- Occupied pending entries by index 0–511 (R257). Reset: none. -/
  pend   : Sparse PEntry := []
  /-- Generation of each pending entry, modulo 128 (R258). Reset: 0. -/
  gen    : Sparse Nat := []
  /-- Entries in RING_WAIT, order of entry (R259). Reset: none. -/
  order  : List Nat := []
  /-- XLT_RING_TAIL.TAIL, 32 bits (R260). Reset: 0. -/
  tail   : Nat := 0
  /-- XLT_RING_HEAD.HEAD, 32 bits (R260). Reset: 0. -/
  head   : Nat := 0
  /-- Invalidations accepted and not complete, at most 16: kind, space, page (R266). Reset: none. -/
  inval  : List (Nat × Nat × Nat) := []
  /-- Accesses translated with an entry that the invalidation at the head removed, which it waits for (R267). Reset: none. -/
  invalIds : List Nat := []
  /-- XLT_INVAL writes not yet accepted because 16 are queued (R266). Reset: none. -/
  invalWait : List (Nat × Nat × Nat) := []
  /-- XLT_INVAL_DONE.ISSUED, 32 bits (R266). Reset: 0. -/
  issued : Nat := 0
  /-- XLT_INVAL_DONE.DONE, 32 bits (R267). Reset: 0. -/
  done   : Nat := 0
  deriving DecidableEq, Repr

/-- A memory channel's MEM_CHAN register and its controller's queues (R268–R283). -/
structure Chan where
  /-- MEM_CHAN.STATE (R275). Reset: 0. -/
  state   : Nat := 0
  /-- MEM_CHAN.LOGICAL (R269). Reset: 0. -/
  logical : Nat := 0
  /-- MEM_CHAN.LREP (R274). Reset: 0. -/
  lrep    : Nat := 0
  /-- Corrected sectors by hour bucket, 24 (MEM_CHAN.CE24, R277). Reset: 0. -/
  ce      : Sparse Nat := []
  /-- MEM_CHAN.UE (R272). Reset: 0. -/
  ue      : Nat := 0
  /-- MEM_CHAN.CRCR (R277). Reset: 0. -/
  crcr    : Nat := 0
  /-- Units queued for an early scrub visit, at most 64 (R277). Reset: none. -/
  early   : List Nat := []
  /-- The channel's turn in a retrain: it performs what it has accepted, and then refuses accesses until it is back in service (R276). Reset:
  false. -/
  retrain : Bool := false
  /-- LPDDR heat: 0 normal, 1 refresh doubled, 2 capped at 50 % (R285). Reset: 0. -/
  heat    : Nat := 0
  /-- Next unit of the patrol scrub (R283). Reset: 0. -/
  scrub   : Nat := 0
  deriving DecidableEq, Repr

/-- MEM_REMAP of a group (R275, R278–R280). -/
structure Remap where
  /-- TARGET. Reset: 31. -/
  target : Nat := 31
  /-- EVAC. Reset: 0. -/
  evac   : Bool := false
  /-- SPLIT. Reset: 0. -/
  split  : Bool := false
  /-- WMARK, units held by the spare. Reset: 0. -/
  wmark  : Nat := 0
  /-- Poisoned sectors written by the evacuation so far (Table 18.6). Reset: 0. -/
  poisoned : Nat := 0
  deriving DecidableEq, Repr

/-- A stack's heat (R284). -/
structure Stack where
  /-- Last sample, °C (MEM_STACK_TEMP.T). Reset: 0. -/
  temp : Nat := 0
  /-- 0 level 0, 1 level 0R, 2–4 levels 1–3 of Table 11.4. Reset: 0. -/
  lvl  : Nat := 0
  /-- For levels 0R to 3, domain time of the first sample since which all lie below the entry threshold less 2 °C; none while they do not
  (R284, Table 11.5). Reset: none. -/
  hot  : List (Option Nat) := [none, none, none, none]
  deriving DecidableEq, Repr

end Sys2Proof.Machine
end

