-- ==== Sys2Proof/Machine/TileTypes.lean ====
section
/-! DEFINITION. State types of a compute die: crews with their paths and frames, stands, matrix and element queues,
tile Buckers, L1, tiles; and of the dispatcher: launches, records in flight, streams. Plain data only. -/

namespace Sys2Proof.Machine

/-- Why a path does not issue (R85). -/
inductive Wait where
  | none
  /-- At its frame's reconvergence point. -/
  | reconv
  /-- At barrier `n`; `released` once the barrier has released it (R89). -/
  | bar (n : Nat) (released : Bool)
  /-- BWAIT B (R87). -/
  | copies (b : Nat)
  /-- WAITF: local-store addresses and the values awaited (R90). -/
  | word (ws : List (Nat × W32))
  /-- PAUSE (R87). -/
  | clocks (n : Nat)
  deriving DecidableEq, Repr

/-- A path: lanes of one crew sharing a program counter and a frame (R84). -/
structure Path where
  pc    : Nat
  lanes : LaneMask
  frame : Nat
  wait  : Wait
  deriving DecidableEq, Repr

/-- A frame of the reconvergence stack (R84). Frame 0 is the bottom frame, whose `rcv` is no address. -/
structure Frame where
  id     : Nat
  rcv    : Nat
  call   : Bool
  parent : Nat
  deriving DecidableEq, Repr

/-- A raised trap (R91, Table 3.16). `late`: it arose in an access that completed after the path had moved on. -/
structure Trap where
  cause  : Nat
  instr  : W64
  pc     : Nat
  active : LaneMask
  fault  : LaneMask
  first  : Nat
  detail : W64
  late   : Bool
  time   : Nat
  /-- Its record stands in the trap ring (R92). -/
  recorded : Bool
  deriving DecidableEq, Repr

/-- The accesses of one issued crew instruction that have not all come back, with the failures so far (R79, R91). -/
structure Group where
  grp    : Nat
  /-- Lanes that fail together in a uniform instruction or REDL; 0 when lanes fail one by one. -/
  whole  : LaneMask
  /-- The path has moved on. -/
  late   : Bool
  instr  : W64
  pc     : Nat
  active : LaneMask
  fault  : LaneMask
  cause  : Nat
  first  : Nat
  detail : W64
  deriving DecidableEq, Repr

/-- A crew (R63, R66). -/
structure Crew where
  /-- Stand slot and number within the stand. -/
  stand : Nat
  index : Nat
  /-- g registers by lane × 256 + register, 32 bits (R66). At start: 0 (R67). -/
  g     : Sparse W32
  /-- u0–u63, 32 bits (R66). At start: 0. -/
  u     : Sparse W32
  /-- p0–p6 of each lane, bit k for p k (R66). At start: 0. -/
  p     : Sparse (BitVec 8)
  /-- Paths in creation order; `cur` indexes the executing one (R84, R85). -/
  paths : List Path
  cur   : Nat
  /-- Instructions issued since the path was selected (R85). -/
  issued : Nat
  frames : List Frame
  nextFrame : Nat
  /-- Latched bits [63:32] of domain time (Table 3.2). -/
  dtimeHi : W32
  parked : Option Trap
  /-- A REPLAY answer: the lanes to re-execute for, the instruction, and the instruction's address when the path had moved on
  (R93). -/
  replay : Option (LaneMask × W64 × Option Nat)
  /-- A BCOPY that holds the crew: its word, the lanes that have not yet submitted, and the faults so far as lane, cause, DETAIL
  (R81). -/
  subLeft : Option (W64 × LaneMask × List (Nat × Nat × W64))
  /-- Outstanding copies, 0–255 (R81); matrix and element instructions (R110, R121). -/
  copies : Nat
  matrix : Nat
  element : Nat
  /-- Unreported copy errors, oldest first: cause, DETAIL, channel, serial number of the descriptor (R168, R169). -/
  copyErr : List (Nat × W64 × Nat × Nat)
  /-- A FENCE whose actions are not complete: kind 1–3 and scope 0–3 (R180). -/
  fence : Option (Nat × Nat)
  /-- Host snoops that had come when a system-scope acquire began (R180). Reset: 0. -/
  snoops : Nat := 0
  /-- Instructions with accesses outstanding. -/
  groups : List Group
  nextGrp : Nat
  deriving DecidableEq, Repr

/-- A resident stand (R63, R64). -/
structure Stand where
  launch : Nat
  index  : Nat
  killed : Bool
  lost   : Bool
  deriving DecidableEq, Repr

/-- A queued or executing matrix instruction: crew slot, the word, and the u registers it read at issue (R107). -/
structure MInstr where
  slot : Nat
  w    : W64
  /-- Values of u(UA), u(UB), u(UP), u(US), u(US + 1). -/
  ua   : W32
  ub   : W32
  up   : W32
  us   : W32
  us1  : W32
  /-- Accumulator granule base of the crew (R97). -/
  base : Nat
  deriving DecidableEq, Repr

/-- A queued or executing element instruction: crew slot, context, word, call block u0–u15 of the block, q0, q1,
participating lanes, and VPUT data by lane (R122). -/
structure EInstr where
  slot  : Nat
  ctx   : Nat
  w     : W64
  block : List W32
  q0    : W32
  q1    : W32
  lanes : LaneMask
  put   : List W32
  deriving DecidableEq, Repr

/-- An element-engine context (R118). -/
structure ECtx where
  /-- w0–w63, 512 bytes each, at byte 512 × k (R119). Reset: DESIGN CHOICE 0. -/
  w     : Store := {}
  /-- Sticky flags NV, DZ, OF, UF, NX in bits 0–4 (Table 5.13). Reset: 0. -/
  flags : BitVec 5 := 0
  deriving DecidableEq, Repr

/-- A write that a copy makes: space, die, offset, bytes, value, whether it is poison, and the row it belongs to (R152, R156). -/
structure CopyW where
  sp  : Nat
  die : Nat
  off : Int
  n   : Nat
  val : Nat
  poisoned : Bool
  row : Nat := 0
  deriving DecidableEq, Repr

/-- A copy descriptor taken by a Bucker (R148–R166). -/
structure Desc where
  serial : Nat
  /-- The submitting crew, or for a heavy Bucker the COPY record's stream and address. -/
  crew   : Option CrewId
  stream : Nat
  recAddr : Nat
  /-- Index of the descriptor in its COPY record's array. -/
  index  : Nat
  /-- Tile-relative offset of the descriptor (R159). -/
  where_ : Nat
  words  : List W64
  /-- Elements already moved. -/
  pos    : Nat
  /-- The index list once read; none entry: poisoned index (R154). -/
  idx    : Option (List (Option W32))
  /-- The late check of R455 failed, or a data-path error: cause and DETAIL (R168, R169). -/
  err    : Option (Nat × Nat)
  /-- Landing window of each foundation die, of the stream, base and size in 2 MiB units (R145). -/
  wins   : List (Nat × Nat)
  /-- The stand's local-store window: first byte and size (R71). -/
  lsBase : Nat
  lsSize : Nat
  space  : Nat
  /-- The flagged final write has been issued (R165). -/
  flagIssued : Bool
  /-- Elements moved into local or landing sectors that are not complete yet, and the poisoned source sectors counted so far as space, die,
  sector (R163, R168). Reset: none. -/
  part : List CopyW := []
  counted : List (Nat × Nat × Nat) := []
  deriving DecidableEq, Repr

/-- A line of a tile's L1 (R201, R202). -/
structure L1Line where
  addr : Nat
  line : Line
  /-- Time of last use, for LRU. -/
  use  : Nat
  deriving DecidableEq, Repr

/-- A tile (chapters 3–6, 8). -/
structure Tile where
  /-- Retired until power-off (R434). Reset: false. -/
  retired : Bool := false
  /-- A TILE_RETIRE awaits its resident stands (R434). Reset: false. -/
  retiring : Bool := false
  /-- The launch whose stands the tile holds, or last held (R65). Reset: none. -/
  launch  : Option Nat := none
  /-- Stands by stand slot 0–15 (R70). Reset: none. -/
  stands  : Sparse Stand := []
  /-- Crews by crew slot 0–47 (R73). Reset: none. -/
  crews   : Sparse Crew := []
  /-- Crew-slot generations, modulo 16 (R93). Reset: 0. -/
  gens    : Sparse Nat := []
  /-- Local store (R143). Reset: all zero. -/
  ls      : Store := {}
  /-- Accumulator memory, 16 granules of 16 KiB (R97). Reset: DESIGN CHOICE 0. -/
  acc     : Store := {}
  /-- Matrix queue, at most 16 (R107). Reset: empty. -/
  mq      : List MInstr := []
  /-- Array and transfer path (R107). Reset: free. -/
  arr     : Option MInstr := none
  xfer    : Option MInstr := none
  /-- Element queue, at most 16 (R122), and the executing instruction. Reset: empty. -/
  eq      : List EInstr := []
  ex      : Option EInstr := none
  /-- What local store held before each change since the array path's, the transfer path's and the element engine's instruction started,
  newest first (R109, R124). Reset: none. -/
  arrSaw  : Option (List Store) := none
  xferSaw : Option (List Store) := none
  exSaw   : Option (List Store) := none
  /-- The transfer path's instruction: the number of its free values, and the sectors of its target an ACCST has written so far, by their
  place in its list (R45, R109). Reset: 0, none. -/
  xferDraw : Nat := 0
  xferDone : List Nat := []
  /-- Element contexts 0–3 (R118). Reset: flags 0. -/
  ctx     : Sparse ECtx := []
  /-- Program slots 0–63, 48 words each (R126, R127). Reset: DESIGN CHOICE empty. -/
  progs   : Sparse (List W64) := []
  /-- Instruction buffer of 32 KiB: address and word, newest last, at most 4,096 (R75). Reset: none. -/
  ibuf    : List (Nat × W64) := []
  /-- L1 lines by set × 8 + way, and the LRU clock (R201, R202). Reset: none. -/
  l1      : Sparse L1Line := []
  l1Clock : Nat := 0
  /-- Bucker channels 0–15: descriptors not complete, oldest first, at most 16 of them with reads still to issue (R147, R148). Reset:
  empty. -/
  chans   : Sparse (List Desc) := []
  /-- The channel from which the next turn is sought (R148). Reset: DESIGN CHOICE 0. -/
  turn    : Nat := 0
  /-- Debug HALT of the tile (R417). Reset: false. -/
  halted  : Bool := false
  /-- One crew slot may issue one instruction (STEP, R417). Reset: none. -/
  stepping : Option Nat := none
  /-- Clock stretched by 25 % (R390). Reset: false. -/
  stretched : Bool := false
  deriving DecidableEq, Repr

/-- A launch under way (R63, R69, Tables 3.3 and 14.10). -/
structure Launch where
  id     : Nat
  stream : Nat
  addr   : Nat
  tag    : Nat
  gx     : Nat
  gy     : Nat
  gz     : Nat
  crews  : Nat
  nreg   : Nat
  lsSplit : Nat
  /-- KiB. -/
  lsStand : Nat
  acc    : Nat
  ee     : Nat
  entry  : Nat
  space  : Nat
  progs  : List (List W64)
  wins   : List (Nat × Nat)
  /-- Eligible tiles (die, physical tile). -/
  tiles  : List (Nat × Nat)
  /-- Stands resident at once on a tile (R70), and a launch of a paced stream (R354). -/
  per    : Nat
  paced  : Bool
  /-- Next linear index to place; stands ended, killed, lost, never placed. -/
  next   : Nat
  ended  : Nat
  killed : Nat
  lost   : Nat
  unplaced : Nat
  /-- No further stand is placed (R300). -/
  closed : Bool
  deriving DecidableEq, Repr

/-- A record started and not complete (R354). -/
structure Flight where
  addr  : Nat
  typ   : Nat
  words : List W64
  /-- Status and DETAIL once its work is done (Table 14.12). -/
  fin   : Option (Nat × W64)
  /-- COPY: descriptors handed out and complete. -/
  handed : Nat
  finished : Nat
  /-- COPY: first failing descriptor and cause. -/
  err   : Option (Nat × Nat)
  /-- COPY: die of the masked heavy Buckers. -/
  die   : Nat
  /-- Domain time of the start, and WAIT: the last value read (Table 14.12). -/
  since : Nat
  last  : W64
  /-- FLUSH_RANGE: first address not yet flushed, and the addresses of the lines of its page that the flush has found dirty (R195). -/
  pos   : Nat
  lines : Option (List Nat) := none
  /-- WAIT: its condition has held, and the host snoops that had been received by then (R193, R197). -/
  due   : Option Nat := none
  deriving DecidableEq, Repr

/-- A close or migration that drains a stream (R358, R359). -/
structure Drain where
  migrate : Bool
  port    : Port
  /-- The stream was stopped under R356 when the migration began. -/
  stopped : Bool
  slots   : List (Option Nat)
  masks   : List W64
  wins    : Option (List (Nat × Nat))
  /-- Domain time at which TMO runs out. -/
  until_  : Nat
  deriving DecidableEq, Repr

/-- A command stream (R352–R359). -/
structure Stream where
  /-- DSP_STREAM_STAT.STATE: 0 closed, 1 running, 2 parked, 3 waiting, 4 stopped, 5 draining. Reset: 0. -/
  state : Nat := 0
  /-- CLASS: 0 paced, 1 bulk (R2). Reset: 0. -/
  cls   : Nat := 0
  /-- SPACE (R248). Reset: 0. -/
  space : Nat := 0
  /-- Status ring: log2 size and base (Table 14.7). Reset: DESIGN CHOICE 0. -/
  srsz  : Nat := 0
  sring : Nat := 0
  /-- EPOCH, 16 bits (R357, R359). Reset: 0. -/
  epoch : Nat := 0
  /-- ETAIL and EHEAD, 32 bits (R356). Reset: 0. -/
  etail : Nat := 0
  ehead : Nat := 0
  /-- The next record to start (POS when nothing is in flight). Reset: 0. -/
  next  : Nat := 0
  /-- Placement: die of each valid slot, and its logical tile mask (Table 14.7). Reset: DESIGN CHOICE none. -/
  slots : List (Option Nat) := []
  masks : List W64 := []
  /-- Landing windows on F0–F3: base, size in 2 MiB units (R145). Reset: DESIGN CHOICE none. -/
  wins  : List (Nat × Nat) := []
  /-- Records started and not complete, oldest first, at most 16 (R354). Reset: none. -/
  flights : List Flight := []
  /-- Line watched for a parked stream or a WAIT (R238, R355). Reset: none. -/
  watch : Option Nat := none
  /-- A watch ended; the record must be reread (R238). Reset: false. -/
  woken : Bool := false
  /-- Stopped under R356, so that CONT restarts it. Reset: false. -/
  err   : Bool := false
  /-- Close or migration under way. Reset: none. -/
  drain : Option Drain := none
  deriving DecidableEq, Repr

end Sys2Proof.Machine
end

