-- ==== Sys2Proof/Machine/UnitTypes.lean ====
section
/-! DEFINITION. State types of the remaining units: command ports, configuration, Cairn, maintenance and event log,
Tally and domain time, Firebreak, Col admission, Ridge links, collective engines, job start, node cores, debug block and
boundary scan. Plain data only. -/

namespace Sys2Proof.Machine

/-- A reply (Table 14.2), less its CRC, which `replyBytes` computes. -/
structure Reply where
  status  : Nat
  seq     : Nat
  results : List Byte
  deriving DecidableEq, Repr

/-- A command port and its window (R343, R344). -/
structure PortSt where
  /-- CW_STATE.BUSY. Reset: 0. -/
  busy  : Bool := false
  /-- CW_STATE.DONE. Reset: 0. -/
  done  : Bool := false
  /-- CW_STATE.IEN. Reset: 0. -/
  ien   : Bool := false
  /-- CW_STATE.IGN, 32 bits. Reset: 0. -/
  ign   : Nat := 0
  /-- SEQ of the running command. Reset: DESIGN CHOICE 0. -/
  seq   : Nat := 0
  /-- The port was reset while its command ran: the reply is discarded (R340). Reset: false. -/
  discard : Bool := false
  /-- Request buffer, 4,096 bytes (Table 14.3). Reset: DESIGN CHOICE 0. -/
  request : List Byte := []
  /-- Reply buffer (Table 14.3). Reset: DESIGN CHOICE none. -/
  reply : Option Reply := none
  /-- MSI-X table entry, two words, and pending bits (Table 14.3). Reset: DESIGN CHOICE 0. -/
  msixTable : Nat := 0
  msixPending : Bool := false
  /-- MSI-X messages sent (R344). Reset: 0. -/
  msixSent : Nat := 0
  /-- Port B: the endpoint and the message tag that the reply goes to (R345). Reset: DESIGN CHOICE 0. -/
  eid : Nat := 0
  tag : Nat := 0
  deriving DecidableEq, Repr

/-- The configuration keys (Table 15.4); none: not written. -/
structure Config where
  interleave : Option Nat := none
  ridgeAddr  : Option Nat := none
  routesWritten : Bool := false
  ridgeLinks : Option Nat := none
  cohSet     : Option Nat := none
  timeMaster : Option (List Nat) := none
  domainTime : Option Nat := none
  powerLimit : Option Nat := none
  pacedReserve : Option Nat := none
  scrubPeriod : Option Nat := none
  /-- TRAP_RING n: base and log2 of records. -/
  trapRing   : Sparse (Nat × Nat) := []
  reqRing    : Option Nat := none
  startRing  : Option (Nat × Nat) := none
  /-- Base, log2 of records, period in 10 µs units, notify threshold. -/
  telemetry  : Option (Nat × Nat × Nat × Nat) := none
  nodeEntry  : Option Nat := none
  deriving DecidableEq, Repr

/-- A measurement-log entry (Table 15.5). -/
structure Meas where
  typ   : Nat
  arg   : Nat
  dtime : Nat
  value : List Byte
  deriving DecidableEq, Repr

/-- A safety profile (Table 17.1), with its 16 bytes as they came. -/
structure Profile where
  tj    : Nat
  hbm   : Nat
  ceil  : Nat
  cool  : Nat
  supply : Nat
  bytes : List Byte
  deriving DecidableEq, Repr

/-- An open debug challenge (R411, R412). -/
structure Challenge where
  port  : Port
  level : Nat
  key   : Nat
  value : List Byte
  /-- The phase-1 key, once checked. -/
  pk    : Option (List Byte)
  /-- Domain time at which it expires (R412). -/
  until_ : Nat
  deriving DecidableEq, Repr

/-- The one-time fuses (R11). -/
structure Fuses where
  /-- Hash fused in each image key slot. Reset: DESIGN CHOICE none. -/
  keyHash : List (Option (List Byte)) := [none, none, none, none]
  /-- Revocation fuses. Reset: DESIGN CHOICE intact. -/
  revoked : BitVec 4 := 0
  /-- Hash of the debug key. Reset: DESIGN CHOICE none. -/
  debugHash : Option (List Byte) := none
  /-- Identity seed. Reset: DESIGN CHOICE none. -/
  identity : Option (List Byte) := none
  /-- Lifecycle fuses DEV, FLD, SCR (R409). Reset: DESIGN CHOICE intact. -/
  dev : Bool := false
  fld : Bool := false
  scr : Bool := false
  /-- The 64 tiles of each compute die enabled at test, as a mask of 68 (Table 14.10 note). Reset: DESIGN CHOICE 0–63. -/
  enabled : List (BitVec 68) :=
    [0xFFFFFFFFFFFFFFFF, 0xFFFFFFFFFFFFFFFF, 0xFFFFFFFFFFFFFFFF, 0xFFFFFFFFFFFFFFFF]
  deriving DecidableEq, Repr

/-- Cairn (chapter 17) and the image session (chapter 15). -/
structure Cairn where
  /-- SAFE_TJ_TRIP.TRIP (R406). Reset: 110. -/
  tjTrip  : Nat := 110
  /-- SAFE_HBM_TRIP.TRIP. Reset: 98. -/
  hbmTrip : Nat := 98
  /-- SAFE_PKG_POWER_CEIL.CEIL. Reset: 2,800. -/
  powerCeil : Nat := 2800
  /-- SAFE_COOLANT_ACTION.ACT. Reset: 0. -/
  coolantAction : Nat := 0
  /-- SAFE_SUPPLY_ACTION.ACT. Reset: 0. -/
  supplyAction : Nat := 0
  /-- SAFE_ARM.ARMED. Reset: 0. -/
  armed   : Bool := false
  /-- The pending profile (SAFE_STATUS.PEND, R407). Reset: none. -/
  pending : Option Profile := none
  /-- SAFE_STATUS.LC: 0 Test, 1 Develop, 2 Field, 3 Scrap (R409). Reset: from the fuses. -/
  lc      : Nat := 0
  /-- SAFE_STATUS.DBG: 0 Closed, 1 Observe, 2 Full. Reset: 0. -/
  dbg     : Nat := 0
  /-- SAFE_STATUS.DKEY. Reset: 7. -/
  dkey    : Nat := 7
  /-- SAFE_STATUS.MISM, saturating at 15. Reset: 0. -/
  mism    : Nat := 0
  /-- SAFE_STATUS.REFC, saturating at 255. Reset: 0. -/
  refc    : Nat := 0
  /-- Domain times of the lockstep mismatches of the last second (R405). Reset: none. -/
  mismTimes : List Nat := []
  /-- The pair is restarting (R405). Reset: false. -/
  restarting : Bool := false
  /-- Measurement log, at most 64 entries (R369). Reset: empty. -/
  log     : List Meas := []
  /-- The current attestation report (R370). Reset: none. -/
  report  : Option (List Byte) := none
  /-- The identity key was erased (R410). Reset: false. -/
  idErased : Bool := false
  /-- The open debug challenge (R411). Reset: none. -/
  challenge : Option Challenge := none
  /-- Image session: owning port, length and bytes received (R363, R346). Reset: none. -/
  session : Option (Port × Nat × Nat) := none
  /-- Slot that verified the running image (R364). Reset: DESIGN CHOICE 0. -/
  keyslot : Nat := 0
  /-- Firmware version of the running image; 0 in ROM (R349). Reset: 0. -/
  fwVersion : Nat := 0
  /-- Port that holds the configuration session (R346). Reset: none. -/
  cfgSession : Option Port := none
  /-- A command started on port N while the pair restarts, which waits for it: opcode and packet (R405). Reset: none. -/
  waiting : Option (Nat × Packet) := none
  /-- A CONFIG_COMMIT that waits for the end of memory bring-up, with the ways its test will find bad (R367). Reset: none. -/
  commitWait : Option (Port × List (Nat × Nat × Nat)) := none
  deriving DecidableEq, Repr

/-- A maintenance activity held in any state (R433–R437). -/
structure Act where
  num   : Nat
  code  : Nat
  die   : Nat
  t4    : Nat
  t5    : Nat
  /-- 0 running, 1 waiting, 2 suspended. -/
  state : Nat
  /-- 0 H, 1 B, 2 N, 3 firmware. -/
  origin : Nat
  time  : Nat
  /-- MAINT_ABORT was accepted. -/
  aborting : Bool
  /-- Result bytes gathered while it runs. -/
  result : List Byte
  /-- It came as the DIE_RESET command, whose reply carries no number (Table 14.6). -/
  bare  : Bool
  /-- It has begun: one accepted in Halt, or waiting, has not (R403, R437). -/
  begun : Bool
  deriving DecidableEq, Repr

/-- An event-log entry (Table 18.8). -/
structure LogEntry where
  seq  : Nat
  time : Nat
  code : Nat
  die  : Nat
  sev  : Nat
  data : List Nat
  deriving DecidableEq, Repr

/-- Tally (chapter 18). -/
structure Tally where
  /-- Counters 0–2,047 as they run (Tables 18.1, 18.2); a level holds its two's complement. Reset: 0. -/
  live    : Sparse W64 := []
  /-- Counters at the most recent 10 µs sample, TAL_CTR(k) (R425). Reset: 0. -/
  sample  : Sparse W64 := []
  /-- Domain time of that sample. Reset: 0. -/
  stamp   : Nat := 0
  /-- TAL_TEL_TAIL.TAIL, 32 bits (R426). Reset: 0. -/
  tail    : Nat := 0
  /-- TAL_TEL_HEAD.HEAD, 32 bits (R426). Reset: 0. -/
  head    : Nat := 0
  /-- SEQ: periods ended since commit (Table 18.3). Reset: 0. -/
  seq     : Nat := 0
  /-- SKIP: periods skipped since the last record. Reset: 0. -/
  skip    : Nat := 0
  /-- The notify condition was below the threshold since it last fired (R426). Reset: DESIGN CHOICE true. -/
  notify  : Bool := true
  /-- Counters at the last telemetry record. Reset: 0. -/
  last    : Sparse W64 := []
  /-- Package power samples of the last 10 ms, newest first, mW (R381). Reset: none. -/
  power   : List Nat := []
  /-- Consecutive samples whose 10 ms average exceeds 1.05 × the ceiling (R381). Reset: 0. -/
  excess  : Nat := 0
  /-- Last good voltage and current of each rail (R444). Reset: DESIGN CHOICE 0. -/
  rails   : Sparse (Nat × Nat) := []
  /-- Rails taken at their maximum (R444). Reset: none. -/
  railMax : List Nat := []
  /-- Domain time of each rail's last valid frame (R444). Reset: 0. -/
  railAt  : Sparse Nat := []
  /-- The last 100 µs of samples of package power as Firebreak takes it, and of each die's VDD_TILEn plus VDD_FDNn, newest first, mW (R376,
  R444, FBK_PKG.PWR, FBK_DIE.PWR). Reset: none. -/
  fbPower : List Nat := []
  fbDie   : Sparse (List Nat) := []
  /-- Hour of domain time that heads the 24-hour windows (R432). Reset: 0. -/
  hour    : Nat := 0
  /-- Threshold counts by row × 2^32 + object × 32 + bucket (R432). Reset: 0. -/
  windows : Sparse Nat := []
  /-- Excluded thermal sensors, by counter number (R434). Reset: none. -/
  excluded : List Nat := []
  /-- Sums over the telemetry period of package power (W) and each die's power (W), and the samples summed (Table 18.3). Reset: 0. -/
  psum    : Nat := 0
  pcnt    : Nat := 0
  dsum    : Sparse Nat := []
  /-- STATE bits of the period so far: supply episode seen (Table 18.3). Reset: 0. -/
  episodeSeen : Bool := false
  /-- Highest temperatures of the period, by byte of the record 32–48, and issue gating seen by die (Table 18.3). Reset: 0. -/
  tmax    : Sparse Nat := []
  /-- Corrected and uncorrectable sectors since the last telemetry record, injected errors excluded (CE and UE, Table 18.3). Reset: 0. -/
  realCe  : Nat := 0
  realUe  : Nat := 0
  /-- Last phase signature of each die (Table 18.3). Reset: 0. -/
  sigs    : Sparse W64 := []
  /-- Refusals of the levels that no COL_SAT register covers: egresses other than a tile's, hub ports, the host level (R296). Reset: 0. -/
  refused : List (Level × Nat) := []
  /-- Dirty lines that agents discarded when their home's foundation die was lost (R247, which names no counter). Reset: 0. -/
  dropped : Nat := 0
  /-- EPRUNs completed by the PID of their program (Table 5.3; log entry 66). Reset: 0. -/
  programs : Sparse W64 := []
  deriving DecidableEq, Repr

/-- Domain time (R427–R430). -/
structure Time where
  /-- The count in units of 10 fs; domain time is this ÷ 100,000 ns. Reset: 0. -/
  fine  : Nat := 0
  /-- Steering rate in ppm (R429). Reset: 0. -/
  rate  : Int := 0
  /-- Time still to slew back, in units of 10 fs (R429, R430). Reset: 0. -/
  slew  : Nat := 0
  /-- Synchronisation state (Table 18.4). Reset: 0. -/
  sync  : Nat := 0
  /-- Consecutive offsets within 200 ns, and beyond 500 ns (Table 18.4). Reset: 0. -/
  good  : Nat := 0
  bad   : Nat := 0
  /-- Index of the current master in TIME_MASTER (R428). Reset: 0. -/
  master : Nat := 0
  /-- Domain time of the last beacon taken, or of the commit or the change of master since (R336, R428). Reset: 0. -/
  heard  : Nat := 0
  /-- Measured link delays, ns (R336). Reset: DESIGN CHOICE 0. -/
  delay : Sparse Nat := []
  /-- Beacons sent by link (R336). Reset: 0. -/
  sent  : Sparse Nat := []
  deriving DecidableEq, Repr

/-- A phase hint held by a die (R386, R387). -/
structure Hint where
  stream  : Nat
  t       : Nat
  dur     : Nat
  opmin   : Nat
  pwr     : Nat
  inForce : Bool
  /-- The budget requests carry it (T − 200 µs); the voltage raise has started (T − 40 µs). -/
  marked  : Bool
  raised  : Bool
  /-- Counted as unmet (R387). -/
  unmet   : Bool := false
  deriving DecidableEq, Repr

/-- A phase-table entry (R383): predictions and observation counts for OP0–OP7. -/
structure Phase where
  sig  : W64
  pw   : List Nat
  wr   : List Nat
  obs  : List Nat
  used : Nat
  deriving DecidableEq, Repr

/-- Firebreak's controller of a compute die (chapter 16). -/
structure DieFb where
  /-- FBK_DIE.OP: point whose clock runs (R372). Reset: 0. -/
  op     : Nat := 0
  /-- FBK_DIE.TGT (R374). Reset: 0. -/
  tgt    : Nat := 0
  /-- The point decided under R374, towards which the die moves. Reset: DESIGN CHOICE 0. -/
  goal   : Nat := 0
  /-- Voltage target written, mV (R373, R442). Reset: 580. -/
  mv     : Nat := 580
  /-- Voltage last reported by the board, mV (R373, R442). Reset: 580. -/
  rep    : Nat := 580
  /-- Budget in effect, W (FBK_DIE.BUDGET, R378). Reset: 0. -/
  budget : Nat := 0
  /-- Domain time of the last grant received (R378). Reset: 0. -/
  lastGrant : Nat := 0
  /-- A grant sent and not yet received; a raise waiting 50 µs (R378). Reset: none. -/
  grant  : Option Nat := none
  raise  : Option Nat := none
  /-- Domain time at which the raise takes effect: 50 µs after its exchange (R378). Reset: 0. -/
  raiseAt : Nat := 0
  /-- FBK_DIE.GATE, eighths (R379). Reset: 0. -/
  gate   : Nat := 0
  /-- Measured power, W (FBK_DIE.PWR). Reset: 0. -/
  pwr    : Nat := 0
  /-- Hottest sensor of Cn and Fn, °C (FBK_DIE.TJ). Reset: 0. -/
  tj     : Nat := 0
  /-- Junction level 0–4 of Table 16.6. Reset: 0. -/
  jlvl   : Nat := 0
  /-- For levels 1–4, domain time of the first sample since which all lie below the entry threshold less 2 °C; none while they do not (R396).
  Reset: none. -/
  hot    : List (Option Nat) := [none, none, none, none]
  /-- Hints, at most 8 (R386). Reset: none. -/
  hints  : List Hint := []
  /-- Operating-point requests by stream (R388). Reset: none. -/
  reqs   : Sparse Nat := []
  /-- Phase table, 256 entries (R383). Reset: empty. -/
  phase  : Sparse Phase := []
  /-- Sample count, for least-recent use; the entry of the last sample. Reset: 0. -/
  clock  : Nat := 0
  entry  : Option Nat := none
  /-- Egress boost of the last sample (R384). Reset: false. -/
  boost  : Bool := false
  /-- An exploration sample runs one point below (R384). Reset: false. -/
  explore : Bool := false
  /-- Domain time of the last exploration (R384). Reset: 0. -/
  explored : Nat := 0
  /-- Target lowered one point for 10 ms (R392): domain time until which. Reset: none. -/
  lowered : Option Nat := none
  deriving DecidableEq, Repr

/-- The package side of Firebreak and the power states (R375, R381, R393–R403). -/
structure PowerSt where
  /-- FBK_PKG.LIMIT in force (R375). Reset: 0. -/
  limit   : Nat := 0
  /-- Accepted limit awaiting a budget exchange, and the ports that await their replies (R375). Reset: none. -/
  newLimit : Option Nat := none
  limitPorts : List Port := []
  /-- FBK_PKG.PWR. Reset: 0. -/
  pwr     : Nat := 0
  /-- FBK_PKG.PSTATE: 0 Run, 1 Idle, 2 Park, 3 Halt (Table 16.7). Reset: 0. -/
  pstate  : Nat := 0
  /-- FBK_PKG.WARN: a supply episode runs (R393); SUPPLY_WARN_N is asserted; start of the episode. Reset: 0. -/
  warn    : Bool := false
  warnPin : Bool := false
  warnAt  : Nat := 0
  /-- Domain time at which SUPPLY_WARN_N last deasserted (R393). Reset: 0. -/
  warnOff : Nat := 0
  /-- FBK_PKG.EPIS, 16 bits. Reset: 0. -/
  epis    : Nat := 0
  /-- Domain times of the episodes of the last second (R394). Reset: none. -/
  episTimes : List Nat := []
  /-- FBK_PKG.LASTH. Reset: 0. -/
  lasth   : Nat := 0
  /-- The last Halt came from a third lockstep mismatch (R402, R405). Reset: false. -/
  mismHalt : Bool := false
  /-- FBK_PKG.SNET (R381). Reset: 0. -/
  snet    : Bool := false
  /-- FBK_PKG.SUPL (R394). Reset: 0. -/
  supl    : Bool := false
  /-- PACKAGE_PARK waiting: its port, and the domain time at which TMO runs out (R350). Reset: none, 0. -/
  parking : Option Port := none
  parkUntil : Nat := 0
  /-- Domain time at which a stand or record last ended, or the commit (Idle, Table 16.7). Reset: 0. -/
  busyAt  : Nat := 0
  /-- Domain time of the last budget exchange (R378). Reset: 0. -/
  exchanged : Nat := 0
  /-- RESUME accepted: its port (R402). Reset: none. -/
  resuming : Option Port := none
  /-- State the package was in before Halt. Reset: DESIGN CHOICE 0. -/
  before  : Nat := 0
  /-- COOLANT_OK has been asserted without a break since this domain time (R402). Reset: DESIGN CHOICE 0. -/
  coolSince : Nat := 0
  /-- The 10 µs filter runs, since this domain time (R400). Reset: false, 0. -/
  coolLow : Bool := false
  coolOff : Nat := 0
  /-- Consecutive junction samples at or above SAFE_TJ_TRIP (R397). Reset: 0. -/
  tjRun   : Nat := 0
  /-- Hottest sensor of H, °C, and its level (R396). Reset: 0. -/
  hubT    : Nat := 0
  hubLvl  : Nat := 0
  /-- For levels 1–4 of H, domain time of the first sample since which all lie below the entry threshold less 2 °C (R396). Reset: none. -/
  hubHot  : List (Option Nat) := [none, none, none, none]
  /-- Clock cap of the node-core clusters, MHz (Table 16.6, R393). Reset: DESIGN CHOICE 3,000. -/
  cluster : Nat := 3000
  deriving DecidableEq, Repr

/-- Pins, clocks and resets (chapters 1, 14, 15, 19). -/
structure Plat where
  /-- PWR_GOOD asserted (R395). Reset: low. -/
  on      : Bool := false
  /-- CW_ID.STAGE (R360). Reset: 0. -/
  stage   : Nat := 0
  /-- STRAP0–7 as sampled (R446). Reset: DESIGN CHOICE 0. -/
  straps  : BitVec 8 := 0
  /-- REFCLK_CORE was lost: every island but Cairn is held in reset (R448). Reset: false. -/
  coreLost : Bool := false
  /-- REFCLK_RIDGE and REFCLK_PCIE present (R448). Reset: true. -/
  ridgeClk : Bool := true
  pcieClk  : Bool := true
  /-- PERST_N asserted (R340, R449). Reset: asserted. -/
  perst   : Bool := true
  /-- P's PCIe training may run (R449). Reset: false. -/
  pcieUp  : Bool := false
  /-- THERM_TRIP_N asserted (R398). Reset: released. -/
  thermTrip : Bool := false
  /-- COOLANT_OK (R400). Reset: DESIGN CHOICE asserted. -/
  coolant : Bool := true
  /-- CXL Cache_Enable (R338). Reset: 0. -/
  cacheEn : Bool := false
  /-- The host has cleared Cache_Enable since power-up (R339). Reset: false. -/
  cacheOff : Bool := false
  /-- H–P link: COL_PORT(4) state 0 TRAINING, 1 UP, 3 SEVERED; half rate; domain times of the failed retrains of the last 10 ms (R291, R292). Reset: 0, none. -/
  hpState : Nat := 0
  hpHalf  : Bool := false
  /-- The third bring-up of the H–P link failed: Cairn has reported it over the I3C sideband and the ROM waits for power-off (Table 12.4).
  Reset: false. -/
  romHalt : Bool := false
  hpFails : List Nat := []
  /-- Compute dies in DIE_RESET, lost compute dies, lost foundation dies (R300–R302). Reset: none. -/
  resetting : List Nat := []
  lostC   : List Nat := []
  lostF   : List Nat := []
  /-- Memory bring-up has ended (R274). Reset: false. -/
  memUp   : Bool := false
  /-- Foundation dies flagged for maintenance (R281, R432). Reset: none. -/
  maintF  : List Nat := []
  /-- Time of the service-clock loss counting towards a lost die. Reset: none. -/
  stopped : List Nat := []
  deriving DecidableEq, Repr

/-- A Col port (Table 12.2): indices 3 × n + k for pair n (k 0 ring to C(n+1), 1 ring to C(n+3), 2 spoke), 12 + k for the hub
ends of the spokes. -/
structure ColPort where
  /-- COL_PORT.STATE. Reset: 0 TRAINING. -/
  state : Nat := 0
  /-- COL_PORT.MODS. Reset: 0. -/
  mods  : Nat := 0
  /-- COL_PORT.CRCR. Reset: 0. -/
  crcr  : Nat := 0
  /-- COL_PORT.MRET. Reset: 0. -/
  mret  : Nat := 0
  deriving DecidableEq, Repr

/-- A Ridge link (chapter 13). -/
structure Link where
  /-- RDG_LINK.STATE (Table 13.1). Reset: 0 DOWN. -/
  state : Nat := 0
  /-- RDG_LINK.LANES. Reset: 0. -/
  lanes : BitVec 4 := 0
  /-- RDG_LINK.PEER. Reset: 0. -/
  peer  : Nat := 0
  /-- RDG_LINK.RETRY, 16 bits. Reset: 0. -/
  retry : Nat := 0
  /-- RDG_LINK.RETR, 8 bits. Reset: 0. -/
  retr  : Nat := 0
  /-- Lanes found permanently faulty (R312). Reset: none. -/
  faulty : BitVec 4 := 0
  /-- Next SEQ expected, and a NAK owed (R309). Reset: 0. -/
  rx    : Nat := 0
  nak   : Option Nat := none
  /-- Next SEQ to give; the replay buffer, oldest first: SEQ, times replayed, message; beyond the 512 flits that it holds stand messages that wait to be
  sent (R309). Reset: DESIGN CHOICE 0; empty. -/
  tx    : Nat := 0
  replay : List (Nat × Nat × RMsg) := []
  /-- Domain times of the retrains of the last second (R307). Reset: none. -/
  trains : List Nat := []
  /-- It was RETIRED when the RIDGE_RETRAIN under way began (R312). Reset: false. -/
  revive : Bool := false
  /-- Slots of credit that the partner has returned, by the code of CVC (Table 13.2; R310 gives neither a first credit nor a message's slots, so it
  is only counted). Reset: 0. -/
  credit : Sparse Nat := []
  deriving DecidableEq, Repr

/-- A plan step (Table 13.7). -/
structure PStep where
  kind   : Nat
  peer   : Nat
  first  : Nat
  count  : Nat
  dfirst : Nat
  from_  : Bool
  sstep  : Nat
  deriving DecidableEq, Repr

/-- A collective chunk: what its header says and its payload (Table 13.9). -/
structure Chunk where
  cid   : Nat
  chunk : Nat
  step  : Nat
  try_  : Nat
  psn   : Bool
  src   : Nat
  payload : List Byte
  deriving DecidableEq, Repr

/-- A chunk in an engine's retention buffer (R328): step, chunk at the receiver, TRY, payload, poison. -/
structure OutChunk where
  step    : Nat
  chunk   : Nat
  try_    : Nat
  payload : List Byte
  psn     : Bool
  /-- The Ridge link whose tokens it holds until it is answered, and how many (R310, R326). -/
  levels  : Option (Nat × Nat) := none
  /-- It is to be sent again once there are tokens for it (R328). -/
  owed    : Bool := false
  /-- Domain time at which it last went out (R328). -/
  sent    : Nat := 0
  deriving DecidableEq, Repr

/-- A plan running on a collective engine (R322–R330). -/
structure Plan where
  cid    : Nat
  stream : Nat
  addr   : Nat
  space  : Nat
  op     : Nat
  fmt    : Nat
  rop    : Nat
  sbuf   : Nat
  dbuf   : Nat
  nbytes : Nat
  steps  : List PStep
  /-- Chunks landed or reduced: step, chunk. -/
  landed : List (Nat × Nat)
  /-- Chunks sent and not acknowledged (R328). -/
  out    : List OutChunk
  /-- Chunks sent and acknowledged: step, chunk. -/
  acked  : List (Nat × Nat)
  /-- A poisoned chunk was met (R328). -/
  poisoned : Bool
  /-- Step timeout in µs; domain time of the start, and by step of its last progress (R329). -/
  tmo    : Nat
  since  : Nat
  prog   : Sparse Nat
  deriving DecidableEq, Repr

/-- A child of a broadcast (R333): 0 sent, 1 sent twice, 2 ACK, 3 DONE, 4 unreached; and the domain time since which. -/
structure Child where
  index : Nat
  state : Nat
  since : Nat := 0
  deriving DecidableEq, Repr

/-- A re-feed under way at the root (R334): subtree root, alternate parent, its state 0 sent, 1 ACK, 2 done, 3 replaced; and the domain time
since which. -/
structure Refeed where
  sub   : Nat
  alt   : Nat
  state : Nat
  since : Nat := 0
  deriving DecidableEq, Repr

/-- A job-start broadcast as this package holds it (R331–R335). -/
structure Bcast where
  bid    : Nat
  /-- This package is the root: stream and record address. -/
  root   : Option (Nat × Nat)
  /-- Packages it answers: the senders of START (R332, R334). -/
  parents : List Nat
  /-- This package's index in the member list. -/
  index  : Nat
  n      : Nat
  f      : Nat
  members : List Nat
  payload : List Byte
  children : List Child
  refeeds : List Refeed
  /-- Members that answered ACK (root), and unreachable members. -/
  acked  : List Nat
  unreached : List Nat
  /-- A REFEED is answered for these children: alternate parent's own list. -/
  refed  : List Nat
  doneSent : Bool
  /-- Member-list address (root), for the bitmap. -/
  dbuf   : Nat
  space  : Nat
  /-- TACK and TDONE of the plan, ns; 0 on a package that is not the root, to which no message carries them (R331; log entry 39). -/
  tack   : Nat := 0
  tdone  : Nat := 0
  deriving DecidableEq, Repr

/-- A message this package has sent on BC (job start, R331–R335) or owes as an answer: kind 0 START, 1 ACK, 2 DONE, 3 UNREACHED,
4 REFEED, 5 REFEED_DONE; destination; member index. -/
structure BcOut where
  bid  : Nat
  kind : Nat
  dest : Nat
  index : Nat
  deriving DecidableEq, Repr

/-- What a hart's FENCE, or an aq access, holds back and waits for (R196). -/
structure CoreFence where
  /-- Later accesses it holds back: bits 0–3 reads, writes, device input, device output. -/
  succ  : Nat
  /-- It is an acquire, which also waits for the host snoops received (R196, R197). -/
  acq   : Bool
  /-- Earlier accesses out when it was made: uncached ones by id, and lines that the hart waits for. -/
  ids   : List Nat
  lines : List Nat
  deriving DecidableEq, Repr

/-- A node core as the Lyseg adds to it (R29–R31). -/
structure NCore where
  /-- lysapctl.EN. Reset: 0. -/
  apEn   : Bool := false
  /-- lysapflt: PAGE, CAUSE, V. Reset: 0. -/
  page   : Nat := 0
  cause  : Nat := 0
  valid  : Bool := false
  /-- Value returned by the core's last completed access, and access faults taken. Reset: DESIGN CHOICE 0. -/
  value  : W64 := 0
  faults : Nat := 0
  /-- The hart runs, from NODE_ENTRY (R367). Reset: false. -/
  running : Bool := false
  /-- The line of the hart's LR reservation (R30). Reset: none. -/
  resv : Option Nat := none
  /-- The fence of the hart that is not known to be over (R196). Reset: none. -/
  fence : Option CoreFence := none
  deriving DecidableEq, Repr

/-- The debug block (R415–R419). -/
structure Debug where
  /-- DBG_DATA.DATA. Reset: 0. -/
  data : W64 := 0
  /-- DBG_STATUS.ERR. Reset: 0. -/
  err  : Nat := 0
  /-- Breakpoints by die × 8 + index (R417). Reset: none. -/
  bk   : Sparse Nat := []
  /-- Dies whose crews were halted by HALT with UNIT 127 are recorded on their tiles; cluster debug registers (Table 17.5). Reset: 0. -/
  cluster : Sparse W64 := []
  deriving DecidableEq, Repr

/-- The boundary-scan port (R422, R423): the selected instruction. Reset: IDCODE. -/
structure Jtag where
  /-- Instruction register: the code in effect, 0xFF for BYPASS (R422). Reset: 1, IDCODE. -/
  instr : Nat := 1
  /-- Data register as the last instruction loaded it: IDCODE's value or the pins (R422). Reset: DESIGN CHOICE 0. -/
  dr    : Nat := 0
  deriving DecidableEq, Repr

end Sys2Proof.Machine
end

