-- ==== Sys2Proof/Machine/State.lean ====
section
/-! DEFINITION. The state of the block, its fault and refusal reasons, and the state right after reset. -/

namespace Sys2Proof.Machine

/-- Why a step stops with a fault. -/
inductive Fault where
  /-- Raised by MARGIN_LOW when the droop is deeper than a 25 % stretch covers: R390 says the logic may fail and states no
  effect. Safe: the model stops where the spec states nothing. -/
  | marginExceeded
  deriving DecidableEq, Repr

/-- Why a step is refused. -/
inductive Refusal where
  /-- Raised by an arm of `exec` whose command has no meaning in this model. Safe. -/
  | notModelled (mnemonic : String)
  deriving DecidableEq, Repr

/-- The whole package with the commands waiting for it. -/
structure State where
  /-- Commands waiting, first in first out. MODEL'S OWN. Reset: empty. -/
  pending : List Instr := []
  /-- Pins, clocks, resets, stage and lost dies (chapters 1, 12, 14, 15, 19). -/
  plat  : Plat := {}
  /-- One-time fuses (R11); they survive every reset. -/
  fuses : Fuses := {}
  /-- Command ports H, B, N (R343). -/
  portH : PortSt := {}
  portB : PortSt := {}
  portN : PortSt := {}
  /-- Configuration keys (R365). -/
  cfg   : Config := {}
  /-- Cairn: safety registers, sessions, measurement log, debug level (chapters 15, 17). -/
  cairn : Cairn := {}
  /-- Domain time (R427). -/
  time  : Time := {}
  /-- Tally (R424). -/
  tally : Tally := {}
  /-- Event log, newest last, at most 1,024 entries, and the entries since power-up (R438). -/
  log   : List LogEntry := []
  logSeq : Nat := 0
  /-- Maintenance activities held, and the numbers given since commit (R433). -/
  acts  : List Act := []
  actNum : Nat := 0
  /-- Interrupt route entries 0–127, 64 bits each (R32). -/
  routes : Sparse W64 := []
  /-- IMSIC pending bits: core, file, identity (R34). -/
  imsic : List (Nat × Nat × Nat) := []
  /-- Trap rings of C0–C3: TAIL, HEAD; parked crews awaiting a record, in order (R92). -/
  trapTail : Sparse Nat := []
  trapHead : Sparse Nat := []
  trapWait : Sparse (List CrewId) := []
  /-- Command streams 0–63 (R352). -/
  streams : Sparse Stream := []
  /-- Launches under way (R69), and the ids given. -/
  launches : Sparse Launch := []
  launchNum : Nat := 0
  /-- Tiles by die × 68 + physical tile (R63). -/
  tiles : Sparse Tile := []
  /-- Heavy Buckers by die × 8 + number: the descriptors each has taken and not completed, oldest first (R147, R149). -/
  heavy : Sparse (List Desc) := []
  /-- Serial numbers given to descriptors. MODEL'S OWN. -/
  serial : Nat := 0
  /-- Landing stores F0–F3 (R144). -/
  landing : Sparse Store := []
  /-- DRAM by device physical address, near and capacity (R22, R23). -/
  dram  : Store := {}
  /-- Accesses in flight by id, and the ids given. MODEL'S OWN bookkeeping of R293–R295. -/
  reqs  : Sparse Req := []
  reqNum : Nat := 0
  /-- Accesses answered so far. MODEL'S OWN. Reset: 0. -/
  ansNum : Nat := 0
  /-- L2 slices by die × 32 + slice (R206). -/
  slices : Sparse Slice := []
  /-- Coherence messages in flight (R227). -/
  msgs  : List CMsg := []
  /-- Caching agents by identity (R221, R222). -/
  agents : Sparse Agent := []
  /-- Agents declared dead (R244–R246). -/
  dead  : List Nat := []
  /-- Dead notices sent and not yet taken: the dead agent, and the agent of this package told, or 0x7F for its homes (R244). -/
  notices : List (Nat × Nat) := []
  /-- Dead clusters of this package that have been reset, and agents of other packages whose reclamation has been logged (R246). -/
  rejoin : List Nat := []
  /-- Dead agents whose reclamation at the package's homes has run but is not logged yet, with the lines poisoned (R245). -/
  reclaimed : Sparse Nat := []
  /-- Domain time of the last heartbeat: clusters 0–7, packages 16 + slot, foundation dies 32 + n (R244, R302). -/
  beats : Sparse Nat := []
  /-- Host-line cache by line (R239). -/
  host  : Sparse HostLine := []
  /-- Host-line cache directory lines that are busy, and the requests that wait behind them (R235, R241). -/
  hostBusy : List Busy := []
  hostQ : List Waiting := []
  /-- Host snoops received and not yet applied, oldest first, as op (0 SnpInv, 1 SnpData, 2 SnpCur) and host physical address over 64; and the
  number received (R197, R241, R242). -/
  snoopQ : List (Nat × Nat) := []
  snoopIn : Nat := 0
  /-- What has been sent to the host on CXL.cache, newest last (R26, R240, R241, R243). -/
  hostOut : List HostMsg := []
  /-- Translation unit (chapter 10). -/
  xlt   : Xlt := {}
  /-- Memory channels by die × 112 + MEM_CHAN index (R268); remaps by die × 4 + group; stacks by die × 3 + stack. -/
  chans : Sparse Chan := []
  remap : Sparse Remap := []
  hbm   : Sparse Stack := []
  /-- MEM_STACK_TEMP.TMAX by die (R284). -/
  tmax  : Sparse Nat := []
  /-- Col ports (Table 12.2). -/
  cols  : Sparse ColPort := []
  /-- Tokens outstanding by level; for each token a source holds unused, the domain time since which, oldest first; and the sources that
  have asked a level for tokens, each with the sources granted since (R293, R294). -/
  tokens : List (Level × Nat) := []
  held  : List ((Source × Level) × List Nat) := []
  asks  : List ((Level × Source) × List Source) := []
  /-- COL_SAT(l) REFUSE and SATUS by die × 10 + l, with the microsecond last counted (R297). -/
  colSat : Sparse (Nat × Nat × Nat) := []
  /-- Ridge links 0–63 (R306). -/
  links : Sparse Link := []
  /-- RDG_ROUTE(i) and RDG_WIN(w) (R316, R321). -/
  rdgRoute : Sparse W64 := []
  rdgWin : Sparse W64 := []
  /-- Plans running by die (at most 16 each), COLLECTIVE records waiting: die, stream, address (R322). -/
  plans : Sparse (List Plan) := []
  /-- Chunks held by an engine, by die, with the domain time of arrival (at most 256, R327). -/
  holds : Sparse (List (Nat × Chunk)) := []
  /-- Chunks sent by the engines: die, destination, header and payload, newest last (R326, R328). -/
  chunkOut : List (Nat × Nat × List Byte) := []
  /-- Answers sent to chunks, by die: cid, step, chunk, answer, newest last (R327). -/
  chunkRsp : List (Nat × Nat × Nat × Nat × ChunkAns) := []
  /-- Broadcasts held, newest first, at most 256 identifiers; messages sent; starts since commit (R332, R439). -/
  bcasts : List Bcast := []
  bcOut : List BcOut := []
  starts : Nat := 0
  /-- Messages delivered to this package's units over Ridge, and messages sent or forwarded: link, message (R318). -/
  rdgIn : List RMsg := []
  rdgOut : List (Nat × RMsg) := []
  /-- Power states and the package side of Firebreak (chapter 16). -/
  power : PowerSt := {}
  /-- Die controllers C0–C3 (chapter 16). -/
  fb    : Sparse DieFb := []
  /-- Node cores 0–63 (R28–R31). -/
  cores : Sparse NCore := []
  /-- Debug block (R415). -/
  dbgUnit : Debug := {}
  /-- Boundary scan (R422). -/
  jtag  : Jtag := {}
  /-- Counter of free values drawn. MODEL'S OWN: no spec rule names it; State.reset gives it 0 (DESIGN CHOICE). -/
  fresh : Nat := 0
  deriving DecidableEq, Repr

/-- The package right after reset: off, every register at the reset value of its map (R11, R395), fuses as a blank part. -/
def State.reset : State := {}

end Sys2Proof.Machine
end

