-- ==== Sys2Proof/Machine/Stores.lean ====
section
/-! DEFINITION. Named operations over coded stores: local store, landing store, accumulator memory, w registers and DRAM
(R143, R144, R271, R272). Cells stay in canonical form: addresses rising, no zero listed. -/

namespace Sys2Proof.Machine

/-- The canonical form: addresses strictly rising from above `lo`, no zero byte listed. -/
def Memory.wfFrom : Nat → List Host.Cell → Bool
  | _, [] => true
  | lo, (a, b) :: r => decide (lo ≤ a) && (b != 0) && Memory.wfFrom (a + 1) r

/-- The canonical form of a cell list. -/
def Memory.wf (m : List Host.Cell) : Bool := Memory.wfFrom 0 m

/-- The byte at address `a`; an unlisted address reads 0. -/
def readCell : List Host.Cell → Nat → Byte
  | [], _ => 0
  | (k, b) :: r, a => if k = a then b else readCell r a

/-- The non-zero bytes of a list as cells from address `a` on. -/
def cellsAt : Nat → List Byte → List Host.Cell
  | _, [] => []
  | a, v :: r => if v = 0 then cellsAt (a + 1) r else (a, v) :: cellsAt (a + 1) r

/-- Writes a list of bytes from address `a` on, keeping the canonical form. -/
def writeCells (m : List Host.Cell) (a : Nat) (l : List Byte) : List Host.Cell :=
  m.filter (fun c => decide (c.1 < a)) ++ (cellsAt a l ++ m.filter (fun c => decide (a + l.length ≤ c.1)))

/-- Byte `a` of a store. -/
def Store.read8 (st : Store) (a : Nat) : Byte := readCell st.cells a

/-- `n` bytes from address `a`. -/
def Store.readBytes (st : Store) (a n : Nat) : List Byte := (List.range n).map (fun k => st.read8 (a + k))

/-- `n` bytes from address `a` as one little-endian value: the listed cells of the range, each at its place. -/
def Store.readNat (st : Store) (a n : Nat) : Nat :=
  (st.cells.filter (fun c => decide (a ≤ c.1) && decide (c.1 < a + n))).foldl (fun v c => v + c.2.toNat * 256 ^ (c.1 - a)) 0

/-- The 32-byte sectors that `n` bytes from `a` touch (R271). -/
def sectorsOf (a n : Nat) : List Nat :=
  if n = 0 then [] else (List.range ((a + n - 1) / 32 - a / 32 + 1)).map (fun k => a / 32 + k)

/-- Some sector touched is poisoned, or holds more symbols corrupted than the code corrects (R272, R418). -/
def Store.poisoned (st : Store) (a n : Nat) : Bool :=
  (sectorsOf a n).any (fun k => st.poison.contains k || decide (2 ≤ alGet 0 st.bad k))

/-- Writes a list of bytes from `a`. A write that covers a whole sector gives it a fresh codeword; a sector written in part stays poisoned, and is
poisoned from then on when its codeword was beyond correction (R272). -/
def Store.writeBytes (st : Store) (a : Nat) (l : List Byte) : Store :=
  let whole := (sectorsOf a l.length).filter (fun k => decide (a ≤ 32 * k ∧ 32 * k + 32 ≤ a + l.length))
  let lost := (sectorsOf a l.length).filter (fun k => !(whole.contains k) && decide (2 ≤ alGet 0 st.bad k) && !(st.poison.contains k))
  { cells := writeCells st.cells a l
    poison := lost ++ st.poison.filter (fun k => !(whole.contains k))
    bad := st.bad.filter (fun e => !((sectorsOf a l.length).contains e.1)) }

/-- Writes the low `n` bytes of `v` at `a`. -/
def Store.writeNat (st : Store) (a n v : Nat) : Store := st.writeBytes a (leBytes n v)

/-- Marks the sectors that `n` bytes from `a` touch as poisoned (R272). -/
def Store.setPoison (st : Store) (a n : Nat) : Store :=
  { st with poison := ((sectorsOf a n).filter (fun k => !(st.poison.contains k))) ++ st.poison }

/-- Takes the poison off the sectors that `n` bytes from `a` touch (R272). -/
def Store.clrPoison (st : Store) (a n : Nat) : Store :=
  { st with poison := st.poison.filter (fun k => !((sectorsOf a n).contains k)),
            bad := st.bad.filter (fun e => !((sectorsOf a n).contains e.1)) }

/-- A corrected read rewrites the sector's codeword (R277, R283). -/
def Store.correct (st : Store) (sector : Nat) : Store := { st with bad := alDel st.bad sector }

/-- Bytes `a` to `a + n` zeroed with a clean codeword (R143, R274). -/
def Store.zeroRange (st : Store) (a n : Nat) : Store :=
  { cells := st.cells.filter (fun c => !(decide (a ≤ c.1 ∧ c.1 < a + n)))
    poison := st.poison.filter (fun k => !(decide (a ≤ 32 * k ∧ 32 * k < a + n)))
    bad := st.bad.filter (fun e => !(decide (a ≤ 32 * e.1 ∧ 32 * e.1 < a + n))) }

/-- INJECT: `sym` corrupted symbols in the codeword of the sector that holds `a` (R418). -/
def Store.inject (st : Store) (a sym : Nat) : Store :=
  { st with bad := alPut st.bad (a / 32) (alGet 0 st.bad (a / 32) + sym) }

/-- What is read of a store that held several contents in turn: each sector as it stood in one of them, `pick` naming which (R109, R124). -/
def Store.among (pick : Nat → Nat) (l : List Store) : Store :=
  match l with
  | [] => {}
  | [v] => v
  | _ =>
    let from_ := fun (j k : Nat) => pick k % l.length == j
    let part := fun (j : Nat) => nth {} l j
    { cells := (List.range l.length).flatMap (fun j => (part j).cells.filter (fun c => from_ j (c.1 / 32)))
      poison := (List.range l.length).flatMap (fun j => (part j).poison.filter (from_ j))
      bad := (List.range l.length).flatMap (fun j => (part j).bad.filter (fun e => from_ j e.1)) }

/-- The 128-byte line at address `a`, with a mark for each sector that reads as poisoned (R272). -/
def Store.line (st : Store) (a : Nat) : Line :=
  { data := BitVec.ofNat 1024 (st.readNat a 128)
    pmask := BitVec.ofNat 4 (((List.range 4).map (fun k => if st.poisoned (a + 32 * k) 32 then 2 ^ k else 0)).foldl (· + ·) 0) }

/-- Writes a whole line at address `a` with its marks: fresh codewords in all four sectors (R272). -/
def Store.putLine (st : Store) (a : Nat) (l : Line) : Store :=
  let st1 := st.writeBytes a (leBytes 128 l.data.toNat)
  ((List.range 4).filter (fun k => bitOf l.pmask.toNat k)).foldl (fun (t : Store) k => t.setPoison (a + 32 * k) 32) st1

end Sys2Proof.Machine
end

