-- ==== Sys2Proof/Machine/Ops.lean ====
section
/-! DEFINITION. Operations every family shares: whether the package runs, domain time, free values, Tally counts, interrupt
events, the event log and the measurement log. -/

namespace Sys2Proof.Machine

/-- A meaning whose condition does not hold does not occur: the state stays (log entry 2). -/
def when_ (c : Bool) (f : State → State) (s : State) : Host.Outcome State Fault Refusal := .next (if c then f s else s)

/-- Powered and not tripped: Cairn runs (R395, R398). -/
def State.on (s : State) : Bool := s.plat.on && !s.plat.thermTrip

/-- The islands besides Cairn are clocked: REFCLK_CORE is present (R448). -/
def State.up (s : State) : Bool := s.on && !s.plat.coreLost

/-- Out of Halt as well: every island runs (Tables 16.7, 16.8). -/
def State.runs (s : State) : Bool := s.up && s.power.pstate != 3

/-- After CONFIG_COMMIT with every island running: node cores, dispatcher, memory and fabric work (R360, R367). -/
def State.serves (s : State) : Bool := s.runs && decide (2 ≤ s.plat.stage)

/-- Compute die `n` is neither lost nor in DIE_RESET (R377). -/
def State.dieLive (s : State) (n : Nat) : Bool :=
  decide (n < 4) && !(s.plat.lostC.contains n) && !(s.plat.resetting.contains n)

/-- Domain time in ns (R427). -/
def State.now (s : State) : Nat := s.time.fine / 100000

/-- A moment of domain time has come. Before commit domain time stands still (R427), so that what waits for a duration may then end at any time
(log entry 42). -/
def State.due (s : State) (t : Nat) : Bool := decide (s.plat.stage < 2) || decide (t ≤ s.now)

/-- One REFCLK_CORE period, 10 ns, in units of 10 fs, with the steering in force: −1,000 ppm while a slew remains, else the
rate (R427, R429, R430). -/
def Time.advance (t : Time) : Time :=
  if 0 < t.slew then { t with fine := t.fine + 999000, slew := t.slew - min t.slew 1000 }
  else { t with fine := (t.fine : Int) + 1000000 + t.rate |>.toNat }

/-- A step with no command waiting: domain time advances once it has been set by CONFIG_COMMIT (R427). DESIGN CHOICE, log
entry 3. -/
def State.tick (s : State) : State :=
  if s.up && decide (2 ≤ s.plat.stage) then { s with time := s.time.advance } else s

/-- The number of the next free value, and the state with it used up. -/
def State.drawn (s : State) : State := { s with fresh := s.fresh + 1 }

/-- Adds `n` to count `k` (R424): saturating, and only from the start of firmware. -/
def Tally.bump (t : Tally) (k n : Nat) : Tally :=
  { t with live := alPut t.live k (BitVec.ofNat 64 (satAdd (2 ^ 64 - 1) (alGet 0 t.live k).toNat n)) }

/-- Counts in Tally (Tables 18.1, 18.2). -/
def State.count (s : State) (k : Nat) (n : Nat := 1) : State :=
  if 1 ≤ s.plat.stage then { s with tally := s.tally.bump k n } else s

/-- Counts corrected and uncorrectable sectors that INJECT did not make (R418, Table 18.3). -/
def State.countReal (s : State) (c u : Nat) : State :=
  if 1 ≤ s.plat.stage then { s with tally := { s.tally with realCe := s.tally.realCe + c, realUe := s.tally.realUe + u } } else s

/-- Sets level `k` as it stands at this moment (R424). -/
def State.level (s : State) (k : Nat) (v : Int) : State :=
  { s with tally := { s.tally with live := alPut s.tally.live k (BitVec.ofInt 64 v) } }

/-- Service counter j of Table 18.2. -/
def svc (j : Nat) : Nat := 1792 + j
/-- Pair-error counter j of pair n. -/
def pairErr (n j : Nat) : Nat := 1280 + 64 * n + j
/-- Die-activity counter j of die n. -/
def dieAct (n j : Nat) : Nat := 1024 + 64 * n + j

/-- Writes a message to an IMSIC file's pending bit; a second leaves one (R34). -/
def State.imsicSet (s : State) (core file id : Nat) : State :=
  if s.imsic.contains (core, file, id) then s else { s with imsic := s.imsic ++ [(core, file, id)] }

/-- Sends the message of a route entry (R32). -/
def State.sendRoute (s : State) (e : W64) : State := s.imsicSet (wfld e 0 6) (wfld e 8 3) (wfld e 12 11)

/-- An event of a source (R32, R34, R35): EIID 0 sends nothing, EN delivers, EN 0 sets PEND; sources 80 and above have no
effect. -/
def State.raise (s : State) (src : Nat) : State :=
  if 80 ≤ src then s
  else
    let e := alGet 0 s.routes src
    if wfld e 12 11 = 0 then s
    else if bitOf e.toNat 31 then s.sendRoute e
    else { s with routes := alPut s.routes src (e ||| (1#64 <<< 32)) }

/-- Appends an event-log entry: the oldest of 1,024 is overwritten and counted, and source 70 fires (R438). -/
def State.logEv (s : State) (code die sev : Nat) (data : List Nat) : State :=
  let e : LogEntry := { seq := s.logSeq, time := s.now, code := code, die := die, sev := sev, data := data }
  let s1 := { s with log := lastN 1024 (s.log ++ [e]), logSeq := s.logSeq + 1 }
  (if 1024 ≤ s.log.length then s1.count (svc 16) else s1).raise 70

/-- The 80 bytes of a measurement entry (Table 15.5). -/
def Meas.bytes (m : Meas) : List Byte := leBytes 2 m.typ ++ leBytes 2 m.arg ++ leBytes 4 0 ++ leBytes 8 m.dtime ++ padTo 64 m.value

/-- Appends to the measurement log; once 63 entries are held, further events fold into entry 64, whose first VALUE is free (R369; log entry
23). -/
def Cairn.measure (c : Cairn) (now typ arg : Nat) (value : List Byte) : Cairn :=
  let m : Meas := { typ := typ, arg := arg, dtime := now, value := padTo 64 value }
  if c.log.length < 63 then { c with log := c.log ++ [m] }
  else
    let old := nth { typ := 7, arg := 0, dtime := 0, value := padTo 64 Free.foldFirst } c.log 63
    { c with log := c.log.take 63 ++ [{ typ := 7, arg := old.arg + 1, dtime := now, value := shake 64 (old.value ++ m.bytes) }] }

/-- Appends to the measurement log at this moment. -/
def State.measure (s : State) (typ arg : Nat) (value : List Byte) : State :=
  { s with cairn := s.cairn.measure s.now typ arg value }

/-- Lifecycle of the fuses: the latest blown of DEV, FLD, SCR (R409). -/
def Fuses.lc (f : Fuses) : Nat := if f.scr then 3 else if f.fld then 2 else if f.dev then 1 else 0

/-- The registers of a port. -/
def State.port (s : State) : Port → PortSt
  | .h => s.portH
  | .b => s.portB
  | .n => s.portN

/-- Sets the registers of a port. -/
def State.setPort (s : State) (p : Port) (v : PortSt) : State :=
  match p with
  | .h => { s with portH := v }
  | .b => { s with portB := v }
  | .n => { s with portN := v }

/-- The end of a command: the reply is written, unless the window was reset meanwhile (R340); DONE is set; on H MSI-X vector 0
is sent when IEN is 1, or left pending while its entry is masked; on N source 71 fires (R344). -/
def State.finish (s : State) (p : Port) (status : Nat) (results : List Byte) : State :=
  let v := s.port p
  if v.discard then s.setPort p { v with busy := false, discard := false }
  else
    let v1 := { v with busy := false, done := true, reply := some { status := status, seq := v.seq, results := results } }
    match p with
    | .h =>
      if v.ien then
        if bitOf v.msixTable 96 then s.setPort p { v1 with msixPending := true }
        else s.setPort p { v1 with msixSent := v.msixSent + 1 }
      else s.setPort p v1
    | .b => s.setPort p v1
    | .n => (s.setPort p v1).raise 71

/-- Stream `n`, closed when never opened. -/
def State.stream (s : State) (n : Nat) : Stream := alGet {} s.streams n
/-- Sets stream `n`. -/
def State.setStream (s : State) (n : Nat) (v : Stream) : State := { s with streams := alPut s.streams n v }
/-- Tile of a die by physical number. -/
def State.tile (s : State) (die t : Nat) : Tile := alGet {} s.tiles (die * 68 + t)
/-- Sets a tile. -/
def State.setTile (s : State) (die t : Nat) (v : Tile) : State := { s with tiles := alPut s.tiles (die * 68 + t) v }
/-- Die controller of Cn. -/
def State.die (s : State) (n : Nat) : DieFb := alGet {} s.fb n
/-- Sets a die controller. -/
def State.setDie (s : State) (n : Nat) (v : DieFb) : State := { s with fb := alPut s.fb n v }
/-- Ridge link L. -/
def State.link (s : State) (l : Nat) : Link := alGet {} s.links l
/-- Sets a Ridge link. -/
def State.setLink (s : State) (l : Nat) (v : Link) : State := { s with links := alPut s.links l v }
/-- A memory channel by die and MEM_CHAN index. -/
def State.chan (s : State) (die k : Nat) : Chan := alGet {} s.chans (die * 112 + k)
/-- Sets a memory channel. -/
def State.setChan (s : State) (die k : Nat) (v : Chan) : State := { s with chans := alPut s.chans (die * 112 + k) v }
/-- L2 slice. -/
def State.slice (s : State) (die k : Nat) : Slice := alGet {} s.slices (die * 32 + k)
/-- Sets an L2 slice. -/
def State.setSlice (s : State) (die k : Nat) (v : Slice) : State := { s with slices := alPut s.slices (die * 32 + k) v }

/-- Adds one to a threshold count in the hour bucket in progress (R432). -/
def State.window (s : State) (row obj : Nat) (n : Nat := 1) : State :=
  { s with tally := { s.tally with windows := alMod 0 s.tally.windows (row * 2 ^ 32 + obj * 32 + s.tally.hour % 24) (· + n) } }

/-- The count of a source over its 24 one-hour buckets (R432). -/
def Tally.window24 (t : Tally) (row obj : Nat) : Nat :=
  ((List.range 24).map (fun b => alGet 0 t.windows (row * 2 ^ 32 + obj * 32 + b))).foldl (· + ·) 0

end Sys2Proof.Machine
end

