-- ==== Sys2Proof/Machine/PowerOps.lean ====
section
/-! DEFINITION. Firebreak's decisions: operating points, ceilings, the phase table's predictions, choice, target, grants, Halt
(chapter 16). -/

namespace Sys2Proof.Machine

/-- Tile clock of a point, MHz (Table 16.1). -/
def opMHz (k : Nat) : Nat := nth 1000 [1000, 1200, 1400, 1550, 1700, 1900, 2000, 2100] k
/-- VDD_TILEn of a point, mV (Table 16.1). -/
def opMv (k : Nat) : Nat := nth 580 [580, 610, 640, 670, 700, 750, 790, 830] k

/-- Power scaled from point `a` to point `b` by f·V² (R383). -/
def scalePower (p a b : Nat) : Nat := p * (opMHz b * opMv b * opMv b) / (opMHz a * opMv a * opMv a)
/-- Work rate scaled by f (R383). -/
def scaleWork (w a b : Nat) : Nat := w * opMHz b / opMHz a

/-- Ceiling of a junction level (Table 16.6): 7 is none. -/
def junctionCeil (l : Nat) : Nat := nth 0 [7, 4, 2, 0, 0] l
/-- Ceiling of a stack level, 0R included at 1 (Table 11.4). -/
def stackCeil (l : Nat) : Nat := nth 0 [7, 7, 4, 2, 0] l
/-- Clock cap of the node-core clusters at a level of H's sensors, MHz (Table 16.6). -/
def hubCap (l : Nat) : Nat := nth 800 [3000, 2400, 1600, 1000, 800] l

/-- Stack ceiling of Cn: the highest level among Fn's stacks (R284). -/
def State.stackCeiling (s : State) (n : Nat) : Nat :=
  ((List.range 3).map (fun k => stackCeil (alGet {} s.hbm (n * 3 + k)).lvl)).foldl min 7

/-- Lowest ceiling in force on Cn, 7 when none (R374, R381, R394). -/
def State.ceiling (s : State) (n : Nat) : Nat :=
  min (min (s.stackCeiling n) (junctionCeil (s.die n).jlvl))
    (min (if s.power.snet then 0 else 7) (if s.power.supl then 3 else 7))

/-- Predicted power of a die at point k: its phase entry's, or the last measurement scaled when it has none. -/
def DieFb.pw (d : DieFb) (k : Nat) : Nat :=
  match d.entry.bind (alFind d.phase) with
  | some e => nth 0 e.pw k
  | none => scalePower d.pwr d.op k

/-- Predicted work rate of a die at point k. -/
def DieFb.tp (d : DieFb) (k : Nat) : Nat :=
  match d.entry.bind (alFind d.phase) with
  | some e => nth 0 e.wr k
  | none => 0

/-- The controller's own choice within a budget (none: no limit) and a ceiling (R384); OP0 before any entry. -/
def DieFb.choice (d : DieFb) (b : Option Nat) (ceil : Nat) : Nat :=
  match d.entry.bind (alFind d.phase) with
  | none => 0
  | some _ =>
    let afford := (List.range 8).filter (fun k => k = 0 || (decide (k ≤ ceil) && (match b with | some v => decide (d.pw k ≤ v) | none => true)))
    let best := (afford.map d.tp).foldl max 0
    let cand := afford.filter (fun k => decide (best * 95 ≤ d.tp k * 100))
    cand.foldl (fun c k => if d.pw k * d.tp c ≤ d.pw c * d.tp k then k else c) (nth 0 cand 0)

/-- Highest OP_REQUEST in force on the die (R388), in `reqs` as request + 1. -/
def DieFb.request (d : DieFb) : Nat := (d.reqs.map (fun e => e.2 - 1)).foldl max 0
/-- Highest OPMIN of a hint in force (R387). -/
def DieFb.hintMin (d : DieFb) : Nat := ((d.hints.filter (·.inForce)).map (·.opmin)).foldl max 0

/-- Step 1 of R374, with R384's exploration and boost and R392's lowering. -/
def DieFb.target (d : DieFb) (now : Nat) (b : Option Nat) (ceil : Nat) : Nat :=
  let own := d.choice b ceil
  let up := max d.request d.hintMin
  let own1 := if d.explore && decide (up < own) && !d.boost then own - 1 else own
  let t := max (max own1 up) (if d.boost then min 7 (own + 1) else 0)
  match d.lowered with
  | some e => if now < e then t - 1 else t
  | none => t

/-- Step 2 of R374: the highest point up to `t` whose predicted power fits the budget; OP0 always fits. -/
def DieFb.fit (d : DieFb) (t : Nat) : Nat :=
  ((List.range (t + 1)).filter (fun k => k = 0 || decide (d.pw k ≤ d.budget))).foldl max 0

/-- Changes the clock of a die, counting operating-point changes. -/
def State.setOp (s : State) (n k : Nat) : State :=
  let d := s.die n
  if d.op = k then s else (s.setDie n { d with op := k }).count (dieAct n 19)

/-- Moves the clock to the decided point: down at once; up once the voltage target and the board's report reach it and the
rail answers (R373, R444). -/
def State.moveClock (s : State) (n : Nat) : State :=
  let d := s.die n
  if d.goal ≤ d.op then s.setOp n d.goal
  else if decide (opMv d.goal ≤ d.mv) && decide (opMv d.goal ≤ d.rep) && !(s.tally.railMax.contains n) then s.setOp n d.goal
  else s

/-- Decisions are taken in Run, outside a supply episode, on a live die (R374, R393, Table 16.7). -/
def State.decides (s : State) (n : Nat) : Bool :=
  s.serves && decide (s.power.pstate = 0) && !s.power.warn && s.dieLive n

/-- Hints in force that the decided point does not reach are counted as unmet, each once (R387). -/
def State.unmetHints (s : State) (n : Nat) : State :=
  let d := s.die n
  let bad := fun (h : Hint) => h.inForce && !h.unmet && decide (d.goal < h.opmin)
  let k := (d.hints.filter bad).length
  if k = 0 then s
  else (s.setDie n { d with hints := d.hints.map (fun h => if bad h then { h with unmet := true } else h) }).count (dieAct n 20) k

/-- A decision of the controller of Cn (R374). -/
def State.decideOp (s : State) (n : Nat) : State :=
  if s.decides n then
    let d := s.die n
    let c := s.ceiling n
    let t := d.target s.now (some d.budget) c
    ((s.setDie n { d with tgt := t, goal := min (d.fit t) c }).moveClock n).unmetHints n
  else s

/-- Decisions on all four dies. -/
def State.decideAll (s : State) : State := (List.range 4).foldl State.decideOp s

/-- After a ceiling may have fallen: it acts at once, with a decision (R374). -/
def State.ceilingFell (s : State) (n old : Nat) : State := if s.ceiling n < old then s.decideOp n else s

/-- The level whose entry thresholds `thr` the temperature reaches: 0 below the first. -/
def heatLevel (thr : List Nat) (t : Nat) : Nat := (thr.filter (fun x => decide (x ≤ t))).length

/-- Marks of a sample: at every level whose threshold less 2 °C it reaches there is none; at another the time of the first cooler sample stands. -/
def heatMarks (thr : List Nat) (cool : List (Option Nat)) (t now : Nat) : List (Option Nat) :=
  (List.range thr.length).map (fun k => if nth 0 thr k - 2 ≤ t then none else some ((nth none cool k).getD now))

/-- The level left to: the highest up to `l` whose samples have not all stayed 2 °C below its threshold for 1 ms. -/
def heatExit (cool : List (Option Nat)) (l now : Nat) : Nat :=
  ((List.range l).filter (fun k => match nth none cool k with | some t => decide (now < t + 1000000) | none => true)).foldl (fun _ k => k + 1) 0

/-- Junction thresholds (Table 16.6) and stack thresholds (Table 11.4). -/
def junctionThr : List Nat := [95, 98, 101, 105]
def stackThr : List Nat := [85, 90, 92, 95]

/-- The clock cap of the clusters from H's level and the supply episode (Table 16.6, R393). -/
def PowerSt.capped (p : PowerSt) : PowerSt :=
  { p with cluster := min (hubCap p.hubLvl) (if p.warn then 1000 else 3000) }

/-- FBK_DIE.GATE: the eighths of issue that are gated, seven at the highest junction level (R379, Table 16.6). -/
def DieFb.gated (d : DieFb) : Nat := if 4 ≤ d.jlvl then 7 else min 7 d.gate

/-- On leaving Run and Idle with an accepted limit that no exchange has taken up, POWER_LIMIT_SET is answered with the limit in force, as it is when it
comes in Park or Halt (R375; DEDUCED, log entry 50). -/
def State.limitReplies (s : State) : State :=
  s.power.limitPorts.foldl (fun (t : State) q => t.finish q 0 (leBytes 2 t.power.limit)) { s with power := { s.power with limitPorts := [] } }

/-- Halts the package (R399, Table 16.8): running activities are suspended (R435) and CODE 0x0010 is logged. -/
def State.halt (s : State) (cause : Nat) : State :=
  if s.power.pstate = 3 then s
  else
    let s1 := { s with
      power := { s.power with pstate := 3, before := s.power.pstate, lasth := cause, coolLow := false }
      acts := s.acts.map (fun (a : Act) => if a.state = 0 then { a with state := 2 } else a) }
    (s1.logEv 0x0010 255 3 [cause]).limitReplies

/-- The power ceiling in force, W (R375). -/
def State.powerCeil (s : State) : Nat := if s.cairn.armed then min 2800 s.cairn.powerCeil else 2800

/-- Starts the drop of a stream's hints and requests on every die once its drain ends (R388, R389). -/
def State.dropHints (s : State) (n : Nat) : State :=
  { s with fb := s.fb.map (fun e => (e.1, { e.2 with hints := e.2.hints.filter (fun h => h.stream != n), reqs := alDel e.2.reqs n })) }

/-- Floor of a die: predicted power at OP0 (R377). -/
def DieFb.floor (d : DieFb) : Nat := d.pw 0

/-- A hint marks the budget requests: it is in force or its T is within 200 µs (R387). -/
def DieFb.hinted (d : DieFb) (now : Nat) : Bool :=
  d.hints.any (fun h => h.inForce || h.marked || decide (h.t ≤ now + 200000))

/-- Want of a die: predicted power at the target under ceilings alone, at least the PWR of each marked hint (R377). -/
def DieFb.want (d : DieFb) (now ceil : Nat) : Nat :=
  let w := d.pw (min ceil (d.target now none ceil))
  ((d.hints.filter (fun h => h.inForce || h.marked || decide (h.t ≤ now + 200000))).map (·.pwr)).foldl max w

/-- The grants of R377 for the live dies, in die order: (die, W). The floors kept back from a hinted die are those of the other dies not
yet granted, and each grant is the exact share rounded down to a whole watt (DEDUCED, log entry 12). `fixed` is package power less the
live dies' measured power. Sums run in units of 1/(100 × live dies) W, in which every held amount is whole. -/
def grants (limit : Nat) (fixed : Int) (reserve now : Nat) (dies : List (Nat × DieFb × Nat)) : List (Nat × Int) :=
  let unit : Int := 100 * dies.length
  let pool := (limit : Int) - fixed - 40
  let want := fun (e : Nat × DieFb × Nat) => unit * (e.2.1.want now e.2.2 : Int)
  let floor := fun (e : Nat × DieFb × Nat) => unit * (e.2.1.floor : Int)
  let sum := fun (l : List Int) => l.foldl (· + ·) 0
  let held := dies.map (fun e => if e.2.1.hinted now then (0 : Int) else pool * reserve)
  let avail := unit * pool - sum held
  let hintedDies := dies.filter (fun e => e.2.1.hinted now)
  let rest := dies.filter (fun e => !(e.2.1.hinted now))
  let first := hintedDies.foldl
    (fun (acc : List (Nat × Int) × Int × Int) e =>
      let others := acc.2.2 - floor e
      let g := min (want e) (acc.2.1 - others)
      (acc.1 ++ [(e.1, g / unit)], acc.2.1 - g, others))
    ([], avail, sum (dies.map floor))
  let x := first.2.1 - sum (rest.map floor)
  let need := sum (rest.map (fun e => want e - floor e))
  first.1 ++ rest.map (fun e =>
    (e.1, (if need ≤ x then want e + (x - need) / rest.length else floor e + x * (want e - floor e) / need) / unit))

end Sys2Proof.Machine
end

