-- ==== Sys2Proof/Machine/AddrOps.lean ====
section
/-! DEFINITION. The device physical map and the place of a line (R22–R26, R206, R269, R270, R275, R279, R319). -/

namespace Sys2Proof.Machine

/-- What a device physical address names (Tables 1.5, 1.6, 13.5). -/
inductive Region where
  | near (die : Nat)
  | capacity (die : Nat)
  | regs
  | window (w : Nat)
  | slot (k : Nat)
  | hostMem
  | unmapped
  deriving DecidableEq, Repr

/-- Where a near or capacity byte lies (R270): foundation die, group (0–2 stack, 3 LPDDR), logical channel, unit within the
channel. -/
structure Place where
  die   : Nat
  group : Nat
  logical : Nat
  unit  : Nat
  deriving DecidableEq, Repr

/-- The interleave mode once memory is mapped (R24). -/
def State.mode (s : State) : Option Nat := if 2 ≤ s.plat.stage then s.cfg.interleave else none

/-- R270's placement: base, number of channels and whether the die comes from the hash. -/
def placeAt (pa base n : Nat) (global nearMem : Bool) (die : Nat) : Place :=
  let u := (pa - base) / 256
  let q := u / n
  let h := (fld q 0 8) ^^^ (fld q 8 8) ^^^ (fld q 16 8) ^^^ (fld q 24 2)
  let c := (u % n + h) % n
  let d := if global then c % 4 else die
  let i := if global then c / 4 else c
  if nearMem then { die := d, group := i / 31, logical := i % 31, unit := q }
  else { die := d, group := 3, logical := i, unit := q }

/-- Channels of a group that failed training (R275). -/
def State.failedChans (s : State) (die g : Nat) : Nat :=
  ((List.range (if g = 3 then 16 else 32)).filter (fun k => decide ((s.chan die (32 * g + k)).state = 5))).length

/-- The near (groups 0–2) or capacity (group 3) region of a die is left unmapped by a failed group (R275). -/
def State.regionFailed (s : State) (die : Nat) (nearMem : Bool) : Bool :=
  if nearMem then (List.range 3).any (fun g => decide (2 ≤ s.failedChans die g)) else decide (2 ≤ s.failedChans die 3)

/-- The die whose die-local region holds an offset in a near or capacity half of the map (Table 1.6). -/
def localDie (off size : Nat) : Option Nat :=
  let d := off / 0x004000000000
  if d < 4 ∧ off % 0x004000000000 < size then some d else none

/-- The place of an address in mapped near or capacity memory, in a mode (R22, R23, R270). -/
def placeOf (mode pa : Nat) : Option (Bool × Place) :=
  if mode = 0 then
    if pa < 0x008B80000000 then some (true, placeAt pa 0 372 true true 0)
    else if 0x010000000000 ≤ pa ∧ pa < 0x01B400000000 then some (false, placeAt pa 0x010000000000 60 true false 0)
    else none
  else if pa < 0x010000000000 then
    (localDie pa 0x0022E0000000).map (fun d => (true, placeAt pa (d * 0x004000000000) 93 false true d))
  else
    (localDie (pa - 0x010000000000) 0x002D00000000).map
      (fun d => (false, placeAt pa (0x010000000000 + d * 0x004000000000) 15 false false d))

/-- This package's SLOT (R315, R365). -/
def State.mySlot (s : State) : Nat := fld (s.cfg.ridgeAddr.getD 0) 7 3
/-- This package's BOARD. -/
def State.myBoard (s : State) : Nat := fld (s.cfg.ridgeAddr.getD 0) 0 7
/-- This package's device address with DIE and UNIT zero (R315). -/
def State.myAddr (s : State) : Nat := (s.myBoard * 8 + s.mySlot) * 1024
/-- Board-coherent mode: the coherence set is not empty (R223). -/
def State.coherentSet (s : State) : Bool := decide (2 ≤ s.plat.stage) && decide (s.cfg.cohSet.getD 0 ≠ 0)

/-- What a device physical address names at this moment (R22–R25, R319). -/
def State.region (s : State) (pa : Nat) : Region :=
  if 0x800000000000 ≤ pa then (if pa < 2 ^ 48 then .hostMem else .unmapped)
  else if 0x0F0000000000 ≤ pa ∧ pa < 0x0F1000000000 then
    (if pa < 0x0F0A00000000 then .regs else .unmapped)
  else if 0x100000000000 ≤ pa ∧ pa < 0x200000000000 then
    let w := (pa - 0x100000000000) / 0x004000000000
    if bitOf (alGet 0 s.rdgWin w).toNat 0 then .window w else .unmapped
  else if 0x200000000000 ≤ pa ∧ pa < 0x300000000000 then
    let k := (pa - 0x200000000000) / 0x020000000000
    if s.coherentSet && bitOf (s.cfg.cohSet.getD 0) k && decide (k ≠ s.mySlot) then .slot k else .unmapped
  else
    match s.mode with
    | none => .unmapped
    | some m =>
      match placeOf m pa with
      | some (nearMem, p) =>
        if m ≠ 0 && s.regionFailed p.die nearMem then .unmapped
        else if nearMem then .near p.die else .capacity p.die
      | none => .unmapped

/-- Near or capacity memory of this package. -/
def State.isMem (s : State) (pa : Nat) : Bool :=
  match s.region pa with
  | .near _ | .capacity _ => true
  | _ => false

/-- The place of a mapped address, all zero for an address that is none. -/
def State.place (s : State) (pa : Nat) : Place :=
  match s.mode.bind (fun m => placeOf m pa) with
  | some (_, p) => p
  | none => { die := 0, group := 0, logical := 0, unit := 0 }

/-- Home die of a near or capacity line (R206). -/
def State.homeDie (s : State) (pa : Nat) : Nat := (s.place pa).die

/-- Slice within the home die (R206), from the 41-bit line address. -/
def sliceOf (a : Nat) : Nat :=
  (fld a 0 5) ^^^ (fld a 5 5) ^^^ (fld a 10 5) ^^^ (fld a 15 5) ^^^ (fld a 20 5) ^^^ (fld a 25 5) ^^^ (fld a 30 5)
    ^^^ (fld a 35 5) ^^^ (fld a 40 1 * 16)

/-- Set within the slice (R206). -/
def setOf (a : Nat) : Nat := (fld a 5 10) ^^^ (fld a 15 10) ^^^ (fld a 25 10) ^^^ (fld a 35 6)

/-- Number of units of a channel (R275). -/
def chanUnits (g : Nat) : Nat := if g = 3 then 50331648 else 6291456
/-- The spare of a group (R268). -/
def spareOf (g : Nat) : Nat := if g = 3 then 15 else 31
/-- MEM_CHAN index of physical channel `p` of group `g`. -/
def chanIx (g p : Nat) : Nat := 32 * g + p

/-- Lanes of a channel that can be replaced: one of an LPDDR channel, and the HBM4 repair lanes (R274). -/
def repairLanes (g : Nat) : Nat := if g = 3 then 1 else Free.repairLanes

/-- MEM_REMAP of a group. -/
def State.remapOf (s : State) (die g : Nat) : Remap := alGet {} s.remap (die * 4 + g)

/-- Where the controller sends an access to a unit of a logical channel (R269, R279): the physical channel, or none while the
unit's block is in flight. -/
def State.physical (s : State) (p : Place) : Option Nat :=
  let r := s.remapOf p.die p.group
  if r.target ≠ p.logical then some p.logical
  else if p.unit < r.wmark then some (spareOf p.group)
  else if r.evac && decide (p.unit < r.wmark + 16) then none
  else some p.logical

/-- Byte range of a ring lies in near or capacity memory mapped in a mode (R365, R367). -/
def State.ringMapped (s : State) (mode base size : Nat) : Bool :=
  let ok := fun pa => match placeOf mode pa with
    | some (nearMem, p) => mode = 0 || !(s.regionFailed p.die nearMem)
    | none => false
  ok base && ok (base + size - 1)
    && decide (base / 0x010000000000 = (base + size - 1) / 0x010000000000)
    && (mode = 0 || decide (base / 0x004000000000 = (base + size - 1) / 0x004000000000))

end Sys2Proof.Machine
end

