-- ==== Sys2Proof/Machine/Flags.lean ====
section
/-! DEFINITION. The five flags of R53 as bits 0 to 4 of a natural, in the order of Table 5.13: invalid, divide-by-zero, overflow,
underflow, inexact. -/

namespace Sys2Proof.Machine

/-- Invalid. -/
def flNV : Nat := 1
/-- Divide-by-zero. -/
def flDZ : Nat := 2
/-- Overflow. -/
def flOF : Nat := 4
/-- Underflow. -/
def flUF : Nat := 8
/-- Inexact. -/
def flNX : Nat := 16

/-- A flag when a condition holds. -/
def flag (c : Bool) (f : Nat) : Nat := if c then f else 0

/-- The union of two flag sets. -/
def flOr (a b : Nat) : Nat := a ||| b

end Sys2Proof.Machine
end

