-- ==== Sys2Proof/Machine/Num.lean ====
section
/-! DEFINITION. Number formats and arithmetic (chapter 2): decoding, one exact rounding, conversions, comparisons, maximum and
minimum, double-single pairs. A finite value is ± m × 2^e with m and e exact. -/

namespace Sys2Proof.Machine

/-- A floating-point format (Table 2.2): exponent and fraction bits, bias, whether it has infinities, whether it has NaNs. -/
structure Fmt where
  eb   : Nat
  fb   : Nat
  bias : Nat
  infs : Bool
  nans : Bool
  deriving DecidableEq, Repr

def fBF16 : Fmt := { eb := 8, fb := 7, bias := 127, infs := true, nans := true }
def fFP16 : Fmt := { eb := 5, fb := 10, bias := 15, infs := true, nans := true }
def fFP32 : Fmt := { eb := 8, fb := 23, bias := 127, infs := true, nans := true }
def fFP64 : Fmt := { eb := 11, fb := 52, bias := 1023, infs := true, nans := true }
def fE4M3 : Fmt := { eb := 4, fb := 3, bias := 7, infs := false, nans := true }
def fE5M2 : Fmt := { eb := 5, fb := 2, bias := 15, infs := true, nans := true }
def fE2M3 : Fmt := { eb := 2, fb := 3, bias := 1, infs := false, nans := false }
def fE3M2 : Fmt := { eb := 3, fb := 2, bias := 3, infs := false, nans := false }
def fE2M1 : Fmt := { eb := 2, fb := 1, bias := 1, infs := false, nans := false }

/-- The element format of a code of Table 2.1, MX formats by their element; none for integers, DS32 and the reserved code. -/
def fmtOf (c : Nat) : Option Fmt :=
  match c with
  | 0 => some fBF16 | 1 => some fFP16 | 2 => some fFP32 | 3 => some fFP64 | 4 => some fE4M3 | 5 => some fE5M2
  | 6 => some fE4M3 | 7 => some fE5M2 | 8 => some fE2M3 | 9 => some fE3M2 | 10 => some fE2M1
  | _ => none

/-- Element width in bits of a code (R36, Table 2.1). -/
def fmtBits (c : Nat) : Nat :=
  nth 0 [16, 16, 32, 64, 8, 8, 8, 8, 6, 6, 4, 8, 32, 64, 64, 0] c

/-- Codes of the block-scaled formats. -/
def isMx (c : Nat) : Bool := decide (6 ≤ c) && decide (c ≤ 10)
/-- Codes of the integer formats. -/
def isInt (c : Nat) : Bool := decide (11 ≤ c) && decide (c ≤ 13)
/-- Width of an integer code. -/
def intBits (c : Nat) : Nat := nth 32 [8, 32, 64] (c - 11)

/-- A decoded value. -/
inductive Val where
  | nan (signalling : Bool)
  | inf (neg : Bool)
  | fin (neg : Bool) (m : Nat) (e : Int)
  deriving DecidableEq, Repr

/-- Zero of a sign. -/
def vzero (neg : Bool) : Val := .fin neg 0 0

/-- Width of a format. -/
def Fmt.width (f : Fmt) : Nat := 1 + f.eb + f.fb

/-- Decodes an encoding (R38, R43): subnormals are (−1)^s × 2^(1 − bias) × 0.fraction; E4M3 has one NaN pattern per sign. -/
def Fmt.decode (f : Fmt) (b : Nat) : Val :=
  let neg := bitOf b (f.eb + f.fb)
  let ex := fld b f.fb f.eb
  let fr := fld b 0 f.fb
  let top := 2 ^ f.eb - 1
  if f.infs && decide (ex = top) then
    (if fr = 0 then .inf neg else .nan (!(bitOf fr (f.fb - 1))))
  else if !f.infs && f.nans && decide (ex = top) && decide (fr = 2 ^ f.fb - 1) then .nan false
  else if ex = 0 then .fin neg fr (1 - (f.bias : Int) - f.fb)
  else .fin neg (2 ^ f.fb + fr) ((ex : Int) - f.bias - f.fb)

/-- Sign bit of a format. -/
def Fmt.signBit (f : Fmt) (neg : Bool) : Nat := b2n neg * 2 ^ (f.eb + f.fb)

/-- The largest finite encoding, unsigned. -/
def Fmt.maxEnc (f : Fmt) : Nat :=
  if f.infs then (2 ^ f.eb - 1) * 2 ^ f.fb - 1
  else if f.nans then 2 ^ (f.eb + f.fb) - 2
  else 2 ^ (f.eb + f.fb) - 1

/-- Canonical quiet NaN (R39). -/
def Fmt.nanEnc (f : Fmt) : Nat :=
  if f.infs then (2 ^ f.eb - 1) * 2 ^ f.fb + 2 ^ (f.fb - 1) else 2 ^ (f.eb + f.fb) - 1

/-- Infinity of a sign; NaN in a format without infinities (Table 2.4). -/
def Fmt.infEnc (f : Fmt) (neg : Bool) : Nat :=
  if f.infs then (2 ^ f.eb - 1) * 2 ^ f.fb + f.signBit neg else f.nanEnc

/-- Rounding modes (Table 2.3); stochastic carries its 16-bit draw (R45). -/
inductive Rm where
  | rne
  | rtz
  | sr (r : Nat)
  deriving DecidableEq, Repr

/-- The mode of a two-bit field with a draw; none for the reserved code (Table 2.3). -/
def rmOf (code r : Nat) : Option Rm :=
  match code with
  | 0 => some .rne
  | 1 => some .rtz
  | 2 => some (.sr (r % 65536))
  | _ => none

/-- Rounds m ÷ 2^k to a natural, with whether it went up and whether anything was discarded (R44, R45). -/
def roundShift (mode : Rm) (m k : Nat) : Nat × Bool × Bool :=
  let lo := m >>> k
  let rem := m % 2 ^ k
  let up := match mode with
    | .rne => decide (2 ^ k < rem * 2) || (decide (rem * 2 = 2 ^ k) && decide (lo % 2 = 1))
    | .rtz => false
    | .sr r => decide (r < (rem * 65536) >>> k)
  let up := up && decide (rem ≠ 0)
  (lo + b2n up, up, decide (rem ≠ 0))

/-- Length in bits of a natural. -/
def bitLen (m : Nat) : Nat := if m = 0 then 0 else Nat.log2 m + 1

/-- Rounds m × 2^e at quantum 2^q. -/
def roundAt (mode : Rm) (m : Nat) (e q : Int) : Nat × Bool :=
  if q ≤ e then (m * 2 ^ (e - q).toNat, false)
  else let r := roundShift mode m (q - e).toNat; (r.1, r.2.2)

/-- Tiny after rounding as though the exponent were unbounded, by the rounding applied (R53). -/
def Fmt.tiny (f : Fmt) (mode : Rm) (m : Nat) (e : Int) : Bool :=
  let emin : Int := 1 - f.bias
  let top : Int := e + bitLen m - 1
  if emin ≤ top then false
  else
    let q : Int := top - f.fb
    let r := roundAt mode m e q
    -- rounding up to the next power of two raises the exponent by one
    let topR : Int := q + bitLen r.1 - 1
    decide (topR < emin)

/-- The encoding of a finite value rounded once, with its flags; `sat` writes the largest finite value on overflow (R44, R48,
Table 2.4). -/
def Fmt.round (f : Fmt) (mode : Rm) (sat neg : Bool) (m : Nat) (e : Int) : Nat × Nat :=
  if m = 0 then (f.signBit neg, 0)
  else
    let emin : Int := 1 - f.bias
    let top : Int := e + bitLen m - 1
    let q : Int := max (emin - f.fb) (top - f.fb)
    let r := roundAt mode m e q
    let carry := decide (r.1 = 2 ^ (f.fb + 1))
    let sig := if carry then 2 ^ f.fb else r.1
    let q := if carry then q + 1 else q
    let enc : Nat := if sig < 2 ^ f.fb then sig else (q + f.fb + f.bias).toNat * 2 ^ f.fb + (sig - 2 ^ f.fb)
    if f.maxEnc < enc then
      let v := if sat then f.maxEnc + f.signBit neg
        else match mode with
          | .rtz => f.maxEnc + f.signBit neg
          | _ => if f.nans || f.infs then f.infEnc neg else f.maxEnc + f.signBit neg
      (v, flOr flOF flNX)
    else
      (enc + f.signBit neg, flOr (flag r.2 flNX) (flag (r.2 && f.tiny mode m e) flUF))

/-- Encodes any value as an arithmetic result: rounded to nearest even, with its flags (R39, R44). -/
def Fmt.encode (f : Fmt) (v : Val) : Nat × Nat :=
  match v with
  | .nan _ => (f.nanEnc, 0)
  | .inf neg => (f.infEnc neg, 0)
  | .fin neg m e => f.round .rne false neg m e

/-- A signalling NaN operand. -/
def Val.isSnan : Val → Bool
  | .nan true => true
  | _ => false
/-- Any NaN. -/
def Val.isNan : Val → Bool
  | .nan _ => true
  | _ => false
/-- A zero. -/
def Val.isZero : Val → Bool
  | .fin _ 0 _ => true
  | _ => false
/-- The sign; a NaN counts as positive. -/
def Val.neg : Val → Bool
  | .nan _ => false
  | .inf n => n
  | .fin n _ _ => n

/-- The value with its sign changed. -/
def Val.negate : Val → Val
  | .nan s => .nan s
  | .inf n => .inf (!n)
  | .fin n m e => .fin (!n) m e

/-- The value with its sign cleared. -/
def Val.abs : Val → Val
  | .nan s => .nan s
  | .inf _ => .inf false
  | .fin _ m e => .fin false m e

/-- Signed integer significand of a finite value. -/
def sgn (neg : Bool) (m : Nat) : Int := if neg then -(m : Int) else m

/-- The exact sum; an exact cancellation is +0 unless both operands are −0. ∞ − ∞ is NaN with invalid. -/
def vadd (a b : Val) : Val × Nat :=
  let nv := flag (a.isSnan || b.isSnan) flNV
  match a, b with
  | .nan _, _ => (.nan false, nv)
  | _, .nan _ => (.nan false, nv)
  | .inf x, .inf y => if x = y then (.inf x, 0) else (.nan false, flNV)
  | .inf x, _ => (.inf x, 0)
  | _, .inf y => (.inf y, 0)
  | .fin x m e, .fin y n k =>
    let q := min e k
    let s : Int := sgn x (m * 2 ^ (e - q).toNat) + sgn y (n * 2 ^ (k - q).toNat)
    if s = 0 then (.fin (x && y) 0 0, 0) else (.fin (decide (s < 0)) s.natAbs q, 0)

/-- The exact product; 0 × ∞ is NaN with invalid. -/
def vmul (a b : Val) : Val × Nat :=
  let nv := flag (a.isSnan || b.isSnan) flNV
  let n := a.neg != b.neg
  match a, b with
  | .nan _, _ => (.nan false, nv)
  | _, .nan _ => (.nan false, nv)
  | .inf _, y => if y.isZero then (.nan false, flNV) else (.inf n, 0)
  | x, .inf _ => if x.isZero then (.nan false, flNV) else (.inf n, 0)
  | .fin _ m e, .fin _ k d => (.fin n (m * k) (e + d), 0)

/-- a × b + c exactly (R44); the invalid flag of the product or the sum. -/
def vfma (a b c : Val) : Val × Nat :=
  let p := vmul a b
  match p.1 with
  | .nan _ => (.nan false, flOr p.2 (flag c.isSnan flNV))
  | v => let s := vadd v c; (s.1, flOr p.2 s.2)

/-- The quotient with 160 significant bits and a sticky bit below them, so that one rounding of it is correct. -/
def vdiv (a b : Val) : Val × Nat :=
  let nv := flag (a.isSnan || b.isSnan) flNV
  let n := a.neg != b.neg
  match a, b with
  | .nan _, _ => (.nan false, nv)
  | _, .nan _ => (.nan false, nv)
  | .inf _, .inf _ => (.nan false, flNV)
  | .inf _, _ => (.inf n, 0)
  | _, .inf _ => (vzero n, 0)
  | .fin _ m e, .fin _ k d =>
    if k = 0 then (if m = 0 then (.nan false, flNV) else (.inf n, flDZ))
    else if m = 0 then (vzero n, 0)
    else
      let sh := 160 + bitLen k - min 160 (bitLen m)
      let x := m * 2 ^ sh
      (.fin n (x / k * 2 + b2n (x % k != 0)) (e - d - sh - 1), 0)

/-- Integer square root, one result bit per step from bit n − 1 down. -/
def isqrtBits : Nat → Nat → Nat → Nat
  | 0, _, r => r
  | n + 1, x, r =>
    let c := r + 2 ^ n
    isqrtBits n x (if c * c ≤ x then c else r)

/-- The square root with a sticky bit; of a negative number NaN with invalid; −0 gives −0. -/
def vsqrt (a : Val) : Val × Nat :=
  match a with
  | .nan s => (.nan false, flag s flNV)
  | .inf n => if n then (.nan false, flNV) else (.inf false, 0)
  | .fin n m e =>
    if m = 0 then (vzero n, 0)
    else if n then (.nan false, flNV)
    else
      let odd := (e % 2).toNat
      let x := m * 2 ^ odd * 4 ^ 160
      let r := isqrtBits (bitLen x / 2 + 1) x 0
      (.fin false (r * 2 + b2n (r * r != x)) ((e - odd) / 2 - 160 - 1), 0)

/-- An arithmetic operation's result in a format: its encoding, and the flags of the operation and the rounding. -/
def Fmt.arith (f : Fmt) (r : Val × Nat) : Nat × Nat :=
  let e := f.encode r.1
  (e.1, flOr r.2 e.2)

/-- Rounding of a value with an explicit mode and SAT (Table 2.4). -/
def Fmt.convert (f : Fmt) (mode : Rm) (sat exact : Bool) (v : Val) : Nat × Nat :=
  match v with
  | .nan s => (f.nanEnc, flag s flNV)
  | .inf n => (if sat && !exact then f.maxEnc + f.signBit n else if f.infs then f.infEnc n else f.nanEnc, 0)
  | .fin n m e => f.round mode (sat && !exact) n m e

/-- The order of two non-NaN values: negative, zero or positive as a < b, a = b, a > b; zeros are equal. -/
def vcmp (a b : Val) : Int :=
  match a, b with
  | .inf x, .inf y => if x = y then 0 else if x then -1 else 1
  | .inf x, _ => if x then -1 else 1
  | _, .inf y => if y then 1 else -1
  | .fin x m e, .fin y n k =>
    let q := min e k
    sgn x (m * 2 ^ (e - q).toNat) - sgn y (n * 2 ^ (k - q).toNat)
  | _, _ => 0

/-- −0 before +0, for maximum and minimum (R51). -/
def vless (a b : Val) : Bool :=
  let c := vcmp a b
  decide (c < 0) || (decide (c = 0) && a.neg && !b.neg)

/-- Which operand maximumNumber or minimumNumber returns; none is the canonical NaN (R51). -/
def pickMinMax (isMax : Bool) (a b : Val) : Option Bool × Nat :=
  let nv := flag (a.isSnan || b.isSnan) flNV
  if a.isNan && b.isNan then (none, nv)
  else if a.isNan then (some true, nv)
  else if b.isNan then (some false, nv)
  else if isMax then (some (vless a b), 0) else (some (vless b a), 0)

/-- Maximum or minimum of two encodings of a format (R51). -/
def Fmt.minMax (f : Fmt) (isMax : Bool) (a b : Nat) : Nat × Nat :=
  let r := pickMinMax isMax (f.decode a) (f.decode b)
  (match r.1 with | none => f.nanEnc | some true => b | some false => a, r.2)

/-- Comparison codes: EQ, NE, LT, LE, GT, GE with their value on ordered operands. -/
def cmpHolds (code : Nat) (c : Int) : Bool :=
  match code with
  | 0 => decide (c = 0)
  | 1 => decide (c ≠ 0)
  | 2 => decide (c < 0)
  | 3 => decide (c ≤ 0)
  | 4 => decide (0 < c)
  | 5 => decide (0 ≤ c)
  | _ => false

/-- A floating-point comparison (R52): ordered ones are false with a NaN, NE true; a quiet NaN raises invalid in LT, LE, GT, GE. -/
def fcmp (code : Nat) (a b : Val) : Bool × Nat :=
  let nan := a.isNan || b.isNan
  let nv := flag (a.isSnan || b.isSnan || (nan && decide (2 ≤ code))) flNV
  if nan then (decide (code = 1), nv) else (cmpHolds code (vcmp a b), nv)

/-- The value of a double-single pair, hi + lo: lo in [31:0], hi in [63:32] (R57). A signalling NaN in either word makes a signalling NaN
(R39). The sum of opposite infinities is a NaN that raises invalid as that addition does (DEDUCED, log entry 63). -/
def dsVal (b : Nat) : Val :=
  let r := vadd (fFP32.decode (fld b 32 32)) (fFP32.decode (fld b 0 32))
  match r.1 with
  | .nan _ => .nan (r.2 &&& flNV != 0)
  | v => v

/-- A pair from its words. -/
def dsPack (hi lo : Nat) : Nat := hi * 2 ^ 32 + lo

/-- The word lo that goes with a word hi: rn(x − hi), +0 when nothing is left, and the flags of its rounding (R59). -/
def dsLo (v : Val) (hi : Nat) : Nat × Nat :=
  let d := vadd v (fFP32.decode hi).negate
  if d.1.isZero then (0, 0) else fFP32.encode d.1

/-- A pair written normalised: hi := rn(hi + lo), lo the exact rest (R58). Where rn(hi + lo) would overflow the pair stays as it is, since R59
gives a finite value no infinity there (DEDUCED, log entry 63). -/
def dsNormal (hi lo : Nat) : Nat :=
  let v := (vadd (fFP32.decode hi) (fFP32.decode lo)).1
  let h := fFP32.encode v
  if h.2 &&& flOF ≠ 0 ∨ v.isZero then dsPack hi lo else dsPack h.1 (dsLo v h.1).1

/-- A value rounded to 24 significant bits, the exponent unbounded. -/
def Val.rn24 : Val → Val
  | .fin n m e => let q : Int := e + bitLen m - 24; .fin n (roundAt .rne m e q).1 q
  | v => v

/-- The pair nearest a value is tiny as though the exponent were unbounded: below FP32's smallest normal, the range of DS32 being FP32's
(R53, R59; DEDUCED, log entry 63). -/
def dsTiny (v : Val) : Bool :=
  let h := v.rn24
  match (vadd h (vadd v h.negate).1.rn24).1 with
  | .fin _ m e => m != 0 && decide (e + (bitLen m : Int) - 1 < -126)
  | _ => false

/-- Rounding of an exact value to a pair: hi := rn(x) under Table 2.4, lo := rn(x − hi), written normalised; lo is +0 when hi overflowed
(R58, R59). Where lo rounds up to half a unit of an odd hi, R59's words alone give a pair that R58 does not call normalised: the model
follows R58, the value being the same (DEDUCED, log entry 63). -/
def dsRound (sat exact : Bool) (v : Val) : Nat × Nat :=
  let h := fFP32.convert .rne sat exact v
  match v with
  | .fin .. =>
    if h.2 &&& flOF ≠ 0 then (dsPack h.1 0, h.2)
    else
      let l := dsLo v h.1
      let inexact := l.2 &&& flNX != 0
      (dsNormal h.1 l.1, flOr (flag inexact flNX) (flag (inexact && dsTiny v) flUF))
  | _ => (dsPack h.1 0, h.2)

/-- Rounds a value to an integer (R49), with whether anything was discarded; infinities and NaN are handled by the caller. -/
def vint (mode : Rm) (neg : Bool) (m : Nat) (e : Int) : Int × Bool :=
  let r := roundAt mode m e 0
  (sgn neg r.1, r.2)

/-- Floating point to an integer of n bits (R49): saturates, NaN gives 0, both with invalid. -/
def toInt (n : Nat) (mode : Rm) (v : Val) : Nat × Nat :=
  match v with
  | .nan _ => (0, flNV)
  | .inf neg => (if neg then 2 ^ (n - 1) else 2 ^ (n - 1) - 1, flNV)
  | .fin neg m e =>
    let r := vint mode neg m e
    let c := satS n r.1
    (wrapTo n c.1, if c.2 then flNV else flag r.2 flNX)

/-- An integer as an exact value. -/
def ofInt (i : Int) : Val := .fin (decide (i < 0)) i.natAbs 0

/-- The value of an encoding of any code but an MX one: floats, DS32 and integers. -/
def valOf (c b : Nat) : Val :=
  match fmtOf c with
  | some f => f.decode b
  | none => if c = 14 then dsVal b else ofInt (signed (intBits c) b)

/-- Code `d` holds every value of code `c` exactly (R47). -/
def holdsAll (c d : Nat) : Bool :=
  if isInt c then
    (match fmtOf d with
     | some f => decide (intBits c ≤ f.fb + 1) && decide (intBits c ≤ f.bias)
     | none => (d == 14) && decide (intBits c ≤ 32))
  else match fmtOf c, fmtOf d with
    | some f, some g =>
      decide (f.fb ≤ g.fb) && decide (f.bias + f.fb ≤ g.bias + g.fb) && decide (f.bias ≤ g.bias) && (g.infs || !f.infs)
        && (g.infs || decide (f = g))
    | some f, none => (d == 14) && decide (f.fb ≤ 23) && decide (f.eb ≤ 8)
    | none, _ => false

/-- Table 2.4 does not govern a conversion: the target holds every value of the source, or it is FP64, which is never such a target
(R47, R48). -/
def untabled (c d : Nat) : Bool := holdsAll c d || d == 3

/-- A conversion between two codes, neither an MX format (R47–R49, R59, R456): encoding and flags. The normalisation of a DS32 pair raises
no flag but invalid, also where the new hi overflows: R456 names no other (DESIGN CHOICE, log entry 63). -/
def cvt (c d : Nat) (mode : Rm) (sat : Bool) (b : Nat) : Nat × Nat :=
  let v := valOf c b
  if c = d then
    (match fmtOf c with
     | some f => if v.isNan then (f.nanEnc, flag v.isSnan flNV) else (b, 0)
     | none =>
       if c = 14 then
         (match v with
          | .fin n m e => ((dsRound false true (.fin n m e)).1, 0)
          | w => (dsPack (fFP32.convert .rne false true w).1 0, flag w.isSnan flNV))
       else (b, 0))
  else if isInt d then
    (if isInt c then
      (let r := satS (intBits d) (signed (intBits c) b)
       (wrapTo (intBits d) r.1, flag r.2 flNV))
     else toInt (intBits d) mode v)
  else if d = 14 then dsRound sat (holdsAll c d) v
  else match fmtOf d with
    | some f => f.convert mode sat (untabled c d) v
    | none => (0, 0)

/-- An element's value under a block scale (R41): scale 0xFF makes it NaN; NaN and infinite elements stay. -/
def mxVal (c scale b : Nat) : Val :=
  if scale = 0xFF then .nan false
  else match valOf c b with
    | .fin n m e => .fin n m (e + ((scale : Int) - 127))
    | v => v

/-- emax of an MX element format (R42). -/
def mxEmax (c : Nat) : Int := nth 0 [8, 15, 2, 4, 2] (c - 6)

/-- floor(log2) of a finite non-zero value. -/
def vlog2 (m : Nat) (e : Int) : Int := e + (bitLen m : Int) - 1

/-- Conversion of a block into an MX format (R42): scale byte, element encodings, flags. `draws` gives each element's rounding. -/
def mxBlock (c : Nat) (mode : Nat → Rm) (xs : List Val) : Nat × List Nat × Nat :=
  match fmtOf c with
  | none => (0, [], 0)
  | some f =>
    if xs.any (fun v => match v with | .fin .. => false | _ => true) then (0xFF, xs.map (fun _ => 0), flNV)
    else
      let big := xs.foldl (fun a v => if vcmp a.abs v.abs < 0 then v else a) (vzero false)
      if big.isZero then (0, xs.map (fun v => f.signBit v.neg), 0)
      else
        let l := match big with | .fin _ m e => vlog2 m e | _ => 0
        let s := (max 0 (min 254 (l - mxEmax c + 127))).toNat
        let es := (List.range xs.length).map (fun i =>
          match nth (vzero false) xs i with
          | .fin n m e => f.round (mode i) true n m (e - ((s : Int) - 127))
          | _ => (0, 0))
        (s, es.map (·.1), (es.map (·.2)).foldl flOr 0)

end Sys2Proof.Machine
end

