-- ==== Sys2Proof/Machine/Atomics.lean ====
section
/-! DEFINITION. What an access does to a 128-byte line: bytes and poison marks, stores, atomics, reductions and REDL
(R185–R192, R272). -/

namespace Sys2Proof.Machine

/-- Bits of the bytes that a mask of `n` bytes names. -/
def byteMask (n mask : Nat) : Nat := (bitsOf n mask).foldl (fun a k => a + 255 * 256 ^ k) 0

/-- The format codes of atomics: INT32, INT64, FP32, BF16, FP64 (Table 7.4). -/
def atomicSize (ty : Nat) : Nat := fmtBits ty / 8

/-- The combinations of Table 7.4 (R187). -/
def atomicOk (ty sub : Nat) : Bool :=
  if ty = 12 ∨ ty = 13 then decide (sub ≤ 7) else (ty == 0 || ty == 2 || ty == 3) && decide (sub ≤ 2)

/-- The new value of a location from its old value, the operand and the compare value (R87, R188): integers wrap, floating point
rounds once in the data's format. Operations 8 and 9 are a node core's AMOMINU and AMOMAXU (R30). -/
def atomicNew (ty sub old op cmp : Nat) : Nat :=
  match fmtOf ty with
  | some f =>
    if sub = 0 then (f.arith (vadd (f.decode old) (f.decode op))).1
    else (f.minMax (sub == 2) old op).1
  | none =>
    let n := intBits ty
    let a := signed n old
    let b := signed n op
    match sub with
    | 0 => (old + op) % 2 ^ n
    | 1 => if a ≤ b then old else op
    | 2 => if a ≤ b then op else old
    | 3 => old &&& op
    | 4 => old ||| op
    | 5 => old ^^^ op
    | 6 => op
    | 8 => if old ≤ op then old else op
    | 9 => if old ≤ op then op else old
    | _ => if old = cmp then op else old

end Sys2Proof.Machine

namespace Sys2Proof
open Machine

/-- A line of zeros. -/
def Line.zero : Line := { data := 0, pmask := 0 }

/-- A line wholly poisoned (Table 9.14, R302). -/
def Line.dead : Line := { data := 0, pmask := 15 }

/-- `n` bytes of a line from byte `o`. -/
def Line.get (l : Line) (o n : Nat) : Nat := fld l.data.toNat (8 * o) (8 * n)

/-- Some sector that `n` bytes from `o` touch is marked poisoned (R272). -/
def Line.marked (l : Line) (o n : Nat) : Bool := (sectorsOf o n).any (fun k => bitOf l.pmask.toNat k)

/-- Marks sectors of a line as poisoned (R215, R277). -/
def Line.lose (l : Line) (m : BitVec 4) : Line := { l with pmask := l.pmask ||| m }

/-- Merges `n` bytes at byte `o` under a byte mask. A sector written whole takes the data's own mark, a sector written in part
stays marked (R272); poisoned data marks what it touches. -/
def Line.merge (l : Line) (o n data mask : Nat) (poisoned : Bool) : Line :=
  let m := byteMask n mask * 256 ^ o
  let d := (data % 256 ^ n) * 256 ^ o
  let sect := fun (k : Nat) => fld m (256 * k) 256
  let mark := fun (k : Nat) =>
    if sect k = 0 then bitOf l.pmask.toNat k
    else if sect k = 2 ^ 256 - 1 then poisoned
    else bitOf l.pmask.toNat k || poisoned
  { data := BitVec.ofNat 1024 ((l.data.toNat &&& (2 ^ 1024 - 1 - m)) ||| (d &&& m))
    pmask := BitVec.ofNat 4 (b2n (mark 0) + b2n (mark 1) * 2 + b2n (mark 2) * 4 + b2n (mark 3) * 8) }

/-- Marks the sectors that `n` bytes from `o` touch, their bytes unchanged (R156). -/
def Line.taint (l : Line) (o n : Nat) : Line :=
  { l with pmask := (sectorsOf o n).foldl (fun (m : BitVec 4) k => m ||| (1#4 <<< k)) l.pmask }

/-- REDL on one line: adds each participating lane's 4 bytes element-wise (R87, R191). -/
def Line.redl (l : Line) (ty data lanes : Nat) : Line :=
  let per := if ty = 0 then 2 else 1
  let w := 4 / per
  (bitsOf 32 lanes).foldl (fun (t : Line) i =>
    (List.range per).foldl (fun (u : Line) j =>
      let o := 4 * i + w * j
      u.merge o w (atomicNew ty 0 (u.get o w) (fld data (8 * o) (8 * w)) 0) (2 ^ w - 1) false) t) l

end Sys2Proof

namespace Sys2Proof.Machine

/-- Performs an access on its line as it stands: the line after it, the reply, whether it was written, and whether a reduction
was discarded on poison (R188, R191, R192). A copy's reduction with a poisoned source element marks the element's sector (R156). -/
def Req.apply (r : Req) (l : Line) : Line × AccResult × Bool × Bool :=
  let o := r.pa % 128
  match r.kind with
  | .load | .fetch | .bread => (l, .line l, false, false)
  | .flush => (l, .ok, false, false)
  | .store | .bwrite => (l.merge o r.size r.data.toNat r.mask.toNat r.poisoned, .ok, true, false)
  | .atomic =>
    if l.marked o r.size then (l, .poison, false, false)
    else
      let v := atomicNew r.ty r.sub (l.get o r.size) (fld r.data.toNat 0 (8 * r.size)) r.cmp.toNat
      (l.merge o r.size v (2 ^ r.size - 1) false, .line l, true, false)
  | .red =>
    if r.poisoned then (l.taint o r.size, .ok, true, false)
    else if l.marked o r.size then (l, .ok, false, true)
    else (l.merge o r.size (atomicNew r.ty r.sub (l.get o r.size) (fld r.data.toNat 0 (8 * r.size)) r.cmp.toNat) (2 ^ r.size - 1) false,
      .ok, true, false)
  | .redl =>
    if l.pmask ≠ 0 then (l, .ok, false, true) else (l.redl r.ty r.data.toNat r.mask.toNat, .ok, true, false)

/-- Performs an access on a host line: an add-to-line on each 64-byte half by itself, discarded on the half that holds poison (R191, R192).
The line after it, the reply, whether it was written, and the reductions discarded. -/
def Req.applyHost (r : Req) (l : Line) : Line × AccResult × Bool × Nat :=
  match r.kind with
  | .redl =>
    (List.range 2).foldl (fun (a : Line × AccResult × Bool × Nat) i =>
      let m := fld r.mask.toNat (16 * i) 16 * 2 ^ (16 * i)
      if m = 0 then a
      else if fld l.pmask.toNat (2 * i) 2 ≠ 0 then (a.1, a.2.1, a.2.2.1, a.2.2.2 + 1)
      else (a.1.redl r.ty r.data.toNat m, a.2.1, true, a.2.2.2)) (l, .ok, false, 0)
  | _ => let a := r.apply l; (a.1, a.2.1, a.2.2.1, b2n a.2.2.2)

/-- An access writes its line when performed. -/
def AccKind.writes : AccKind → Bool
  | .load | .fetch | .bread | .flush => false
  | _ => true

/-- The kinds that need Read, Write and Execute permission, bits 0, 1, 2 (R253, Table 10.3). -/
def AccKind.need : AccKind → Nat
  | .load | .bread | .flush => 1
  | .fetch => 4
  | .atomic => 3
  | _ => 2

end Sys2Proof.Machine
end

