-- ==== Sys2Proof/Machine/Xlate.lean ====
section
/-! DEFINITION. Address translation: tree pseudo-LRU, translation cache and micro-caches, probes, fills and removals, walks
(chapter 10). -/

namespace Sys2Proof.Machine

/-- Points the tree bits on the path of `way` away from it; node n of 2^lv ways has bit n. -/
def plruGo : Nat → Nat → Nat → Nat → Nat
  | 0, _, bits, _ => bits
  | k + 1, node, bits, way => let b := fld way k 1; plruGo k (2 * node + b) (setFld bits node 1 (1 - b)) way

/-- Tree pseudo-LRU bits after a use of `way`. -/
def plruTouch (lv bits way : Nat) : Nat := plruGo lv 1 bits way

/-- Some way from `base` on, `n` of them, is allowed. -/
def anyWay (ok : Nat → Bool) (base n : Nat) : Bool := (List.range n).any (fun i => ok (base + i))

/-- Follows the tree bits to a way, taking the other subtree where the pointed one has no allowed way. -/
def plruFind (ok : Nat → Bool) : Nat → Nat → Nat → Nat → Nat
  | 0, _, base, _ => base
  | k + 1, node, base, bits =>
    let b := fld bits node 1
    let c := if anyWay ok (base + b * 2 ^ k) (2 ^ k) then b else 1 - b
    plruFind ok k (2 * node + c) (base + c * 2 ^ k) bits

/-- The way that tree pseudo-LRU takes among the allowed ones (R209, R226, R254). -/
def plruPick (lv bits : Nat) (ok : Nat → Bool) : Option Nat :=
  if anyWay ok 0 (2 ^ lv) then some (plruFind ok lv 1 0 bits) else none

/-- Set of a 32 MiB or 1 GiB page in the translation cache (R254). -/
def tcSet (big : Bool) (space page : Nat) : Nat :=
  if big then (fld page 0 11) ^^^ (fld page 11 11) ^^^ (space <<< 7) ^^^ 0x400
  else (fld page 0 11) ^^^ (fld page 11 11) ^^^ (fld page 22 5) ^^^ (space <<< 7)

/-- Set of a page in a micro-cache (R254). -/
def mcSet (big : Bool) (space page : Nat) : Nat :=
  if big then (fld page 0 7) ^^^ (fld page 7 7) ^^^ (fld page 14 7) ^^^ (fld page 21 1) ^^^ (space <<< 3) ^^^ 0x40
  else (fld page 0 7) ^^^ (fld page 7 7) ^^^ (fld page 14 7) ^^^ (fld page 21 6) ^^^ (space <<< 3)

/-- Page number of an address: VA[51:25], or VA[51:30]. -/
def pageOf (big : Bool) (va : Nat) : Nat := if big then fld va 30 22 else fld va 25 27

/-- The way of a set at `base` that holds a page. -/
def tcFind (t : Sparse TcEntry) (base ways : Nat) (big : Bool) (space page : Nat) : Option (Nat × TcEntry) :=
  ((List.range ways).filterMap (fun w =>
    match alFind t (base + w) with
    | some e => if e.space = space ∧ e.page = page ∧ e.big = big then some (w, e) else none
    | none => none)).head?

/-- Puts an entry in a set, over the page's own entry, else in an empty way, else in the pseudo-LRU way. -/
def tcPut (t : Sparse TcEntry) (plru : Sparse Nat) (lv set pkey base : Nat) (e : TcEntry) : Sparse TcEntry × Sparse Nat :=
  let bits := alGet 0 plru pkey
  let way := match tcFind t base (2 ^ lv) e.big e.space e.page with
    | some (w, _) => w
    | none =>
      match (List.range (2 ^ lv)).find? (fun w => (alFind t (base + w)).isNone) with
      | some w => w
      | none => (plruPick lv bits (fun _ => true)).getD set
  (alPut t (base + way) e, alPut plru pkey (plruTouch lv bits way))

/-- Puts an entry into the translation cache. -/
def Xlt.putTc (x : Xlt) (e : TcEntry) : Xlt :=
  let set := tcSet e.big e.space e.page
  let r := tcPut x.tc x.tcPlru 4 0 set (set * 16) e
  { x with tc := r.1, tcPlru := r.2 }

/-- Translation is enabled in a space; the caches hold nothing for one where it is not (R249, R254). -/
def Xlt.on (x : Xlt) (space : Nat) : Bool := bitOf (alGet 0 x.root space).toNat 0

/-- Everything cached for a space goes, as its EN is cleared (R254). -/
def Xlt.purge (x : Xlt) (space : Nat) : Xlt :=
  { x with tc := x.tc.filter (fun e => e.2.space != space), mc := x.mc.filter (fun e => e.2.space != space) }

/-- Puts an entry into the micro-cache of a pair. -/
def Xlt.putMc (x : Xlt) (pair : Nat) (e : TcEntry) : Xlt :=
  let set := pair * 128 + mcSet e.big e.space e.page
  let r := tcPut x.mc x.mcPlru 3 0 set (set * 8) e
  { x with mc := r.1, mcPlru := r.2 }

/-- The translation-cache entry of an address, 32 MiB or 1 GiB. -/
def Xlt.inTc (x : Xlt) (big : Bool) (space va : Nat) : Option TcEntry :=
  let page := pageOf big va
  (tcFind x.tc (tcSet big space page * 16) 16 big space page).map (·.2)

/-- The micro-cache entry of an address. -/
def Xlt.inMc (x : Xlt) (pair : Nat) (big : Bool) (space va : Nat) : Option TcEntry :=
  let page := pageOf big va
  (tcFind x.mc ((pair * 128 + mcSet big space page) * 8) 8 big space page).map (·.2)

/-- First address of an entry's target region plus its offset, the bits below `low` cleared (R251). -/
def entryAddr (e : W64) (low : Nat) : Nat :=
  (nth 0x800000000000 [0, 0x010000000000, 0x800000000000] (wfld e 5 2) + wfld e 8 39 * 256) / 2 ^ low * 2 ^ low

/-- The translated address of a leaf (R251). -/
def leafPa (e : W64) (big : Bool) (va : Nat) : Nat :=
  let low := if big then 30 else 25
  nth 0x800000000000 [0, 0x010000000000, 0x800000000000] (wfld e 5 2) + (wfld e 8 39 * 256) / 2 ^ low * 2 ^ low + va % 2 ^ low

/-- A leaf permits the kinds needed (R253, Tables 10.2, 10.3): R, W, X stand in bits 2 to 4. -/
def leafPermits (e : W64) (need : Nat) : Bool := decide (need &&& (wfld e 2 3) = need)

/-- What a lookup gives: an address, a refusal at once (R249, R261) or a miss. -/
inductive Look where
  | hit (pa : Nat)
  | refused
  | miss
  deriving DecidableEq, Repr

/-- The leaf of an entry, when it permits the need. -/
def TcEntry.grant (e : TcEntry) (need va : Nat) : Option Nat :=
  match e.leaf with
  | some l => if leafPermits l need then some (leafPa l e.big va) else none
  | none => none

/-- The entry of either page size that grants the need. -/
def grantOf (a b : Option TcEntry) (need va : Nat) : Option (TcEntry × Nat) :=
  match a.bind (fun e => (e.grant need va).map (fun p => (e, p))) with
  | some r => some r
  | none => b.bind (fun e => (e.grant need va).map (fun p => (e, p)))

/-- A refusal record covers a kind that is needed (R261). -/
def refusedBy (a : Option TcEntry) (need : Nat) : Bool :=
  match a with
  | some e => decide (e.refused.toNat &&& need ≠ 0)
  | none => false

/-- Looks an address up for a unit served by the micro-cache of a pair, or by the translation cache alone (R249, R254, R255,
R261). -/
def Xlt.look (x : Xlt) (pair : Option Nat) (space va need : Nat) : Look × Xlt :=
  if !(x.on space) then (.refused, x)
  else
    match pair.bind (fun n => grantOf (x.inMc n false space va) (x.inMc n true space va) need va) with
    | some (e, pa) => (.hit pa, match pair with | some n => x.putMc n e | none => x)
    | none =>
      if refusedBy (x.inTc false space va) need then (.refused, x)
      else
        match grantOf (x.inTc false space va) (x.inTc true space va) need va with
        | some (e, pa) =>
          let x1 := x.putTc e
          (.hit pa, match pair with | some n => x1.putMc n { e with refused := 0 } | none => x1)
        | none => (.miss, x)

/-- Looks an address up in the state; an access in a disabled space is counted (R249). -/
def State.look (s : State) (pair : Option Nat) (space va need : Nat) : Look × State :=
  let r := s.xlt.look pair space va need
  let s1 := { s with xlt := r.2 }
  (r.1, if s.xlt.on space then s1 else s1.count (svc 4))

/-- How a walk ends (R252). -/
inductive WalkEnd where
  | stop (cause level : Nat) (entry : W64)
  | leaf (e : W64) (big : Bool) (level : Nat)
  deriving DecidableEq, Repr

/-- A walk over the entries it read, top first; an absent entry is a read that returned poison or a decode error (R252). -/
def walkEnd (root : W64) (reads : List (Option W64)) : WalkEnd :=
  if 2 ≤ wfld root 1 2 then .stop 3 0 0
  else
    match nth none reads 0 with
    | none => .stop 4 0 0
    | some e0 =>
      if wfld e0 0 1 = 0 then .stop 1 0 e0
      else if wfld e0 1 1 = 1 ∨ 2 ≤ wfld e0 5 2 then .stop 3 0 e0
      else
        match nth none reads 1 with
        | none => .stop 4 1 0
        | some e1 =>
          if wfld e1 0 1 = 0 then .stop 1 1 e1
          else if wfld e1 1 1 = 1 then (if wfld e1 5 2 = 3 then .stop 3 1 e1 else .leaf e1 true 1)
          else if 2 ≤ wfld e1 5 2 then .stop 3 1 e1
          else
            match nth none reads 2 with
            | none => .stop 4 2 0
            | some e2 =>
              if wfld e2 0 1 = 0 then .stop 1 2 e2
              else if wfld e2 1 1 = 0 ∨ wfld e2 5 2 = 3 then .stop 3 2 e2
              else .leaf e2 false 2

/-- An entry is for a page that an invalidation names: kind 1 page, 2 space, 3 all (R266, R267). -/
def TcEntry.named (e : TcEntry) (i : Nat × Nat × Nat) : Bool :=
  match i.1 with
  | 1 => e.space == i.2.1 && (if e.big then decide (e.page = i.2.2 / 32) else decide (e.page = i.2.2))
  | 2 => e.space == i.2.1
  | _ => true

/-- A pair (space, page) is named by an invalidation. -/
def pageNamed (i : Nat × Nat × Nat) (space page : Nat) : Bool :=
  match i.1 with
  | 1 => space == i.2.1 && page == i.2.2
  | 2 => space == i.2.1
  | _ => true

/-- An access to a page was translated with an entry that an invalidation removes: of a page, that page's, or the 1 GiB entry that holds it (R267). -/
def Xlt.removes (x : Xlt) (i : Nat × Nat × Nat) (space page : Nat) : Bool :=
  pageNamed i space page
    || (i.1 == 1 && space == i.2.1 && decide (page / 32 = i.2.2 / 32) && (x.tc ++ x.mc).any (fun e => e.2.big && e.2.named i))

/-- Removes the named entries and refusal records from every cache, and restarts the walks that could bring one back: those of the named pages, and
those of a named page's GiB, whose leaf may be the same (R265, R267). -/
def Xlt.remove (x : Xlt) (i : Nat × Nat × Nat) : Xlt :=
  { x with
    tc := x.tc.filter (fun e => !(e.2.named i))
    mc := x.mc.filter (fun e => !(e.2.named i))
    pend := x.pend.map (fun p => (p.1,
      if p.2.st = .walk ∧ (pageNamed i p.2.space p.2.page ∨ (i.1 = 1 ∧ p.2.space = i.2.1 ∧ p.2.page / 32 = i.2.2 / 32))
      then { p.2 with restart := true } else p.2)) }

/-- An invalidation takes effect in the caches, and waits for the accesses translated with what it removes that have not landed (R266, R267). -/
def State.invalNow (s : State) (i : Nat × Nat × Nat) : State :=
  let ids := (s.reqs.filter (fun e => s.xlt.removes i e.2.space (fld e.2.va 25 27) &&
    (match e.2.stage with | .backoff _ | .sent | .atHome | .filling => true | _ => false))).map (·.1)
  { s with xlt := { s.xlt.remove i with invalIds := ids } }

/-- Accepts an invalidation: at most 16 are held, in order; the one at the head has taken effect in the caches (R266). -/
def State.invalAccept (s : State) (i : Nat × Nat × Nat) : State :=
  if 16 ≤ s.xlt.inval.length then { s with xlt := { s.xlt with invalWait := s.xlt.invalWait ++ [i] } }
  else
    let s1 := if s.xlt.inval.isEmpty then s.invalNow i else s
    { s1 with xlt := { s1.xlt with inval := s1.xlt.inval ++ [i], issued := (s1.xlt.issued + 1) % 2 ^ 32 } }

/-- The head invalidation is complete: DONE advances, a waiting write is accepted and the next one takes effect (R266, R267). -/
def State.invalRetire (s : State) : State :=
  let x1 := { s.xlt with inval := s.xlt.inval.tail, done := (s.xlt.done + 1) % 2 ^ 32, invalIds := [] }
  let x2 := match x1.invalWait with
    | [] => x1
    | i :: r => { x1 with invalWait := r, inval := x1.inval ++ [i], issued := (x1.issued + 1) % 2 ^ 32 }
  let s2 : State := { s with xlt := x2 }
  match x2.inval with
  | [] => s2
  | i :: _ => s2.invalNow i

/-- Index and generation of a pending entry as its PID (R258). -/
def Xlt.pid (x : Xlt) (k : Nat) : Nat := k + (alGet 0 x.gen k % 128) * 512

/-- Advances the generation of an entry (R258). -/
def Xlt.nextGen (x : Xlt) (k : Nat) : Xlt := { x with gen := alPut x.gen k ((alGet 0 x.gen k + 1) % 128) }

end Sys2Proof.Machine
end

