-- ==== Sys2Proof/Machine/Admit.lean ====
section
/-! DEFINITION. Admission: levels and their pools, routes over Col and Ridge, tokens, acceptance and refusal (R290, R293–R299,
R303, R313, R317). -/

namespace Sys2Proof.Machine

/-- State of a Col port: 3n + k for pair n, 12 + k for the hub end of spoke k (Table 12.2). -/
def State.colPort (s : State) (k : Nat) : ColPort := alGet {} s.cols k

/-- A port carries traffic: UP or DEGRADED. -/
def State.colUp (s : State) (k : Nat) : Bool := let c := s.colPort k; c.state == 1 || c.state == 2

/-- The COL_PORT index k by which pair n reaches a ring neighbour m. -/
def ringK (n m : Nat) : Nat := if m = (n + 1) % 4 then 0 else 1

/-- The two pairs are ring neighbours. -/
def ringNext (n m : Nat) : Bool := decide (m = (n + 1) % 4) || decide (m = (n + 3) % 4)

/-- The levels of one ring hop, when its port is open. -/
def State.hop (s : State) (n m : Nat) : Option (List Level) :=
  if s.colUp (3 * n + ringK n m) then some [.col n (ringK n m)] else none

/-- Two hops over spokes through H. -/
def State.viaHub (s : State) (n m : Nat) : Option (List Level) :=
  if s.colUp (3 * n + 2) && s.colUp (12 + m) then some [.col n 2, .colHub m] else none

/-- The hops through a relay. -/
def State.viaRelay (s : State) (n r m : Nat) : Option (List Level) :=
  match s.hop n r, s.hop r m with
  | some a, some b => some (a ++ b)
  | _, _ => none

/-- Col levels from pair n to pair m ≠ n (Table 12.3); none when every route is cut. -/
def State.colRoute (s : State) (n m line : Nat) : Option (List Level) :=
  if ringNext n m then
    match s.hop n m with
    | some l => some l
    | none => s.viaHub n m
  else
    let a := if Free.relayHash line then (n + 1) % 4 else (n + 3) % 4
    match s.viaRelay n a m with
    | some l => some l
    | none =>
      match s.viaRelay n ((a + 2) % 4) m with
      | some l => some l
      | none => s.viaHub n m

/-- Col levels between H and pair m, outward or inward (Table 12.3): the spoke, else a ring neighbour whose spoke is open, the
next one first. -/
def State.hubRoute (s : State) (m : Nat) (out : Bool) : Option (List Level) :=
  let leg := fun (r : Nat) => if out then Level.colHub r else Level.col r 2
  if s.colUp (12 + m) then some [leg m]
  else
    let r1 := (m + 1) % 4
    let r2 := (m + 3) % 4
    let go := fun (r : Nat) => if s.colUp (12 + r) then (if out then s.hop r m else s.hop m r).map (fun h => leg r :: h) else none
    match go r1 with
    | some l => some l
    | none => go r2

/-- The foundation die whose island a level belongs to, when it is one's (R17, R302). -/
def foundationOf : Level → Option Nat
  | .heavyEgress d | .srcFabric d | .dstFabric d | .slice d _ | .bank d _ | .hbm d _ _ | .lpddr d _ => some d
  | _ => none

/-- Pool of a level while its island runs (Tables 12.5, 12.8, R285, R298, R307, R313); a stretched tile's clock has periods a quarter longer
(R390, R391). -/
def State.fullPool (s : State) : Level → Nat
  | .tileEgress d t => if (s.tile d t).stretched then 60 * opMHz (s.die d).op * 4 / 5000 else 60 * opMHz (s.die d).op / 1000
  | .hubEgress => 288
  | .heavyEgress _ => 1152
  | .engineEgress _ => 288
  | .serviceEgress _ => 72
  | .srcFabric _ => 3840
  | .col d k => if s.colUp (3 * d + k) then 304 * (s.colPort (3 * d + k)).mods else 0
  | .colHub d => if s.colUp (12 + d) then 304 * (s.colPort (12 + d)).mods else 0
  | .dstFabric _ => 5760
  | .slice _ _ => 480
  | .bank _ _ => 960
  | .hbm d k _ => nth 200 [200, 200, 150, 100, 50] (alGet {} s.hbm (d * 3 + k)).lvl
  | .lpddr d c => if (s.chan d (96 + c)).heat = 2 then 105 else 210
  | .hostLevel => if s.plat.hpState = 1 then 1536 else 0
  | .ridge l => let v := s.link l; if v.state = 2 then 700 else if v.state = 3 then 525 else 0

/-- Current pool of a level: a level of an island that has stopped for good grants nothing (R17, R302). -/
def State.pool (s : State) (l : Level) : Nat :=
  if ((foundationOf l).map (fun d => s.plat.lostF.contains d)).getD false then 0 else s.fullPool l

/-- Tokens of a level outstanding. -/
def State.issued (s : State) (l : Level) : Nat := ((s.tokens.find? (fun e => e.1 == l)).map (·.2)).getD 0

/-- Since when each token of a level that a source holds has been unused, oldest first. -/
def State.heldSince (s : State) (q : Source) (l : Level) : List Nat := ((s.held.find? (fun e => e.1 == (q, l))).map (·.2)).getD []

/-- Tokens of a level a source holds unused. -/
def State.holds_ (s : State) (q : Source) (l : Level) : Nat := (s.heldSince q l).length

/-- Sets the outstanding count of a level; zero is not listed. -/
def State.setIssued (s : State) (l : Level) (n : Nat) : State :=
  let rest := s.tokens.filter (fun e => e.1 != l)
  { s with tokens := if n = 0 then rest else rest ++ [(l, n)] }

/-- Sets a source's unused tokens of a level; none is not listed. -/
def State.setHeld (s : State) (q : Source) (l : Level) (ts : List Nat) : State :=
  let rest := s.held.filter (fun e => e.1 != (q, l))
  { s with held := if ts.isEmpty then rest else rest ++ [((q, l), ts)] }

/-- A source receives `n` tokens of a level at this moment. -/
def State.addHeld (s : State) (q : Source) (l : Level) (n : Nat) : State :=
  s.setHeld q l (s.heldSince q l ++ List.replicate n s.now)

/-- A source uses, or gives up, its `n` oldest tokens of a level; which of its tokens it uses is not visible (log entry 25). -/
def State.useHeld (s : State) (q : Source) (l : Level) (n : Nat := 1) : State := s.setHeld q l ((s.heldSince q l).drop n)

/-- A source asks a level for tokens (R294). -/
def State.ask (s : State) (q : Source) (l : Level) : State :=
  if s.asks.any (fun e => e.1 == (l, q)) then s else { s with asks := s.asks ++ [((l, q), [])] }

/-- A token goes back to its level (R294). -/
def State.giveBack (s : State) (l : Level) : State := s.setIssued l (s.issued l - 1)

/-- The source whose tokens an access uses (R293, R299). -/
def Who.source : Who → Source
  | .lane c _ _ => .tile c.die c.tile
  | .fetch c _ => .tile c.die c.tile
  | .bucker (.tile d t _) _ => .tile d t
  | .bucker (.heavy d _) _ => .heavy d
  | .stream _ _ => .hub
  | .engine d _ _ => .engine d
  | .aperture _ => .hub
  | .remote _ _ l => .ridge l
  | .unit q _ => q

/-- The pair whose micro-cache serves an access; none: the translation cache alone (R254). -/
def Who.pair : Who → Option Nat
  | .lane c _ _ => some c.die
  | .fetch c _ => some c.die
  | .bucker (.tile d _ _) _ => some d
  | .bucker (.heavy d _) _ => some d
  | .stream _ _ => none
  | .engine d _ _ => some d
  | .aperture _ => none
  | .remote _ _ _ => none
  | .unit _ _ => none

/-- A tile the access belongs to. -/
def Who.tile : Who → Option (Nat × Nat)
  | .lane c _ _ => some (c.die, c.tile)
  | .fetch c _ => some (c.die, c.tile)
  | .bucker (.tile d t _) _ => some (d, t)
  | _ => none

/-- The die a source lies on; none is H. -/
def srcDie : Source → Option Nat
  | .tile d _ => some d
  | .heavy d => some d
  | .engine d => some d
  | .service d => some d
  | .ridge l => some (l / 16)
  | .hub => none

/-- The levels a source's requests begin with (R293, R299); one that arrives over Ridge begins at the fabric of the link's die (R295; which
levels are the package's own for it is DEDUCED, log entry 25). -/
def sourceLevels : Source → List Level
  | .tile d t => [.tileEgress d t, .srcFabric d]
  | .heavy d => [.heavyEgress d, .srcFabric d]
  | .engine d => [.engineEgress d, .srcFabric d]
  | .service d => [.serviceEgress d, .srcFabric d]
  | .ridge l => [.srcFabric (l / 16)]
  | .hub => [.hubEgress]

/-- Alternates of a route entry that are usable, in order: link and hops; the entry of the package's own address is ignored (R316, R317). -/
def State.usable (s : State) (dest : Nat) : List (Nat × Nat) :=
  let e := if dest = s.myAddr / 1024 then 0 else (alGet 0 s.rdgRoute dest).toNat
  (List.range 4).filterMap (fun a =>
    let l := fld e (10 * a) 6
    let st := (s.link l).state
    if bitOf e (10 * a + 9) && (st == 2 || st == 3) then some (l, fld e (10 * a + 6) 3) else none)

/-- The egress link towards a package (8 × BOARD + SLOT), from a hash for spread channels or the first usable (R317). -/
def State.egress (s : State) (dest : Nat) (hash : Option Nat) : Option Nat :=
  let u := s.usable dest
  match hash with
  | none => (u.head?).map (·.1)
  | some h =>
    let n := min u.length (fld (alGet 0 s.rdgRoute dest).toNat 40 2 + 1)
    if n = 0 then none else (u[h % n]?).map (·.1)

/-- The package a window or coherent slot reaches, as 8 × BOARD + SLOT (R319). -/
def State.remoteOf (s : State) : Region → Option Nat
  | .window w => let e := alGet 0 s.rdgWin w; some (wfld e 1 7 * 8 + wfld e 8 3)
  | .slot k => some (s.myBoard * 8 + k)
  | _ => none

/-- Host-memory accesses fail: the H–P link is severed, or the host has cleared Cache_Enable (R168, R292, R338). -/
def State.hostFails (s : State) : Bool := decide (s.plat.hpState = 3) || !s.plat.cacheEn

/-- Where an accepted access goes: on to its home or package, or an answer given at once. -/
inductive Route where
  | go (levels : List Level)
  | answer (levels : List Level) (r : AccResult)
  deriving DecidableEq, Repr

/-- Col levels from a source to pair m. -/
def State.toPair (s : State) (q : Source) (m line : Nat) : Option (List Level) :=
  match srcDie q with
  | none => (s.hubRoute m true).map (· ++ [.dstFabric m])
  | some n => if n = m then some [] else (s.colRoute n m line).map (· ++ [.dstFabric m])

/-- Device physical address of a remote access within its destination package (Table 13.5). -/
def State.remotePa (s : State) (pa : Nat) : Nat :=
  if pa < 0x200000000000 then
    let w := (pa - 0x100000000000) / 0x004000000000
    wfld (alGet 0 s.rdgWin w) 16 10 * 2 ^ 38 + pa % 2 ^ 38
  else (pa - 0x200000000000) % 0x020000000000

/-- The route of an access to a device physical address, with the levels whose tokens it takes (R25, R27, R290, R293, R303). -/
def State.route (s : State) (q : Source) (pa : Nat) : Route :=
  let src := sourceLevels q
  let line := pa / 128
  match s.region pa with
  | .near m | .capacity m =>
    let d := s.homeDie pa
    if s.plat.lostF.contains d ∨ s.plat.lostF.contains m then .answer src .poison
    else
      match s.toPair q d line with
      | some l => .go (src ++ l ++ [.slice d (sliceOf line)])
      | none => .answer src .poison
  | .hostMem =>
    if s.hostFails then .answer src .host
    else
      match srcDie q with
      | none => .go (src ++ [.hostLevel])
      | some n =>
        match s.hubRoute n false with
        | some l => .go (src ++ l ++ [.hostLevel])
        | none => .answer src .poison
  | .regs | .unmapped => .answer src .decode
  | g =>
    match (s.remoteOf g).bind (fun p => s.egress p (some (Free.ridgeHash (s.remotePa pa / 128)))) with
    | none => .answer src .unreachable
    | some l =>
      match s.toPair q (l / 16) line with
      | some c => .go (src ++ c ++ [.ridge l])
      | none => .answer src .unreachable

/-- COL_SAT level of an admission level: pair and index (COL_SAT(l)). -/
def satLevel : Level → Option (Nat × Nat)
  | .tileEgress d _ => some (d, 0)
  | .srcFabric d => some (d, 1)
  | .dstFabric d => some (d, 2)
  | .col d k => some (d, 3 + k)
  | .slice d _ => some (d, 6)
  | .bank d _ => some (d, 6)
  | .hbm d _ _ => some (d, 7)
  | .lpddr d _ => some (d, 8)
  | .ridge l => some (l / 16, 9)
  | _ => none

/-- Counts a refusal against a level (R296, R297). -/
def State.countRefusal (s : State) (l : Level) : State :=
  match satLevel l with
  | none =>
    let n := ((s.tally.refused.find? (fun e => e.1 == l)).map (·.2)).getD 0
    { s with tally := { s.tally with refused := s.tally.refused.filter (fun e => e.1 != l) ++ [(l, satAdd (2 ^ 64 - 1) n 1)] } }
  | some (d, k) =>
    let e := alGet (0, 0, 0) s.colSat (d * 10 + k)
    let us := s.now / 1000 + 1
    let e1 := (satAdd (2 ^ 32 - 1) e.1 1, if e.2.2 = us then e.2.1 else satAdd (2 ^ 24 - 1) e.2.1 1, us)
    ({ s with colSat := alPut s.colSat (d * 10 + k) e1 }).count (dieAct d (24 + k))

/-- Sets an access in flight. -/
def State.setReq (s : State) (r : Req) : State := { s with reqs := alPut s.reqs r.id r }

/-- An access in flight by id. -/
def State.req (s : State) (id : Nat) : Option Req := alFind s.reqs id

/-- An access is answered: its place among the answered is noted, by which a tile's L1 keeps the newer of two fills (R173). -/
def State.answered (s : State) (r : Req) (res : AccResult) : State :=
  { s with reqs := alPut s.reqs r.id { r with stage := .replied res, seq := s.ansNum }, ansNum := s.ansNum + 1 }

/-- Removes an access, its tokens going back to their levels (R294). -/
def State.dropReq (s : State) (id : Nat) : State :=
  match s.req id with
  | some r => { r.levels.foldl State.giveBack s with reqs := alDel (r.levels.foldl State.giveBack s).reqs id }
  | none => s

/-- A refusal: nothing is sent, the tokens stay with the source, which asks the level it lacked, and the requester backs off (R294, R296). -/
def State.refuse (s : State) (r : Req) (l : Level) : State :=
  let q := r.who.source
  let s1 := r.levels.foldl (fun (t : State) v => t.addHeld q v 1) s
  let k := match r.stage with | .backoff k => k | _ => 0
  ((s1.setReq { r with levels := [], stage := .backoff (k + 1), lacks := some l }).ask q l).countRefusal l

/-- Takes one held token of each level. -/
def State.takeTokens (s : State) (q : Source) (ls : List Level) : State :=
  ls.foldl (fun (t : State) l => t.useHeld q l) s

/-- An access that a unit makes within a step: it is accepted when its source holds a token of every level, each of which goes back as it
completes; else it is refused, and the unit tries again later (R293, R294, R296, R299). -/
def State.enter (s : State) (q : Source) (ls : List Level) : Bool × State :=
  match ls.find? (fun l => s.holds_ q l == 0) with
  | some l => (false, (s.ask q l).countRefusal l)
  | none => (true, ls.foldl State.giveBack (s.takeTokens q ls))

/-- A message joins a link's replay buffer as it is sent, one data flit to a message (R308, R309; the encoding of messages in flits is
not visible). -/
def State.ridgeSend (s : State) (l : Nat) (m : RMsg) : State :=
  let v := s.link l
  { s.setLink l { v with tx := (v.tx + 1) % 4096, replay := v.replay ++ [(v.tx, 0, m)] } with rdgOut := s.rdgOut ++ [(l, m)] }

/-- An access's kind as it crosses Ridge. -/
def AccKind.code : AccKind → Nat
  | .load | .fetch => 0
  | .store => 1
  | .atomic => 2
  | .red => 3
  | .redl => 4
  | .bread => 5
  | .bwrite => 6
  | .flush => 7

/-- The kind that a code of a crossing request names. -/
def accKindOf (k : Nat) : AccKind :=
  match k with
  | 0 => .load
  | 1 => .store
  | 2 => .atomic
  | 3 => .red
  | 4 => .redl
  | 5 => .bread
  | 7 => .flush
  | _ => .bwrite

/-- A response as it crosses Ridge, and back. -/
def AccResult.cross : AccResult → RAns
  | .line l => .line l
  | .ok => .ok
  | .poison => .poison
  | .decode => .decode
  | .host => .host
  | .unreachable => .unreachable
  | .xlatError => .decode

/-- What a response that crossed Ridge says. -/
def accResultOf : RAns → AccResult
  | .line l => .line l
  | .ok => .ok
  | .poison => .poison
  | .decode => .decode
  | .host => .host
  | .unreachable => .unreachable

/-- The message of an access to another package (R315, R319). -/
def State.ridgeMsg (s : State) (r : Req) : RMsg :=
  { dest := ((s.remoteOf (s.region r.pa)).getD 0) * 1024, src := s.myAddr, vc := 8, hops := 6, req := r.id,
    acc := some { kind := r.kind.code, pa := s.remotePa r.pa, size := r.size, data := r.data, cmp := r.cmp, mask := r.mask, sub := r.sub, ty := r.ty, psn := r.poisoned },
    ans := none }

/-- Answers a request that came over Ridge; with no usable route the response is discarded (R314, R317). -/
def State.respond (s : State) (src req line : Nat) (a : RAns) : State :=
  match s.egress (src / 1024) (some (Free.ridgeHash line)) with
  | some l => s.ridgeSend l { dest := src, src := s.myAddr, vc := 6, hops := 6, req := req, acc := none, ans := some a }
  | none => s

/-- The link among the levels of a route. -/
def ridgeOf (ls : List Level) : Option Nat := ls.findSome? (fun l => match l with | .ridge k => some k | _ => none)

/-- Counts a decode error among those of its requester's pair; H's have none (R25, Table 18.2). -/
def State.countDecode (s : State) (q : Source) (res : AccResult) : State :=
  match res, srcDie q with
  | .decode, some d => s.count (pairErr d 17)
  | _, _ => s

/-- What a unit's own access meets on its way: it is performed, answered at once, or refused for want of a token. -/
inductive Gate where
  | go (s : State)
  | answer (r : AccResult) (s : State)
  | refused (s : State)

/-- A unit's access over a route (R25, R290, R293, R299, R303). -/
def State.gateBy (s : State) (q : Source) (rt : Route) : Gate :=
  match rt with
  | .go ls => let e := s.enter q ls; if e.1 then .go e.2 else .refused e.2
  | .answer ls res => let e := s.enter q ls; if e.1 then .answer res (e.2.countDecode q res) else .refused e.2

/-- One that is asked for now, or has been accepted before within the step. -/
def State.gateIf (s : State) (ask : Bool) (q : Source) (rt : Route) : Gate :=
  if ask then s.gateBy q rt else match rt with | .go _ => .go s | .answer _ r => .answer r s

/-- A unit's access to a device physical address. -/
def State.gate (s : State) (q : Source) (pa : Nat) : Gate := s.gateBy q (s.route q pa)

/-- The route of a Bucker's access to a landing store: over the bond beneath its own die without a source-fabric token, else as an L2 read's
(R144, R146, R293, R299, R303). -/
def State.landRoute (s : State) (q : Source) (m off : Nat) : Route :=
  let own := srcDie q == some m
  let src := if own then (sourceLevels q).take 1 else sourceLevels q
  if s.plat.lostF.contains m then .answer src .poison
  else
    match s.toPair q m (off / 128) with
    | some l => .go (src ++ l ++ [.bank m (off / 512 % 64)])
    | none => .answer src .poison

/-- An earlier access of the same source to the same line has not been taken by its home (R173; R174 orders nothing else). -/
def State.earlier (s : State) (r : Req) : Bool :=
  s.reqs.any (fun e =>
    let q := e.2
    decide (q.id < r.id) && (q.who.source == r.who.source) &&
      (match q.stage with
       | .xlat | .pended _ => q.space == r.space && decide (q.va / 128 = r.va / 128)
       | .backoff _ | .sent => decide (q.pa / 128 = r.pa / 128)
       | _ => false))

/-- An earlier access of the same source to the same line has not been accepted, so that one to another package must not leave before it
(R173, R317). -/
def State.unsent (s : State) (r : Req) : Bool :=
  s.reqs.any (fun e =>
    let q := e.2
    decide (q.id < r.id) && (q.who.source == r.who.source) &&
      (match q.stage with
       | .xlat | .pended _ => q.space == r.space && decide (q.va / 128 = r.va / 128)
       | .backoff _ => decide (q.pa / 128 = r.pa / 128)
       | _ => false))

/-- Tries to admit a translated access: it is accepted when its source holds a token of every level on its route (R293, R296). -/
def State.tryAdmit (s : State) (id : Nat) : State :=
  match s.req id with
  | none => s
  | some r =>
    let q := r.who.source
    let rt := s.route q r.pa
    let ls := match rt with | .go l => l | .answer l _ => l
    if (ridgeOf ls).isSome && s.unsent r then s
    else
    match ls.find? (fun l => s.holds_ q l == 0) with
    | some l => s.refuse r l
    | none =>
      let s1 := s.takeTokens q ls
      match rt with
      | .go _ =>
        let s2 := s1.setReq { r with levels := ls, stage := .sent }
        (match ridgeOf ls with
         | some l => s2.ridgeSend l (s2.ridgeMsg r)
         | none => s2)
      | .answer _ res => (s1.answered { r with levels := ls } res).countDecode q res

/-- A new access in flight: its id is the next number. -/
def State.newReq (s : State) (r : Req) : State × Nat :=
  ({ s with reqs := alPut s.reqs s.reqNum { r with id := s.reqNum }, reqNum := s.reqNum + 1 }, s.reqNum)

/-- Answers an access: its stage becomes replied. -/
def State.reply (s : State) (id : Nat) (res : AccResult) : State :=
  match s.req id with
  | some r => s.answered r res
  | none => s

end Sys2Proof.Machine
end

