-- ==== Sys2Proof/Machine/Homes.lean ====
section
/-! DEFINITION. What a home does with a line's data: L2 slices with their eviction buffers, memory behind them, allocation, and
the places where busy lines, waiting requests and directory entries stand (chapter 8; R214, R225, R235, R239). -/

namespace Sys2Proof.Machine

/-- A line of host memory. -/
def hostLine (line : Nat) : Bool := decide (0x10000000000 ≤ line)

/-- Die and slice of a near or capacity line (R206). -/
def State.homeOf (s : State) (line : Nat) : Nat × Nat := (s.homeDie (line * 128), sliceOf line)

/-- The home slice of a line. -/
def State.lineSlice (s : State) (line : Nat) : Slice := s.slice (s.homeOf line).1 (s.homeOf line).2

/-- Sets the home slice of a line. -/
def State.setLineSlice (s : State) (line : Nat) (v : Slice) : State := s.setSlice (s.homeOf line).1 (s.homeOf line).2 v

/-- Way of the line's set that holds it. -/
def Slice.way (v : Slice) (line : Nat) : Option Nat :=
  (List.range 16).find? (fun w => match alFind v.lines (setOf line * 16 + w) with | some l => l.addr == line | none => false)

/-- The way is in service: neither disabled, nor leaving, nor under test (R209, R217, R219). -/
def Slice.enabled (v : Slice) (w : Nat) : Bool :=
  !(bitOf v.dis.toNat w) && !(bitOf v.leaving.toNat w) && v.test != some w

/-- The way of a set is free for an allocation: in service and not kept for a fill. -/
def Slice.freeWay (v : Slice) (set w : Nat) : Bool :=
  v.enabled w && !(v.fills.any (fun f => f.way == w && decide (setOf f.addr = set)))

/-- The way R209 allocates: an invalid one, else by tree pseudo-LRU. -/
def Slice.choose (v : Slice) (set : Nat) : Option Nat :=
  match (List.range 16).find? (fun w => v.freeWay set w && (alFind v.lines (set * 16 + w)).isNone) with
  | some w => some w
  | none => plruPick 4 (alGet 0 v.plru set) (v.freeWay set)

/-- Marks a use of a way (R209). -/
def Slice.touch (v : Slice) (set w : Nat) : Slice := { v with plru := alPut v.plru set (plruTouch 4 (alGet 0 v.plru set) w) }

/-- Room in the eviction buffer: 32 entries, the last 8 kept for dirty victims and coherence write-backs (R211). -/
def Slice.evRoom (v : Slice) (coh : Bool) : Bool :=
  decide (v.evb.length < 32) && (coh || decide ((v.evb.filter (fun e => !e.coh)).length < 24))

/-- Puts a dirty line into the eviction buffer (R212). -/
def Slice.evPut (v : Slice) (e : EvEntry) : Slice :=
  { v with evb := v.evb ++ [e], evhi := max v.evhi (v.evb.length + 1) }

/-- Empties a way: a clean victim is dropped, a dirty one passes to the eviction buffer; none when that has no room (R209,
R212). -/
def Slice.evict (v : Slice) (set w : Nat) (coh : Bool) : Option Slice :=
  match alFind v.lines (set * 16 + w) with
  | none => some v
  | some l =>
    let v1 := { v with lines := alDel v.lines (set * 16 + w) }
    if l.dirty then
      if v.evRoom coh then some (v1.evPut { addr := l.addr, line := l.line, issued := false, coh := coh }) else none
    else some v1

/-- Installs a line in a way. -/
def Slice.install (v : Slice) (w line : Nat) (l : Line) (dirty : Bool) : Slice :=
  ({ v with lines := alPut v.lines (setOf line * 16 + w) { addr := line, line := l, dirty := dirty } }).touch (setOf line) w

/-- Index of the newest eviction-buffer entry of a line: one evicted again while its older entry awaits its acknowledgement has two. -/
def Slice.evIndex (v : Slice) (line : Nat) : Option Nat :=
  (indexWhere (fun e => e.addr == line) v.evb.reverse).map (fun i => v.evb.length - 1 - i)

/-- The eviction-buffer entry that serves a line (R213): one whose write is not issued, or one issued while L2 does not hold the
line again (DEDUCED from R173 and R214, log entry 13). -/
def Slice.evServes (v : Slice) (line : Nat) : Option (Nat × EvEntry) :=
  match v.evIndex line with
  | none => none
  | some i =>
    match v.evb[i]? with
    | none => none
    | some e => if e.issued && (v.way line).isSome then none else some (i, e)

/-- MEM_CHAN index of the physical channel that serves a place (R269, R279). -/
def State.chanOf (s : State) (p : Place) : Nat := chanIx p.group ((s.physical p).getD p.logical)

/-- The controller level of a place. -/
def State.ctrlLevel (s : State) (p : Place) : Level :=
  let k := (s.physical p).getD p.logical
  if p.group = 3 then .lpddr p.die k else .hbm p.die p.group k

/-- A channel has accepted accesses that it has not performed: fills (R276). -/
def State.chanBusy (s : State) (die k : Nat) : Bool :=
  s.slices.any (fun e => decide (e.1 / 32 = die) && e.2.fills.any (fun f => s.chanOf (s.place (f.addr * 128)) == k))

/-- Memory takes no access to a line now: its channel is being retrained, having performed what it had accepted, or the block it lies in is in
flight to the spare, until WMARK has passed it (R276, R279). -/
def State.memBlocked (s : State) (line : Nat) : Bool :=
  let p := s.place (line * 128)
  ((s.chan p.die (s.chanOf p)).retrain && !(s.chanBusy p.die (s.chanOf p))) || (s.physical p).isNone

/-- Counts a sector that a memory read corrected: MEM_CHAN, Tally, and an early visit of its unit (R277). -/
def State.countCe (s : State) (p : Place) : State :=
  let k := s.chanOf p
  let c := s.chan p.die k
  let early := if c.early.length < 64 ∧ ¬ c.early.contains p.unit then c.early ++ [p.unit] else c.early
  (s.setChan p.die k { c with ce := alMod 0 c.ce (s.tally.hour % 24) (satAdd 65535 1), early := early }).count
    (pairErr p.die (if p.group = 3 then 6 else p.group))

/-- Counts a sector that a memory read found uncorrectable (R272). -/
def State.countUe (s : State) (p : Place) : State :=
  let k := s.chanOf p
  let c := s.chan p.die k
  (s.setChan p.die k { c with ue := satAdd 65535 c.ue 1 }).count (pairErr p.die (if p.group = 3 then 7 else 3 + p.group))

/-- A line as memory returns it: wholly poisoned once its foundation die is lost (R302). -/
def State.memLine (s : State) (line : Nat) : Line :=
  if s.plat.lostF.contains (s.homeDie (line * 128)) then Line.dead else s.dram.line (line * 128)

/-- Counts the errors that a read of a line from memory meets (R272, R277). -/
def State.countRead (s : State) (line : Nat) : State :=
  let p := s.place (line * 128)
  (List.range 4).foldl (fun (t : State) k =>
    let b := alGet 0 t.dram.bad (line * 4 + k)
    if b = 1 then t.countCe p else if 2 ≤ b then t.countUe p else t) s

/-- Sectors whose transfer failed a fifth time: lost (R277). -/
def crcLost (crc : List Nat) : BitVec 4 :=
  BitVec.ofNat 4 (((List.range 4).map (fun k => if 5 ≤ crc.getD k 0 then 2 ^ k else 0)).foldl (· + ·) 0)

/-- Counts the retries of a sector's transfer that failed `n` times: up to four (R277). -/
def State.countCrc (s : State) (p : Place) (n : Nat) : State :=
  if n = 0 then s
  else
    let k := s.chanOf p
    let c := s.chan p.die k
    (s.setChan p.die k { c with crcr := satAdd 65535 c.crcr (min 4 n) }).count (pairErr p.die 8) (min 4 n)

/-- Counts the retries of a line's transfer from memory, and each sector lost as an uncorrectable one (R277). -/
def State.linkRead (s : State) (line : Nat) (crc : List Nat) : State :=
  let p := s.place (line * 128)
  (List.range 4).foldl (fun (t : State) k =>
    let t1 := t.countCrc p (crc.getD k 0)
    if 5 ≤ crc.getD k 0 then (t1.countUe p).countReal 0 1 else t1) s

/-- Counts the retries of a line's transfer to memory (R277). -/
def State.linkWrite (s : State) (line : Nat) (crc : List Nat) : State :=
  let p := s.place (line * 128)
  (List.range 4).foldl (fun (t : State) k => t.countCrc p (crc.getD k 0)) s

/-- Writes a line to memory; nothing is kept on a lost die (R302). -/
def State.putMem (s : State) (line : Nat) (l : Line) : State :=
  if s.plat.lostF.contains (s.homeDie (line * 128)) then s else { s with dram := s.dram.putLine (line * 128) l }

/-- A line as its home slice holds it: eviction buffer, L2, else memory. -/
def State.sliceData (s : State) (line : Nat) : Line :=
  let v := s.lineSlice line
  match v.evServes line with
  | some (_, e) => e.line
  | none =>
    match (v.way line).bind (fun w => alFind v.lines (setOf line * 16 + w)) with
    | some l => l.line
    | none => s.memLine line

/-- A line as its home holds it. -/
def State.homeData (s : State) (line : Nat) : Line :=
  if hostLine line then ((alFind s.host line).map (·.line)).getD Line.zero else s.sliceData line

/-- Writes a line that an agent gave back into its home slice (R208, R211, Table 8.3); none when no eviction-buffer entry is to be
had. -/
def State.sliceVictim (s : State) (line : Nat) (l : Line) : Option State :=
  let v := s.lineSlice line
  let set := setOf line
  match v.evServes line with
  | some (i, e) =>
    if e.issued then
      (v.choose set).bind (fun w => (v.evict set w true).map (fun v1 => s.setLineSlice line (v1.install w line l true)))
    else some (s.setLineSlice line { v with evb := updNth v.evb i (fun e => { e with line := l }) })
  | none =>
    match v.way line with
    | some w => some (s.setLineSlice line (v.install w line l true))
    | none => (v.choose set).bind (fun w => (v.evict set w true).map (fun v1 => s.setLineSlice line (v1.install w line l true)))

/-- Halves of a line that differ from another line. -/
def halfDiffers (a b : Line) (h : Nat) : Bool :=
  decide (fld a.data.toNat (512 * h) 512 ≠ fld b.data.toNat (512 * h) 512) || decide (fld a.pmask.toNat (2 * h) 2 ≠ fld b.pmask.toNat (2 * h) 2)

/-- Writes agent data into a host line: a half that it changes becomes M (R239, R241). -/
def HostLine.put (h : HostLine) (l : Line) : HostLine :=
  { h with line := l, h0 := (if halfDiffers h.line l 0 then .m else h.h0), h1 := (if halfDiffers h.line l 1 then .m else h.h1) }

/-- Writes a line that an agent gave back at its home. -/
def State.homeVictim (s : State) (line : Nat) (l : Line) : Option State :=
  if hostLine line then some { s with host := alUpd s.host line (fun h => h.put l) } else s.sliceVictim line l

/-- Busy lines of a line's home. -/
def State.busyOf (s : State) (line : Nat) : List Busy := if hostLine line then s.hostBusy else (s.lineSlice line).busy

/-- Sets the busy lines of a line's home. -/
def State.setBusyOf (s : State) (line : Nat) (b : List Busy) : State :=
  if hostLine line then { s with hostBusy := b } else s.setLineSlice line { s.lineSlice line with busy := b }

/-- Requests waiting at a line's home, in arrival order. -/
def State.waitOf (s : State) (line : Nat) : List Waiting := if hostLine line then s.hostQ else (s.lineSlice line).waitq

/-- Sets the requests waiting at a line's home. -/
def State.setWaitOf (s : State) (line : Nat) (q : List Waiting) : State :=
  if hostLine line then { s with hostQ := q } else s.setLineSlice line { s.lineSlice line with waitq := q }

/-- The busy record of a line. -/
def State.busyRec (s : State) (line : Nat) : Option Busy := (s.busyOf line).find? (fun b => b.addr == line)

/-- Replaces the busy record of a line, or removes it. -/
def State.setBusyRec (s : State) (line : Nat) (b : Option Busy) : State :=
  let rest := (s.busyOf line).filter (fun x => x.addr != line)
  s.setBusyOf line (match b with | some v => rest ++ [v] | none => rest)

/-- Way of the line's directory set that holds its entry. -/
def Slice.dirWay (v : Slice) (line : Nat) : Option Nat :=
  (List.range 16).find? (fun w => match alFind v.dir (setOf line * 16 + w) with | some e => e.addr == line | none => false)

/-- Directory state of a line: owner and presence; none is Uncached (Table 9.4). -/
def State.dirOf (s : State) (line : Nat) : Option (Option Nat × List Nat) :=
  if hostLine line then
    (alFind s.host line).bind (fun h => if h.pres.isEmpty then none else some (h.owner, h.pres))
  else
    let v := s.lineSlice line
    (v.dirWay line).bind (fun w => (alFind v.dir (setOf line * 16 + w)).map (fun e => (e.owner, e.pres)))

/-- The way a new directory entry takes: an empty one; none when the set is full (R226). -/
def Slice.dirFree (v : Slice) (line : Nat) : Option Nat :=
  (List.range 16).find? (fun w => (alFind v.dir (setOf line * 16 + w)).isNone)

/-- The victim of a full directory set: Shared before Owned, each by tree pseudo-LRU (R226). -/
def Slice.dirVictim (v : Slice) (line : Nat) : Option DirEntry :=
  let set := setOf line
  let get := fun w => alFind v.dir (set * 16 + w)
  let free := fun w => match get w with | some e => !(v.busy.any (fun b => b.addr == e.addr)) | none => false
  let shared := fun w => free w && (match get w with | some e => e.owner.isNone | none => false)
  match plruPick 4 (alGet 0 v.dirPlru set) shared with
  | some w => get w
  | none => (plruPick 4 (alGet 0 v.dirPlru set) free).bind get

/-- The line has a directory entry or a way for one: at the host-line cache the line itself must be held (R225, R239). -/
def State.dirRoom (s : State) (line : Nat) : Bool :=
  if hostLine line then (alFind s.host line).isSome
  else ((s.lineSlice line).dirWay line).isSome || ((s.lineSlice line).dirFree line).isSome

/-- Sets the directory state of a line; an empty presence frees the entry. -/
def State.setDir (s : State) (line : Nat) (owner : Option Nat) (pres : List Nat) : State :=
  if hostLine line then { s with host := alUpd s.host line (fun h => { h with owner := (if pres.isEmpty then none else owner), pres := pres }) }
  else
    let v := s.lineSlice line
    let set := setOf line
    match (match v.dirWay line with | some w => some w | none => v.dirFree line) with
    | none => s
    | some w =>
      if pres.isEmpty then s.setLineSlice line { v with dir := alDel v.dir (set * 16 + w) }
      else s.setLineSlice line { v with
        dir := alPut v.dir (set * 16 + w) { addr := line, owner := owner, pres := pres }
        dirPlru := alPut v.dirPlru set (plruTouch 4 (alGet 0 v.dirPlru set) w) }

/-- The slice holds the line neither in L2 nor in its eviction buffer, so that an access to its data goes to memory. -/
def State.missesL2 (s : State) (line : Nat) : Bool :=
  !(hostLine line) && ((s.lineSlice line).way line).isNone && ((s.lineSlice line).evIndex line).isNone

/-- This package's agents of the coherence set: clusters 0–7 and the dispatcher 8 (R222). -/
def State.agentId (s : State) (k : Nat) : Nat := s.mySlot * 16 + k

/-- An agent of this package. -/
def State.ownAgent (s : State) (a : Nat) : Bool := decide (a / 16 = s.mySlot) && decide (a % 16 ≤ 8)

/-- Members of the coherence set; one package outside board-coherent mode. -/
def State.setSize (s : State) : Nat := popCount 8 (s.cfg.cohSet.getD 0)

/-- Home-ordered mode: three to eight packages (Table 9.2). -/
def State.homeOrdered (s : State) : Bool := decide (3 ≤ s.setSize)

/-- Class of a message (Table 9.5): 0 REQ, 1 SNP, 2 RSP, 3 DAT, 4 CMP. -/
def msgClass : MsgOp → Nat
  | .rds | .rdw | .rdu | .upg | .vicd | .vicc => 0
  | .fwds | .fwdu | .inv | .cur | .rcl => 1
  | .invack | .fwddone | .rspi => 2
  | .datas | .datae | .datau | .wbd => 3
  | .cmp | .vcmp | .cack => 4

/-- Ridge channel of a class (Table 13.3): coherent REQ on MREQ, SNP on CSNP, the others on CRSP. -/
def classVc (k : Nat) : Nat := if k = 0 then 8 else if k = 1 then 5 else 4

/-- Package slot of a line's home (HPKG). -/
def State.homePkg (s : State) (line : Nat) : Nat := match s.region (line * 128) with | .slot k => k | _ => s.mySlot

/-- Device address of an agent, or of the coherence engine of a home's package for 0x7F (R315, Table 13.4). -/
def State.agentAddr (s : State) (pkg a : Nat) : Nat :=
  if a = 0x7F then (s.myBoard * 8 + pkg) * 1024 + 4 * 128 + 11 else (s.myBoard * 8 + a / 16) * 1024 + 4 * 128 + a % 16

/-- The agent that a device address of RQ names, 0x7F for a home. -/
def agentAt (addr : Nat) : Nat := if addr % 128 = 11 then 0x7F else addr / 1024 % 8 * 16 + addr % 128

/-- First line of a coherent slot of this package's map (Table 13.5). -/
def slotLine (k : Nat) : Nat := (0x200000000000 + k * 0x020000000000) / 128

/-- A line as its home's package numbers it (LINE), and as this package does. -/
def State.lineThere (s : State) (pkg line : Nat) : Nat := if pkg = s.mySlot then line else line - slotLine pkg
def State.lineHere (s : State) (pkg line : Nat) : Nat := if pkg = s.mySlot then line else line + slotLine pkg

/-- Sends a coherence message: within the package, or on the coherent class of Ridge (R223, R227, R317). `rq` names an agent, whose device
address the message carries. One that no route takes is not sent (R314, R317). -/
def State.send (s : State) (m : CMsg) : State :=
  let k := s.homePkg m.line
  let m1 := { m with hpkg := k, rq := s.agentAddr k m.rq }
  let pkg := if m.dst = 0x7F then k else m.dst / 16
  if pkg = s.mySlot then { s with msgs := s.msgs ++ [m1] }
  else
    let there := s.lineThere k m.line
    match s.egress (s.myBoard * 8 + pkg) (some (Free.ridgeHash there)) with
    | some l =>
      s.ridgeSend l { dest := s.agentAddr pkg m.dst, src := s.agentAddr k m.src, vc := classVc (msgClass m.op), hops := 6, req := m.tag,
                      acc := none, ans := none, coh := some { m1 with line := there } }
    | none => s

/-- A message from a home to an agent, of a request's tag. -/
def fromHome (op : MsgOp) (line dst rq : Nat) (tag : Nat := 0) : CMsg :=
  { op := op, line := line, dst := dst, src := 0x7F, rq := rq, dsrc := 0x7F, invset := [], stale := false, line' := Line.zero, tag := tag }

/-- Sends one snoop to each agent of a list. -/
def State.snoopAll (s : State) (op : MsgOp) (line rq : Nat) (dsts : List Nat) (tag : Nat := 0) : State :=
  dsts.foldl (fun (t : State) a => t.send (fromHome op line a rq tag)) s

end Sys2Proof.Machine
end

