-- ==== Sys2Proof/Machine/HomeActs.lean ====
section
/-! DEFINITION. Requests at a home: uncached accesses (Tables 8.2, 8.3, 9.9), coherent requests (Table 9.8), host snoops (Table
9.13), busy lines and the requests that wait behind them (R214, R226, R231–R235, R239–R243). -/

namespace Sys2Proof.Machine

/-- Ends an access at its home with its reply; reductions discarded on poison are counted at the home (R192). -/
def State.performed (s : State) (r : Req) (res : AccResult) (discarded : Nat) : State :=
  let s1 := s.answered r res
  if discarded = 0 then s1 else s1.count (if hostLine (r.pa / 128) then svc 20 else pairErr (s.homeDie r.pa) 18) discarded

/-- The access covers its whole line. -/
def Req.wholeLine (r : Req) : Bool := decide (r.pa % 128 = 0) && decide (r.size = 128) && decide (r.mask = BitVec.allOnes 128)

/-- Takes a token of the memory controller's level for an access that goes to memory: refused without one, while the channel is being
retrained, and while the line's block is in flight to the spare (R276, R279, R293). -/
def State.toMemory (s : State) (r : Req) : Except Level (State × Req) :=
  let p := s.place r.pa
  let l := s.ctrlLevel p
  let q := r.who.source
  if s.memBlocked (r.pa / 128) || s.holds_ q l == 0 then .error l
  else .ok (s.useHeld q l, { r with levels := r.levels ++ [l] })

/-- Allocates a line for an access that must be filled, evicting as R209 and R212 give; refused when the eviction buffer has no
room. -/
def State.allocFill (s : State) (r : Req) (behind : Bool) : State :=
  let line := r.pa / 128
  match s.toMemory r with
  | .error l => s.refuse r l
  | .ok (s1, r1) =>
    let v := s1.lineSlice line
    match (v.choose (setOf line)).bind (fun w => (v.evict (setOf line) w false).map (fun v1 => (w, v1))) with
    | none => s1.refuse r1 (s1.ctrlLevel (s1.place r.pa))
    | some (w, v1) =>
      let f : Fill := { addr := line, way := w, behind := behind, waiters := [.acc r.id] }
      (s1.setLineSlice line { v1 with fills := v1.fills ++ [f] }).setReq { r1 with stage := .filling }

/-- Performs an access on memory itself, past L2 (Table 8.2). -/
def State.onMemory (s : State) (r : Req) : State :=
  let line := r.pa / 128
  match s.toMemory r with
  | .error l => s.refuse r l
  | .ok (s1, r1) =>
    let crc := r1.errs.crc
    if r1.kind.writes then
      let s2 := s1.linkWrite line crc
      let a := r1.apply (s2.memLine line)
      (if a.2.2.1 then s2.putMem line (a.1.lose (crcLost crc)) else s2).performed r1 a.2.1 (b2n a.2.2.2)
    else
      let s2 := (s1.countRead line).linkRead line crc
      s2.performed r1 (r1.apply ((s2.memLine line).lose (crcLost crc))).2.1 0

/-- Corrected errors of a way over the last 24 hours (R216). -/
def Slice.errors (v : Slice) (w : Nat) : Nat := ((v.ce.filter (fun e => decide (e.1 / 24 = w))).map (·.2)).foldl (· + ·) 0

/-- MEM_L2_WAY of a slice. -/
def Slice.wayReg (v : Slice) : Nat :=
  let enabled := ((List.range 16).filter (fun w => !(bitOf v.dis.toNat w))).map v.errors
  v.dis.toNat + popCount 16 v.dis.toNat % 8 * 2 ^ 16 + b2n v.maint * 2 ^ 19 + v.test.getD 0 % 16 * 2 ^ 20 + b2n v.test.isSome * 2 ^ 24
    + min 63 v.evhi * 2 ^ 25 + min 65535 (enabled.foldl (· + ·) 0) * 2 ^ 32

/-- The lines of ways that are leaving, or under test, go: clean ones are dropped, dirty ones pass to the eviction buffer while it has room
(R217, R219). -/
def Slice.leave (v : Slice) : Slice :=
  v.lines.foldl (fun (t : Slice) e =>
    if bitOf v.leaving.toNat (e.1 % 16) || v.test == some (e.1 % 16) then (t.evict (e.1 / 16) (e.1 % 16) false).getD t else t) v

/-- Ways that have emptied while leaving. -/
def Slice.gone (v : Slice) : List Nat :=
  (bitsOf 16 v.leaving.toNat).filter (fun w => !(v.lines.any (fun e => decide (e.1 % 16 = w))))

/-- Lets leaving ways empty, and counts those that have as disabled, with their log entries (R216, R217). -/
def State.drainWays (s : State) (die k : Nat) : State :=
  let v := (s.slice die k).leave
  let gone := v.gone
  let mask := BitVec.ofNat 16 (gone.foldl (fun a w => a + 2 ^ w) 0)
  let v1 := { v with dis := v.dis ||| mask, leaving := v.leaving &&& ~~~mask }
  gone.foldl (fun (t : State) w => t.logEv 0x0003 (8 + die) 2 [k, w, v1.wayReg]) (s.setSlice die k v1)

/-- A way at its error limit goes out of service, or flags the slice once four are gone; then no further one goes until power-off (R216–R218). -/
def State.disableWay (s : State) (die k way : Nat) : State :=
  let v := s.slice die k
  if v.maint || bitOf v.dis.toNat way || bitOf v.leaving.toNat way then s
  else if popCount 16 v.dis.toNat + popCount 16 v.leaving.toNat < 4 then
    (s.setSlice die k { v with leaving := v.leaving ||| (1#16 <<< way) }).drainWays die k
  else
    (s.setSlice die k { v with maint := true }).logEv 0x0003 (8 + die) 2 [k, way, ({ v with maint := true } : Slice).wayReg]

/-- A way whose errors of the last 24 hours have reached 16 is disabled (R216). -/
def State.wayLimit (s : State) (die k way : Nat) : State :=
  if 16 ≤ (s.slice die k).errors way then s.disableWay die k way else s

/-- What an access finds in its line's sectors as L2 holds them: errors are counted for the way, a clean line with an uncorrectable sector
goes and is refilled, a dirty line's sector is marked poisoned (R215, R216). Nothing where the eviction buffer serves the line. -/
def State.l2Errs (s : State) (line : Nat) (l2 : List Nat) : State :=
  let v := s.lineSlice line
  match v.evServes line, (v.way line).bind (fun w => (alFind v.lines (setOf line * 16 + w)).map (fun e => (w, e))) with
  | none, some (w, e) =>
    let fixed := ((List.range 4).filter (fun k => l2.getD k 0 == 1)).length
    let lost := (List.range 4).filter (fun k => decide (2 ≤ l2.getD k 0))
    if fixed + lost.length = 0 then s
    else
      let die := (s.homeOf line).1
      let s1 := s.count (pairErr die 9) fixed
      let s2 := (if lost.isEmpty then s1 else s1.count (pairErr die 10) lost.length).countReal fixed lost.length
      let v1 := if bitOf v.dis.toNat w then v else { v with ce := alMod 0 v.ce (24 * w + s.tally.hour % 24) (fun n => n + fixed + lost.length) }
      let key := setOf line * 16 + w
      (s2.setLineSlice line
        (if lost.isEmpty then v1
         else if e.dirty then
           { v1 with lines := alPut v1.lines key { e with line := e.line.lose (BitVec.ofNat 4 ((lost.map (fun k => 2 ^ k)).foldl (· + ·) 0)) } }
         else { v1 with lines := alDel v1.lines key })).wayLimit die (s.homeOf line).2 w
  | _, _ => s

/-- An access waits at its home behind other work on its line; past 256 waiting requests it is refused at the memory-controller level
(R235). -/
def State.waitAt (s : State) (line : Nat) (r : Req) : State :=
  if 256 ≤ (s.waitOf line).length then s.refuse r (if hostLine line then .hostLevel else s.ctrlLevel (s.place r.pa))
  else (s.setWaitOf line (s.waitOf line ++ [.acc r.id])).setReq { r with stage := .atHome }

/-- Writes a line's current data to memory for a flush; the copy in L2 is clean then (R195). -/
def State.flushMem (s : State) (line : Nat) (d : Line) : State :=
  let v := s.lineSlice line
  let v1 := match v.way line with
    | some w => { v with lines := alUpd v.lines (setOf line * 16 + w) (fun x => { x with line := d, dirty := false }) }
    | none => v
  (s.setLineSlice line v1).putMem line d

/-- A flush of a line at its home slice, no agent owning it: it waits for the writes of the line's eviction-buffer entries to be acknowledged,
and a dirty line is written to memory and stays, clean (R195, Table 8.3). -/
def State.flushSlice (s : State) (r : Req) : State :=
  let line := r.pa / 128
  let v := s.lineSlice line
  if (v.evIndex line).isSome then s.waitAt line r
  else
    match (v.way line).bind (fun w => alFind v.lines (setOf line * 16 + w)) with
    | some l =>
      if l.dirty then
        (match s.toMemory r with
         | .error lv => s.refuse r lv
         | .ok (s1, r1) => ((s1.linkWrite line r.errs.crc).flushMem line (l.line.lose (crcLost r.errs.crc))).performed r1 .ok 0)
      else s.performed r .ok 0
    | none => s.performed r .ok 0

/-- Performs an uncached access at its home slice, no agent holding the line (Tables 8.2, 8.3). The errors that L2 holds for it are met
once. -/
def State.performSlice (s0 : State) (r0 : Req) : State :=
  let s := s0.l2Errs (r0.pa / 128) r0.errs.l2
  let r := { r0 with errs := { r0.errs with l2 := [] } }
  if r.kind = .flush then s.flushSlice r
  else
  let line := r.pa / 128
  let v := s.lineSlice line
  match v.evServes line with
  | some (i, e) =>
    let a := r.apply e.line
    if !e.issued || !r.kind.writes then
      (s.setLineSlice line { v with evb := updNth v.evb i (fun x => { x with line := a.1 }) }).performed r a.2.1 (b2n a.2.2.2)
    else if r.kind = .bwrite && r.wholeLine then
      -- written behind the entry's write; the entry then serves the new data (log entry 13)
      (match (s.toMemory r) with
       | .ok _ => (s.setLineSlice line { v with evb := updNth v.evb i (fun x => { x with line := a.1 }) }).onMemory r
       | .error _ => s.onMemory r)
    else s.allocFill r true
  | none =>
    match v.way line with
    | some w =>
      match alFind v.lines (setOf line * 16 + w) with
      | some l =>
        let a := r.apply l.line
        (s.setLineSlice line (v.install w line a.1 (l.dirty || a.2.2.1))).performed r a.2.1 (b2n a.2.2.2)
      | none => s
    | none =>
      match r.kind with
      | .bread => s.onMemory r
      | .bwrite => if r.wholeLine then s.onMemory r else s.allocFill r false
      | _ => s.allocFill r false

/-- The state of a half of a host line. -/
def HostLine.half (h : HostLine) (i : Nat) : HSt := if i = 0 then h.h0 else h.h1
/-- The D2H request outstanding for a half. -/
def HostLine.d2h (h : HostLine) (i : Nat) : Option D2H := if i = 0 then h.d0 else h.d1
/-- Sets a half's state and request. -/
def HostLine.setHalf (h : HostLine) (i : Nat) (st : HSt) (d : Option D2H) : HostLine :=
  if i = 0 then { h with h0 := st, d0 := d } else { h with h1 := st, d1 := d }

/-- A host line as it enters the host-line cache. -/
def HostLine.new (line : Nat) : HostLine :=
  { addr := line, line := Line.zero, h0 := .i, h1 := .i, d0 := none, d1 := none, owner := none, pres := [], waiters := [] }

/-- E or M. -/
def HSt.owns : HSt → Bool
  | .e | .m => true
  | _ => false

/-- What an access needs of each half (Table 9.12): 0 shared, 1 owned, 2 owned without data, 3 data once. -/
def hostWant (kind : AccKind) (o n : Nat) (mask : BitVec 128) (i : Nat) : Option Nat :=
  if o < 64 * (i + 1) ∧ 64 * i < o + n then
    (match kind with
     | .load | .fetch => some 0
     | .flush => none
     | .bread => some 3
     | .bwrite => some (if o ≤ 64 * i ∧ 64 * i + 64 ≤ o + n ∧ fld mask.toNat (64 * i - o) 64 = 2 ^ 64 - 1 then 2 else 1)
     | _ => some 1)
  else if kind = .load ∨ kind = .fetch then some 0 else none

/-- A half serves a want: its state suffices, or its data is here for a read that keeps nothing, which `id` is. -/
def HostLine.serves (h : HostLine) (i want id : Nat) : Bool :=
  match want with
  | 0 => h.half i != .i
  | 3 => h.half i != .i || (match h.d2h i with | some d => d.op == 3 && d.go.isSome && d.ids.contains id | none => false)
  | _ => (h.half i).owns

/-- Host physical address over 64 of a half of a device line (R26). -/
def hostHalf (line i : Nat) : Nat := (line - 2 ^ 40) * 2 + i

/-- The device line that holds a 64-byte line of host memory (R26). -/
def devLine (half : Nat) : Nat := 2 ^ 40 + half / 2

/-- Sends the host a message. -/
def State.toHost (s : State) (m : HostMsg) : State := { s with hostOut := s.hostOut ++ [m] }

/-- The data of a half of a line with its two poison marks. -/
def lineHalf (l : Line) (i : Nat) : BitVec 512 × BitVec 2 :=
  (BitVec.ofNat 512 (fld l.data.toNat (512 * i) 512), BitVec.ofNat 2 (fld l.pmask.toNat (2 * i) 2))

/-- Issues a D2H request for a half. -/
def State.d2hSend (s : State) (line i op : Nat) (ids : List Nat) : State :=
  ({ s with host := alUpd s.host line (fun h => h.setHalf i (h.half i) (some { op := op, go := none, ids := ids })) } : State).toHost
    { kind := 0, op := op, half := hostHalf line i, data := none }

/-- Issues the D2H requests of the halves that do not serve; a RdCurr under way is joined until its data comes (R240). -/
def State.askHost (s : State) (line id : Nat) (w0 w1 : Option Nat) : State :=
  (List.range 2).foldl (fun (t : State) i =>
    match (if i = 0 then w0 else w1), alFind t.host line with
    | some w, some h =>
      if h.serves i w id then t
      else
        (match h.d2h i with
         | none => t.d2hSend line i w (if w = 3 then [id] else [])
         | some d =>
           if w = 3 ∧ d.op = 3 ∧ d.go = none then
             { t with host := alUpd t.host line (fun x => x.setHalf i (x.half i) (some { d with ids := d.ids ++ [id] })) }
           else t)
    | _, _ => t) s

/-- A half of the line is on its way out of the host-line cache: the line serves nothing until it has gone (R239, R243). -/
def HostLine.leaving (h : HostLine) : Bool := (List.range 2).any (fun i => match h.d2h i with | some d => decide (4 ≤ d.op) | none => false)

/-- Room in the set of the host-line cache (R239). -/
def State.hostRoom (s : State) (line : Nat) : Bool :=
  decide ((s.host.filter (fun e => decide (Free.hostSet e.1 % 16384 = Free.hostSet line % 16384))).length < 16)

/-- What both halves must be, of a waiting request at the host-line cache (Table 9.12). -/
def wantOf (s : State) (w : Waiting) : Option Nat × Option Nat :=
  match w with
  | .acc id =>
    match s.req id with
    | some r => let f := hostWant r.kind (r.pa % 128) r.size r.mask; (f 0, f 1)
    | none => (none, none)
  | .msg m =>
    match m.op with
    | .rds | .rdw => (some 0, some 0)
    | .rdu | .upg => (some 1, some 1)
    | _ => (none, none)

/-- Writes the modified halves of a host line to host memory; they stay, no longer modified. The spec names no CXL.cache request for it: the
data goes as a write of its own (log entry 35). -/
def State.flushHost (s : State) (line : Nat) : State :=
  (List.range 2).foldl (fun (t : State) i =>
    match alFind t.host line with
    | some h =>
      if h.half i = .m then
        ({ t with host := alPut t.host line (h.setHalf i .e (h.d2h i)) } : State).toHost
          { kind := 2, op := 6, half := hostHalf line i, data := some (lineHalf h.line i) }
      else t
    | none => t) s

/-- Performs an uncached access at the host-line cache, its halves serving and no agent holding the line. -/
def State.performHost (s : State) (r : Req) : State :=
  let line := r.pa / 128
  match alFind s.host line with
  | none => if r.kind = .flush then s.performed r .ok 0 else s
  | some h =>
    if r.kind = .flush then (s.flushHost line).performed r .ok 0
    else
      let a := r.applyHost h.line
      let mark := fun (i : Nat) (st : HSt) => match hostWant r.kind (r.pa % 128) r.size r.mask i with
        | some _ => if a.2.2.1 then HSt.m else st
        | none => st
      let h1 : HostLine := { h with line := a.1, h0 := mark 0 h.h0, h1 := mark 1 h.h1 }
      ({ s with host := alPut s.host line h1 }).performed r a.2.1 a.2.2.2

/-- Performs an uncached access at its home, no agent holding the line. -/
def State.perform (s : State) (r : Req) : State := if hostLine (r.pa / 128) then s.performHost r else s.performSlice r

/-- An uncached access at its home (Table 9.9): performed, or the line made busy while agents are snooped. A flush first waits for the line's
eviction writes (Table 8.3). -/
def State.uncachedAct (s : State) (r : Req) : State :=
  let line := r.pa / 128
  let wait := fun (t : State) (acks : List Nat) (due : Option Nat) =>
    (t.setBusyRec line (some { addr := line, why := .uncached r.id, acks := acks, due := due, cack := false })).setReq { r with stage := .atHome }
  if r.kind = .flush && !(hostLine line) && ((s.lineSlice line).evIndex line).isSome then s.waitAt line r
  else
    match s.dirOf line with
    | none => s.perform r
    | some (none, pres) =>
      if r.kind.writes then wait (s.snoopAll .inv line 0x7F pres) pres none else s.perform r
    | some (some o, pres) =>
      if r.kind.writes then
        let rest := pres.filter (· != o)
        wait ((s.send (fromHome .rcl line o 0x7F)).snoopAll .inv line 0x7F rest) rest (some o)
      else wait (s.send (fromHome .cur line o 0x7F)) [] (some o)

/-- Starts the recall of a directory victim for a line that needs an entry (R226); the request waits. -/
def State.startRecall (s : State) (line : Nat) (w : Waiting) : State :=
  let v := s.lineSlice line
  let s1 := s.setWaitOf line (s.waitOf line ++ [w])
  if v.busy.any (fun b => decide (b.why = .recall) && decide (setOf b.addr = setOf line)) then s1
  else
    match v.dirVictim line with
    | none => s1
    | some e =>
      let rest := e.pres.filter (fun a => some a != e.owner)
      let s2 := match e.owner with | some o => s1.send (fromHome .rcl e.addr o 0x7F) | none => s1
      (s2.snoopAll .inv e.addr 0x7F rest).setBusyRec e.addr
        (some { addr := e.addr, why := .recall, acks := rest, due := e.owner, cack := false })

/-- Sends data from the home to a requester; what a read of memory meets is counted, and a sector whose transfer fails a fifth time comes as
poison (R272, R277). -/
def State.sendData (s : State) (op : MsgOp) (m : CMsg) : State :=
  let d := { fromHome op m.line m.src m.src m.tag with line' := s.homeData m.line }
  if s.missesL2 m.line then
    ((s.countRead m.line).linkRead m.line m.errs.crc).send { d with line' := d.line'.lose (crcLost m.errs.crc) }
  else s.send d

/-- Sends Cmp, or in home-ordered mode makes the line busy until the acknowledgements and the requester's CAck are in (R232,
R233). -/
def State.sendCmp (s : State) (m : CMsg) (dsrc : Nat) (invs : List Nat) (fwd : Option Nat) : State :=
  let c := { fromHome .cmp m.line m.src m.src m.tag with dsrc := dsrc, invset := invs }
  if s.homeOrdered then
    let c0 := { c with invset := [] }
    let waits := !invs.isEmpty || fwd.isSome
    let s1 := if waits then s else s.send c0
    s1.setBusyRec m.line (some { addr := m.line, why := .coherent m (if waits then some c0 else none), acks := invs, due := fwd, cack := true })
  else s.send c

/-- Where an agent sends the InvAck of an Inv: to the requester, or to the home in home-ordered mode (R231). -/
def State.ackTo (s : State) (r : Nat) : Nat := if s.homeOrdered then 0x7F else r

/-- A read request at a home (Table 9.8): RdS grants E on an Uncached line unless `shared`; RdW never does. -/
def State.readAct (s : State) (m : CMsg) (shared : Bool) : State :=
  let r := m.src
  match s.dirOf m.line with
  | none =>
    if shared then ((s.sendData .datas m).setDir m.line none [r]).sendCmp m 0x7F [] none
    else ((s.sendData .datae m).setDir m.line (some r) [r]).sendCmp m 0x7F [] none
  | some (none, pres) =>
    ((s.sendData .datas m).setDir m.line none (if pres.contains r then pres else pres ++ [r])).sendCmp m 0x7F [] none
  | some (some o, pres) =>
    ((s.send (fromHome .fwds m.line o r m.tag)).setDir m.line (some o) (if pres.contains r then pres else pres ++ [r])).sendCmp m o [] (some o)

/-- A read-for-ownership request at a home (Table 9.8). -/
def State.ownAct (s : State) (m : CMsg) : State :=
  let r := m.src
  match s.dirOf m.line with
  | none => ((s.sendData .datau m).setDir m.line (some r) [r]).sendCmp m 0x7F [] none
  | some (none, pres) =>
    let invs := pres.filter (· != r)
    (((s.sendData .datau m).snoopAll .inv m.line (s.ackTo r) invs m.tag).setDir m.line (some r) [r]).sendCmp m 0x7F invs none
  | some (some o, pres) =>
    let invs := pres.filter (fun a => a != o && a != r)
    (((s.send (fromHome .fwdu m.line o r m.tag)).snoopAll .inv m.line (s.ackTo r) invs m.tag).setDir m.line (some r) [r]).sendCmp m o invs (some o)

/-- An upgrade at a home (Table 9.8). -/
def State.upgAct (s : State) (m : CMsg) : State :=
  match s.dirOf m.line with
  | some (_, pres) =>
    if pres.contains m.src then
      let invs := pres.filter (· != m.src)
      ((s.snoopAll .inv m.line (s.ackTo m.src) invs m.tag).setDir m.line (some m.src) [m.src]).sendCmp m 0x7E invs none
    else s.ownAct m
  | none => s.ownAct m

/-- Sends VCmp. -/
def State.sendVcmp (s : State) (m : CMsg) (stale : Bool) : State :=
  s.send { fromHome .vcmp m.line m.src m.src m.tag with stale := stale }

/-- A coherent request is refused at the memory-controller level, or at the host-line cache's; it is still to be taken by its home (R211,
R227, R235). -/
def State.bounce (s : State) (m : CMsg) : State :=
  let t := s.countRefusal (if hostLine m.line then .hostLevel else s.ctrlLevel (s.place (m.line * 128)))
  { t with msgs := t.msgs ++ [{ m with errs := {} }] }

/-- A dirty victim at a home (Table 9.8); it is refused while no eviction-buffer entry is to be had (R211). -/
def State.vicdAct (s : State) (m : CMsg) : State :=
  match s.dirOf m.line with
  | some (some o, pres) =>
    if o = m.src then
      match s.homeVictim m.line m.line' with
      | some t => (t.setDir m.line none (pres.filter (· != o))).sendVcmp m false
      | none => s.bounce m
    else s.sendVcmp m true
  | _ => s.sendVcmp m true

/-- Offers a clean victim to its home slice, which allocates it clean or declines (R210, Table 8.3). -/
def State.offerClean (s : State) (line : Nat) (l : Line) : State :=
  if hostLine line then s
  else
    let v := s.lineSlice line
    let set := setOf line
    if (v.way line).isSome || (v.evIndex line).isSome || decide (24 ≤ v.evb.length) then s
    else
      match v.choose set with
      | none => s
      | some w =>
        match alFind v.lines (set * 16 + w) with
        | some x => if x.dirty then s else s.setLineSlice line (v.install w line l false)
        | none => s.setLineSlice line (v.install w line l false)

/-- A clean victim or a released watch at a home (Table 9.8): data is offered from a sharer of a Shared line and from the owner; the
dispatcher carries none, and of an Owned line another member is only removed. -/
def State.viccAct (s : State) (m : CMsg) : State :=
  match s.dirOf m.line with
  | some (o, pres) =>
    if pres.contains m.src then
      let s1 := if m.src % 16 = 8 ∨ (o.isSome ∧ o ≠ some m.src) then s else s.offerClean m.line m.line'
      (s1.setDir m.line (if o = some m.src then none else o) (pres.filter (· != m.src))).sendVcmp m false
    else s.sendVcmp m true
  | none => s.sendVcmp m true

/-- A coherent request needs a directory entry (R226). -/
def needsEntry (op : MsgOp) : Bool :=
  match op with
  | .rds | .rdw | .rdu | .upg => true
  | _ => false

/-- A coherent request whose data the home sends: the line is not Owned, and the requester has no copy to upgrade (Table 9.8). -/
def State.homeSends (s : State) (m : CMsg) : Bool :=
  needsEntry m.op
    && (match s.dirOf m.line with
        | none => true
        | some (none, pres) => !(m.op == .upg && pres.contains m.src)
        | some (some _, _) => false)

/-- It reads memory for it, the slice not holding the line (Table 8.2). -/
def State.readsMemory (s : State) (m : CMsg) : Bool := s.homeSends m && s.missesL2 m.line

/-- A coherent request at a home whose line is not busy (Table 9.8). What L2 holds for it may be found wrong (R215); one that reads memory takes a
token of the controller's level, and is refused while the channel takes nothing (R276, R279, R293). -/
def State.coherentAct (s0 : State) (m0 : CMsg) : State :=
  let s := if s0.homeSends m0 && !(hostLine m0.line) then s0.l2Errs m0.line m0.errs.l2 else s0
  let m := { m0 with errs := { m0.errs with l2 := [] } }
  if needsEntry m.op && !(s.dirRoom m.line) then s.startRecall m.line (.msg m)
  else
    let lv := s.ctrlLevel (s.place (m.line * 128))
    if s.readsMemory m && (s.memBlocked m.line || s.holds_ .hub lv == 0) then (s.ask .hub lv).bounce m
    else
      let s := if s.readsMemory m then (s.useHeld .hub lv).giveBack lv else s
      match m.op with
      | .rds =>
        let both := match alFind s.host m.line with | some h => h.h0.owns && h.h1.owns | none => true
        s.readAct m (hostLine m.line && !both)
      | .rdw => s.readAct m (s.dirOf m.line).isNone
      | .rdu => s.ownAct m
      | .upg => s.upgAct m
      | .vicd => s.vicdAct m
      | .vicc => s.viccAct m
      | _ => s

/-- A host line that holds nothing and waits for nothing leaves the cache. -/
def State.dropEmpty (s : State) (line : Nat) : State :=
  match alFind s.host line with
  | some h =>
    if h.h0 = .i ∧ h.h1 = .i ∧ h.d0 = none ∧ h.d1 = none ∧ h.pres.isEmpty ∧ h.waiters.isEmpty then { s with host := alDel s.host line } else s
  | none => s

/-- Response code of a snoop from the half's state (Table 9.13): 0 RspIFwdM, 1 RspIHitSE, 2 RspIHitI, 3 RspSFwdM, 4 RspSHitSE,
5 RspVFwdV, 6 RspVHitV. -/
def snoopCode (op : Nat) (st : HSt) : Nat :=
  match st with
  | .i => 2
  | .m => nth 5 [0, 3, 5] op
  | _ => nth 6 [1, 4, 6] op

/-- Answers the host snoop at the head of the order once its device-side work is done, with data from a modified half (Table 9.13), or
finishes an eviction (`op` 3, R243). -/
def State.snoopAnswer (s : State) (op half : Nat) : State :=
  let line := devLine half
  let i := half % 2
  let answer := fun (t : State) (code : Nat) (d : Option (BitVec 512 × BitVec 2)) =>
    ({ t with snoopQ := t.snoopQ.tail } : State).toHost { kind := 1, op := code, half := half, data := d }
  match alFind s.host line with
  | none => if op = 3 then s else answer s 2 none
  | some h =>
    if op = 3 then
      ((List.range 2).foldl (fun (t : State) k =>
        match h.half k with
        | .m => t.d2hSend line k 4 []
        | .i => t
        | _ => t.d2hSend line k 5 []) s).dropEmpty line
    else
      let st := h.half i
      let st1 := if st = .i then .i else match op with | 0 => .i | 1 => .s | _ => st
      (answer { s with host := alPut s.host line (h.setHalf i st1 (h.d2h i)) } (snoopCode op st)
        (if st = .m then some (lineHalf h.line i) else none)).dropEmpty line

/-- The device-side work of a host snoop or eviction (Table 9.13, R243): the agents it snoops. -/
def State.snoopAct (s : State) (op half : Nat) : State :=
  let line := devLine half
  match s.dirOf line with
  | none => s.snoopAnswer op half
  | some (o, pres) =>
    let rest := pres.filter (fun a => some a != o)
    let invs := if op = 0 ∨ op = 3 then rest else []
    if o.isNone ∧ invs.isEmpty then s.snoopAnswer op half
    else
      let s1 := match o with
        | some a => s.send (fromHome (if op = 2 then .cur else .rcl) line a 0x7F)
        | none => s
      (s1.snoopAll .inv line 0x7F invs).setBusyRec line (some { addr := line, why := .host op half, acks := invs, due := o, cack := false })

/-- A snoop may be applied: its line is not busy, and its half does not stand between GO and the end of the access it came for (R241,
R242). -/
def State.snoopReady (s : State) (half : Nat) : Bool :=
  (s.busyRec (devLine half)).isNone &&
    (match alFind s.host (devLine half) with
     | some h => (match h.d2h (half % 2) with | some d => !(decide (d.op ≤ 1) && d.go.isSome) | none => true) && !(h.hold.contains (half % 2))
     | none => true)

/-- Applies host snoops in the order received, as far as they can be (R197, R242). -/
def State.snoopsRun : Nat → State → State
  | 0, s => s
  | k + 1, s =>
    match s.snoopQ with
    | [] => s
    | (op, half) :: _ =>
      if s.snoopReady half then
        let t := s.snoopAct op half
        if t.snoopQ.length < s.snoopQ.length then State.snoopsRun k t else t
      else s

/-- Applies the host snoops that can be. -/
def State.goSnoops (s : State) : State := State.snoopsRun s.snoopQ.length s

/-- Host snoops applied so far. -/
def State.snoopOut (s : State) : Nat := s.snoopIn - s.snoopQ.length

/-- A request at a home whose line is not busy. -/
def State.homeAct (s : State) (w : Waiting) : State :=
  match w with
  | .acc id => (match s.req id with | some r => s.uncachedAct r | none => s)
  | .msg m => s.coherentAct m

/-- The line a waiting request is about. -/
def State.lineOf (s : State) : Waiting → Nat
  | .acc id => ((s.req id).map (fun r => r.pa / 128)).getD 0
  | .msg m => m.line

/-- Puts a request behind a busy line; past 256 waiting requests it is refused (R235). -/
def State.enqueue (s : State) (line : Nat) (w : Waiting) : State :=
  match w with
  | .acc id =>
    match s.req id with
    | some r => s.waitAt line r
    | none => s
  | .msg m => if 256 ≤ (s.waitOf line).length then s.bounce m else s.setWaitOf line (s.waitOf line ++ [w])

/-- Acts on a request at a home slice; one that would need a busy line beyond the 64 tracked is refused instead (R235). -/
def State.homeTry (s : State) (line : Nat) (w : Waiting) : State :=
  let t := s.homeAct w
  if hostLine line ∨ (t.busyOf line).length ≤ 64 then t
  else
    match w with
    | .acc id => (match s.req id with | some r => s.refuse r (s.ctrlLevel (s.place r.pa)) | none => s)
    | .msg m => s.bounce m

/-- Number of the read that a waiting request is; a coherence message is none. -/
def readOf : Waiting → Nat
  | .acc id => id
  | .msg _ => 0

/-- A request reaches its home, or is taken up again: it waits behind a busy line or an earlier request for its line, behind a fill, or for
the halves of a host line, and is acted on otherwise (R214, R235, R239, R240). -/
def State.homeStep (s : State) (w : Waiting) : State :=
  let line := s.lineOf w
  if (s.busyRec line).isSome || (s.waitOf line).any (fun x => s.lineOf x == line) then s.enqueue line w
  else if hostLine line then
    let want := wantOf s w
    let queue := fun (t : State) => { t with host := alUpd t.host line (fun h => { h with waiters := h.waiters ++ [w] }) }
    match alFind s.host line with
    | some h =>
      let ok := fun (i : Nat) (x : Option Nat) => match x with | some v => h.serves i v (readOf w) | none => true
      if h.leaving then queue s
      else if ok 0 want.1 && ok 1 want.2 && h.waiters.isEmpty then s.homeAct w
      else queue (s.askHost line (readOf w) want.1 want.2)
    | none =>
      if want = (none, none) then s.homeAct w
      else if s.hostRoom line then
        queue (({ s with host := alPut s.host line (HostLine.new line) } : State).askHost line (readOf w) want.1 want.2)
      else s.setWaitOf line (s.waitOf line ++ [w])
  else
    let v := s.lineSlice line
    if v.fills.any (fun f => f.addr == line) then
      s.setLineSlice line { v with fills := v.fills.map (fun f => if f.addr = line then { f with waiters := f.waiters ++ [w] } else f) }
    else s.homeTry line w

/-- Takes up the waiting requests of a home in arrival order; those that must still wait queue again. -/
def State.drainHome (s : State) (line : Nat) : State :=
  (s.waitOf line).foldl State.homeStep (s.setWaitOf line [])

/-- A RdCurr whose data has come is over once the reads it served have been performed (Table 9.12). -/
def HostLine.endReads (h : HostLine) : HostLine :=
  (List.range 2).foldl (fun (t : HostLine) i =>
    match t.d2h i with
    | some d =>
      let left := d.ids.filter (fun k => t.waiters.any (fun w => match w with | .acc id => id == k | _ => false))
      if d.op = 3 ∧ d.go.isSome then t.setHalf i (t.half i) (if left.isEmpty then none else some { d with ids := left }) else t
    | none => t) h

/-- Takes up the requests that waited for the halves of a host line; those that still wait ask for what they lack. -/
def State.drainHost (s : State) (line : Nat) : State :=
  match alFind s.host line with
  | none => s
  | some h =>
    let s1 := h.waiters.foldl State.homeStep { s with host := alPut s.host line { h with waiters := [] } }
    let s2 : State := { s1 with host := alUpd s1.host line (fun h => { h.endReads with hold := if h.waiters.isEmpty then [] else h.hold }) }
    let left := ((alFind s2.host line).map (·.waiters)).getD []
    (left.foldl (fun (t : State) w =>
      if ((alFind t.host line).map HostLine.leaving).getD false then t
      else t.askHost line (readOf w) (wantOf t w).1 (wantOf t w).2) s2).dropEmpty line

/-- A busy line whose replies have all come goes on as Table 9.10 gives. -/
def State.busyDone (s : State) (line : Nat) : State :=
  match s.busyRec line with
  | none => s
  | some b =>
    if !b.acks.isEmpty || b.due.isSome then s
    else
      match b.why with
      | .coherent m (some c) => (s.send c).setBusyRec line (some { b with why := .coherent m none })
      | .coherent _ none => if b.cack then s else ((s.setBusyRec line none).drainHome line).goSnoops
      | .uncached id =>
        let s1 := s.setBusyRec line none
        let s2 := match s1.req id with
          | some r => if r.kind.writes then (s1.setDir line none []).perform r else (match r.stage with | .replied _ => s1 | _ => s1.perform r)
          | none => s1.setDir line none []
        (s2.drainHome line).goSnoops
      | .recall => (((s.setDir line none []).setBusyRec line none).drainHome line).goSnoops
      | .host op half =>
        let pres := match s.dirOf line with | some (o, p) => p.filter (fun a => some a != o) | none => []
        let s1 := match op with
          | 1 => s.setDir line none pres
          | 2 => s
          | _ => s.setDir line none []
        (((s1.setBusyRec line none).snoopAnswer op half).drainHome line).goSnoops

/-- An acknowledgement reaches a home. -/
def State.homeAck (s : State) (line a : Nat) : State :=
  match s.busyRec line with
  | some b => (s.setBusyRec line (some { b with acks := b.acks.filter (· != a) })).busyDone line
  | none => s

/-- A flush is served by its owner's data, which is written to memory, or to host memory from the modified halves (Table 9.9). -/
def State.flushData (s : State) (r : Req) (l : Line) : State :=
  let line := r.pa / 128
  if hostLine line then (({ s with host := alUpd s.host line (fun h => h.put l) } : State).flushHost line).performed r .ok 0
  else
    let v := s.lineSlice line
    let s1 := match v.evServes line with
      | some (i, e) => if e.issued then s else s.setLineSlice line { v with evb := updNth v.evb i (fun e => { e with line := l }) }
      | none => s
    (s1.flushMem line l).performed r .ok 0

/-- The owner's answer reaches a home: written-back data or none (R235). Data for an uncached read serves it; other data is written
at home. None when it cannot be taken yet; an answer that nothing waits for is discarded. -/
def State.homeData? (s : State) (line a : Nat) (d : Option Line) : Option State :=
  match s.busyRec line with
  | none => some s
  | some b =>
    if b.due ≠ some a then some s
    else
      let clear := fun (t : State) => (t.setBusyRec line (some { b with due := none })).busyDone line
      match d, b.why with
      | some l, .uncached id =>
        match s.req id with
        | some r =>
          if r.kind.writes then (s.homeVictim line l).map clear
          else if r.kind = .flush then some (clear (s.flushData r l))
          else some (clear (s.performed r (r.apply l).2.1 0))
        | none => (s.homeVictim line l).map clear
      | some l, _ => (s.homeVictim line l).map clear
      | none, _ => some (clear s)

end Sys2Proof.Machine
end

