-- ==== Sys2Proof/Machine/Operands.lean ====
section
/-! DEFINITION. Crew instruction words: formats, fields, the registers each instruction names, and the codes that raise the
illegal-instruction trap (R66, R76–R79, R83, R87, R187, R454; Tables 3.5–3.14, 4.1–4.5, 5.1). -/

namespace Sys2Proof.Machine

/-- Key of an instruction: format × 256 + opcode; for FENCE its kind × 4,096 is added, and kind 0 leaves the bare key. -/
def opKey (w : W64) : Nat :=
  let k := wfld w 0 3 * 256 + wfld w 8 8
  if k = 0x501 then k + wfld w 54 2 * 4096 else k

/-- U of Table 3.5; reserved in format C. -/
def uniOf (w : W64) : Bool := wfld w 7 1 == 1 && wfld w 0 3 != 4

/-- Opcodes of format A (Table 3.8). -/
def opsA : List Nat := [0, 1, 2] ++ (List.range 21).map (· + 8) ++ (List.range 7).map (· + 0x20) ++ [0x28]

/-- The instruction stands in a format's opcode table (Tables 3.6, 3.8, 3.10, 3.12, 3.14, 4.2, 5.2). -/
def listed (k : Nat) : Bool :=
  let op := k % 256
  if 0x1000 ≤ k then true
  else match k / 256 with
    | 0 => opsA.contains op
    | 1 => decide (op ≤ 2)
    | 2 => decide (op ≤ 4)
    | 3 => decide (op ≤ 4)
    | 4 => decide (op ≤ 7)
    | 5 => decide (op ≤ 9) && decide (op ≠ 1)
    | _ => false

/-- TYPE of formats A and S. -/
def typeOf (w : W64) : Nat := wfld w 48 4
/-- Registers that hold a value of a format code in formats A and S: a pair for FP64, INT64 and DS32. -/
def regsOf (ty : Nat) : Nat := if ty = 3 ∨ ty = 13 ∨ ty = 14 then 2 else 1
/-- Source code of CVT, or condition code: C[3:0]. -/
def codeC (w : W64) : Nat := wfld w 40 4

/-- Format A opcodes whose source B, A or C is a register (Table 3.8). -/
def usesA (op : Nat) : Bool := decide (op ≠ 0) && decide (op ≠ 2)
def usesB (op : Nat) : Bool := !(op == 2 || op == 0x15 || op == 0x19 || op == 0x1A || op == 0x28)
def usesC (op : Nat) : Bool := op == 0x0D || op == 0x23
/-- Opcodes that use field C, with which an immediate is illegal (Table 3.7). -/
def fieldC (op : Nat) : Bool := usesC op || op == 1 || op == 0x1C || op == 0x26 || op == 0x28

/-- Format codes an opcode of format A accepts (Tables 3.7, 3.8). CVT accepts INT8 and DS32 too, which R456 gives it and Table 3.7 does not
list (DEDUCED, log entry 64). -/
def typesA (op : Nat) : List Nat :=
  if op ≤ 1 then [2, 12, 13]
  else if op = 2 then List.range 16
  else if op = 0x28 then [0, 1, 2, 3, 4, 5, 11, 12, 13, 14]
  else if 0x20 ≤ op then [2]
  else if op = 0x0B ∨ op = 0x0C ∨ op = 0x19 ∨ op = 0x1A ∨ op = 0x1B then [12]
  else [12, 13]

/-- Format A: codes that raise the illegal-instruction trap (R77, Table 3.7). -/
def illegalA (w : W64) : Bool :=
  let op := wfld w 8 8
  !((typesA op).contains (typeOf w))
  || (wfld w 56 1 == 1 && fieldC op)
  || (op == 0x28 && (wfld w 52 2 == 3 || !((typesA op).contains (codeC w))))
  || (op == 0x1C && decide (9 < codeC w))
  || (op == 0x26 && decide (6 < codeC w))

/-- Bytes of a format M access; 0 for an unlisted SIZE code (Table 3.9). -/
def sizeOf_ (w : W64) : Nat := nth 0 [1, 2, 4, 8, 16] (wfld w 56 3)

/-- Format M: SIZE codes above 4, and BCOPY with SP = 1 (R77, Tables 3.9, 3.10). -/
def illegalM (w : W64) : Bool :=
  if wfld w 8 8 = 2 then wfld w 59 1 == 1 else sizeOf_ w == 0

/-- Format S: sub-operations, format codes and counts not listed (R36, R77, R87, R187). SHFL, ALL, ANY and BALLOT use no TYPE, which is then
ignored (R10, R77); MATCH compares pairs for INT64 and single registers for every other code of Table 2.1 (DEDUCED, log entry 64). -/
def illegalS (w : W64) : Bool :=
  let sub := wfld w 52 4
  match wfld w 8 8 with
  | 2 => !(atomicOk (typeOf w) sub)
  | 3 => !(atomicOk (typeOf w) sub && decide (sub ≤ 5))
  | 4 => !(typeOf w == 0 || typeOf w == 2 || typeOf w == 12) || wfld w 56 1 == 0
  | 5 => decide (3 < sub)
  | 6 => decide (3 < sub) || (sub == 3 && typeOf w == 15)
  | 9 => wfld w 32 16 == 0
  | _ => false

/-- Accumulator kind and K of an MMA's (0) or MMAP's (1) format pair (Table 4.3). -/
def mmaShape (op fa fb : Nat) : Option (Nat × Nat) :=
  let fp8 := fun (c : Nat) => decide (c = 4 ∨ c = 5)
  let mx86 := fun (c : Nat) => decide (6 ≤ c) && decide (c ≤ 9)
  if op = 1 then (if fa = 14 ∧ fb = 14 then some (14, 64) else none)
  else if fa = fb ∧ (fa = 0 ∨ fa = 2) then some (2, 64)
  else if fp8 fa && fp8 fb then some (2, 128)
  else if fa = 11 ∧ fb = 11 then some (12, 128)
  else if mx86 fa && mx86 fb then some (2, 128)
  else if fa = 10 ∧ fb = 10 then some (2, 256)
  else none

/-- The pairs of Table 4.5: local-store format and kind of ACCLD; kind and target format of ACCST. -/
def accldOk (fa fb : Nat) : Bool := [(2, 2), (0, 2), (12, 12), (14, 14)].contains (fa, fb)
def accstOk (fa fb : Nat) : Bool :=
  match fa with
  | 2 => [2, 0, 1, 4, 5, 11, 6, 7, 8, 9, 10].contains fb
  | 12 => [12, 2, 0].contains fb
  | 14 => [14, 3, 2].contains fb
  | _ => false

/-- Accumulator kind of a format X instruction other than MWAIT (Tables 4.1, 4.3). -/
def kindX (w : W64) : Nat :=
  let fa := wfld w 20 4
  let fb := wfld w 24 4
  match wfld w 8 8 with
  | 2 => fb
  | 3 => fa
  | op => ((mmaShape op fa fb).map (·.1)).getD 0

/-- Format X: pairs outside Tables 4.3 and 4.5, AD against Table 4.4, an odd US of a scaled MMA, the reserved rounding mode
(R77, R103–R106). -/
def illegalX (w : W64) : Bool :=
  let op := wfld w 8 8
  let fa := wfld w 20 4
  let fb := wfld w 24 4
  let ad := wfld w 16 3
  let half := wfld w 19 1 == 1
  if op = 4 then false
  else
    (match op with
     | 2 => !(accldOk fa fb)
     | 3 => !(accstOk fa fb) || wfld w 53 2 == 3
     | _ => (mmaShape op fa fb).isNone || (isMx fa && wfld w 46 1 == 1))
    || (if kindX w = 14 then (if half then ad % 2 == 1 else ad % 4 != 0) else !half && ad % 2 == 1)

/-- The u registers a format X instruction reads (Table 4.1). -/
def namesX (w : W64) : List (Bool × Nat × Nat) :=
  let ua := wfld w 28 6
  let ub := wfld w 34 6
  let up := wfld w 40 6
  let us := wfld w 46 6
  match wfld w 8 8 with
  | 2 => [(true, ua, 1), (true, up, 1)]
  | 3 => [(true, ua, 1), (true, up, 1)] ++ (if isMx (wfld w 24 4) then [(true, us, 1)] else [])
  | 4 => []
  | _ => [(true, ua, 1), (true, ub, 1), (true, up, 1)] ++ (if isMx (wfld w 20 4) then [(true, us, 2)] else [])

/-- The registers a format V instruction names: the call block and parameters of EPRUN, g(G) of VGET and VPUT, the u register of VFLAGS
(Table 5.1). -/
def namesV (w : W64) : List (Bool × Nat × Nat) :=
  match wfld w 8 8 with
  | 0 => (List.range 16).map (fun k => (true, 16 * wfld w 24 2 + k, 1)) ++ [(true, wfld w 26 6, 2)]
  | 1 => [(false, wfld w 32 8, 1)]
  | 2 => [(false, wfld w 32 8, 1)]
  | 3 => [(true, wfld w 32 6, 1)]
  | _ => []

/-- The instruction's own illegal codes, a reserved format code among them (R36); an odd UQ of EPRUN among them (R120). -/
def illegalOp (w : W64) : Bool :=
  match wfld w 0 3 with
  | 0 => illegalA w
  | 1 => illegalM w
  | 2 => illegalX w
  | 3 => wfld w 8 8 == 0 && wfld w 26 1 == 1
  | 5 => illegalS w
  | _ => false

/-- Registers a format A instruction names: uniform, code, count. -/
def namesA (w : W64) : List (Bool × Nat × Nat) :=
  let op := wfld w 8 8
  let u := uniOf w
  let n := regsOf (typeOf w)
  (if usesA op then [(u, wfld w 24 8, if op = 0x28 then regsOf (codeC w) else n)] else [])
  ++ (if usesB op && wfld w 56 1 == 0 then [(u || wfld w 55 1 == 1, wfld w 32 8, n)] else [])
  ++ (if usesC op then [(u, wfld w 40 8, n)] else [])
  ++ (if op = 0x1C ∨ op = 0x26 then [] else [(u, wfld w 16 8, if op = 2 then 1 else n)])

/-- Registers a format M instruction names (R79). -/
def namesM (w : W64) : List (Bool × Nat × Nat) :=
  let u := uniOf w
  if wfld w 8 8 = 2 then [(u, wfld w 24 8, 1)]
  else
    let data := (u, wfld w 16 8, max 1 (sizeOf_ w / 4))
    let base := (u, wfld w 24 8, if wfld w 59 1 = 1 then 2 else 1)
    [data, base]

/-- Registers a format S instruction names (Table 3.14). -/
def namesS (w : W64) : List (Bool × Nat × Nat) :=
  let u := uniOf w
  let n := regsOf (typeOf w)
  let sub := wfld w 52 4
  let d := wfld w 16 8
  let a := wfld w 24 8
  let imm := wfld w 57 1 == 1
  let b := fun (k : Nat) => if imm then [] else [(u, wfld w 32 8, k)]
  match wfld w 8 8 with
  | 2 => [(u, a, if wfld w 56 1 = 1 then 2 else 1)] ++ b n ++ (if sub = 7 then [(u, wfld w 40 8, n)] else []) ++ [(u, d, n)]
  | 3 => [(u, a, if wfld w 56 1 = 1 then 2 else 1)] ++ b n
  | 4 => [(true, a, 2)] ++ b 1
  | 5 => [(u, a, 1)] ++ b 1 ++ [(u, d, 1)]
  | 6 => if sub = 2 then [(u, d, 1)] else if sub = 3 then [(u, a, if typeOf w = 13 then 2 else 1), (u, d, 1)] else []
  | 8 => [(u, a, 1)] ++ b 1
  | _ => []

/-- Registers an instruction names. -/
def namesOf (w : W64) : List (Bool × Nat × Nat) :=
  match wfld w 0 3 with
  | 0 => namesA w
  | 1 => namesM w
  | 2 => namesX w
  | 3 => namesV w
  | 4 => if wfld w 8 8 = 2 then [(false, wfld w 16 8, 2)] else []
  | 5 => namesS w
  | _ => []

/-- The immediate of format A in a type (Table 3.7). -/
def immA (w : W64) : Nat :=
  let v := wfld w 32 16
  if typeOf w = 2 then v * 65536 else wrapTo (32 * regsOf (typeOf w)) (signed 16 v)

/-- A signed 24-bit field. -/
def off24 (w : W64) (lo : Nat) : Int := signed 24 (wfld w lo 24)

/-- An address plus a signed number of bytes, in 64 bits. -/
def addOff (a : Nat) (o : Int) : Nat := wrapTo 64 ((a : Int) + o)

end Sys2Proof.Machine
end

