-- ==== Sys2Proof/Machine/MatrixOps.lean ====
section
/-! DEFINITION. The matrix engine's arithmetic and the sectors it reads and writes: products, compensated pairs, accumulator rows and
transfers (chapter 4: R54–R58, R97–R100, R104–R109, R112–R114). -/

namespace Sys2Proof

namespace Machine

/-- Opcode, half shape, formats, first accumulator of a queued matrix instruction (Table 4.1). -/
def MInstr.op (i : MInstr) : Nat := wfld i.w 8 8
def MInstr.half (i : MInstr) : Bool := wfld i.w 19 1 == 1
def MInstr.fa (i : MInstr) : Nat := wfld i.w 20 4
def MInstr.fb (i : MInstr) : Nat := wfld i.w 24 4
def MInstr.ad (i : MInstr) : Nat := wfld i.w 16 3
/-- Rows of the output block. -/
def MInstr.rows (i : MInstr) : Nat := if i.half then 64 else 128
/-- K of an MMA or MMAP. -/
def MInstr.k (i : MInstr) : Nat := ((mmaShape i.op i.fa i.fb).map (·.2)).getD 0
/-- Pitches from u(UP). -/
def MInstr.pa (i : MInstr) : Nat := i.up.toNat % 65536
def MInstr.pb (i : MInstr) : Nat := i.up.toNat / 65536
/-- ACCLD and ACCST take the transfer path (R107). -/
def MInstr.transfer (i : MInstr) : Bool := i.op == 2 || i.op == 3

/-- Accumulators between a value word's and its error word's (Table 4.4). -/
def accStep (half : Bool) : Nat := if half then 1 else 2

/-- Accumulators an instruction word names, rising (Table 4.4). -/
def accsOf (w : W64) : List Nat :=
  let half := wfld w 19 1 == 1
  let n := (if kindX w = 14 then 2 else 1) * accStep half
  (List.range n).map (fun k => wfld w 16 3 + k)

/-- Byte of the accumulator memory of row r's first word: the value words, or the error words (R97, R98, Table 4.4). -/
def MInstr.word (i : MInstr) (r : Nat) (error : Bool) : Nat :=
  i.base * 16384 + (i.ad + r / 64 + (if error then accStep i.half else 0)) * 32768 + 512 * (r % 64)

/-- A region of local store that an instruction reads or writes: start, rows, pitch, bytes per row. -/
structure Region2 where
  start : Nat
  rows  : Nat
  pitch : Nat
  len   : Nat
  deriving DecidableEq, Repr

/-- The operand and target regions of an instruction: those with pitches first, the scale arrays after (R100, R106, R113). -/
def MInstr.regions (i : MInstr) : List Region2 × List Region2 :=
  let bytes := fun (f n : Nat) => n * fmtBits f / 8
  match i.op with
  | 2 => ([{ start := i.ua.toNat, rows := i.rows, pitch := i.pa, len := bytes i.fa 128 }], [])
  | 3 =>
    ([{ start := i.ua.toNat, rows := i.rows, pitch := i.pa, len := bytes i.fb 128 }],
     if isMx i.fb then [{ start := i.us.toNat, rows := 1, pitch := 0, len := 4 * i.rows }] else [])
  | _ =>
    ([{ start := i.ua.toNat, rows := i.rows, pitch := i.pa, len := bytes i.fa i.k },
      { start := i.ub.toNat, rows := 128, pitch := i.pb, len := bytes i.fb i.k }],
     if isMx i.fa then
       [{ start := i.us.toNat, rows := 1, pitch := 0, len := i.rows * i.k / 32 },
        { start := i.us1.toNat, rows := 1, pitch := 0, len := 128 * i.k / 32 }]
     else [])

/-- Two instructions of one crew that name a common accumulator (R108). -/
def MInstr.shares (i j : MInstr) : Bool := i.slot == j.slot && (accsOf i.w).any (fun k => (accsOf j.w).contains k)

/-- Inserts a number by its rank, equal ranks by number. -/
def insertRank (rank : Nat → Nat) (k : Nat) : List Nat → List Nat
  | [] => [k]
  | j :: r => if rank k < rank j then k :: j :: r else j :: insertRank rank k r

/-- The order in which the engine adds the products of an output: some permutation of 0 to n − 1, the same each time (R54). -/
def macOrder (rank : Nat → Nat) (n : Nat) : List Nat := (List.range n).foldl (fun l k => insertRank rank k l) []

/-- An element of an operand row: its code's bits, packed under R37. -/
def elemAt (row fmt k : Nat) : Nat := fld row (k * fmtBits fmt) (fmtBits fmt)

/-- Accumulation of BF16, FP8 and FP32 products: exact products, each addition rounded (R54). -/
def dotF (order : List Nat) (fa fb a b acc : Nat) : Nat :=
  order.foldl (fun c k =>
    let p := (vmul (valOf fa (elemAt a fa k)) (valOf fb (elemAt b fb k))).1
    (fFP32.encode (vadd (fFP32.decode c) p).1).1) acc

/-- INT8 products accumulate exactly, wrapping (R56). -/
def dotI (order : List Nat) (a b acc : Nat) : Nat :=
  order.foldl (fun c k => wrapTo 32 ((c : Int) + signed 8 (elemAt a 11 k) * signed 8 (elemAt b 11 k))) acc

/-- The exact sum of a non-empty list of values. -/
def vsum : List Val → Val
  | [] => vzero false
  | v :: r => r.foldl (fun a x => (vadd a x).1) v

/-- One block of scaled products: summed exactly, scaled, added with one rounding (R55). -/
def dotMx (order : List Nat) (fa fb a b sa sb acc : Nat) : Nat :=
  order.foldl (fun c j =>
    let ea := fld sa (8 * j) 8
    let eb := fld sb (8 * j) 8
    let p := if ea = 0xFF ∨ eb = 0xFF then Val.nan false
      else
        match vsum ((List.range 32).map (fun n =>
          (vmul (valOf fa (elemAt a fa (32 * j + n))) (valOf fb (elemAt b fb (32 * j + n)))).1)) with
        | .fin n m e => .fin n m (e + ((ea + eb : Nat) : Int) - 254)
        | v => v
    (fFP32.encode (vadd (fFP32.decode c) p).1).1) acc

/-- A finite value. -/
def Val.isFin : Val → Bool
  | .fin _ _ _ => true
  | _ => false

/-- One product step of the compensated-pair mode: value word s, error word t, operand words (the step above R114, and R114's
replacement when a word is not finite or a rounding overflows). -/
def pairStep (s t ah al bh bl : Nat) : Nat × Nat :=
  let v := fFP32.decode
  let rn := fun (x : Val) => fFP32.encode x
  let d := fun (r : Nat × Nat) => v r.1
  let add := fun (x y : Val) => (vadd x y).1
  let mul := fun (x y : Nat) => (vmul (v x) (v y)).1
  let sub := fun (x y : Val) => (vadd x y.negate).1
  let ph := rn (mul ah bh)
  let pl := sub (mul ah bh) (d ph)
  let x := rn (add (mul ah bl) (mul al bh))
  let s2 := rn (add (v s) (d ph))
  let e := sub (add (v s) (d ph)) (d s2)
  let q1 := rn (add pl (d x))
  let q2 := rn (add e (d q1))
  let t2 := rn (add (v t) (d q2))
  let sn := rn (add (d s2) (d t2))
  let tn := rn (sub (d t2) (sub (d sn) (d s2)))
  let large := [ph, x, s2, q1, q2, t2, sn, tn].any (fun r => r.2 &&& flOF != 0)
  if [s, t, ah, al, bh, bl].all (fun w => (v w).isFin) && !large then (sn.1, tn.1)
  else ((rn (add (d (rn (add (v s) (d ph)))) (d x))).1, 0)

/-- Accumulation of DS32 products into a pair, value word high (R57, R114). -/
def dotDs (order : List Nat) (a b acc : Nat) : Nat :=
  let r := order.foldl (fun (c : Nat × Nat) k =>
    let x := elemAt a 14 k
    let y := elemAt b 14 k
    pairStep c.1 c.2 (fld x 32 32) (fld x 0 32) (fld y 32 32) (fld y 0 32)) (fld acc 32 32, fld acc 0 32)
  dsPack r.1 r.2

/-- The canonical NaN of a format as R112 writes it; the most negative value of an integer format; hi NaN and lo +0 of DS32. -/
def badElem (c : Nat) : Nat :=
  match fmtOf c with
  | some f => f.nanEnc
  | none => if c = 14 then dsPack fFP32.nanEnc 0 else 2 ^ (intBits c - 1)

/-- A row of accumulator elements; none: fed by an uncorrectable sector (R112). -/
def MInstr.accRow (i : MInstr) (t : Tile) (r : Nat) : List (Option Nat) :=
  (List.range 128).map (fun n =>
    let o := i.word r false + 4 * n
    let e := i.word r true + 4 * n
    if kindX i.w = 14 then
      (if t.acc.poisoned o 4 || t.acc.poisoned e 4 then none else some (dsPack (t.acc.readNat o 4) (t.acc.readNat e 4)))
    else if t.acc.poisoned o 4 then none else some (t.acc.readNat o 4))

/-- Writes a row of accumulator elements. -/
def MInstr.putRow (i : MInstr) (acc : Store) (r : Nat) (l : List Nat) : Store :=
  if kindX i.w = 14 then
    (acc.writeBytes (i.word r false) (l.flatMap (fun x => leBytes 4 (fld x 32 32)))).writeBytes (i.word r true)
      (l.flatMap (fun x => leBytes 4 (fld x 0 32)))
  else acc.writeBytes (i.word r false) (l.flatMap (leBytes 4))

/-- An operand row as one little-endian value; none when it holds an uncorrectable sector (R112). -/
def operandRow (ls : Store) (a n : Nat) : Option Nat := if ls.poisoned a n then none else some (ls.readNat a n)

/-- One output element of an MMA or MMAP. -/
def MInstr.out (i : MInstr) (m n : Nat) (a b sa sb c : Option Nat) : Nat :=
  let f := fun (k : Nat) => macOrder (Free.macRank i.fa i.fb m n) k
  match a, b, sa, sb, c with
  | some a, some b, some sa, some sb, some c =>
    if i.op = 1 then dotDs (f 64) a b c
    else if i.fa = 11 then dotI (f 128) a b c
    else if isMx i.fa then dotMx (f (i.k / 32)) i.fa i.fb a b sa sb c
    else dotF (f i.k) i.fa i.fb a b c
  | _, _, _, _, _ => badElem (kindX i.w)

/-- The product of an MMA or MMAP written into its accumulators (R100, R113, R114). -/
def MInstr.product (i : MInstr) (t : Tile) : Tile :=
  let len := fun (f : Nat) => i.k * fmtBits f / 8
  let sc := fun (base r : Nat) => if isMx i.fa then operandRow t.ls (base + r * (i.k / 32)) (i.k / 32) else some 0
  let bs := (List.range 128).map (fun n => (operandRow t.ls (i.ub.toNat + n * i.pb) (len i.fb), sc i.us1.toNat n))
  { t with acc := (List.range i.rows).foldl (fun (acc : Store) m =>
      let a := operandRow t.ls (i.ua.toNat + m * i.pa) (len i.fa)
      let sa := sc i.us.toNat m
      let cs := if wfld i.w 52 1 = 1 then List.replicate 128 (some 0) else i.accRow t m
      i.putRow acc m ((List.range 128).map (fun n =>
        let b := nth (none, none) bs n
        i.out m n a b.1 sa b.2 (nth none cs n)))) t.acc }

/-- ACCLD: a block from local store, BF16 widened exactly (R106). -/
def MInstr.load (i : MInstr) (t : Tile) : Tile :=
  let n := fmtBits i.fa / 8
  { t with acc := (List.range i.rows).foldl (fun (acc : Store) r =>
      i.putRow acc r ((List.range 128).map (fun k =>
        let a := i.ua.toNat + r * i.pa + k * n
        if t.ls.poisoned a n then badElem i.fb
        else if i.fa = i.fb then t.ls.readNat a n
        else (cvt i.fa i.fb .rne false (t.ls.readNat a n)).1))) t.acc }

/-- One row of ACCST: its bytes, and its scale bytes for an MX target (R42, R106, R112). -/
def MInstr.storeRow (i : MInstr) (t : Tile) (draw r : Nat) : List Byte × List Byte :=
  let mode := fun (k : Nat) => (rmOf (wfld i.w 53 2) (Free.randIn draw r k).toNat).getD .rne
  let sat := wfld i.w 55 1 == 1
  let row := i.accRow t r
  if isMx i.fb then
    let blocks := (List.range 4).map (fun j =>
      mxBlock i.fb (fun k => mode (32 * j + k)) (((row.drop (32 * j)).take 32).map (fun x => match x with
        | some c => valOf i.fa c
        | none => Val.nan false)))
    let codes := blocks.flatMap (fun b => b.2.1)
    let bits := (List.range 128).foldl (fun a k => a + nth 0 codes k * 2 ^ (k * fmtBits i.fb)) 0
    (leBytes (128 * fmtBits i.fb / 8) bits, blocks.map (fun b => BitVec.ofNat 8 b.1))
  else
    (((List.range 128).flatMap (fun k =>
      leBytes (fmtBits i.fb / 8) (match nth none row k with
        | some c => (cvt i.fa i.fb (mode k) sat c).1
        | none => badElem i.fb))), [])

/-- The 32-byte sectors of a list of bytes from an address. -/
def cutSectors (a : Nat) (l : List Byte) : List (Nat × List Byte) :=
  (List.range (l.length / 32)).map (fun k => (a + 32 * k, (l.drop (32 * k)).take 32))

/-- The sectors an ACCST writes to local store, the accumulators unchanged: its rows, whose starts and lengths are whole sectors (R101,
R106), and its scale bytes. -/
def MInstr.stored (i : MInstr) (t : Tile) (draw : Nat) : List (Nat × List Byte) :=
  let rows := (List.range i.rows).map (fun r => i.storeRow t draw r)
  (List.range i.rows).flatMap (fun r => cutSectors (i.ua.toNat + r * i.pa) (nth ([], []) rows r).1)
    ++ (if isMx i.fb then cutSectors i.us.toNat (rows.flatMap (·.2)) else [])

/-- Local store changes: an engine's executing instruction may still read what stood there (R109, R124). -/
def Tile.putLs (t : Tile) (ls : Store) : Tile :=
  let past := fun (o : Option (List Store)) => o.map (fun l => t.ls :: l)
  { t with ls := ls, arrSaw := past t.arrSaw, xferSaw := past t.xferSaw, exSaw := past t.exSaw }

/-- An executing ACCST whose accumulators are final writes sectors of its target: those that `pick` names among the ones it has not written
yet (R108, R109). -/
def Tile.accst (t : Tile) (pick : Nat → Bool) : Tile :=
  match t.xfer with
  | some i =>
    if i.op == 3 && !(t.arr.toList.any (fun j => j.shares i)) then
      let l := i.stored t t.xferDraw
      let new := (List.range l.length).filter (fun k => !(t.xferDone.contains k) && pick k)
      let ls := new.foldl (fun (ls : Store) k => ls.writeBytes (nth (0, []) l k).1 (nth (0, []) l k).2) t.ls
      { t.putLs ls with xferDone := t.xferDone ++ new }
    else t
  | none => t

/-- Local store as an engine's instruction reads it: each sector as it stood at some moment since the instruction started (R109, R124). -/
def Tile.seen (t : Tile) (saw : Option (List Store)) (draw : Nat) : Store := Store.among (Free.moment draw) (t.ls :: saw.getD [])

end Machine

end Sys2Proof
end

