-- ==== Sys2Proof/Machine/CrewOps.lean ====
section
/-! DEFINITION. Crews: registers, paths and frames, barriers, traps and parking, L1, accesses and their completions (chapter 3;
R180, R201–R205). -/

namespace Sys2Proof.Machine

/-- A crew by its id. -/
def State.crew (s : State) (c : CrewId) : Option Crew := alFind (s.tile c.die c.tile).crews c.slot

/-- Sets a crew. -/
def State.setCrew (s : State) (c : CrewId) (v : Crew) : State :=
  let t := s.tile c.die c.tile
  s.setTile c.die c.tile { t with crews := alPut t.crews c.slot v }

/-- Changes a crew that exists. -/
def State.onCrew (s : State) (c : CrewId) (f : Crew → Crew) : State :=
  match s.crew c with
  | some v => s.setCrew c (f v)
  | none => s

/-- The launch whose stands a tile holds. -/
def State.launchOf (s : State) (c : CrewId) : Option Launch := (s.tile c.die c.tile).launch.bind (fun n => alFind s.launches n)

/-- A g register of a lane; code 255 reads 0 (R66). -/
def Crew.getG (v : Crew) (lane r : Nat) : W32 := if r = 255 then 0 else alGet 0 v.g (lane * 256 + r)
/-- A u register; code 255 reads 0. -/
def Crew.getU (v : Crew) (r : Nat) : W32 := if r = 255 then 0 else alGet 0 v.u r
/-- A register as a lane sees it. -/
def Crew.get (v : Crew) (uni : Bool) (lane r : Nat) : Nat := if uni then (v.getU r).toNat else (v.getG lane r).toNat
/-- `n` registers from `r` as one value, the low half in the first. -/
def Crew.getN (v : Crew) (uni : Bool) (lane r n : Nat) : Nat :=
  if r = 255 then 0 else ((List.range n).map (fun k => v.get uni lane (r + k) * 2 ^ (32 * k))).foldl (· + ·) 0

/-- Writes a register; code 255 discards (R66). -/
def Crew.set (v : Crew) (uni : Bool) (lane r x : Nat) : Crew :=
  if r = 255 then v
  else if uni then { v with u := alPut v.u r (BitVec.ofNat 32 x) } else { v with g := alPut v.g (lane * 256 + r) (BitVec.ofNat 32 x) }
/-- Writes `n` registers from `r`. -/
def Crew.setN (v : Crew) (uni : Bool) (lane r n x : Nat) : Crew :=
  if r = 255 then v else (List.range n).foldl (fun (t : Crew) k => t.set uni lane (r + k) (fld x (32 * k) 32)) v

/-- A predicate of a lane; p7 reads 1 (Table 3.1). -/
def Crew.getP (v : Crew) (lane k : Nat) : Bool := if k = 7 then true else bitOf (alGet 0 v.p lane).toNat k
/-- Writes a predicate; p7 discards. -/
def Crew.setP (v : Crew) (lane k : Nat) (x : Bool) : Crew :=
  if k = 7 then v else { v with p := alPut v.p lane (BitVec.ofNat 8 (setFld (alGet 0 v.p lane).toNat k 1 (b2n x))) }

/-- Lanes of a mask, rising. -/
def lanesOf (m : LaneMask) : List Nat := bitsOf 32 m.toNat
/-- The mask of a list of lanes. -/
def maskOf (l : List Nat) : LaneMask := l.foldl (fun (a : LaneMask) k => a ||| (1#32 <<< k)) 0
/-- The lowest lane of a mask. -/
def lowest (m : LaneMask) : Nat := ((lanesOf m).head?).getD 0

/-- A register name is in range for the launch: one register, an even pair, or four (R66). -/
def regOk (nreg : Nat) (uni : Bool) (r n : Nat) : Bool :=
  r == 255 || (if uni then decide (r + n ≤ 64) else decide (r + n ≤ nreg) && decide (r + n ≤ 255))
    && (decide (n = 1) || decide (r % 2 = 0)) && (decide (n ≠ 4) || decide (r % 4 = 0))

/-- A register code that is illegal in a u-register field (Table 3.5). Table 3.5 says so of a uniform instruction; the u-register fields of the
others, B with BU = 1 and A of REDL, are taken to be alike (DEDUCED, log entry 64). -/
def uIllegal (uni : Bool) (r : Nat) : Bool := uni && decide (64 ≤ r) && decide (r ≤ 254)

/-- The checks on a list of register fields (uniform, code, count): illegal first, then range; cause and DETAIL (R66, R77). -/
def regTrap (nreg : Nat) (l : List (Bool × Nat × Nat)) : Option (Nat × W64) :=
  if l.any (fun e => uIllegal e.1 e.2.1) then some (1, 0)
  else (l.find? (fun e => !(regOk nreg e.1 e.2.1 e.2.2))).map (fun e => (2, BitVec.ofNat 64 e.2.1))

/-- A path waits at its frame's reconvergence point when it reaches it (R84). -/
def Crew.park? (v : Crew) (p : Path) : Path :=
  match v.frames.find? (fun f => f.id == p.frame) with
  | some f => if f.rcv = p.pc ∧ p.wait = .none then { p with wait := .reconv } else p
  | none => p

/-- Frames that have `f` among their parents, `f` included. -/
def below (frames : List Frame) (f : Nat) : List Nat :=
  frames.foldl (fun (acc : List Nat) g => if acc.contains g.parent && !(acc.contains g.id) then acc ++ [g.id] else acc) [f]

/-- One frame that is done: every lane of it waits at its point, or it holds no lane (R84). -/
def Crew.doneFrame (v : Crew) : Option Frame :=
  v.frames.find? (fun f => f.id != 0 &&
    (let fs := below v.frames f.id
     (v.paths.filter (fun p => fs.contains p.frame)).all (fun p => p.frame == f.id && p.wait == .reconv)))

/-- Replaces the paths that meet `q` by the path `m`, and gives its index. It takes the place in creation order of the path at `cur` when that is
one of them, which R86's bound needs, else of the first of them; the spec gives a merged path no place (DESIGN CHOICE, log entry 65). -/
def mergePaths (q : Path → Bool) (m : Path) (cur : Nat) (l : List Path) : List Path × Nat :=
  let i := if (l[cur]?).any q then cur else (indexWhere q l).getD l.length
  let before := (l.take i).filter (fun p => !(q p))
  (before ++ (if i < l.length then m :: (l.drop (i + 1)).filter (fun p => !(q p)) else []), before.length)

/-- Merges frames that are done, innermost first; lanes go on in the parent frame (R84). The executing path is followed by its
lanes. -/
def Crew.settle : Nat → Crew → Crew
  | 0, v => v
  | n + 1, v =>
    match v.doneFrame with
    | none => v
    | some f =>
      let q := fun (p : Path) => p.frame == f.id
      let lanes := (v.paths.filter q).foldl (fun (a : LaneMask) p => a ||| p.lanes) 0
      let v1 := { v with frames := v.frames.filter (fun g => g.id != f.id) }
      let m := v1.park? { pc := f.rcv, lanes := lanes, frame := f.parent, wait := .none }
      let cur := nth { pc := 0, lanes := 0, frame := 0, wait := .none } v.paths v.cur
      let ps := (mergePaths q m v.cur v.paths).1
      let at_ := (indexWhere (fun (p : Path) => p.lanes &&& cur.lanes != 0) ps).getD 0
      Crew.settle n { v1 with paths := ps, cur := at_ }

/-- Merges into the path at the cursor the other ready paths of its frame at its program counter (R84). -/
def Crew.mergeHere (v : Crew) : Crew :=
  match v.paths[v.cur]? with
  | none => v
  | some p =>
    let q := fun (x : Path) => x.frame == p.frame && x.pc == p.pc && x.wait == .none
    let lanes := (v.paths.filter q).foldl (fun (a : LaneMask) x => a ||| x.lanes) 0
    if p.wait = .none then
      let m := mergePaths q { p with lanes := lanes } v.cur v.paths
      { v with paths := m.1, cur := m.2 }
    else v

/-- Selects the next ready path after the executing one, in creation order, wrapping round (R85). -/
def Crew.select (v : Crew) : Crew :=
  let n := v.paths.length
  match ((List.range n).map (fun k => (v.cur + 1 + k) % n)).find? (fun i => match v.paths[i]? with | some p => p.wait == .none | none => false) with
  | some i => ({ v with cur := i, issued := 0 }).mergeHere
  | none => v

/-- After the executing path changed: waits at reconvergence points, frames that are done, and the yields of R85; a path that reaches its
frame's point yields there, also when it is the last. -/
def Crew.after (v : Crew) (yields : Bool) : Crew :=
  let v0 := { v with paths := v.paths.map v.park?, issued := v.issued + 1 }
  let waits := match v0.paths[v0.cur]? with | some p => p.wait != .none | none => true
  let v1 := v0.settle (v0.frames.length + 1)
  if yields || waits || decide (64 ≤ v1.issued) then v1.select else v1

/-- The executing path moves past its instruction (8 bytes), yielding when `yields`. -/
def Crew.advance (v : Crew) (yields : Bool) : Crew :=
  ({ v with paths := updNth v.paths v.cur (fun p => { p with pc := p.pc + 8 }) }).after yields

/-- The executing path's lanes. -/
def Crew.active (v : Crew) : LaneMask := ((v.paths[v.cur]?).map (·.lanes)).getD 0
/-- The executing path's program counter. -/
def Crew.pc (v : Crew) : Nat := ((v.paths[v.cur]?).map (·.pc)).getD 0

/-- Participating lanes: active with a true guard (chapter 3). -/
def Crew.part (v : Crew) (w : W64) : LaneMask :=
  maskOf ((lanesOf v.active).filter (fun l => v.getP l (wfld w 3 3) != (wfld w 6 1 == 1)))

/-- Parks a crew: the slot's generation advances and its record joins the die's queue (R91–R93). -/
def State.parkCrew (s : State) (c : CrewId) (t : Trap) : State :=
  match s.crew c with
  | none => s
  | some v =>
    let s1 := s.setCrew c { v with parked := some { t with time := s.now, recorded := false } }
    let tl := s1.tile c.die c.tile
    { s1.setTile c.die c.tile { tl with gens := alPut tl.gens c.slot ((alGet 0 tl.gens c.slot + 1) % 16) } with
      trapWait := alMod [] s1.trapWait c.die (· ++ [c]) }

/-- A trap of instruction grain on the executing path (R91). -/
def State.trapInstr (s : State) (c : CrewId) (v : Crew) (w : W64) (part : LaneMask) (cause : Nat) (detail : W64) : State :=
  (s.setCrew c v).parkCrew c
    { cause := cause, instr := w, pc := v.pc, active := v.active, fault := part, first := lowest part, detail := detail,
      late := false, time := 0, recorded := false }

/-- Sets of L1 under the launch's split (Table 3.3, R202). -/
def Launch.l1Sets (l : Launch) : Nat := 1536 - 128 * l.lsSplit

/-- The L1 set of a line (R202). -/
def l1Set (sets line : Nat) : Nat := ((fld line 0 21) ^^^ (fld line 21 20)) % sets

/-- The way of L1 that holds a line. -/
def Tile.l1Find (t : Tile) (sets line : Nat) : Option (Nat × L1Line) :=
  ((List.range 8).filterMap (fun w =>
    match alFind t.l1 (l1Set sets line * 8 + w) with
    | some l => if l.addr = line then some (l1Set sets line * 8 + w, l) else none
    | none => none)).head?

/-- Installs a line in L1, least recently used replaced (R201, R202). -/
def Tile.l1Put (t : Tile) (sets line : Nat) (l : Line) : Tile :=
  let base := l1Set sets line * 8
  let key := match t.l1Find sets line with
    | some (k, _) => k
    | none =>
      match (List.range 8).find? (fun w => (alFind t.l1 (base + w)).isNone) with
      | some w => base + w
      | none => base + ((List.range 8).foldl (fun (b : Nat × Nat) w =>
          let u := ((alFind t.l1 (base + w)).map (·.use)).getD 0
          if u < b.2 then (w, u) else b) (0, ((alFind t.l1 base).map (·.use)).getD 0)).1
  { t with l1 := alPut t.l1 key { addr := line, line := l, use := t.l1Clock }, l1Clock := t.l1Clock + 1 }

/-- Marks a use of an L1 line. -/
def Tile.l1Use (t : Tile) (key : Nat) : Tile :=
  { t with l1 := alUpd t.l1 key (fun l => { l with use := t.l1Clock }), l1Clock := t.l1Clock + 1 }

/-- The access has left its tile and its answer has not been taken. -/
def Req.outstanding (r : Req) : Bool :=
  match r.stage with
  | .sent | .atHome | .filling | .replied _ => true
  | _ => false

/-- Fills of a tile that meet `p` are not installed (R204). -/
def State.noInstall (s : State) (die tile : Nat) (p : Req → Bool) : State :=
  { s with reqs := s.reqs.map (fun e =>
      if e.2.kind == .load && e.2.who.tile == some (die, tile) && p e.2 then (e.1, { e.2 with noInstall := true }) else e) }

/-- A load of the line that a write goes to: one not yet translated by its virtual address (R173, R204). -/
def Req.sameLine (w r : Req) : Bool :=
  match r.stage with
  | .xlat | .pended _ => r.space == w.space && decide (r.va / 128 = w.va / 128)
  | _ => decide (r.pa / 128 = w.pa / 128)

/-- Invalidates a tile's whole L1; fills that are outstanding are not installed (R203, R204). -/
def State.flushL1 (s : State) (die tile : Nat) : State :=
  (s.setTile die tile { s.tile die tile with l1 := [] }).noInstall die tile Req.outstanding

/-- Sets of L1 of a tile. -/
def State.l1Sets (s : State) (die tile : Nat) : Nat :=
  (((s.tile die tile).launch.bind (fun n => alFind s.launches n)).map Launch.l1Sets).getD 1536

/-- What a store or atomic does to its tile's L1 as it is sent: a store updates the copy, an atomic or reduction invalidates it;
outstanding fills of the line are not installed (R201, R203, R204). -/
def State.l1Write (s : State) (r : Req) : State :=
  match r.who.tile with
  | none => s
  | some (d, t) =>
    let tl := s.tile d t
    let line := r.pa / 128
    let s1 := match tl.l1Find (s.l1Sets d t) line with
      | none => s
      | some (k, l) =>
        if r.kind == AccKind.store then
          s.setTile d t { tl with l1 := alPut tl.l1 k { l with line := l.line.merge (r.pa % 128) r.size r.data.toNat r.mask.toNat r.poisoned } }
        else s.setTile d t { tl with l1 := alDel tl.l1 k }
    s1.noInstall d t r.sameLine

/-- A load of the same lane to the same line, made earlier, has not returned: L1 does not serve a later one meanwhile (R173). -/
def State.laneWaits (s : State) (r : Req) : Bool :=
  s.reqs.any (fun e =>
    let q := e.2
    decide (q.id < r.id) && q.kind == .load && q.outstanding && decide (q.pa / 128 = r.pa / 128) && !(q.levels.isEmpty && q.noInstall) &&
      (match q.who, r.who with
       | .lane c l _, .lane d k _ => c == d && l == k
       | _, _ => false))

/-- A load finds an uncorrectable error in the sectors it reads of its line in L1: the event counts once, and the line goes, so that it is
refilled (R205). -/
def State.l1Lost (s : State) (die tile key : Nat) : State :=
  let t := s.tile die tile
  ((s.setTile die tile { t with l1 := alDel t.l1 key }).count (pairErr die 14)).countReal 0 1

/-- A translated access of a lane goes on: a load that hits in L1 is answered from it; others are offered for admission (R80, R201,
R205, R293). -/
def State.proceed (s : State) (id : Nat) : State :=
  match s.req id with
  | none => s
  | some r =>
    match r.who with
    | .lane c _ _ =>
      (match r.kind with
       | .load =>
         let t := s.tile c.die c.tile
         (match t.l1Find (s.l1Sets c.die c.tile) (r.pa / 128), s.laneWaits r with
          | some (k, l), false =>
            if (sectorsOf r.pa r.size).any r.lost.contains then ((s.l1Lost c.die c.tile k).setReq { r with stage := .backoff 0 }).tryAdmit id
            else (s.setTile c.die c.tile (t.l1Use k)).setReq { r with noInstall := true, stage := .replied (.line l.line) }
          | _, _ => (s.setReq { r with stage := .backoff 0 }).tryAdmit id)
       | .store | .atomic | .red | .redl => ((s.setReq { r with stage := .backoff 0 }).l1Write r).tryAdmit id
       | _ => (s.setReq { r with stage := .backoff 0 }).tryAdmit id)
    | _ => (s.setReq { r with stage := .backoff 0 }).tryAdmit id

/-- Starts an access: translated at once on a hit, refused at once, or waiting for its translation (R80, R249, R261). -/
def State.startReq (s : State) (r : Req) : State × Nat :=
  let n := s.newReq r
  let lk := n.1.look r.who.pair r.space r.va r.kind.need
  match lk.1 with
  | .hit pa => ((lk.2.setReq { r with id := n.2, pa := pa }).proceed n.2, n.2)
  | .refused => (lk.2.setReq { r with id := n.2, stage := .replied .xlatError }, n.2)
  | .miss => (lk.2.setReq { r with id := n.2, stage := .xlat }, n.2)

/-- Accesses of a crew in flight. -/
def State.crewReqs (s : State) (c : CrewId) : List Req :=
  (s.reqs.map (·.2)).filter (fun r => match r.who with | .lane d _ _ => d == c | _ => false)

/-- An element instruction of a crew slot that will write one of `n` registers: VGET's g(G) or VFLAGS's u register (R122). -/
def EInstr.pends (e : EInstr) (slot : Nat) (uni : Bool) (reg n : Nat) : Bool :=
  let op := wfld e.w 8 8
  let d := if op = 1 then wfld e.w 32 8 else wfld e.w 32 6
  e.slot == slot && ((op == 1 && !uni && d != 255) || (op == 3 && uni)) && decide (reg ≤ d) && decide (d < reg + n)

/-- A register of a crew awaits an access's or element instruction's result (R73, R122). -/
def State.pendingReg (s : State) (c : CrewId) (uni : Bool) (reg n : Nat) : Bool :=
  (let t := s.tile c.die c.tile
   (t.eq ++ t.ex.toList).any (fun e => e.pends c.slot uni reg n)) ||
  (s.crewReqs c).any (fun r => (r.kind == .load || r.kind == .atomic) && r.uni == uni && r.dst != 255
    && decide (r.dst < reg + n) && decide (reg < r.dst + max 1 (r.size / 4)))

/-- A read has been performed. -/
def Req.readDone (r : Req) : Bool := match r.stage with | .replied _ => true | _ => false

/-- The conditions of a FENCE that waits (R176, R177, Table 7.3): kind 1 ACQ, 2 REL, 3 AR; scope 0 crew, 1 stand, 2 device, 3 system. An acquire
waits until loads have returned; a release wider than the crew until they have been performed, as Table 7.2 orders them before later stores; a
system acquire until the host snoops that had come when it began have been applied (R180). -/
def State.fenceMet (s : State) (c : CrewId) (kind scope : Nat) : Bool :=
  let due := ((s.crew c).map (fun (v : Crew) => v.snoops)).getD 0
  let rs := s.crewReqs c
  let reads := rs.all (fun r => (r.kind != .load && r.kind != .atomic) || (kind == 2 && r.readDone))
  let writes := rs.all (fun r => !r.kind.writes)
  ((kind == 2 && scope == 0) || reads) && (kind == 1 || scope == 0 || writes) && decide (due ≤ s.snoopOut)

/-- Completes a crew's fence when its conditions hold: an acquire of stand scope or wider invalidates the tile's L1 (R180, R203). -/
def State.tryFence (s : State) (c : CrewId) : State :=
  match (s.crew c).bind (·.fence) with
  | none => s
  | some (k, sc) =>
    if s.serves && s.fenceMet c k sc then
      let s1 := s.onCrew c (fun v => { v with fence := none, snoops := 0 })
      if k ≠ 2 ∧ 1 ≤ sc then s1.flushL1 c.die c.tile else s1
    else s

/-- Adds a failing lane to a group: the lowest lane's cause and DETAIL stand (R91). -/
def Group.fail (g : Group) (lane cause : Nat) (detail : W64) : Group :=
  let f := g.fault ||| (if g.whole = 0 then 1#32 <<< lane else g.whole)
  if g.fault = 0 ∨ lane < g.first then { g with fault := f, cause := cause, first := lane, detail := detail } else { g with fault := f }

/-- Raises the trap of a group that has failed and whose accesses are all back, unless the crew is parked (R91). ACTIVE holds the lanes active
at this moment, which are another path's when the path has moved on (R92). -/
def State.raiseGroup (s : State) (c : CrewId) : State :=
  match s.crew c with
  | none => s
  | some v =>
    if v.parked.isSome then s
    else if v.paths.isEmpty then s.setCrew c { v with groups := [] }
    else
      let back := fun (g : Group) => (s.crewReqs c).all (fun r => match r.who with | .lane _ _ n => n != g.grp | _ => true)
      match v.groups.find? (fun g => g.fault != 0 && back g) with
      | none => s.setCrew c { v with groups := v.groups.filter (fun g => !(back g)) }
      | some g =>
        (s.setCrew c { v with groups := v.groups.filter (fun x => x.grp != g.grp) }).parkCrew c
          { cause := g.cause, instr := g.instr, pc := g.pc, active := (if g.late then v.active else g.active), fault := g.fault, first := g.first, detail := g.detail,
            late := g.late, time := 0, recorded := false }

/-- Sign-extends the low `n` bytes of a value to 32 bits. -/
def sext32 (n x : Nat) : Nat := wrapTo 32 (signed (8 * n) x)

/-- The trap cause of an answer to a lane's access, if it fails (Table 3.15). -/
def failCause (r : Req) (res : AccResult) : Option Nat :=
  match res with
  | .decode => some 6
  | .host => some 6
  | .xlatError => some 7
  | .poison => if r.kind = .load ∨ r.kind = .atomic then some 8 else none
  | .unreachable => if r.kind = .load ∨ r.kind = .atomic then some 8 else none
  | .line l => if (r.kind = .load ∨ r.kind = .atomic) ∧ l.marked (r.pa % 128) r.size then some 8 else none
  | .ok => none

/-- Writes what a load or atomic read into its destination (R79, R188). -/
def Crew.writeBack (v : Crew) (r : Req) (lane : Nat) (l : Line) : Crew :=
  let x := l.get (r.pa % 128) r.size
  if r.kind = .load then
    if r.size < 4 then v.set r.uni lane r.dst (if r.sx then sext32 r.size x else x)
    else v.setN r.uni lane r.dst (r.size / 4) x
  else if r.kind = .atomic then
    (if r.size < 4 then v.set r.uni lane r.dst x else v.setN r.uni lane r.dst (r.size / 4) x)
  else v

/-- The answer of an access reaches its crew: the destination is written or the lane's fault is noted; the tokens go back; fences
and traps that waited go on (R91, R180, R204, R294). -/
def State.deliverLane (s : State) (c : CrewId) (lane grp : Nat) (r : Req) (res : AccResult) : State :=
  let s1 := s.dropReq r.id
  match s1.crew c with
  | none => s1
  | some v =>
    let cause := failCause r res
    let v1 := match cause, res with
      | none, .line l => v.writeBack r lane l
      | _, _ => v
    let v2 := match cause with
      | some k => { v1 with groups := v1.groups.map (fun g => if g.grp = grp then g.fail lane k (BitVec.ofNat 64 r.va) else g) }
      | none => v1
    ((s1.setCrew c v2).tryFence c).raiseGroup c

/-- Every crew of the stand has arrived at barrier n or exited; a parked crew has not arrived (R89). -/
def Tile.barMet (t : Tile) (stand n : Nat) : Bool :=
  (t.crews.filter (fun e => e.2.stand == stand)).all (fun e =>
    e.2.paths.isEmpty || (e.2.parked.isNone && e.2.paths.all (fun p => match p.wait with | .bar m r => m == n && !r | _ => false)))

/-- Releases a barrier of a stand when it is met (R89, R181). -/
def State.tryBar (s : State) (c : CrewId) (stand n : Nat) : State :=
  let t := s.tile c.die c.tile
  if t.barMet stand n then
    s.setTile c.die c.tile { t with crews := t.crews.map (fun e =>
      if e.2.stand = stand then
        (e.1, { e.2 with paths := e.2.paths.map (fun p => match p.wait with | .bar m _ => if m = n then { p with wait := .bar n true } else p | _ => p) })
      else e) }
  else s

/-- Releases every barrier of a stand that is met. -/
def State.tryBars (s : State) (c : CrewId) (stand : Nat) : State := (List.range 8).foldl (fun (t : State) n => t.tryBar c stand n) s

/-- First byte of a stand's local-store window and its size, in bytes (R71). -/
def Launch.window (l : Launch) (stand : Nat) : Nat × Nat := (stand * l.lsStand * 1024, l.lsStand * 1024)

/-- What an executing ACCST of a tile has written of its target by now: any of its sectors, so that another unit meets the old or the new
bytes of each (R109). -/
def State.accstStep (s : State) (die tile : Nat) : State :=
  let t := s.tile die tile
  match t.xfer with
  | some i => if i.op = 3 then s.drawn.setTile die tile (t.accst (Free.early s.fresh)) else s
  | none => s

/-- Reading `n` bytes of a tile's local store: value, whether poisoned, and the store with corrections counted (R109, R142, R272). -/
def State.readLs (s0 : State) (die tile a n : Nat) : Nat × Bool × State :=
  let s := s0.accstStep die tile
  let st := (s.tile die tile).ls
  let bads := (sectorsOf a n).filter (fun k => 0 < alGet 0 st.bad k)
  let s1 := bads.foldl (fun (t : State) k => t.count (pairErr die (if 2 ≤ alGet 0 st.bad k then 14 else 13))) s
  (st.readNat a n, st.poisoned a n, s1)

/-- Reading bytes of a landing store as `readLs` reads a local store (R167). -/
def State.readLand (s : State) (die a n : Nat) : Nat × Bool × State :=
  let st := alGet {} s.landing die
  let bads := (sectorsOf a n).filter (fun k => 0 < alGet 0 st.bad k)
  let s1 := bads.foldl (fun (t : State) k => t.count (pairErr die (if 2 ≤ alGet 0 st.bad k then 12 else 11))) s
  (st.readNat a n, st.poisoned a n, s1)

/-- Writing bytes of a tile's local store in one with the read before it (R188). -/
def State.putLsAt (s : State) (die tile a : Nat) (l : List Byte) : State :=
  let t := s.tile die tile
  s.setTile die tile (t.putLs (t.ls.writeBytes a l))

/-- Writing bytes of a tile's local store (R109, R124). -/
def State.writeLs (s : State) (die tile a : Nat) (l : List Byte) : State := (s.accstStep die tile).putLsAt die tile a l

end Sys2Proof.Machine
end

