-- ==== Sys2Proof/Machine/Agents.lean ====
section
/-! DEFINITION. Caching agents: node-core clusters and the dispatcher's watches (R221, R224, R230, R236–R238; Tables 9.3, 9.7,
9.11). -/

namespace Sys2Proof.Machine

/-- A line at an agent. -/
def State.aline (s : State) (a line : Nat) : Option ALine := alFind (alGet {} s.agents a).lines line

/-- State of a line at an agent; I when not held. -/
def State.ast (s : State) (a line : Nat) : ASt := ((s.aline a line).map (·.st)).getD .i

/-- Sets a line at an agent; a line in I is not kept. -/
def State.setAline (s : State) (a line : Nat) (l : ALine) : State :=
  { s with agents := alMod {} s.agents a (fun v =>
      { v with lines := if l.st = .i then alDel v.lines line else alPut v.lines line l }) }

/-- A line at an agent with nothing recorded. -/
def ALine.new (line : Nat) (st : ASt) (l : Line) : ALine :=
  { addr := line, st := st, line := l, got := none, cmp := none, acks := [], acc := none, cleanVictim := false }

/-- The line at an agent, or a blank one. -/
def State.alineOr (s : State) (a line : Nat) : ALine := (s.aline a line).getD (ALine.new line .i Line.zero)

/-- Changes the state of a line at an agent. -/
def State.toSt (s : State) (a line : Nat) (st : ASt) : State := s.setAline a line { s.alineOr a line with st := st }

/-- A message from an agent for a request of `rq` (Table 9.6). -/
def fromAgent (op : MsgOp) (line a dst rq : Nat) (tag : Nat := 0) : CMsg :=
  { op := op, line := line, dst := dst, src := a, rq := rq, dsrc := a, invset := [], stale := false, line' := Line.zero, tag := tag }

/-- An agent answers a snoop, of the snoop's requester and tag. -/
def answerTo (op : MsgOp) (m : CMsg) (a dst : Nat) : CMsg := fromAgent op m.line a dst (agentAt m.rq) m.tag

/-- An agent answers a snoop with its line's data. -/
def State.agentData (s : State) (op : MsgOp) (m : CMsg) (a dst : Nat) : State :=
  s.send { answerTo op m a dst with line' := (s.alineOr a m.line).line }

/-- A cluster no longer holds a line, or may no longer keep it unchanged: LR reservations of its cores on the line end (R30, R230). -/
def State.loseResv (s : State) (a line : Nat) : State :=
  if s.ownAgent a ∧ a % 16 < 8 then
    { s with cores := s.cores.map (fun (e : Nat × NCore) =>
        if e.1 / 8 = a % 16 ∧ e.2.resv = some line then (e.1, { e.2 with resv := none }) else e) }
  else s

/-- FwdDone, in home-ordered mode only (R236). -/
def State.fwdDone (s : State) (m : CMsg) (a : Nat) : State :=
  if s.homeOrdered then s.send (answerTo .fwddone m a 0x7F) else s

/-- Ends the watches on a line and wakes their streams (R238). -/
def State.endWatch (s : State) (line : Nat) : State :=
  { s with streams := s.streams.map (fun e => (e.1, if e.2.watch = some line then { e.2 with watch := none, woken := true } else e.2)) }

/-- A number for an agent's state or a message in a log entry (R236; the numbering is the model's own, log entry 10). -/
def astCode : ASt → Nat
  | .i => 0 | .s => 1 | .e => 2 | .o => 3 | .m => 4 | .isD => 5 | .isDI => 6 | .imAD => 7 | .smA => 8 | .omA => 9
  | .miA => 10 | .eiA => 11 | .siA => 12 | .xiW => 13 | .iiA => 14

/-- A number for a message in a log entry (R236; the numbering is the model's own, log entry 10). -/
def msgCode : MsgOp → Nat
  | .rds => 0 | .rdw => 1 | .rdu => 2 | .upg => 3 | .vicd => 4 | .vicc => 5 | .fwds => 6 | .fwdu => 7 | .inv => 8 | .cur => 9
  | .rcl => 10 | .invack => 11 | .fwddone => 12 | .rspi => 13 | .datas => 14 | .datae => 15 | .datau => 16 | .wbd => 17
  | .cmp => 18 | .vcmp => 19 | .cack => 20

/-- A snoop, for the cells of Table 9.11 that cannot occur. -/
def isSnoop : MsgOp → Bool
  | .fwds | .fwdu | .inv | .cur | .rcl => true
  | _ => false

/-- A message that cannot occur: counted and logged; a snoop is answered with RspI (R236). -/
def State.protocolError (s : State) (a : Nat) (m : CMsg) : State :=
  let s1 := (s.count (svc 8)).logEv 0x0008 4 1 [m.line, msgCode m.op, astCode (s.ast a m.line)]
  if isSnoop m.op then s1.send (answerTo .rspi m a 0x7F) else s1

/-- Queues a snoop, in owner-ordered mode (R236). -/
def State.queueFwd (s : State) (a : Nat) (m : CMsg) : State :=
  if s.homeOrdered then s.protocolError a m
  else { s with agents := alMod {} s.agents a (fun v => { v with fq := v.fq ++ [m] }) }

/-- A snoop that an agent would queue finds the 32 places of its forward queue taken (R237). -/
def State.fqFull (s : State) (a : Nat) (m : CMsg) : Bool :=
  (m.op == .fwds || m.op == .fwdu || m.op == .cur || m.op == .rcl)
    && (match s.ast a m.line with | .isD | .imAD | .smA => true | _ => false)
    && decide (32 ≤ (alGet {} s.agents a).fq.length)

/-- An agent's answers and next states for a snoop (Table 9.11). -/
def State.agentSnoop (s : State) (a : Nat) (m : CMsg) : State :=
  let line := m.line
  let go := fun (t : State) (st : ASt) => t.toSt a line st
  let r := agentAt m.rq
  let fwds := (s.agentData .datas m a r).fwdDone m a
  let fwdu := (s.agentData .datau m a r).fwdDone m a
  let ack := s.send (answerTo .invack m a r)
  let wbd := s.agentData .wbd m a 0x7F
  let rspi := s.send (answerTo .rspi m a 0x7F)
  let s1 := match m.op, s.ast a line with
    | .fwds, .e => go fwds .o
    | .fwds, .o => fwds
    | .fwds, .m => go fwds .o
    | .fwds, .omA => fwds
    | .fwds, .miA => fwds
    | .fwds, .eiA => fwds
    | .fwds, .xiW => fwds
    | .fwdu, .e => go fwdu .i
    | .fwdu, .o => go fwdu .i
    | .fwdu, .m => go fwdu .i
    | .fwdu, .omA => go fwdu .imAD
    | .fwdu, .miA => go fwdu .iiA
    | .fwdu, .eiA => go fwdu .iiA
    | .fwdu, .xiW => go fwdu .i
    | .inv, .s => go ack .i
    | .inv, .o => go ack .i
    | .inv, .isD => go ack .isDI
    | .inv, .smA => go ack .imAD
    | .inv, .omA => go ack .imAD
    | .inv, .miA => go ack .iiA
    | .inv, .siA => go ack .iiA
    | .inv, .xiW => go ack .i
    | .cur, .e => wbd
    | .cur, .o => wbd
    | .cur, .m => wbd
    | .cur, .omA => wbd
    | .cur, .miA => wbd
    | .cur, .eiA => wbd
    | .cur, .xiW => wbd
    | .rcl, .e => go rspi .i
    | .rcl, .o => go wbd .i
    | .rcl, .m => go wbd .i
    | .rcl, .omA => go wbd .imAD
    | .rcl, .miA => go wbd .iiA
    | .rcl, .eiA => go rspi .iiA
    | .rcl, .xiW => go (if (s.alineOr a line).cleanVictim then rspi else wbd) .i
    | .fwds, .isD => s.queueFwd a m
    | .fwds, .imAD => s.queueFwd a m
    | .fwds, .smA => s.queueFwd a m
    | .fwdu, .isD => s.queueFwd a m
    | .fwdu, .imAD => s.queueFwd a m
    | .fwdu, .smA => s.queueFwd a m
    | .cur, .isD => s.queueFwd a m
    | .cur, .imAD => s.queueFwd a m
    | .cur, .smA => s.queueFwd a m
    | .rcl, .isD => s.queueFwd a m
    | .rcl, .imAD => s.queueFwd a m
    | .rcl, .smA => s.queueFwd a m
    | _, _ => s.protocolError a m
  let s2 := if m.op = .fwdu ∨ m.op = .inv ∨ m.op = .rcl then s1.loseResv a line else s1
  if m.op = .inv ∧ a % 16 = 8 then s2.endWatch line else s2

/-- Sets a core's value. -/
def State.coreValue (s : State) (core : Nat) (v : W64) : State :=
  { s with cores := alMod {} s.cores core (fun c => { c with value := v }) }

/-- Puts what a read returned into a core's value: all of it, or from byte `off` on for the second piece of an access that crosses a line
(R185). -/
def State.corePut (s : State) (core : Nat) (off : Option Nat) (n : Nat) (v : W64) : State :=
  match off with
  | none => s.coreValue core v
  | some o => s.coreValue core (BitVec.ofNat 64 (setFld (alGet {} s.cores core).value.toNat (8 * o) (8 * n) v.toNat))

/-- A store of one core to a line ends the other cores' reservations on it, an SC its own too (R30). -/
def State.storeResv (s : State) (a line core : Nat) (own : Bool) : State :=
  { s with cores := s.cores.map (fun (e : Nat × NCore) =>
      if e.1 / 8 = a % 16 ∧ e.2.resv = some line ∧ (own ∨ e.1 ≠ core) then (e.1, { e.2 with resv := none }) else e) }

/-- Performs a node-core access, or one piece of it, on a line the cluster holds (R189, R230, R237): loads read, stores, AMOs and an SC whose
reservation stands write. A load of a poisoned sector returns a value the spec does not state (log entry 14). -/
def State.coreOn (s : State) (a line core : Nat) (off : Option Nat) (x : NodeAccess) : State :=
  let l := s.alineOr a line
  let o := x.addr % 128
  let old := BitVec.ofNat 64 (l.line.get o (min x.size 8))
  let v := if l.line.marked o x.size then Free.poisonLoad s.fresh else old
  let s0 := if l.line.marked o x.size then s.drawn else s
  let put := fun (t : State) (d : Nat) (own : Bool) =>
    (t.setAline a line { l with st := .m, line := l.line.merge o x.size d (2 ^ x.size - 1) false }).storeResv a line core own
  let hold := fun (t : State) => { t with cores := alMod {} t.cores core (fun (c : NCore) => { c with resv := some line }) }
  match x.kind with
  | .load | .ifetch => s0.corePut core off x.size v
  | .store => put s x.data.toNat false
  | .amo =>
    let ty := if x.size = 8 then 13 else 12
    (put s0 (atomicNew ty x.sub (l.line.get o x.size) (x.data.toNat % 256 ^ x.size) 0) false).coreValue core v
  | .lr => hold (s0.coreValue core v)
  | .sc =>
    if (alGet {} s.cores core).resv = some line then (put s x.data.toNat true).coreValue core 0
    else s.coreValue core 1
  | .evict | .fence => s

/-- Serves the snoops an agent queued for a line, in arrival order (R237). -/
def State.serveQueue (s : State) (a line : Nat) : State :=
  let q := (alGet {} s.agents a).fq
  let mine := q.filter (fun m => m.line == line)
  let s1 := { s with agents := alMod {} s.agents a (fun v => { v with fq := v.fq.filter (fun m => m.line != line) }) }
  mine.foldl (fun (t : State) m => t.agentSnoop a m) s1

/-- Every InvAck that Cmp asks for is in, dead agents counting as received (R237, R246). -/
def ALine.acksIn (l : ALine) (dead : List Nat) : Bool :=
  match l.cmp with
  | some c => c.2.all (fun x => l.acks.contains x || dead.contains x)
  | none => false

/-- A request whose data was to come from a dead agent goes on with all four sectors poisoned, to end in M (R246). -/
def ALine.orphaned (l : ALine) (dead : List Nat) : ALine :=
  match l.cmp with
  | some c =>
    if dead.contains c.1 && l.got.isNone && (l.st == .isD || l.st == .isDI || l.st == .imAD)
    then { l with got := some .datau, line := Line.dead, st := .imAD } else l
  | none => l

/-- Completes a request whose messages are all in: the stable state, CAck in home-ordered mode, the waiting access, then the queued
snoops (R233, R237). -/
def State.tryFinish (s : State) (a line : Nat) : State :=
  match s.aline a line with
  | none => s
  | some l0 =>
    let l := l0.orphaned s.dead
    let go := match l.st with
      | .isD | .isDI => l.got.isSome && l.cmp.isSome
      | .imAD => l.got.isSome && l.acksIn s.dead
      | .smA | .omA => l.acksIn s.dead
      | _ => false
    if !go then s
    else
      let st := match l.st with
        | .isD => if l.got = some .datae then ASt.e else .s
        | .isDI => .s
        | _ => .m
      let s1 := s.setAline a line { ALine.new line st l.line with acc := none }
      let s2 := if s.homeOrdered then s1.send (fromAgent .cack line a 0x7F a l.tag) else s1
      let s3 := match l.acc with | some (core, off, x) => s2.coreOn a line core off x | none => s2
      let s4 := if l.st = .isDI then (s3.toSt a line .i).loseResv a line else s3
      s4.serveQueue a line

/-- A message other than a snoop reaches an agent: recorded, or a protocol error (Table 9.11). -/
def State.agentRecv (s : State) (a : Nat) (m : CMsg) : State :=
  let l := s.alineOr a m.line
  let rec_ := fun (v : ALine) => (s.setAline a m.line v).tryFinish a m.line
  match m.op with
  | .datas | .datae | .datau =>
    (match l.st with
     | .isD | .isDI | .imAD => rec_ { l with got := some m.op, line := m.line' }
     | _ => if s.dead.contains m.src then s else s.protocolError a m)
  | .cmp =>
    (match l.st with
     | .isD | .isDI | .imAD | .smA | .omA => rec_ { l with cmp := some (m.dsrc, m.invset) }
     | _ => s.protocolError a m)
  | .invack =>
    (match l.st with
     | .imAD | .smA | .omA => rec_ { l with acks := m.src :: l.acks }
     | _ => s.protocolError a m)
  | .vcmp =>
    (match l.st with
     | .miA | .eiA | .siA =>
       if m.stale then s.setAline a m.line { l with st := .xiW, cleanVictim := decide (l.st ≠ .miA) } else s.toSt a m.line .i
     | .iiA => if m.stale then s.toSt a m.line .i else s.protocolError a m
     | _ => s.protocolError a m)
  | _ => s.protocolError a m

/-- A stable state of Table 9.3. -/
def ASt.stable : ASt → Bool
  | .i | .s | .e | .o | .m => true
  | _ => false

/-- Requests of an agent outstanding (R229). -/
def Agent.open_ (v : Agent) : Nat := (v.lines.filter (fun e => !e.2.st.stable)).length

/-- The least tag that no request of an agent under way uses (Table 9.6; which tag it takes is the model's own, log entry 70). -/
def Agent.freeTag (v : Agent) : Nat :=
  ((List.range 64).find? (fun k => v.lines.all (fun e => e.2.st.stable || e.2.tag != k))).getD 64

/-- An agent sends a request and takes its transient state (Table 9.7). -/
def State.sendReq (s : State) (a line : Nat) (op : MsgOp) (st : ASt) (acc : Option (Nat × Option Nat × NodeAccess)) : State :=
  let l := s.alineOr a line
  let tag := (alGet {} s.agents a).freeTag
  let m := { fromAgent op line a 0x7F a tag with line' := (if a % 16 = 8 then Line.zero else l.line) }
  (s.setAline a line { l with st := st, acc := acc, got := none, cmp := none, acks := [], tag := tag }).send m

/-- A request of an agent is admitted as any request of H is: sent, answered at once where no route takes it, or refused for want of a token or
of a place among the requests outstanding, 48 of a cluster and 64 of the dispatcher, or among the 65,536 lines of a cluster's L2, and tried again
(R28, R227, R229, R293, R296, Table 12.1). -/
def State.agentReq (s : State) (a line : Nat) (op : MsgOp) (st : ASt) (acc : Option (Nat × Option Nat × NodeAccess)) : Gate :=
  let v := alGet {} s.agents a
  if (if a % 16 = 8 then 64 else 48) ≤ v.open_ ∨ (a % 16 < 8 ∧ 65536 ≤ v.lines.length ∧ (alFind v.lines line).isNone) then .refused s
  else
    match s.gate .hub (line * 128) with
    | .go t => .go (t.sendReq a line op st acc)
    | x => x

/-- What a gate leaves, whatever it answers. -/
def Gate.state : Gate → State
  | .go s => s
  | .answer _ s => s
  | .refused s => s

/-- The dispatcher watches a line for a stream (R238, Table 9.7). -/
def State.setWatch (s : State) (n line : Nat) : State :=
  let a := s.agentId 8
  let s1 := s.setStream n { s.stream n with watch := some line, woken := false }
  match s.ast a line with
  | .i => (s1.agentReq a line .rdw .isD none).state
  | _ => s1

/-- A stream gives up its watch; the line is released when no other stream watches it (Table 9.7). -/
def State.dropWatch (s : State) (n : Nat) : State :=
  match (s.stream n).watch with
  | none => s
  | some line =>
    let s1 := s.setStream n { s.stream n with watch := none }
    let a := s.agentId 8
    if s1.streams.any (fun e => e.2.watch == some line) then s1
    else if s1.ast a line = .s then (s1.agentReq a line .vicc .siA none).state
    else s1

/-- Two messages of one class, between one pair of endpoints and about one line, which arrive in the order sent (R229). -/
def sameFlow (m x : CMsg) : Bool := msgClass x.op == msgClass m.op && x.src == m.src && x.dst == m.dst && x.line == m.line

/-- A message is taken from those in flight when no earlier one of its flow is still on its way (R16, R229). -/
def State.takeMsg (s : State) (m : CMsg) : Option State :=
  if s.msgs.find? (sameFlow m) = some m then some { s with msgs := s.msgs.erase m } else none

/-- An end of a message is one that may take part: a home, an agent of this package, or in board-coherent mode one of a package of the set, which
host lines are not shared with (R221, R223). -/
def State.partOf (s : State) (line a : Nat) : Bool :=
  a == 0x7F || s.ownAgent a
    || (s.coherentSet && bitOf (s.cfg.cohSet.getD 0) (a / 16) && decide (a % 16 ≤ 8) && !(hostLine line))

/-- A request of an agent for a line ends without its home's answer, and its copy goes: a read or atomic returns poison, an SC fails, anything
else is discarded; its watches wake (R247, R314). -/
def State.loseLine (s : State) (a line : Nat) : State :=
  let s1 := match (s.alineOr a line).acc with
    | some (core, off, x) =>
      (match x.kind with
       | .load | .ifetch | .lr | .amo => s.drawn.corePut core off x.size (Free.poisonLoad s.fresh)
       | .sc => s.coreValue core 1
       | .store | .evict | .fence => s)
    | none => s
  ((s1.toSt a line .i).endWatch line).loseResv a line

/-- A coherent request of this package's agent to another package that cannot be reached, or whose answer was discarded (R314). -/
def State.unreached (s : State) (a line : Nat) : State :=
  if s.ownAgent a && !((s.ast a line).stable) then s.loseLine a line else s

/-- The line's home is in this package. -/
def State.homeHere (s : State) (line : Nat) : Bool :=
  match s.region (line * 128) with
  | .near _ | .capacity _ | .hostMem => true
  | _ => false

end Sys2Proof.Machine
end

