-- ==== Sys2Proof/Machine/UnitXlate.lean ====
section
/-! DEFINITION. A unit's own accesses to global memory, made as requests that go to their homes as any others do: reads, writes and
translations of dispatcher, engines, Buckers, walks, rings and instruction fetch (R80, R83, R185, R193, R248, R249, R252, R256, R290,
R293). -/

namespace Sys2Proof.Machine

/-- Page of an access: VA[51:25] (R257). -/
def Req.page (r : Req) : Nat := fld r.va 25 27

/-- SRC bit of an access: its pair's micro-cache, or bit 4 (Table 10.5). -/
def Who.srcBit (w : Who) : BitVec 5 := match w.pair with | some n => 1#5 <<< n | none => 16#5

/-- An access that performs itself after its translation; one of no bytes is a unit's wait for a translation alone, after which the unit goes on. -/
def Req.performs (r : Req) : Bool := decide (0 < r.size)

/-- SPACE of an access at a physical address, which no space translates (R30). -/
def noSpace : Nat := 16

/-- A unit's access, not yet made. -/
def unitReq (who : Who) (kind : AccKind) (space va n : Nat) : Req :=
  { id := 0, who := who, kind := kind, space := space, va := va, pa := 0, size := n, data := 0, cmp := 0, mask := BitVec.ofNat 128 (2 ^ n - 1),
    sub := 0, ty := 0, dst := 255, uni := false, sx := false, noInstall := false, poisoned := false, levels := [], stage := .xlat }

/-- A unit's write. -/
def unitWr (who : Who) (kind : AccKind) (space va : Nat) (l : List Byte) (psn : Bool) : Req :=
  { unitReq who kind space va l.length with data := BitVec.ofNat 1024 (leNat l), poisoned := psn }

/-- The access in flight that a unit made for the same purpose, unless it has given it up. -/
def State.unitOwn (s : State) (x : Req) : Option Req :=
  (s.reqs.find? (fun e => e.2.who == x.who && e.2.kind == x.kind && e.2.space == x.space && e.2.va == x.va && e.2.size == x.size
    && !e.2.noInstall)).map (·.2)

/-- A unit makes an access: through translation, or at a physical address; one beyond the virtual space is refused as an error reply is
(R80, R168). -/
def State.unitStart (s : State) (x : Req) : State :=
  if x.space = noSpace then let r := s.newReq { x with pa := x.va, stage := .backoff 0 }; r.1.tryAdmit r.2
  else if 2 ^ 52 ≤ x.va then (s.newReq { x with stage := .replied .xlatError }).1
  else (s.startReq x).1

/-- What a unit's accesses give: all answered, or not yet. -/
inductive UnitOut where
  | done (l : List (Req × AccResult)) (s : State)
  | wait (s : State)

/-- A unit's accesses: those not made are made; the answers are taken when all have come, the accesses staying until `unitEnd`. -/
def State.unitAll (s : State) (xs : List Req) : UnitOut :=
  let s1 := xs.foldl (fun (t : State) x => if (t.unitOwn x).isSome then t else t.unitStart x) s
  let got := xs.filterMap (fun x => (s1.unitOwn x).bind (fun r => match r.stage with | .replied a => some (r, a) | _ => none))
  if got.length = xs.length then .done got s1 else .wait s1

/-- A unit has done with accesses, whose tokens go back. -/
def State.unitEnd (s : State) (xs : List Req) : State :=
  xs.foldl (fun (t : State) x => match t.unitOwn x with | some r => t.dropReq r.id | none => t) s

/-- A request leaves its pending entry, and the entry forgets the sources and kinds that only it had (R260). -/
def State.withdrawn (t : State) (id : Nat) : State :=
  let left := fun (e : PEntry) => (e.waiters.filter (· != id)).filterMap t.req
  { t with reqs := alDel t.reqs id,
           xlt := { t.xlt with pend := t.xlt.pend.map (fun p => if p.2.waiters.contains id then
             (p.1, { p.2 with
               waiters := p.2.waiters.filter (· != id)
               src := ((left p.2).map (fun r => r.who.srcBit)).foldl (· ||| ·) (if p.2.aperture = 0 then 0 else 16#5)
               need := ((left p.2).map (fun r => BitVec.ofNat 3 r.kind.need)).foldl (· ||| ·) p.2.aperture })
             else p) } }

/-- A unit gives up its accesses that meet `p`: one still on its way ends where it is, and nobody takes its answer. -/
def State.unitQuit (s : State) (p : Who → Bool) : State :=
  s.reqs.foldl (fun (t : State) e =>
    match t.req e.1 with
    | some r =>
      if !(p r.who) then t
      else
        (match r.stage with
         | .replied _ => t.dropReq r.id
         | .xlat | .pended _ => t.withdrawn r.id
         | .backoff _ => t.dropReq r.id
         | _ => t.setReq { r with noInstall := true })
    | none => t) s

/-- Trap-style cause of a failing answer to a unit's access, if it fails (Tables 3.15, 14.12); poison is told apart. -/
def unitCause : AccResult → Option Nat
  | .decode | .host => some 6
  | .xlatError => some 7
  | .unreachable => some 8
  | _ => none

/-- Bytes of an answered read, with the numbers of the poisoned 32-byte sectors among them, by address over 32. -/
def readBytes (r : Req) (a : AccResult) : List Byte × List Nat :=
  match a with
  | .line l => (leBytes r.size (l.get (r.pa % 128) r.size), (sectorsOf r.va r.size).filter (fun k => bitOf l.pmask.toNat (k % 4)))
  | _ => (List.replicate r.size 0, sectorsOf r.va r.size)

/-- `n` bytes from a virtual address cut at line ends: address and length of each piece (R185). -/
def pieces (va n : Nat) : List (Nat × Nat) :=
  if n = 0 then []
  else (List.range ((va + n - 1) / 128 - va / 128 + 1)).map (fun i =>
    let lo := max va ((va / 128 + i) * 128)
    (lo, min (va + n) ((va / 128 + i + 1) * 128) - lo))

/-- What a unit's read or write of bytes gives: done, with what was read and its poisoned sectors, and the accesses made; a failure with its cause
and address; or not yet. -/
inductive BytesOut where
  | ok (l : List Byte) (poisoned : List Nat) (xs : List Req) (s : State)
  | fail (cause at_ : Nat) (s : State)
  | wait (s : State)

/-- The first answer that fails. -/
def firstFail (l : List (Req × AccResult)) : Option (Nat × Nat) := l.findSome? (fun e => (unitCause e.2).map (fun k => (k, e.1.va)))

/-- The accesses of a unit's read. -/
def readReqs (who : Who) (kind : AccKind) (space va n : Nat) : List Req := (pieces va n).map (fun e => unitReq who kind space e.1 e.2)

/-- A unit reads bytes of global memory, each line by one access; a line that cannot be reached or is lost reads as poison (R185, R248,
R322). -/
def State.unitRead (s : State) (who : Who) (kind : AccKind) (space va n : Nat) : BytesOut :=
  let xs := readReqs who kind space va n
  match s.unitAll xs with
  | .wait t => .wait t
  | .done l t =>
    match firstFail l with
    | some (k, a) => .fail k a (t.unitEnd xs)
    | none => .ok (l.flatMap (fun e => (readBytes e.1 e.2).1)) (l.flatMap (fun e => (readBytes e.1 e.2).2)) xs t

/-- The accesses of a unit's write: bytes from an address on, none of those `skip` names. -/
def writeReqs (who : Who) (kind : AccKind) (space va : Nat) (l : List Byte) (psn : Bool) : List Req :=
  (pieces va l.length).map (fun e => unitWr who kind space e.1 ((l.drop (e.1 - va)).take e.2) psn)

/-- A unit makes writes of global memory, all of which land before it goes on; they end with it. -/
def State.unitWrites (s : State) (xs : List Req) : BytesOut :=
  match s.unitAll xs with
  | .wait t => .wait t
  | .done l t =>
    match firstFail l with
    | some (k, a) => .fail k a (t.unitEnd xs)
    | none => .ok [] [] xs (t.unitEnd xs)

/-- A ring at a physical address takes a record: the unit's write has landed, whatever its answer, or is on its way (R33). -/
def State.ringWrite (s : State) (q : Source) (n pa : Nat) (l : List Byte) : Bool × State :=
  match s.unitWrites (writeReqs (.unit q n) .store noSpace pa l false) with
  | .wait t => (false, t)
  | .fail _ _ t => (true, t)
  | .ok _ _ _ t => (true, t)

/-- What a unit's wait for a translation gives. -/
inductive XOut where
  | hit (pa : Nat) (s : State)
  | fail (s : State)
  | wait (s : State)

/-- A unit of H translates an address of its own: an address, a failure (Table 10.6), or a wait behind its pending request (R80, R249,
R256). -/
def State.unitXlat (s : State) (who : Who) (kind : AccKind) (space va : Nat) : XOut :=
  let old := (s.reqs.find? (fun e => e.2.who == who && e.2.kind == kind && e.2.space == space && decide (e.2.page = fld va 25 27) && !e.2.performs)).map (·.2)
  let lk := s.look who.pair space va kind.need
  let drop := fun (t : State) => match old with
    | some r => t.withdrawn r.id
    | none => t
  match lk.1 with
  | .hit pa => .hit pa (drop lk.2)
  | .refused => .fail (drop lk.2)
  | .miss =>
    match old with
    | some r => if r.stage = .replied .xlatError then .fail (drop lk.2) else .wait lk.2
    | none => .wait (lk.2.newReq (unitReq who kind space va 0)).1

/-- Bytes of a table as 8-byte words. -/
def wordsOf (l : List Byte) : List W64 := (List.range (l.length / 8)).map (fun k => BitVec.ofNat 64 (byteFld l (8 * k) 8))

/-- What a unit's read of several words gives; the access ends with it. -/
inductive WordsOut where
  | ok (l : List W64) (s : State)
  | fail (why : ReadFail) (at_ : Nat) (s : State)
  | wait (s : State)

/-- A unit reads `n` words of a table, uncached and coherent; the first failure decides (R80, R185, R290, R293). The accesses stay: a unit that has
not done with what it read finds it again. -/
def State.readKeep (s : State) (who : Who) (space va n : Nat) : WordsOut :=
  match s.unitRead who .bread space va (8 * n) with
  | .wait t => .wait t
  | .fail 6 a t => .fail .decode a t
  | .fail 7 a t => .fail .translation a t
  | .fail _ a t => .fail .poison a t
  | .ok l psn xs t => match psn with
    | k :: _ => .fail .poison (32 * k) (t.unitEnd xs)
    | [] => .ok (wordsOf l) t

/-- The accesses of such a read end. -/
def State.readEnd (s : State) (who : Who) (space va n : Nat) : State := s.unitEnd (readReqs who .bread space va (8 * n))

/-- A unit reads `n` words and has done with them. -/
def State.readWords (s : State) (who : Who) (space va n : Nat) : WordsOut :=
  match s.readKeep who space va n with
  | .ok l t => .ok l (t.readEnd who space va n)
  | x => x

end Sys2Proof.Machine
end

