-- ==== Sys2Proof/Machine/CrewIssue.lean ====
section
/-! DEFINITION. Issue of crew instructions: when a crew may issue, fetch through the instruction buffer, breakpoints, participating lanes, replay, the checks of R77
and R66, and what each instruction does once its lanes have finished (R73, R75–R77, R83, R91, R93, R417, R454). -/

namespace Sys2Proof.Machine

/-- An instruction as it issues: crew, word, its address, active and participating lanes, whether the path has already moved past it
(a replay of accesses that failed late), and the crew as it stood. -/
structure Issue where
  c      : CrewId
  w      : W64
  pc     : Nat
  active : LaneMask
  part   : LaneMask
  late   : Bool
  v      : Crew
  deriving DecidableEq, Repr

/-- A crew whose executing path may issue, with its launch: its die and tile run, it is not parked, its path does not wait, no fence
is open, no failed access awaits its trap (R73, R91, R180, R417). The replay of an instruction that the path has left does not wait for the
path (R93). Which of an issue slot's ready crews issues depends on clocks that the model does not count (R73; log entry 57). -/
def State.issuable (s : State) (c : CrewId) : Option (Crew × Launch) :=
  match s.crew c, s.launchOf c with
  | some v, some l =>
    let t := s.tile c.die c.tile
    let ready := match v.paths[v.cur]? with
      | some p => p.wait == .none || (match v.replay with | some (_, _, at_) => at_.isSome | none => false)
      | none => false
    if s.serves && decide (s.power.pstate = 0) && s.dieLive c.die && (!t.halted || t.stepping == some c.slot) && v.parked.isNone
        && ready && v.fence.isNone && v.groups.all (fun g => g.fault == 0)
    then some (v, l) else none
  | _, _ => none

/-- One STEP has been used (R417). -/
def State.stepped (s : State) (c : CrewId) : State :=
  let t := s.tile c.die c.tile
  if t.stepping = some c.slot then s.setTile c.die c.tile { t with stepping := none } else s

/-- How a fetch goes: the word is at hand, the fetch fails (R83), or it waits, for its translation or for another word than this. -/
inductive FetchOut where
  | ok (s : State)
  | fail (s : State)
  | wait (s : State)

/-- Puts the words of a fetched line into a tile's instruction buffer, those of poisoned sectors left out, the oldest of 4,096 making room; a word
that the buffer holds stays as it is (R75). -/
def Tile.buffer (t : Tile) (va : Nat) (l : Line) : Tile :=
  let new := ((List.range 16).filter (fun k => !(l.marked (8 * k) 8))).map (fun k => (va + 8 * k, BitVec.ofNat 64 (l.get (8 * k) 8)))
  { t with ibuf := lastN 4096 (t.ibuf ++ new.filter (fun e => !(t.ibuf.any (fun x => x.1 == e.1)))) }

/-- The access of a crew's fetch of the line that holds an address, for a launch (R75, R80). -/
def fetchReq (c : CrewId) (space pc lid : Nat) : Req :=
  { unitReq (.fetch c 0) .fetch space (pc / 128 * 128) 128 with cmp := BitVec.ofNat 64 lid }

/-- A fetched line reaches its tile: the buffer is filled while the launch is still the tile's, and the access ends (R75). -/
def State.fetched (s : State) (c : CrewId) (r : Req) (l : Line) : State :=
  let t := s.tile c.die c.tile
  (if t.launch = some r.cmp.toNat then s.setTile c.die c.tile (t.buffer r.va l) else s).dropReq r.id

/-- Fetch of a word at an address: from the instruction buffer, which stores do not change, else from memory through translation
(R75, R80, R83): its line is fetched through L2, and fails for a poisoned word, an address that names nothing or a failed translation. A word
that the buffer holds is the one that issues. -/
def State.fetch (s : State) (c : CrewId) (space pc lid : Nat) (w : W64) : FetchOut :=
  let t := s.tile c.die c.tile
  if pc % 8 ≠ 0 ∨ 2 ^ 52 ≤ pc then .fail s
  else
    match t.ibuf.find? (fun e => e.1 == pc) with
    | some e => if e.2 = w then .ok s else .wait s
    | none =>
      match s.unitAll [fetchReq c space pc lid] with
      | .wait u => .wait u
      | .done l u =>
        match l with
        | (r, .line d) :: _ =>
          if d.marked (pc % 128) 8 then .fail (u.fetched c r d)
          else if BitVec.ofNat 64 (d.get (pc % 128) 8) = w then .ok (u.fetched c r d)
          else .wait (u.fetched c r d)
        | _ => .fail (u.unitEnd [fetchReq c space pc lid])

/-- The breakpoint of a die at an address (R417). -/
def State.breakAt (s : State) (die pc : Nat) : Option Nat :=
  (List.range 8).find? (fun i => alFind s.dbgUnit.bk (die * 8 + i) == some pc)

/-- A trap of instruction grain: no lane performs anything (R91). -/
def State.trap (s : State) (i : Issue) (fault : LaneMask) (cause : Nat) (detail : W64) : State :=
  (s.setCrew i.c i.v).parkCrew i.c
    { cause := cause, instr := i.w, pc := i.pc, active := i.active, fault := fault, first := lowest fault, detail := detail,
      late := i.late, time := 0, recorded := false }

/-- The instruction is done: its path moves on, unless it had already. -/
def State.done (s : State) (i : Issue) (v : Crew) : State :=
  if i.late then s.setCrew i.c v else s.setCrew i.c (v.advance false)

/-- The checks of an instruction with a participating lane, then its effect (R66, R72, R77). -/
def State.checked (s : State) (i : Issue) (l : Launch) (f : State → Issue → State) : State :=
  if !(listed (opKey i.w)) || illegalOp i.w || (wfld i.w 0 3 == 2 && l.acc == 0) || (wfld i.w 0 3 == 3 && l.ee == 0) then s.trap i i.part 1 0
  else
    match regTrap l.nreg (namesOf i.w) with
    | some (k, d) => s.trap i i.part k d
    | none => if (namesOf i.w).any (fun e => s.pendingReg i.c e.1 e.2.1 e.2.2) then s else f (s.stepped i.c) i

/-- A crew instruction of a key issues once it is ready, or the word at hand is no listed instruction and traps (R73, R77). While the crew may not
issue, a fence of it whose conditions hold is completed (R180). -/
def State.issueIf (s : State) (c : CrewId) (w : W64) (key : Nat) (ready : State → Crew → Bool) (f : State → Issue → State) : State :=
  if listed (opKey w) && opKey w != key then s
  else
    match s.issuable c with
    | none => s.tryFence c
    | some (v, l) =>
      if listed (opKey w) && !(ready s v) then s
      else
        match v.subLeft, v.replay with
        | some (w0, lanes, _), _ =>
          if w = w0 then f s { c := c, w := w, pc := v.pc, active := v.active, part := lanes, late := false, v := v } else s
        | none, some (lanes, instr, at_) =>
          if w = instr then
            s.checked { c := c, w := w, pc := at_.getD v.pc, active := v.active,
                        part := (if at_.isSome then lanes else lanes &&& v.part w), late := at_.isSome,
                        v := { v with replay := none } } l f
          else s
        | none, none =>
          match s.fetch c l.space v.pc l.id w with
          | .wait s1 => s1
          | .fail s1 => s1.trap { c := c, w := 0, pc := v.pc, active := v.active, part := v.active, late := false, v := v } v.active 9
              (BitVec.ofNat 64 v.pc)
          | .ok s1 =>
            let i : Issue := { c := c, w := w, pc := v.pc, active := v.active, part := v.part w, late := false, v := v }
            if i.part = 0 then (s1.stepped c).done i v
            else
              match s1.breakAt c.die v.pc with
              | some k => (s1.stepped c).trap i i.part 0x0E (BitVec.ofNat 64 (k + 1))
              | none => s1.checked i l f

/-- An instruction that is ready as soon as its registers are (R73). -/
def State.issue (s : State) (c : CrewId) (w : W64) (key : Nat) (f : State → Issue → State) : State :=
  s.issueIf c w key (fun _ _ => true) f

/-- Lanes for which an instruction is performed: once for the lowest participating lane when uniform (R454). -/
def Issue.lanes (i : Issue) : List Nat := if uniOf i.w then [lowest i.part] else lanesOf i.part

/-- A register group of a lane as the instruction's U bit says. -/
def Issue.read (i : Issue) (lane r n : Nat) : Nat := i.v.getN (uniOf i.w) lane r n

/-- Source B of format A: an immediate, a u register (BU), or a register of the lane (Table 3.7). -/
def Issue.srcB (i : Issue) (lane : Nat) : Nat :=
  let n := regsOf (typeOf i.w)
  if wfld i.w 56 1 = 1 then immA i.w
  else i.v.getN (uniOf i.w || wfld i.w 55 1 == 1) lane (wfld i.w 32 8) n

/-- Source B of format S: an 8-bit immediate or a register group (Table 3.13). The immediate is zero-extended to the operand's width, which R87
does not say (DESIGN CHOICE, log entry 64). -/
def Issue.immB (i : Issue) (lane n : Nat) : Nat :=
  if wfld i.w 57 1 = 1 then wfld i.w 32 8 else i.read lane (wfld i.w 32 8) n

/-- Writes a register group for each lane performed. -/
def Issue.each (i : Issue) (d n : Nat) (f : Nat → Nat) : Crew :=
  i.lanes.foldl (fun (v : Crew) l => v.setN (uniOf i.w) l d n (f l)) i.v

/-- A format A instruction whose result is a function of its type and sources A, B and C (R78). -/
def State.formatA (s : State) (c : CrewId) (w : W64) (op : Nat) (f : Nat → Nat → Nat → Nat → Nat) : Host.Outcome State Fault Refusal :=
  .next (s.issue c w op (fun s i =>
    let ty := typeOf w
    let n := regsOf ty
    s.done i (i.each (wfld w 16 8) n (fun l => f ty (i.read l (wfld w 24 8) n) (i.srcB l) (i.read l (wfld w 40 8) n)))))

/-- Writes a predicate for each lane performed; a uniform instruction's one result goes to every active lane (R454). -/
def Issue.eachP (i : Issue) (d : Nat) (f : Nat → Bool) : Crew :=
  if uniOf i.w then (lanesOf i.active).foldl (fun (v : Crew) l => v.setP l d (f (lowest i.part))) i.v
  else (lanesOf i.part).foldl (fun (v : Crew) l => v.setP l d (f l)) i.v

/-- A format A comparison, of a condition code and the sources (R78). -/
def State.formatP (s : State) (c : CrewId) (w : W64) (op : Nat) (f : Nat → Nat → Nat → Nat → Bool) : Host.Outcome State Fault Refusal :=
  .next (s.issue c w op (fun s i =>
    let n := regsOf (typeOf w)
    s.done i (i.eachP (wfld w 16 3) (fun l => f (codeC w) (32 * n) (i.read l (wfld w 24 8) n) (i.srcB l)))))

end Sys2Proof.Machine
end

