-- ==== Sys2Proof/Machine/XlateCmds.lean ====
section
/-! DEFINITION. The pending table, walks, the request ring, replies and invalidations (R252, R256–R267; Tables 10.4–10.6). -/

namespace Sys2Proof.Machine

/-- A waiter is woken: its access proceeds, or its unit goes on (R80, R259). -/
def State.wake (s : State) (id pa : Nat) : State :=
  match s.req id with
  | none => s
  | some r => if r.performs then (s.setReq { r with pa := pa }).proceed id else { s with reqs := alDel s.reqs id }

/-- Address of the top table of a root (XLT_ROOT). -/
def rootAddr (root : W64) : Nat := nth 0 [0, 0x010000000000] (wfld root 1 2) + wfld root 13 34 * 8192

/-- Where a walk of a page reads next, after the entries it has read, top first; none when it is over (R250, R252). -/
def walkNext (root : W64) (page : Nat) (es : List W64) : Option Nat :=
  let down := fun (e : W64) => wfld e 0 1 == 1 && wfld e 1 1 == 0 && decide (wfld e 5 2 < 2)
  match es with
  | [] => if wfld root 1 2 < 2 then some (rootAddr root + fld page 17 10 * 8) else none
  | [e0] => if down e0 then some (entryAddr e0 15 + fld page 5 12 * 8) else none
  | [_, e1] => if down e1 then some (entryAddr e1 8 + fld page 0 5 * 8) else none
  | _ => none

/-- A read of a walk of entry k: an uncached coherent read of 8 bytes (R252). -/
def walkReq (k a : Nat) : Req := unitReq (.unit .hub (16 + k)) .bread noSpace a 8

/-- What a walk's read returned: none for poison or a decode error (R252). -/
def walkGot (r : Req) (a : AccResult) : Option W64 :=
  match a with
  | .line l => if l.marked (r.pa % 128) 8 then none else some (BitVec.ofNat 64 (l.get (r.pa % 128) 8))
  | _ => none

/-- A walk goes on: the entries read, top first, an absent one for a read that failed; none while a read is on its way. Each entry is read when its
read reaches its home, so a store that overtakes the walk is seen or not (R252, R265). -/
def State.walkGo (s : State) (k : Nat) (root : W64) (page : Nat) : Nat → List W64 → Option (List (Option W64)) × State
  | 0, es => (some (es.map some), s)
  | n + 1, es =>
    match walkNext root page es with
    | none => (some (es.map some), s)
    | some a =>
      match s.unitAll [walkReq k a] with
      | .wait t => (none, t)
      | .done l t =>
        match l.head?.bind (fun e => walkGot e.1 e.2) with
        | some e => State.walkGo t k root page n (es ++ [e])
        | none => (some (es.map some ++ [none]), t)

/-- The reads of a walk of entry k end. -/
def State.walkEnd_ (s : State) (k : Nat) : State := s.unitQuit (fun w => w == .unit .hub (16 + k))

/-- TRANSLATION_MISS: the request merges into its page's entry, takes a free one, or is refused (R257, R262). -/
def execTranslationMiss (id : Nat) (s : State) : Host.Outcome State Fault Refusal :=
  when_ s.serves (fun s =>
    match s.req id with
    | none => s
    | some r =>
      if r.stage ≠ .xlat then s
      else
        let lk := s.look r.who.pair r.space r.va r.kind.need
        match lk.1 with
        | .hit pa => lk.2.wake id pa
        | .refused => lk.2.reply id .xlatError
        | .miss =>
          let x := s.xlt
          let put := fun (k : Nat) (e : PEntry) => ({ s with xlt := { x with pend := alPut x.pend k e } }).setReq { r with stage := .pended k }
          let need := BitVec.ofNat 3 r.kind.need
          match x.pend.find? (fun e => e.2.space == r.space && e.2.page == r.page) with
          | some (k, e) =>
            put k { e with waiters := e.waiters ++ [id], need := e.need ||| need, src := e.src ||| r.who.srcBit }
          | none =>
            match alFree x.pend 512 with
            | some k => put k { st := .walk, space := r.space, page := r.page, need := need, aperture := 0, waiters := [id],
                                src := r.who.srcBit, cause := 0, level := 0, entry := 0, restart := false }
            | none => s.count (svc 3)) s

/-- The entry goes to RING_WAIT (R259). -/
def Xlt.toRing (x : Xlt) (k : Nat) (e : PEntry) (cause level : Nat) (entry : W64) : Xlt :=
  { x with pend := alPut x.pend k { e with st := .ringWait, cause := cause, level := level, entry := entry }, order := x.order ++ [k] }

/-- A leaf goes into the translation cache; kinds recorded as refused for the page stay so (R259, R261). -/
def Xlt.fill (x : Xlt) (te : TcEntry) : Xlt :=
  x.putTc { te with refused := ((x.inTc te.big te.space (te.page * 2 ^ (if te.big then 30 else 25))).map (·.refused)).getD 0 }

/-- An entry with the waiters that stay, the kinds and sources it has left (R259, R260). -/
def PEntry.keep (e : PEntry) (left : List Req) (aperture : BitVec 3) : PEntry :=
  { e with waiters := left.map (·.id), aperture := aperture,
           need := (left.map (fun r => BitVec.ofNat 3 r.kind.need)).foldl (· ||| ·) aperture,
           src := (left.map (fun r => r.who.srcBit)).foldl (· ||| ·) (if aperture = 0 then 0 else 16#5) }

/-- A walk's leaf: it fills the translation cache and the micro-caches of the waiters' pairs, wakes the waiters it permits, and goes to the ring for
the rest (R259). -/
def State.walkLeaf (s : State) (k : Nat) (e : PEntry) (l : W64) (big : Bool) (level : Nat) : State :=
  let x := s.xlt
  let rs := e.waiters.filterMap s.req
  let ok := rs.filter (fun r => leafPermits l r.kind.need)
  let left := rs.filter (fun r => !(leafPermits l r.kind.need))
  let lacks := e.aperture &&& ~~~(BitVec.ofNat 3 (wfld l 2 3))
  let te : TcEntry := { space := e.space, page := (if big then e.page / 32 else e.page), big := big, leaf := some l, refused := 0 }
  let some_ := !ok.isEmpty || (left.isEmpty && decide (lacks = 0))
  let x1 := if some_ then x.fill te else x
  let x2 := if some_ then rs.foldl (fun (y : Xlt) r => match r.who.pair with | some n => y.putMc n te | none => y) x1 else x1
  let e1 := e.keep left lacks
  let x3 := if left.isEmpty ∧ lacks = 0 then { x2 with pend := alPut x2.pend k { e1 with st := .fill } } else x2.toRing k e1 2 level l
  ok.foldl (fun (t : State) r => t.wake r.id (leafPa l big r.va)) { s with xlt := x3 }

/-- Every waiter of an entry fails as an error reply fails it, and the entry is about to be freed (R249, R261). -/
def State.failEntry (s : State) (k : Nat) (e : PEntry) : State :=
  let s1 : State := { s with xlt := { s.xlt with pend := alPut s.xlt.pend k { e with st := .fill, waiters := [] } } }
  e.waiters.foldl (fun (t : State) w => t.reply w .xlatError) s1

/-- WALK_COMPLETE: the walk's reads go out one after another; a stop posts a record; a leaf fills the caches and wakes the waiters it permits
(R252, R259, R265). Of a space whose EN has been cleared meanwhile the waiters fail (R249; DEDUCED, log entry 66). -/
def execWalkComplete (index : Nat) (s : State) : Host.Outcome State Fault Refusal :=
  when_ s.serves (fun s =>
    match alFind s.xlt.pend index with
    | none => s
    | some e =>
      if e.st ≠ .walk then s
      else if e.restart then
        { s.walkEnd_ index with xlt := { (s.walkEnd_ index).xlt with pend := alPut (s.walkEnd_ index).xlt.pend index { e with restart := false } } }
      else if !(s.xlt.on e.space) then ((s.walkEnd_ index).failEntry index e).count (svc 4) e.waiters.length
      else
        let root := alGet 0 s.xlt.root e.space
        let g := s.walkGo index root e.page 3 []
        match g.1 with
        | none => g.2
        | some reads =>
          let u := g.2.walkEnd_ index
          match walkEnd root reads with
          | .stop cause level entry => { u with xlt := u.xlt.toRing index e cause level entry }
          | .leaf l big level => u.walkLeaf index e l big level) s

/-- Records of the request ring in use. -/
def Xlt.used (x : Xlt) : Nat := (x.tail + 2 ^ 32 - x.head) % 2 ^ 32

/-- Waiters of an entry: one for each crew instruction, descriptor or unit read (R257). -/
def State.waiterCount (s : State) (e : PEntry) : Nat :=
  ((e.waiters.filterMap s.req).map (fun r => match r.who with | .lane c _ g => Who.lane c 0 g | w => w)).eraseDups.length

/-- The four words of a request record (Table 10.5). -/
def State.requestWords (s : State) (k : Nat) (e : PEntry) : List Nat :=
  [s.xlt.pid k + e.space * 2 ^ 16 + e.need.toNat * 2 ^ 20 + e.cause * 2 ^ 24 + min 65535 (s.waiterCount e) * 2 ^ 32
     + (if e.aperture = 0 then e.src else e.src ||| 16#5).toNat * 2 ^ 48,
   e.page + e.level * 2 ^ 27, e.entry.toNat, s.now]

/-- REQUEST_RECORD_WRITE: the record at the head of the order goes to the ring, then TAIL advances and source 68 fires (R259, R260). -/
def execRequestRecordWrite (index : Nat) (s : State) : Host.Outcome State Fault Refusal :=
  when_ s.serves (fun s =>
    let x := s.xlt
    match alFind x.pend index with
    | none => s
    | some e =>
      if e.st ≠ .ringWait ∨ x.order.head? ≠ some index ∨ 4096 ≤ x.used then s
      else
        let w := s.ringWrite .hub 1 (s.cfg.reqRing.getD 0 + x.tail % 4096 * 32) ((s.requestWords index e).flatMap (leBytes 8))
        if !w.1 then w.2
        else
          ({ w.2 with xlt := { w.2.xlt with order := w.2.xlt.order.tail, tail := (w.2.xlt.tail + 1) % 2 ^ 32,
                                            pend := alPut w.2.xlt.pend index { e with st := .posted } } }).raise 68) s

/-- FILL_COMPLETE: the entry is freed and its generation advances; a request that merged meanwhile translates again (R258). -/
def execFillComplete (index : Nat) (s : State) : Host.Outcome State Fault Refusal :=
  when_ s.serves (fun s =>
    match alFind s.xlt.pend index with
    | none => s
    | some e =>
      if e.st ≠ .fill then s
      else
        let s1 := { s with xlt := ({ s.xlt with pend := alDel s.xlt.pend index }).nextGen index }
        e.waiters.foldl (fun (t : State) w => match t.req w with | some r => t.setReq { r with stage := .xlat } | none => t) s1) s

/-- A reply takes effect on the posted entry of its PID and generation; any other is stale (R258, R261). -/
def State.xltReply (s : State) (pid : BitVec 16) (f : State → Nat → PEntry → State) : Host.Outcome State Fault Refusal :=
  when_ s.serves (fun s =>
    let k := pid.toNat % 512
    match alFind s.xlt.pend k with
    | some e => if e.st = .posted ∧ s.xlt.pid k = pid.toNat then f { s with xlt := s.xlt.nextGen k } k e else s.count (svc 5)
    | none => s.count (svc 5)) s

/-- XLT_REPLY_WALK: the entry walks again (R261). -/
def execXltReplyWalk (pid : BitVec 16) (s : State) : Host.Outcome State Fault Refusal :=
  s.xltReply pid (fun s k e => { s with xlt := { s.xlt with pend := alPut s.xlt.pend k { e with st := .walk, restart := false } } })

/-- Records kinds of a page as refused in the translation cache, beside what it holds for the page (R261). -/
def Xlt.refuse (x : Xlt) (space page : Nat) (kinds : BitVec 3) : Xlt :=
  let old := (tcFind x.tc (tcSet false space page * 16) 16 false space page).map (·.2)
  if !(x.on space) then x
  else x.putTc { space := space, page := page, big := false, leaf := old.bind (·.leaf),
                 refused := kinds ||| ((old.map (·.refused)).getD 0) }

/-- XLT_REPLY_ERROR: every waiter fails, the kinds are recorded as refused, and the code is logged (R261, Table 10.6). -/
def execXltReplyError (pid : BitVec 16) (code : Byte) (s : State) : Host.Outcome State Fault Refusal :=
  s.xltReply pid (fun s k e =>
    (({ s with xlt := s.xlt.refuse e.space e.page e.need } : State).failEntry k e).logEv 0x0006 4 1 [e.space, e.page, code.toNat])

/-- XLT_RING_HEAD_WRITE: HEAD, unless it would stand after TAIL or more than 4,096 before it (R260). -/
def execXltRingHeadWrite (v : W64) (s : State) : Host.Outcome State Fault Refusal :=
  when_ s.serves (fun s =>
    let h := wfld v 0 32
    if (s.xlt.tail + 2 ^ 32 - h) % 2 ^ 32 ≤ 4096 then { s with xlt := { s.xlt with head := h } } else s.count (svc 6)) s

/-- XLT_INVAL_PAGE (R266). -/
def execXltInvalPage (space page : Nat) (s : State) : Host.Outcome State Fault Refusal :=
  when_ s.serves (fun s => s.invalAccept (1, space % 16, page % 2 ^ 27)) s
/-- XLT_INVAL_SPACE (R266). -/
def execXltInvalSpace (space : Nat) (s : State) : Host.Outcome State Fault Refusal :=
  when_ s.serves (fun s => s.invalAccept (2, space % 16, 0)) s
/-- XLT_INVAL_ALL (R266). -/
def execXltInvalAll (s : State) : Host.Outcome State Fault Refusal :=
  when_ s.serves (fun s => s.invalAccept (3, 0, 0)) s

/-- An access has been performed at its home or has landed, or is gone (R267). -/
def State.landed (s : State) (id : Nat) : Bool :=
  match s.req id with
  | some r => (match r.stage with | .backoff _ | .sent | .atHome | .filling => false | _ => true)
  | none => true

/-- INVALIDATION_COMPLETE: every access translated with a removed entry has landed, so DONE advances and the next one takes effect
(R266, R267). -/
def execInvalidationComplete (s : State) : Host.Outcome State Fault Refusal :=
  when_ s.serves (fun s =>
    match s.xlt.inval with
    | [] => s
    | _ :: _ => if s.xlt.invalIds.all s.landed then s.invalRetire else s) s


end Sys2Proof.Machine
end

