-- ==== Sys2Proof/Machine/AdmitCmds.lean ====
section
/-! DEFINITION. Tokens, back-off, completions, and what happens to ports and to the H–P link (R289, R292–R297, R303, R314). -/

namespace Sys2Proof.Machine

/-- A source's accesses that were refused for want of a token of a level retry at once as such tokens arrive; another level may refuse them
(R296). -/
def State.retryNow (s : State) (q : Source) (l : Level) : State :=
  s.reqs.foldl (fun (t : State) e =>
    match t.req e.1 with
    | some r =>
      (match r.stage with
       | .backoff _ => if r.who.source = q ∧ r.lacks = some l ∧ 0 < t.holds_ q l then t.tryAdmit r.id else t
       | _ => t)
    | none => t) s

/-- A source that may hold tokens: its die runs (R300). -/
def State.sourceLive (s : State) (q : Source) : Bool :=
  match q with
  | .hub => true
  | .heavy d => !(s.plat.lostF.contains d)
  | .ridge l => !(s.plat.lostF.contains (l / 16))
  | .tile d _ | .engine d | .service d => s.dieLive d

/-- The rotation lets a source have a grant of a level: no other source that has asked has seen it granted since (R294). -/
def State.inTurn (s : State) (src : Source) (l : Level) : Bool :=
  s.asks.all (fun e => e.1.1 != l || e.1.2 == src || !(s.sourceLive e.1.2) || !(e.2.contains src))

/-- A grant of a level to a source as those still asking see it (R294). -/
def State.granted (s : State) (src : Source) (l : Level) : State :=
  { s with asks := (s.asks.filter (fun e => e.1 != (l, src))).map (fun e => if e.1.1 = l then (e.1, e.2 ++ [src]) else e) }

/-- TOKEN_GRANT: up to 16 tokens of a level, within its pool, to a source in rotation (R294, R298). A source to which the command grants has
asked, refused or not (log entry 25). -/
def execTokenGrant (src : Source) (l : Level) (count : Nat) (s : State) : Host.Outcome State Fault Refusal :=
  when_ (s.serves && decide (1 ≤ count) && decide (count ≤ 16) && decide (s.issued l + count ≤ s.pool l) && s.sourceLive src && s.inTurn src l)
    (fun s => (((s.granted src l).setIssued l (s.issued l + count)).addHeld src l count).retryNow src l) s

/-- Tokens of a level that a source has held unused for 1 µs (R294). -/
def State.idleHeld (s : State) (src : Source) (l : Level) : Nat := ((s.heldSince src l).filter (fun t => decide (t + 1000 ≤ s.now))).length

/-- TOKEN_IDLE_RETURN: tokens held unused for 1 µs go back (R294). -/
def execTokenIdleReturn (src : Source) (l : Level) (count : Nat) (s : State) : Host.Outcome State Fault Refusal :=
  when_ (s.serves && decide (1 ≤ count) && decide (count ≤ s.idleHeld src l)) (fun s =>
    (s.useHeld src l count).setIssued l (s.issued l - count)) s

/-- TOKEN_RETURN: the completion of a request passes back through a level (R294). -/
def execTokenReturn (id : Nat) (l : Level) (s : State) : Host.Outcome State Fault Refusal :=
  when_ s.serves (fun s =>
    match s.req id with
    | some r =>
      (match r.stage with
       | .replied _ => if r.levels.contains l then (s.setReq { r with levels := r.levels.erase l }).giveBack l else s
       | _ => s)
    | none => s) s

/-- RETRY_BACKOFF_EXPIRY: the access retries admission (R296). -/
def execRetryBackoffExpiry (id : Nat) (s : State) : Host.Outcome State Fault Refusal :=
  when_ s.serves (fun s =>
    match s.req id with
    | some r => (match r.stage with | .backoff _ => s.tryAdmit id | _ => s)
    | none => s) s

/-- Loads of a tile's line answered before a fill that L1 takes are not installed over it (R173, R204). -/
def State.olderFills (s : State) (die tile : Nat) (r : Req) : State :=
  s.noInstall die tile (fun q => q.readDone && decide (q.pa / 128 = r.pa / 128) && decide (q.seq < r.seq))

/-- A failing answer of a copy write, which COPY_DATA_PATH_ERROR takes (R168). -/
def AccResult.fails : AccResult → Bool
  | .decode | .host | .xlatError => true
  | _ => false

/-- L1_FILL_RETURN: the data reaches its lane, and the line is installed unless L1 was invalidated or the line stored to meanwhile
(R201, R204, R205). -/
def execL1FillReturn (id : Nat) (s : State) : Host.Outcome State Fault Refusal :=
  when_ s.serves (fun s =>
    match s.req id with
    | none => s
    | some r =>
      match r.who, r.kind, r.stage with
      | .lane c lane grp, .load, .replied (.line l) =>
        let s1 := if r.noInstall then s
          else (s.setTile c.die c.tile ((s.tile c.die c.tile).l1Put (s.l1Sets c.die c.tile) (r.pa / 128) l)).olderFills c.die c.tile r
        s1.deliverLane c lane grp r (.line l)
      | _, _, _ => s) s

/-- A node core takes an access fault. -/
def State.accessFault (s : State) (core : Nat) : State :=
  { s with cores := alMod {} s.cores core (fun c => { c with faults := c.faults + 1 }) }

/-- An aperture access faults, with its cause in lysapflt (R31). -/
def State.apertureFault (s : State) (core va cause : Nat) : State :=
  ({ s with cores := alMod {} s.cores core (fun c => { c with page := fld va 25 27, cause := cause, valid := true }) }).accessFault core

/-- A node core's uncached access completes, or one piece of it: loads and AMOs return their value, a free one for poison; errors fault, those of
the aperture through lysapflt (R25, R30, R31, R185, R314, R338; log entry 14). -/
def State.deliverCore (s : State) (core : Nat) (r : Req) (res : AccResult) : State :=
  let s1 := s.dropReq r.id
  let reads := r.kind == .load || r.kind == .fetch || r.kind == .atomic
  let put := fun (t : State) (v : W64) => t.corePut core (if r.dst = 255 then none else some r.dst) r.size v
  let stray := if reads then put s1.drawn (Free.poisonLoad s1.fresh) else s1
  let bad := fun (cause : Nat) => if r.space = noSpace then s1.accessFault core else s1.apertureFault core r.va cause
  match res with
  | .line l =>
    if !reads then s1
    else if l.marked (r.pa % 128) r.size then stray
    else put s1 (BitVec.ofNat 64 (l.get (r.pa % 128) r.size))
  | .ok => s1
  | .poison | .unreachable => stray
  | .decode => bad 4
  | .xlatError => bad 2
  | .host => if reads then s1.accessFault core else s1

/-- ACCESS_COMPLETION_RECEIVE: any other completion reaches its requester: a lane's destination is written or its trap raised, fences
go on, a fetched line enters the instruction buffer, a copy's write has landed (R75, R180, R192, R295). What a unit has read waits for the unit,
unless it has given it up. -/
def execAccessCompletionReceive (id : Nat) (s : State) : Host.Outcome State Fault Refusal :=
  when_ s.serves (fun s =>
    match s.req id with
    | none => s
    | some r =>
      match r.who, r.stage with
      | .lane c lane grp, .replied res =>
        (match r.kind, res with
         | .load, .line _ => s
         | _, _ => s.deliverLane c lane grp r res)
      | .remote src q _, .replied res => (s.respond src q (r.pa / 128) res.cross).dropReq id
      | .bucker _ _, .replied res => if r.noInstall || (r.kind.writes && !res.fails) then s.dropReq id else s
      | .aperture core, .replied res => s.deliverCore core r res
      | .fetch c _, .replied res =>
        if r.noInstall then s.dropReq id
        else
          (match res with
           | .line l => if l.pmask = 0 then s.fetched c r l else s
           | _ => s)
      | _, .replied _ => if r.noInstall then s.dropReq id else s
      | _, _ => s) s

/-- Takes an access off every queue at its home. -/
def State.forget (s : State) (id : Nat) : State :=
  let keep := fun (w : Waiting) => match w with | .acc k => k != id | _ => true
  { s with
    slices := s.slices.map (fun e => (e.1, { e.2 with
      waitq := e.2.waitq.filter keep, fills := e.2.fills.map (fun f => { f with waiters := f.waiters.filter keep }) }))
    hostQ := s.hostQ.filter keep
    host := s.host.map (fun e => (e.1, { e.2 with waiters := e.2.waiters.filter keep })) }

/-- Answers outstanding accesses that meet `p` with a result. -/
def State.answerAll (s : State) (p : Req → Bool) (res : AccResult) : State :=
  let out := (s.reqs.map (·.2)).filter (fun r => p r && (match r.stage with | .sent | .atHome | .filling => true | _ => false))
  out.foldl (fun (t : State) r => (t.forget r.id).reply r.id res) s

/-- The other end of a ring port or spoke, by COL_PORT index. -/
def portMate (k : Nat) : Nat :=
  if 12 ≤ k then 3 * (k - 12) + 2
  else if k % 3 = 0 then 3 * ((k / 3 + 1) % 4) + 1
  else if k % 3 = 1 then 3 * ((k / 3 + 3) % 4)
  else 12 + k / 3

/-- The level of the port direction leaving an end. -/
def portLevel (k : Nat) : Level := if 12 ≤ k then .colHub (k - 12) else .col (k / 3) (k % 3)

/-- Sets both ends of a port. -/
def State.setPorts (s : State) (k : Nat) (f : ColPort → ColPort) : State :=
  { s with cols := alMod {} (alMod {} s.cols k f) (portMate k) f }

/-- A port is SEVERED: its surviving ends answer what they sent through it with poison or a failed acknowledgement (R303). -/
def State.sever (s : State) (k : Nat) : State :=
  let s1 := s.setPorts k (fun c => { c with state := 3 })
  s1.answerAll (fun r => r.levels.contains (portLevel k) || r.levels.contains (portLevel (portMate k))) .poison

/-- COL_MODULE_RETIRE: one module fewer; below 8 the port is SEVERED (R289, R298). The flit retries that the
module needed count in CRCR. -/
def execColModuleRetire (port retries : Nat) (s : State) : Host.Outcome State Fault Refusal :=
  when_ (s.up && s.colUp port) (fun s =>
    let c := s.colPort port
    let s1 := s.setPorts port (fun c => { c with mods := c.mods - 1, mret := min 15 (c.mret + 1), state := 2, crcr := satAdd 65535 c.crcr retries })
    let s2 := if c.mods - 1 < 8 then s1.sever port else s1
    (if port < 12 ∧ 0 < retries then s2.count (pairErr (port / 3) 19) retries else s2).logEv 0x000B (if 12 ≤ port then 4 else 8 + port / 3) 2 [port, c.mods - 1]) s

/-- PORT_SEVERED (R289, R303). -/
def execPortSevered (port : Nat) (s : State) : Host.Outcome State Fault Refusal :=
  when_ (s.up && decide ((s.colPort port).state ≠ 3)) (fun s => s.sever port) s

/-- The H–P link retrains: it was up, and its last retrain failed (R292). -/
def State.hpTrains (s : State) : Bool := decide (s.plat.hpState = 0) && !s.plat.hpFails.isEmpty

/-- PORT_LINK_RETRAIN: a retrain ends, well or not. While the link is not up again the host level grants nothing and accepted host requests
wait; a third failure within 10 ms severs the link, and every outstanding and later host-memory access fails (R292). -/
def execPortLinkRetrain (ok : Bool) (s : State) : Host.Outcome State Fault Refusal :=
  when_ (s.up && (decide (s.plat.hpState = 1) || s.hpTrains)) (fun s =>
    if ok then { s with plat := { s.plat with hpState := 1 } }
    else
      let recent := (s.now :: s.plat.hpFails).filter (fun t => decide (s.now < t + 10000000))
      if recent.length < 3 then { s with plat := { s.plat with hpState := 0, hpFails := recent } }
      else
        let s1 : State := { s with plat := { s.plat with hpState := 3, hpFails := [], pcieUp := false } }
        (s1.answerAll (fun r => decide (0x10000000000 ≤ r.pa / 128)) .host).logEv 0x000B 4 3 [16, 0]) s

/-- RIDGE_REQUEST_BOUND_EXPIRY: the response was discarded in a failover, so the package answers as unreachable itself (R314). -/
def execRidgeRequestBoundExpiry (q : Overdue) (s : State) : Host.Outcome State Fault Refusal :=
  when_ s.serves (fun s =>
    match q with
    | .access id =>
      (match s.req id with
       | some r => if r.stage = .sent ∧ (ridgeOf r.levels).isSome then s.reply id .unreachable else s
       | none => s)
    | .line a line => if s.homeHere line then s else s.unreached a line) s

end Sys2Proof.Machine
end

