-- ==== Sys2Proof/Machine/Ebior.lean ====
section
/-! DEFINITION. Ebior packets: where a port is reachable, the checks in their order, and the replies (R341–R349). -/

namespace Sys2Proof.Machine

/-- What a command's own part answers: a reply at once, or a port held busy until a later event replies. -/
inductive EbOut where
  | reply (status : Nat) (results : List Byte) (s : State)
  | hold (s : State)

/-- A port can carry a packet now: B whenever Cairn runs, unless the ROM waits for power-off (R291; log entry 68); H while the PCIe link is up;
N while node cores run (R340, R360, R400, Tables 16.7, 16.8). -/
def State.reach (s : State) : Port → Bool
  | .b => s.on && !s.plat.romHalt
  | .h => s.runs && s.plat.pcieUp && !s.plat.perst && s.plat.pcieClk && decide (s.plat.hpState = 1)
  | .n => s.serves

/-- The ports of an opcode; none when the opcode does not exist (Table 14.6). -/
def ebPorts (op : Nat) : Option (List Port) :=
  if op ∈ [0x0101, 0x0102, 0x0103, 0x0201, 0x0203, 0x0301, 0x0302, 0x0802, 0x0803, 0x0A01, 0x0A02] then some [.h, .b]
  else if op ∈ [0x0501, 0x0901, 0x0902, 0x0903] then some [.h, .n]
  else if op ∈ [0x0202, 0x0401, 0x0402, 0x0502, 0x0601, 0x0602, 0x0701, 0x0702, 0x0703, 0x0801, 0x0B01] then some [.h, .b, .n]
  else none

/-- CONFIG_WRITE's entries lie whole in the body: key, value length, value padded to 8 bytes (Table 14.6). -/
def entriesFit : Nat → List Byte → Bool
  | _, [] => true
  | 0, _ => false
  | n + 1, l =>
    let len := (byteFld l 2 2 + 7) / 8 * 8
    decide (4 + len ≤ l.length) && entriesFit n (l.drop (4 + len))

/-- PLEN is what the opcode requires (R349, R363, R407, Table 17.4): a longer body than a fixed layout is taken, a shorter one
is not (DEDUCED, log entry 9). -/
def ebLen (op plen : Nat) (body : List Byte) : Bool :=
  decide (plen ≤ 4080) &&
  (if op = 0x0101 then decide (4 ≤ plen)
   else if op = 0x0102 then decide (20 ≤ plen) && decide (plen ≤ 4080) && decide ((plen - 4) % 16 = 0)
   else if op = 0x0201 then decide (4 ≤ plen) && entriesFit plen body
   else if op = 0x0202 ∨ op = 0x0703 ∨ op = 0x0B01 then decide (2 ≤ plen)
   else if op = 0x0301 then decide (plen = 16)
   else if op = 0x0402 then decide (36 ≤ plen)
   else if op = 0x0501 then decide (16 ≤ plen)
   else if op = 0x0601 ∨ op = 0x0802 then decide (4 ≤ plen)
   else if op = 0x0602 then decide (8 ≤ plen)
   else if op = 0x0701 then decide (12 ≤ plen)
   else if op = 0x0801 then decide (1 ≤ plen)
   else if op = 0x0901 then decide (92 ≤ plen)
   else if op = 0x0902 then decide (8 ≤ plen)
   else if op = 0x0903 then decide (76 ≤ plen)
   else if op = 0x0A01 then
     (match byteFld body 0 1 with
      | 0 => decide (plen = 4)
      | 1 => decide (plen = 1956)
      | 2 => decide (plen = 3316)
      | _ => decide (4 ≤ plen))
   else true)

/-- The stages at which an opcode is served (Table 14.5); IMAGE_BEGIN answers RUNNING by its own check. -/
def ebStage (op stage : Nat) : Bool :=
  if op = 0x0101 then true
  else if op = 0x0102 ∨ op = 0x0103 then decide (stage = 0)
  else if op = 0x0401 ∨ op = 0x0402 then true
  else if op = 0x0201 ∨ op = 0x0203 then decide (stage = 1)
  else if op = 0x0202 ∨ op = 0x0A01 ∨ op = 0x0A02 ∨ op = 0x0502 ∨ op = 0x0601 ∨ op = 0x0602 then decide (1 ≤ stage)
  else if op = 0x0501 then decide (2 ≤ stage)
  else if op = 0x0301 ∨ op = 0x0302 then decide (stage = 2)
  else if op ∈ [0x0701, 0x0702, 0x0703, 0x0801, 0x0802, 0x0803] then decide (2 ≤ stage)
  else decide (stage = 3)

/-- The body as PLEN cuts it. -/
def pktData (k : Packet) : List Byte := padTo (min k.plen 4080) k.body

/-- The header's bytes with a given CRC field (Table 14.1). -/
def pktHeader (k : Packet) (op crc : Nat) : List Byte :=
  leBytes 2 op ++ leBytes 2 k.flags ++ leBytes 2 k.plen ++ leBytes 2 k.seq ++ leBytes 4 crc ++ leBytes 4 k.rsv

/-- The CRC a packet must carry: over the header with its CRC taken as zero, and the body (R341). -/
def pktCrc (k : Packet) (op : Nat) : Nat := crc32c (pktHeader k op 0 ++ pktData k)

/-- The first check of R342's 1 to 5 that fails, as its status (Table 14.4). -/
def ebCheck (op : Nat) (p : Port) (k : Packet) (stage : Nat) : Option Nat :=
  if k.crc.toNat ≠ pktCrc k op then some 1
  else match ebPorts op with
    | none => some 2
    | some ps =>
      if !(ps.contains p) then some 3
      else if !(ebLen op k.plen (pktData k)) then some 4
      else if !(ebStage op stage) then some 5
      else none

/-- A command that its port has taken is checked and served: a failed check replies and has no effect, otherwise its own part decides (R342). -/
def State.serve (s : State) (op : Nat) (p : Port) (k : Packet) (own : State → EbOut) : State :=
  match ebCheck op p k s.plat.stage with
  | some st => s.finish p st []
  | none =>
    match own s with
    | .reply st res t => t.finish p st res
    | .hold t => t

/-- A command is started on a port (R342–R346): a busy port ignores and counts it. While Cairn's pair restarts, ports H and B stay busy, and a
command on N waits (R405). -/
def State.ebior (s : State) (op : Nat) (p : Port) (k : Packet) (own : State → EbOut) : State :=
  if !(s.reach p) then s
  else
    let v := s.port p
    if v.busy || (s.cairn.restarting && p != .n) then
      (match p with
       | .b => s.count (svc 12)
       | _ => s.setPort p { v with ign := satAdd (2 ^ 32 - 1) v.ign 1 })
    else
      let s1 := s.setPort p { v with busy := true, seq := k.seq, reply := none, request := pktHeader k op k.crc.toNat ++ pktData k,
                                        eid := k.eid, tag := k.tag }
      if s.cairn.restarting then { s1 with cairn := { s1.cairn with waiting := some (op, k) } } else s1.serve op p k own

/-- A reply's bytes with its CRC (Table 14.2). -/
def Reply.bytes (r : Reply) : List Byte :=
  let hdr := fun (c : Nat) => leBytes 2 r.status ++ leBytes 2 r.seq ++ leBytes 2 r.results.length ++ leBytes 2 0 ++ leBytes 4 c ++ leBytes 4 0
  hdr (crc32c (hdr 0 ++ r.results)) ++ r.results

end Sys2Proof.Machine
end

