-- ==== Sys2Proof/Machine/Boot.lean ====
section
/-! DEFINITION. Power-up, pins and clocks, the firmware image, configuration and its commit (chapters 12, 14, 15, 19). -/

namespace Sys2Proof.Machine

/-- A cold reset (R395, R11): everything is lost but the fuses and the levels the board drives on the pins; THERM_TRIP_N stays
(R398). -/
def State.coldReset (s : State) : State :=
  { State.reset with
    pending := s.pending
    fuses := s.fuses
    fresh := s.fresh
    plat := { perst := s.plat.perst, thermTrip := s.plat.thermTrip, coolant := s.plat.coolant,
              ridgeClk := s.plat.ridgeClk, pcieClk := s.plat.pcieClk }
    power := { warnPin := s.power.warnPin } }

/-- PWR_GOOD_ASSERT: Cairn leaves reset, reads the fuses, samples the straps and starts the ROM at STAGE 0 (R360, R409, R446,
R449); the measurement log gets its ROM entry (Table 15.6). No power is applied while THERM_TRIP_N is asserted (R398). -/
def execPwrGoodAssert (straps : BitVec 8) (s : State) : Host.Outcome State Fault Refusal :=
  when_ (!s.plat.on && !s.plat.thermTrip) (fun s =>
    let s1 := s.coldReset
    let hashed := ((List.range 4).map (fun k => b2n (nth none s.fuses.keyHash k).isSome * 2 ^ k)).foldl (· + ·) 0
    let s2 := { s1 with
      plat := { s1.plat with on := true, straps := straps }
      cairn := { s1.cairn with lc := s.fuses.lc } }
    s2.measure 1 Free.romVersion (leBytes 1 s.fuses.lc ++ leBytes 1 s.fuses.revoked.toNat ++ leBytes 1 hashed)) s

/-- PWR_GOOD_LOSS: low for 200 ns or longer is a cold reset from any stage; shorter lows are ignored (R395, R445, R450). -/
def execPwrGoodLoss (ns : Nat) (s : State) : Host.Outcome State Fault Refusal :=
  when_ (s.plat.on && decide (200 ≤ ns)) State.coldReset s

/-- VDD_CAIRN_LOSS: a cold reset that also releases THERM_TRIP_N (R398, R442). -/
def execVddCairnLoss (s : State) : Host.Outcome State Fault Refusal :=
  when_ true (fun s =>
    let s1 := s.coldReset
    { s1 with plat := { s1.plat with thermTrip := false } }) s

/-- REFCLK_CORE_LOSS: after 5 µs Cairn holds every island but its own in reset and logs CODE 0x0015; only a cold reset recovers
(R448). -/
def execRefclkCoreLoss (s : State) : Host.Outcome State Fault Refusal :=
  when_ s.up (fun s =>
    ({ s with plat := { s.plat with coreLost := true } }).logEv 0x0015 255 3 [0, Free.refclkReason]) s

/-- REFCLK_PCIE_LOSS: P's link drops; host accesses meanwhile wait as host time (R448). -/
def execRefclkPcieLoss (s : State) : Host.Outcome State Fault Refusal :=
  when_ (s.on && s.plat.pcieClk) (fun s => { s with plat := { s.plat with pcieClk := false } }) s

/-- REFCLK_PCIE_RETURN: P's link trains again (R448). -/
def execRefclkPcieReturn (s : State) : Host.Outcome State Fault Refusal :=
  when_ (s.on && !s.plat.pcieClk) (fun s => { s with plat := { s.plat with pcieClk := true } }) s

/-- An offer that R291 accepts and that trained: UCIe 2.0, advanced package, one module of 64 lanes, 32 or 16 GT/s, PCIe and CXL in the
256-byte flit format with retry. -/
def LinkOfferOk (o : LinkOffer) : Bool :=
  o.version == 0x20 && o.advanced && o.modules == 1 && o.lanes == 64 && (o.rate == 32 || o.rate == 16) && o.flit256 && o.retry && o.trained

/-- PORT_LINK_BRINGUP: the first of up to three attempts that R291 accepts brings the H–P link up and is measured; after three
failures it is SEVERED, Cairn reports it over the I3C sideband, and the ROM waits for power-off (R291, R369, Table 12.4). -/
def execPortLinkBringup (offers : List LinkOffer) (s : State) : Host.Outcome State Fault Refusal :=
  when_ (s.up && decide (s.plat.stage = 0) && decide (s.plat.hpState = 0)) (fun s =>
    match (offers.take 3).find? LinkOfferOk with
    | some o =>
      ({ s with plat := { s.plat with hpState := 1, hpHalf := o.rate == 16, pcieUp := !s.plat.perst && s.plat.pcieClk } }).measure
        3 o.rate (leBytes 8 o.ident.toNat ++ Free.linkParams o.rate)
    | none => if 3 ≤ offers.length then { s with plat := { s.plat with hpState := 3, romHalt := true } } else s) s

/-- Bytes of the image area in F0's landing store (R361). -/
def imageBase : Nat := 335544320

/-- Discards the bytes of an image session (R361, R363). -/
def State.dropImage (s : State) : State :=
  { s with cairn := { s.cairn with session := none }
           landing := alMod {} s.landing 0 (fun st => st.zeroRange imageBase 67108864) }

/-- A reset of the BAR0 window (R340): the window's registers and buffers go to reset, a running command's reply will be
discarded, and the sessions H holds are released. The count of ignored writes runs since power-up and stays (DEDUCED, log
entry 9). -/
def State.windowReset (s : State) : State :=
  let v := s.portH
  let s1 := { s with portH := { busy := v.busy, discard := v.busy, ign := v.ign, seq := v.seq } }
  let s2 := if s1.cairn.cfgSession = some .h then { s1 with cairn := { s1.cairn with cfgSession := none } } else s1
  match s2.cairn.session with
  | some (.h, _, _) => s2.dropImage
  | _ => s2

/-- PERST_N_ASSERT: P's fundamental reset; after power-up the window is reset as by a Function Level Reset (R340). -/
def execPerstNAssert (s : State) : Host.Outcome State Fault Refusal :=
  when_ (s.on && !s.plat.perst) (fun s =>
    { s.windowReset with plat := { s.plat with perst := true, pcieUp := false } }) s

/-- PERST_N_DEASSERT: PCIe training may run once the H–P link is UP (R449, Table 12.4). -/
def execPerstNDeassert (s : State) : Host.Outcome State Fault Refusal :=
  when_ (s.on && s.plat.perst) (fun s =>
    { s with plat := { s.plat with perst := false, pcieUp := decide (s.plat.hpState = 1) || !s.plat.hpFails.isEmpty } }) s

/-- FUNCTION_LEVEL_RESET: resets the BAR0 command window and nothing else (R340). -/
def execFunctionLevelReset (s : State) : Host.Outcome State Fault Refusal :=
  when_ (s.reach .h) State.windowReset s

/-- CACHE_ENABLE_SET: host-memory accesses work; when the host had cleared the bit, CODE 0x0016 is written again (R338, R339). -/
def execCacheEnableSet (s : State) : Host.Outcome State Fault Refusal :=
  when_ (s.reach .h && !s.plat.cacheEn) (fun s =>
    let s1 := { s with plat := { s.plat with cacheEn := true } }
    if s.plat.cacheOff then s1.logEv 0x0016 4 0 [1, 0] else s1) s

/-- IMAGE_BEGIN's own part (R346, R363, Table 14.6). -/
def doImageBegin (p : Port) (k : Packet) (s : State) : EbOut :=
  let n := byteFld (pktData k) 0 4
  if s.plat.stage ≠ 0 then .reply 0x0105 [] s
  else match s.cairn.session with
    | some (q, _, _) =>
      if q ≠ p then .reply 6 [] s
      else if 67108864 < n then .reply 0x0103 [] s
      else if n < 4096 ∨ n % 16 ≠ 0 then .reply 7 [] s
      else let t := s.dropImage; .reply 0 [] { t with cairn := { t.cairn with session := some (p, n, 0) } }
    | none =>
      if 67108864 < n then .reply 0x0103 [] s
      else if n < 4096 ∨ n % 16 ≠ 0 then .reply 7 [] s
      else let t := s.dropImage; .reply 0 [] { t with cairn := { t.cairn with session := some (p, n, 0) } }

/-- IMAGE_DATA's own part (R346, R363): the offset must equal the bytes received; no session is SEQUENCE, and bytes beyond LENGTH
are BAD_PARAM (DEDUCED, log entry 9). -/
def doImageData (p : Port) (k : Packet) (s : State) : EbOut :=
  let body := pktData k
  match s.cairn.session with
  | none => .reply 0x0104 [] s
  | some (q, len, got) =>
    let d := body.drop 4
    if q ≠ p then .reply 6 [] s
    else if byteFld body 0 4 ≠ got then .reply 0x0104 [] s
    else if len < got + d.length then .reply 7 [] s
    else .reply 0 [] { s with
      cairn := { s.cairn with session := some (q, len, got + d.length) }
      landing := alMod {} s.landing 0 (fun st => st.writeBytes (imageBase + got) d) }

/-- A component entry of an image (Table 15.3): type, offset, size. -/
def imgComp (img : List Byte) (j : Nat) : Nat × Nat × Nat :=
  (byteFld img (64 + 24 * j) 2, byteFld img (68 + 24 * j) 4, byteFld img (72 + 24 * j) 4)

/-- The rules of R362 and the header's constants (R364, check 1). -/
def imgOk (img : List Byte) (len : Nat) : Bool :=
  let sigoff := byteFld img 20 4
  let n := byteFld img 24 2
  let cs := (List.range n).map (imgComp img)
  let cnt := fun t => (cs.filter (fun c => c.1 == t)).length
  decide (byteFld img 0 4 = 0x4C59494D) && decide (byteFld img 4 2 = 1) && decide (byteFld img 6 1 = 0)
  && decide (byteFld img 7 1 ≤ 3) && decide (byteFld img 16 4 = len) && decide (sigoff + 3312 = len)
  && decide (3 ≤ n) && decide (n ≤ 8)
  && cs.all (fun c => decide (1 ≤ c.1) && decide (c.1 ≤ 5) && decide (c.2.1 % 16 = 0) && decide (2208 ≤ c.2.1) && decide (c.2.1 + c.2.2 ≤ sigoff)
      && (c.1 != 5 || (decide (c.2.2 = 4) && decide (byteFld img c.2.1 4 < 16))))
  && decide (cnt 1 = 1) && decide (cnt 2 = 1) && decide (cnt 3 = 1) && decide (cnt 4 ≤ 1) && decide (cnt 5 ≤ 1)
  && (List.range n).all (fun i => (List.range i).all (fun j =>
      let a := nth (0, 0, 0) cs i
      let b := nth (0, 0, 0) cs j
      decide (a.2.1 + a.2.2 ≤ b.2.1) || decide (b.2.1 + b.2.2 ≤ a.2.1)))
  && decide (byteFld img (sigoff + 3309) 3 = 0)

/-- M of R364: SHAKE256 of bytes 0 to SIGOFF − 1, to 512 bits. -/
def imgDigest (img : List Byte) : List Byte := shake 64 (img.take (byteFld img 20 4))

/-- The first check of R364 that fails, as its status. -/
def imgCheck (f : Fuses) (img : List Byte) (len : Nat) : Option Nat :=
  let slot := byteFld img 7 1
  let pk := (img.drop 256).take 1952
  if !(imgOk img len) then some 0x0101
  else if bitOf f.revoked.toNat slot then some 0x0102
  else if nth none f.keyHash slot ≠ some (shake 32 pk) then some 0x0101
  else if !(Free.mldsaVerify pk (imgDigest img) ((img.drop (byteFld img 20 4)).take 3309)) then some 0x0101
  else none

/-- Slots a type-5 component names, its own slot left out (R364). -/
def imgRevoke (img : List Byte) : Nat :=
  let n := byteFld img 24 2
  match ((List.range n).map (imgComp img)).find? (fun c => c.1 == 5) with
  | some c => setFld (byteFld img c.2.1 1 % 16) (byteFld img 7 1) 1 0
  | none => 0

/-- IMAGE_END's own part (R361–R364): on success the fuses named are blown, firmware starts, STAGE is 1, the image is measured
and the boundary-scan port is at Test-Logic-Reset (R423). -/
def doImageEnd (p : Port) (_k : Packet) (s : State) : EbOut :=
  match s.cairn.session with
  | none => .reply 0x0104 [] s
  | some (q, len, got) =>
    if q ≠ p then .reply 6 [] s
    else if got < len then .reply 0x0104 [] s
    else
      let img := (alGet {} s.landing 0).readBytes imageBase len
      match imgCheck s.fuses img len with
      | some st => .reply st [] s.dropImage
      | none =>
        let slot := byteFld img 7 1
        let s1 := { s with
          fuses := { s.fuses with revoked := s.fuses.revoked ||| BitVec.ofNat 4 (imgRevoke img) }
          cairn := { s.cairn with session := none, keyslot := slot, fwVersion := byteFld img 8 8 }
          plat := { s.plat with stage := 1 }
          jtag := {} }
        .reply 0 (leBytes 1 slot) (s1.measure 2 slot (imgDigest img))

/-- IMAGE_BEGIN (R363). -/
def execImageBegin (p : Port) (k : Packet) (s : State) : Host.Outcome State Fault Refusal :=
  .next (s.ebior 0x0101 p k (doImageBegin p k))
/-- IMAGE_DATA (R363). -/
def execImageData (p : Port) (k : Packet) (s : State) : Host.Outcome State Fault Refusal :=
  .next (s.ebior 0x0102 p k (doImageData p k))
/-- IMAGE_END (R364). -/
def execImageEnd (p : Port) (k : Packet) (s : State) : Host.Outcome State Fault Refusal :=
  .next (s.ebior 0x0103 p k (doImageEnd p k))

/-- A trap, start or telemetry ring's value: base aligned to the ring's size of `rec` << log bytes. -/
def ringOk (val : List Byte) (rec lo hi : Nat) : Bool :=
  let b := byteFld val 0 8
  let l := byteFld val 8 1
  decide (val.length = 16) && decide (lo ≤ l) && decide (l ≤ hi) && decide (b % (rec * 2 ^ l) = 0) && decide (b < 2 ^ 48)

/-- Applies one key to the configuration and the route table, or the status that refuses it (Table 15.4, R365). -/
def applyKey (c : Config) (rt : Sparse W64) (ceil key : Nat) (v : List Byte) : Except Nat (Config × Sparse W64) :=
  let n := v.length
  let x := leNat v
  let bad : Except Nat (Config × Sparse W64) := .error 0x0202
  if key = 0x0001 then (if n = 1 ∧ x ≤ 1 then .ok ({ c with interleave := some x }, rt) else bad)
  else if key = 0x0002 then (if n = 2 then .ok ({ c with ridgeAddr := some (x % 1024) }, rt) else bad)
  else if key = 0x0003 then
    let i := byteFld v 0 2
    let m := (n - 8) / 8
    if n % 8 = 0 ∧ 1 ≤ m ∧ m ≤ 256 ∧ i + m ≤ 1024 then
      .ok ({ c with routesWritten := true },
        (List.range m).foldl (fun t j => alPut t (i + j) (BitVec.ofNat 64 (byteFld v (8 + 8 * j) 8 % 2 ^ 42))) rt)
    else bad
  else if key = 0x0004 then (if n = 8 then .ok ({ c with ridgeLinks := some x }, rt) else bad)
  else if key = 0x0005 then (if n = 1 then .ok ({ c with cohSet := some x }, rt) else bad)
  else if key = 0x0006 then
    (if n = 4 ∨ n = 8 ∨ n = 12 ∨ n = 16 then
      .ok ({ c with timeMaster := some ((List.range (n / 4)).map (fun j => byteFld v (4 * j) 4 % 2 ^ 20)) }, rt) else bad)
  else if key = 0x0007 then (if n = 8 then .ok ({ c with domainTime := some x }, rt) else bad)
  else if key = 0x0008 then (if n = 2 ∧ 600 ≤ x ∧ x ≤ ceil then .ok ({ c with powerLimit := some x }, rt) else bad)
  else if key = 0x0009 then (if n = 1 ∧ x ≤ 50 then .ok ({ c with pacedReserve := some x }, rt) else bad)
  else if key = 0x000A then (if n = 1 ∧ 1 ≤ x ∧ x ≤ 168 then .ok ({ c with scrubPeriod := some x }, rt) else bad)
  else if 0x0010 ≤ key ∧ key ≤ 0x0013 then
    (if ringOk v 64 6 16 then .ok ({ c with trapRing := alPut c.trapRing (key - 0x0010) (byteFld v 0 8, byteFld v 8 1) }, rt) else bad)
  else if key = 0x0014 then (if n = 8 ∧ x % 131072 = 0 ∧ x < 2 ^ 48 then .ok ({ c with reqRing := some x }, rt) else bad)
  else if key = 0x0015 then
    (if ringOk v 4096 2 10 then .ok ({ c with startRing := some (byteFld v 0 8, byteFld v 8 1) }, rt) else bad)
  else if key = 0x0016 then
    let per := byteFld v 10 2
    let thr := byteFld v 12 4
    (if ringOk v 256 8 20 ∧ 1 ≤ per ∧ per ≤ 10000 ∧ 1 ≤ thr ∧ thr ≤ 2 ^ byteFld v 8 1 then
      .ok ({ c with telemetry := some (byteFld v 0 8, byteFld v 8 1, per, thr) }, rt) else bad)
  else if key = 0x0017 then
    (if n = 8 ∧ x % 4 = 0 ∧ 0x800000000000 ≤ x ∧ x < 2 ^ 48 then .ok ({ c with nodeEntry := some x }, rt) else bad)
  else .error 0x0201

/-- Applies a packet's entries in order; the first that is refused refuses all (R366). -/
def applyEntries : Nat → List Byte → Config → Sparse W64 → Nat → Nat → Except Nat (Config × Sparse W64 × Nat)
  | 0, _, c, rt, _, m => .ok (c, rt, m)
  | n + 1, l, c, rt, ceil, m =>
    if l.isEmpty then .ok (c, rt, m)
    else
      let len := byteFld l 2 2
      match applyKey c rt ceil (byteFld l 0 2) ((l.drop 4).take len) with
      | .error e => .error e
      | .ok (c1, rt1) => applyEntries n (l.drop (4 + (len + 7) / 8 * 8)) c1 rt1 ceil (m + 1)

/-- CONFIG_WRITE's own part: the first one claims the session (R346, R366). -/
def doConfigWrite (p : Port) (k : Packet) (s : State) : EbOut :=
  if (s.cairn.cfgSession.getD p) ≠ p then .reply 6 [] s
  else match applyEntries k.plen (pktData k) s.cfg s.rdgRoute s.powerCeil 0 with
    | .error e => .reply e [] s
    | .ok (c, rt, m) =>
      .reply 0 (leBytes 2 m) { s with cfg := c, rdgRoute := rt, cairn := { s.cairn with cfgSession := some p } }

/-- Packages of TIME_MASTER, this one alone by default (Table 15.4). -/
def State.masters (s : State) : List Nat := s.cfg.timeMaster.getD [s.myAddr]

/-- A ring key's value. -/
def ringVal (r : Nat × Nat) : List Byte := leBytes 8 r.1 ++ leBytes 1 r.2 ++ leBytes 7 0

/-- The value of a key in force: as last written, or its default (R366); none for a key that does not exist. -/
def State.keyVal (s : State) (key : Nat) : Option (List Byte) :=
  let c := s.cfg
  let req := fun (o : Option (List Byte)) => some (o.getD [])
  if key = 0x0001 then req (c.interleave.map (leBytes 1))
  else if key = 0x0002 then req (c.ridgeAddr.map (leBytes 2))
  else if key = 0x0003 then some (leBytes 8 0 ++ ((List.range 1024).map (fun i => leBytes 8 (alGet 0 s.rdgRoute i).toNat)).flatten)
  else if key = 0x0004 then some (leBytes 8 (c.ridgeLinks.getD (2 ^ 64 - 1)))
  else if key = 0x0005 then some (leBytes 1 (c.cohSet.getD 0))
  else if key = 0x0006 then some ((s.masters.map (leBytes 4)).flatten)
  else if key = 0x0007 then some (leBytes 8 (c.domainTime.getD 0))
  else if key = 0x0008 then some (leBytes 2 (if 2 ≤ s.plat.stage then s.power.limit else c.powerLimit.getD 2400))
  else if key = 0x0009 then some (leBytes 1 (c.pacedReserve.getD 0))
  else if key = 0x000A then some (leBytes 1 (c.scrubPeriod.getD 24))
  else if 0x0010 ≤ key ∧ key ≤ 0x0013 then req ((alFind c.trapRing (key - 0x0010)).map ringVal)
  else if key = 0x0014 then req (c.reqRing.map (leBytes 8))
  else if key = 0x0015 then req (c.startRing.map ringVal)
  else if key = 0x0016 then req (c.telemetry.map (fun t => leBytes 8 t.1 ++ leBytes 1 t.2.1 ++ leBytes 1 0 ++ leBytes 2 t.2.2.1 ++ leBytes 4 t.2.2.2))
  else if key = 0x0017 then req (c.nodeEntry.map (leBytes 8))
  else none

/-- The keys in order (Table 15.4). -/
def allKeys : List Nat := [1, 2, 3, 4, 5, 6, 7, 8, 9, 10, 0x10, 0x11, 0x12, 0x13, 0x14, 0x15, 0x16, 0x17]
/-- The required keys in order. -/
def requiredKeys : List Nat := [1, 2, 0x10, 0x11, 0x12, 0x13, 0x14, 0x15, 0x16, 0x17]

/-- CONFIG_READ's own part (R366). -/
def doConfigRead (_p : Port) (k : Packet) (s : State) : EbOut :=
  let key := byteFld (pktData k) 0 2
  if key = 3 then .reply 7 [] s
  else match s.keyVal key with
    | some v => .reply 0 v s
    | none => .reply 0x0201 [] s

/-- CONFIG_WRITE (R366). -/
def execConfigWrite (p : Port) (k : Packet) (s : State) : Host.Outcome State Fault Refusal :=
  .next (s.ebior 0x0201 p k (doConfigWrite p k))
/-- CONFIG_READ (R366). -/
def execConfigRead (p : Port) (k : Packet) (s : State) : Host.Outcome State Fault Refusal :=
  .next (s.ebior 0x0202 p k (doConfigRead p k))

/-- The rings of the configuration: key, base, size in bytes. -/
def Config.rings (c : Config) : List (Nat × Nat × Nat) :=
  ((List.range 4).filterMap (fun n => (alFind c.trapRing n).map (fun r => (0x10 + n, r.1, 64 * 2 ^ r.2))))
  ++ (match c.reqRing with | some b => [(0x14, b, 131072)] | none => [])
  ++ (match c.startRing with | some r => [(0x15, r.1, 4096 * 2 ^ r.2)] | none => [])
  ++ (match c.telemetry with | some t => [(0x16, t.1, 256 * 2 ^ t.2.1)] | none => [])

/-- The first key that makes the configuration inconsistent (R367, step 4). -/
def State.inconsistent (s : State) : Option Nat :=
  let coh := s.cfg.cohSet.getD 0
  let n := popCount 8 coh
  if coh ≠ 0 ∧ (n < 2 ∨ ¬ bitOf coh s.mySlot) then some 5
  else
    let rs := s.cfg.rings
    let bad := rs.find? (fun r => !(s.ringMapped (s.cfg.interleave.getD 0) r.2.1 r.2.2)
      || rs.any (fun q => decide (q.1 < r.1) && decide (q.2.1 < r.2.1 + r.2.2) && decide (r.2.1 < q.2.1 + q.2.2)))
    bad.map (·.1)

/-- Failing ways of a slice at the power-up test: up to four are disabled, a fifth flags the slice (R218, R219). -/
def State.badWay (s : State) (die sl way : Nat) : State :=
  let v := s.slice die sl
  let dis := popCount 16 v.dis.toNat
  let v1 := if bitOf v.dis.toNat way then v
    else if dis < 4 then { v with dis := v.dis ||| (1#16 <<< way) } else { v with maint := true }
  (s.setSlice die sl v1).logEv 0x0003 (8 + die) 2 [sl, way, v1.wayReg]

/-- Steps 6 and 7 of the commit (R367): ways tested, arrays and landing stores zeroed, counts started, links training, harts
started, STAGE 2, and the CONFIG measurement (R143, R144, R219, R424, R427, R428, R432). -/
def State.commit (s : State) (bad : List (Nat × Nat × Nat)) : State :=
  let s1 := bad.foldl (fun (t : State) b => t.badWay b.1 b.2.1 b.2.2) s
  let fine := s1.cfg.domainTime.getD 0 * 100000
  let master := s1.masters.head? == some s1.myAddr
  let live := s1.tally.live.filter (fun e => decide (e.1 ≤ 2) || (decide (6 ≤ e.1) && decide (e.1 < 1024)))
  let links := (s1.links.filter (fun e => decide (64 ≤ e.1))) ++
    (List.range 64).map (fun l => (l, { s1.link l with
      state := (if bitOf (s1.cfg.ridgeLinks.getD (2 ^ 64 - 1)) l && s1.plat.ridgeClk then 1 else 0), retry := 0, retr := 0 }))
  let s2 : State := { s1 with
    tiles := s1.tiles.map (fun e => (e.1, { e.2 with ls := {}, l1 := [] }))
    landing := []
    cfg := s1.cfg
    plat := { s1.plat with stage := 2 }
    time := { s1.time with fine := fine, sync := if master then 1 else 0, master := 0, heard := fine / 100000 }
    tally := { s1.tally with live := live, hour := fine / 100000 / 3600000000000, windows := [], seq := 0, skip := 0, tail := 0, head := 0 }
    power := { s1.power with limit := s1.cfg.powerLimit.getD 2400, epis := 0, pstate := 0, busyAt := fine / 100000, coolSince := fine / 100000 }
    acts := []
    actNum := 0
    starts := 0
    links := links
    chans := s1.chans.map (fun e => (e.1, { e.2 with ue := 0, crcr := 0 }))
    cols := (List.range 16).map (fun k =>
      let c := alGet ({} : ColPort) s1.cols k
      (k, if c.state = 0 then { c with state := 1, mods := 12, crcr := 0 } else { c with crcr := 0 }))
    cores := (List.range 64).map (fun c => (c, { ({} : NCore) with running := true }))
    cairn := { s1.cairn with cfgSession := none } }
  let all := (allKeys.map (fun key => let v := (s2.keyVal key).getD []; leBytes 2 key ++ leBytes 2 v.length ++ padTo ((v.length + 7) / 8 * 8) v)).flatten
  s2.measure 4 0 (shake 64 all)

/-- Logs the training outcome of each group that cannot cover its channels (R275): group and failed channels. -/
def State.logFailedGroups (s : State) : State :=
  ((List.range 16).filter (fun i => decide (2 ≤ s.failedChans (i / 4) (i % 4)))).foldl (fun (t : State) i =>
    t.logEv 0x0001 (8 + i / 4) 2 [i % 4,
      (((List.range 32).map (fun k => if (t.chan (i / 4) (chanIx (i % 4) k)).state = 5 then 2 ^ k else 0)).foldl (· + ·) 0)]) s

/-- Steps 3 to 7 of a commit (R367). -/
def commitSteps (bad : List (Nat × Nat × Nat)) (s : State) : Nat × List Byte × State :=
  let failed := (List.range 16).any (fun i => decide (2 ≤ s.failedChans (i / 4) (i % 4)))
  let s1 := s.logFailedGroups
  if failed ∧ s.cfg.interleave = some 0 then (0x0203, [], s1)
  else match s1.inconsistent with
    | some key => (7, [], s1.logEv 0x0014 255 1 [key])
    | none => if !s1.plat.cacheEn then (5, [], s1) else (0, [], s1.commit bad)

/-- CONFIG_COMMIT's own part (R346, R367): it waits for the end of memory bring-up. -/
def doConfigCommit (bad : List (Nat × Nat × Nat)) (p : Port) (_k : Packet) (s : State) : EbOut :=
  if (s.cairn.cfgSession.getD p) ≠ p then .reply 6 [] s
  else match requiredKeys.find? (fun key => ((s.keyVal key).getD []).isEmpty) with
    | some key => .reply 0x0204 (leBytes 2 key) s
    | none =>
      if s.plat.memUp then
        let r := commitSteps bad s
        .reply r.1 r.2.1 r.2.2
      else if s.cairn.commitWait.isSome then .reply 6 [] s
      else .hold { s with cairn := { s.cairn with commitWait := some (p, bad) } }

/-- CONFIG_COMMIT (R367). -/
def execConfigCommit (p : Port) (k : Packet) (badWays : List (Nat × Nat × Nat)) (s : State) : Host.Outcome State Fault Refusal :=
  .next (s.ebior 0x0203 p k (doConfigCommit badWays p k))

/-- Channel states and remap of a group after training (R268, R274, R275), from its failed physical channels: those with more failing lanes than
can be replaced, or that fail the pattern test (Table 11.3). -/
def State.trainGroup (s : State) (outs : List ChanOutcome) (die g : Nat) : State :=
  let n := if g = 3 then 16 else 32
  let sp := spareOf g
  let get := fun k => outs.find? (fun o => o.die == die && o.chan == chanIx g k)
  let lanes := repairLanes g
  let failed := (List.range n).filter (fun k => match get k with | some o => o.failed || decide (lanes < o.lrep) | none => false)
  let lrep := fun k => match get k with | some o => min 15 (min lanes o.lrep) | none => 0
  let one := failed.length = 1 ∧ ¬ failed.contains sp
  let s1 := (List.range n).foldl (fun (t : State) k =>
    let c := t.chan die (chanIx g k)
    let st := if failed.contains k then 5 else if k = sp then (if one then 3 else 1) else 0
    let lg := if k = sp then (if one then nth 0 failed 0 else 0) else if failed.contains k then 0 else k
    t.setChan die (chanIx g k) { c with state := st, logical := lg, lrep := lrep k }) s
  let rm : Remap := if one then { target := nth 0 failed 0, wmark := chanUnits g } else {}
  { s1 with remap := alPut s1.remap (die * 4 + g) rm }

/-- MEMORY_BRINGUP_END: channel states and remaps are fixed and memory holds zeros; a waiting commit goes on (R274, R275, R367). -/
def execMemoryBringupEnd (outcomes : List ChanOutcome) (s : State) : Host.Outcome State Fault Refusal :=
  when_ (s.up && decide (s.plat.stage = 1) && !s.plat.memUp) (fun s =>
    let s1 := (List.range 16).foldl (fun (t : State) i => t.trainGroup outcomes (i / 4) (i % 4)) s
    let s2 := { s1 with dram := {}, plat := { s1.plat with memUp := true } }
    match s2.cairn.commitWait with
    | some (p, bad) =>
      let r := commitSteps bad { s2 with cairn := { s2.cairn with commitWait := none } }
      r.2.2.finish p r.1 r.2.1
    | none => s2) s

end Sys2Proof.Machine
end

