-- ==== Sys2Proof/Machine/CrewMem.lean ====
section
/-! DEFINITION. Crew accesses to local store and global memory: LD, ST, ATOM, RED, REDL (R71, R79, R80, R87, R91, R187–R192). -/

namespace Sys2Proof.Machine

/-- One lane's access: lane, address, data or operand, compare value. -/
structure LaneAcc where
  lane : Nat
  addr : Nat
  data : Nat
  cmp  : Nat
  deriving DecidableEq, Repr

/-- The first rule that a lane's access breaks: address range, misaligned, local-store bound (R71, R79). -/
def laneCheck (sp : Bool) (win : Nat × Nat) (n a : Nat) : Option Nat :=
  if sp && decide (2 ^ 52 ≤ a) then some 5
  else if a % n ≠ 0 then some 4
  else if !sp && !(decide (win.1 ≤ a) && decide (a + n ≤ win.1 + win.2)) then some 3
  else none

/-- The faults of a list of accesses at their checks. -/
def laneFaults (sp : Bool) (win : Nat × Nat) (n : Nat) (l : List LaneAcc) : List (Nat × Nat × W64) :=
  l.filterMap (fun a => (laneCheck sp win n a.addr).map (fun k => (a.lane, k, BitVec.ofNat 64 a.addr)))

/-- The bookkeeping of an instruction's accesses, its faults so far noted (R91). -/
def Issue.group (i : Issue) (whole : LaneMask) (faults : List (Nat × Nat × W64)) : Group :=
  faults.foldl (fun (g : Group) e => g.fail e.1 e.2.1 e.2.2)
    { grp := i.v.nextGrp, whole := whole, late := i.late || faults.isEmpty, instr := i.w, pc := i.pc, active := i.active,
      fault := 0, cause := 0, first := 0, detail := 0 }

/-- Lanes of a uniform instruction fail together. -/
def Issue.whole (i : Issue) : LaneMask := if uniOf i.w then i.part else 0

/-- Ends an instruction performed at once: past it, or parked with the lanes that failed (R91). -/
def State.laneEnd (s : State) (i : Issue) (v : Crew) (faults : List (Nat × Nat × W64)) : State :=
  if faults.isEmpty then s.done i v
  else
    let g := i.group i.whole faults
    (s.setCrew i.c v).parkCrew i.c
      { cause := g.cause, instr := i.w, pc := i.pc, active := i.active, fault := g.fault, first := g.first, detail := g.detail,
        late := i.late, time := 0, recorded := false }

/-- Two lanes of an instruction access one location. Accesses have one size and are aligned to it. -/
def collides (l : List LaneAcc) : Bool := l.any (fun a => l.any (fun b => a.lane != b.lane && a.addr == b.addr))

/-- Puts an access behind those of no higher rank. -/
def byRank (rank : Nat → Nat) (a : LaneAcc) : List LaneAcc → List LaneAcc
  | [] => [a]
  | b :: r => if rank a.lane < rank b.lane then a :: b :: r else b :: byRank rank a r

/-- The order in which the lanes of an instruction perform their accesses, which is no defined one: where lanes meet at a location, some
order of all of them (R172). -/
def State.laneOrder (s : State) (l : List LaneAcc) : List LaneAcc :=
  if collides l then l.foldl (fun o a => byRank (Free.laneRank s.fresh) a o) [] else l

/-- The state in which an order has been drawn for accesses that need one (R172). -/
def State.ordered (s : State) (l : List LaneAcc) : State := if collides l then s.drawn else s

/-- The stand's local-store window of a crew (R71). -/
def State.windowOf (s : State) (c : CrewId) (v : Crew) : Nat × Nat :=
  ((s.launchOf c).map (fun (l : Launch) => l.window v.stand)).getD (0, 0)

/-- The address space of a crew's launch (R248). -/
def State.spaceOf (s : State) (c : CrewId) : Nat := ((s.launchOf c).map (·.space)).getD 0

/-- A blank access of a lane. -/
def laneReq (c : CrewId) (grp : Nat) (kind : AccKind) (space n : Nat) (a : LaneAcc) : Req :=
  { id := 0, who := .lane c a.lane grp, kind := kind, space := space, va := a.addr, pa := 0, size := n, data := BitVec.ofNat 1024 a.data,
    cmp := BitVec.ofNat 64 a.cmp, mask := BitVec.ofNat 128 (2 ^ n - 1), sub := 0, ty := 0, dst := 255, uni := false, sx := false,
    noInstall := false, poisoned := false, levels := [], stage := .xlat }

/-- Global accesses of an instruction: the lanes that pass the checks start theirs, each waiting alone for its translation; the path
moves on unless some lane has failed (R79, R80, R91). -/
def State.globalAccs (s : State) (i : Issue) (whole : LaneMask) (n : Nat) (l : List LaneAcc) (mk : Nat → LaneAcc → Req) : State :=
  let faults := laneFaults true (0, 0) n l
  let good := l.filter (fun a => (laneCheck true (0, 0) n a.addr).isNone)
  let v := { i.v with groups := i.v.groups ++ [i.group whole faults], nextGrp := i.v.nextGrp + 1 }
  let s1 := if faults.isEmpty then s.done i v else s.setCrew i.c v
  (good.foldl (fun (t : State) a => (t.startReq (mk i.v.nextGrp a)).1) s1).raiseGroup i.c

/-- A local load of a lane: its value, or its poison fault (R79, R272). -/
def localLoad (i : Issue) (n : Nat) (acc : State × Crew × List (Nat × Nat × W64)) (a : LaneAcc) :
    State × Crew × List (Nat × Nat × W64) :=
  let r := acc.1.readLs i.c.die i.c.tile a.addr n
  let x := if wfld i.w 60 1 = 1 ∧ n < 4 then sext32 n r.1 else r.1
  if r.2.1 then (r.2.2, acc.2.1, acc.2.2 ++ [(a.lane, 8, BitVec.ofNat 64 a.addr)])
  else (r.2.2, acc.2.1.setN (uniOf i.w) a.lane (wfld i.w 16 8) (max 1 (n / 4)) x, acc.2.2)

/-- The accesses of a LD or ST: BASE plus OFF, and DATA (R79). -/
def Issue.ldst (i : Issue) (n : Nat) : List LaneAcc :=
  let base := if wfld i.w 59 1 = 1 then 2 else 1
  i.lanes.map (fun l =>
    { lane := l, addr := addOff (i.read l (wfld i.w 24 8) base) (off24 i.w 32),
      data := i.read l (wfld i.w 16 8) (max 1 (n / 4)) % 256 ^ n, cmp := 0 })

/-- LD (R79, R80); `lost` are the L1 sectors in which it meets an uncorrectable error (R205). -/
def execLd (c : CrewId) (w : W64) (lost : List Nat) (s : State) : Host.Outcome State Fault Refusal :=
  .next (s.issue c w 0x100 (fun s i =>
    let n := sizeOf_ w
    let l := i.ldst n
    if wfld w 59 1 = 1 then
      s.globalAccs i i.whole n l (fun g a =>
        { laneReq c g .load (s.spaceOf c) n a with dst := wfld w 16 8, uni := uniOf w, sx := wfld w 60 1 == 1, lost := lost })
    else
      let win := s.windowOf c i.v
      let good := l.filter (fun a => (laneCheck false win n a.addr).isNone)
      let r := good.foldl (localLoad i n) (s, i.v, laneFaults false win n l)
      r.1.laneEnd i r.2.1 r.2.2))

/-- ST: to local store at once, or write-through to global memory (R79, R201). -/
def execSt (c : CrewId) (w : W64) (s : State) : Host.Outcome State Fault Refusal :=
  .next (s.issue c w 0x101 (fun s i =>
    let n := sizeOf_ w
    let l := s.laneOrder (i.ldst n)
    let s := s.ordered (i.ldst n)
    if wfld w 59 1 = 1 then s.globalAccs i i.whole n l (fun g a => laneReq c g .store (s.spaceOf c) n a)
    else
      let win := s.windowOf c i.v
      let good := l.filter (fun a => (laneCheck false win n a.addr).isNone)
      let s1 := good.foldl (fun (t : State) a => t.writeLs c.die c.tile a.addr (leBytes n a.data)) s
      s1.laneEnd i i.v (laneFaults false win n l)))

/-- The accesses of an ATOM or RED (R188). -/
def Issue.atoms (i : Issue) : List LaneAcc :=
  let n := regsOf (typeOf i.w)
  i.lanes.map (fun l =>
    { lane := l, addr := i.read l (wfld i.w 24 8) (if wfld i.w 56 1 = 1 then 2 else 1), data := i.immB l n,
      cmp := if wfld i.w 52 4 = 7 then i.read l (wfld i.w 40 8) n else 0 })

/-- A local-store atomic or reduction of a lane (R190, R192): poison fails an ATOM and discards a RED. -/
def localAtom (i : Issue) (returns : Bool) (acc : State × Crew × List (Nat × Nat × W64)) (a : LaneAcc) :
    State × Crew × List (Nat × Nat × W64) :=
  let ty := typeOf i.w
  let n := atomicSize ty
  let r := acc.1.readLs i.c.die i.c.tile a.addr n
  if r.2.1 then (r.2.2, acc.2.1, if returns then acc.2.2 ++ [(a.lane, 8, BitVec.ofNat 64 a.addr)] else acc.2.2)
  else
    let x := atomicNew ty (wfld i.w 52 4) r.1 (a.data % 256 ^ n) (a.cmp % 256 ^ n)
    (r.2.2.putLsAt i.c.die i.c.tile a.addr (leBytes n x),
     if returns then acc.2.1.setN (uniOf i.w) a.lane (wfld i.w 16 8) (regsOf ty) r.1 else acc.2.1, acc.2.2)

/-- ATOM and RED on either space. -/
def State.atomOrRed (s : State) (i : Issue) (returns : Bool) : State :=
  let ty := typeOf i.w
  let n := atomicSize ty
  let l := s.laneOrder i.atoms
  let s := s.ordered i.atoms
  if wfld i.w 56 1 = 1 then
    s.globalAccs i i.whole n l (fun g a =>
      { laneReq i.c g (if returns then .atomic else .red) (s.spaceOf i.c) n a with
        sub := wfld i.w 52 4, ty := ty, dst := (if returns then wfld i.w 16 8 else 255), uni := uniOf i.w })
  else
    let win := s.windowOf i.c i.v
    let good := l.filter (fun a => (laneCheck false win n a.addr).isNone)
    let r := good.foldl (localAtom i returns) (s, i.v, laneFaults false win n l)
    r.1.laneEnd i r.2.1 r.2.2

/-- ATOM (R188, R189, R190). -/
def execAtom (c : CrewId) (w : W64) (s : State) : Host.Outcome State Fault Refusal := .next (s.issue c w 0x502 (fun s i => s.atomOrRed i true))
/-- RED (R188, R192). -/
def execRed (c : CrewId) (w : W64) (s : State) : Host.Outcome State Fault Refusal := .next (s.issue c w 0x503 (fun s i => s.atomOrRed i false))

/-- REDL: one access of a whole line, each participating lane supplying its 4 bytes (R87, R191). -/
def execRedl (c : CrewId) (w : W64) (s : State) : Host.Outcome State Fault Refusal :=
  .next (s.issue c w 0x504 (fun s i =>
    let a := i.v.getN true 0 (wfld w 24 8) 2
    let d := (lanesOf i.part).foldl (fun x l => x + (i.immB l 1 % 2 ^ 32) * 2 ^ (32 * l)) 0
    s.globalAccs i i.part 128 [{ lane := lowest i.part, addr := a, data := d, cmp := 0 }] (fun g x =>
      { laneReq c g .redl (s.spaceOf c) 128 x with mask := i.part.zeroExtend 128, ty := typeOf w })))

end Sys2Proof.Machine
end

