-- ==== Sys2Proof/Machine/CrewControl.lean ====
section
/-! DEFINITION. Formats C and S besides memory: branches, calls, exits, barriers, fences, shuffles, votes and waits
(R83–R91, R169, R180; Tables 3.12, 3.14). -/

namespace Sys2Proof.Machine

/-- Lanes grouped by where they go (program counter and frame), in ascending order of the lowest lane each group holds (R84). -/
def groupLanes (f : Nat → Nat × Nat) (l : List Nat) : List (Nat × Nat × LaneMask) :=
  l.foldl (fun (acc : List (Nat × Nat × LaneMask)) k =>
    let t := f k
    match indexWhere (fun (e : Nat × Nat × LaneMask) => e.1 == t.1 && e.2.1 == t.2) acc with
    | some i => updNth acc i (fun e => (e.1, e.2.1, e.2.2 ||| (1#32 <<< k)))
    | none => acc ++ [(t.1, t.2, 1#32 <<< k)]) []

/-- The executing path goes on as the given paths, in its place in creation order; the first continues to issue (R84, R85). -/
def Crew.split (v : Crew) (parts : List (Nat × Nat × LaneMask)) (yields : Bool) : Crew :=
  let new := parts.map (fun e => ({ pc := e.1, lanes := e.2.2, frame := e.2.1, wait := .none } : Path))
  ({ v with paths := v.paths.take v.cur ++ new ++ v.paths.drop (v.cur + 1) }).after yields

/-- Pushes a frame under the executing path's frame; none when the stack is full (R84). -/
def Crew.push (v : Crew) (rcv : Nat) (call : Bool) : Option (Crew × Nat) :=
  if 32 ≤ v.frames.length then none
  else
    let parent := ((v.paths[v.cur]?).map (·.frame)).getD 0
    some ({ v with frames := v.frames ++ [{ id := v.nextFrame, rcv := rcv, call := call, parent := parent }], nextFrame := v.nextFrame + 1 },
      v.nextFrame)

/-- The executing path's frame. -/
def Crew.frame (v : Crew) : Nat := ((v.paths[v.cur]?).map (·.frame)).getD 0

/-- BRA and BRX: participating lanes go to their targets, the rest fall through (R83, R84). A dividing branch backwards yields too: R85's rule on
branches is taken to stand before R84's, by which the lowest lane's path issues at once (DEDUCED, log entry 65). -/
def State.branch (s : State) (i : Issue) (tgt : Nat → Nat) : State :=
  let go := fun (l : Nat) => if (lanesOf i.part).contains l then tgt l else i.pc + 8
  let yields := (lanesOf i.part).any (fun l => decide (tgt l ≤ i.pc))
  let dests := groupLanes (fun l => (go l, i.v.frame)) (lanesOf i.active)
  if dests.length = 1 then s.setCrew i.c (i.v.split dests yields)
  else if wfld i.w 40 24 = 0 then s.setCrew i.c (i.v.split dests yields)
  else
    match i.v.push (addOff i.pc (8 * off24 i.w 40)) false with
    | none => s.trap i i.active 0x0A 0
    | some (v, f) => s.setCrew i.c (v.split (dests.map (fun e => (e.1, f, e.2.2))) yields)

/-- NOP (R83). -/
def execNop (c : CrewId) (w : W64) (s : State) : Host.Outcome State Fault Refusal := .next (s.issue c w 0x400 (fun s i => s.done i i.v))
/-- BRA (R83, R84). -/
def execBra (c : CrewId) (w : W64) (s : State) : Host.Outcome State Fault Refusal :=
  .next (s.issue c w 0x401 (fun s i => s.branch i (fun _ => addOff i.pc (8 * off24 w 16))))
/-- BRX (R83, R84). -/
def execBrx (c : CrewId) (w : W64) (s : State) : Host.Outcome State Fault Refusal :=
  .next (s.issue c w 0x402 (fun s i => s.branch i (fun l => i.v.getN false l (wfld w 16 8) 2)))

/-- CALL: a call frame with reconvergence point PC + 8; lanes that do not participate go on at PC + 8 in their own frame
(R83, R84). -/
def execCall (c : CrewId) (w : W64) (s : State) : Host.Outcome State Fault Refusal :=
  .next (s.issue c w 0x403 (fun s i =>
    let tgt := addOff i.pc (8 * off24 w 16)
    match i.v.push (i.pc + 8) true with
    | none => s.trap i i.active 0x0A 0
    | some (v, f) =>
      let go := fun (l : Nat) => if (lanesOf i.part).contains l then (tgt, f) else (i.pc + 8, i.v.frame)
      s.setCrew c (v.split (groupLanes go (lanesOf i.active)) (decide (tgt ≤ i.pc)))))

/-- RET: to the reconvergence point of the innermost frame, a call frame (R83, R84). -/
def execRet (c : CrewId) (w : W64) (s : State) : Host.Outcome State Fault Refusal :=
  .next (s.issue c w 0x404 (fun s i =>
    match i.v.frames.find? (fun f => f.id == i.v.frame && f.call) with
    | none => s.trap i i.part 0x0A 1
    | some f =>
      let go := fun (l : Nat) => (if (lanesOf i.part).contains l then f.rcv else i.pc + 8, i.v.frame)
      s.setCrew c (i.v.split (groupLanes go (lanesOf i.active)) false)))

/-- Once every crew of a stand has ended, what it still has queued in the matrix and element engines is discarded without effect
(R111, R122). -/
def Tile.discard (t : Tile) (stand : Nat) : Tile :=
  let slots := (t.crews.filter (fun e => e.2.stand == stand)).map (·.1)
  if (t.crews.filter (fun e => e.2.stand == stand)).all (fun e => e.2.paths.isEmpty) then
    { t with
      mq := t.mq.filter (fun i => !(slots.contains i.slot))
      eq := t.eq.filter (fun i => !(slots.contains i.slot))
      crews := t.crews.map (fun e =>
        if e.2.stand = stand then
          (e.1, { e.2 with matrix := e.2.matrix - (t.mq.filter (fun i => i.slot == e.1)).length,
                           element := e.2.element - (t.eq.filter (fun i => i.slot == e.1)).length }) else e) }
  else t

/-- A copy error of a crew that has exited goes to the event log, with the launch tag, stand and crew (R169). -/
def State.logCopyErr (s : State) (c : CrewId) (cause : Nat) (d : W64) : State :=
  match s.crew c with
  | none => s
  | some v =>
    let tag := ((s.launchOf c).map (fun (l : Launch) => l.tag)).getD 0
    let ix := ((alFind (s.tile c.die c.tile).stands v.stand).map (fun (x : Stand) => x.index)).getD 0
    s.logEv 0x0007 c.die 1 [tag, ix, v.index, cause, d.toNat]

/-- What a crew leaves when its last lane has ended: an unreported copy error goes to the event log (R168, R169), barriers that
awaited it may release (R89), and with the stand's last crew its queued engine work goes (R111). An exit that leaves the crew's other
lanes all waiting at a barrier makes the crew arrive there (R89). -/
def State.crewGone (s : State) (c : CrewId) : State :=
  match s.crew c with
  | none => s
  | some v =>
    if !v.paths.isEmpty then s.tryBars c v.stand
    else
      let s1 := v.copyErr.foldl (fun (t : State) e => t.logCopyErr c e.1 e.2.1) (s.setCrew c { v with copyErr := [] })
      let s2 := s1.tryBars c v.stand
      s2.setTile c.die c.tile ((s2.tile c.die c.tile).discard v.stand)

/-- EXIT: participating lanes end (R83, R84). -/
def execExit (c : CrewId) (w : W64) (s : State) : Host.Outcome State Fault Refusal :=
  .next (s.issue c w 0x405 (fun s i =>
    let left := i.active &&& ~~~i.part
    if left ≠ 0 then
      s.setCrew c (({ i.v with paths := updNth i.v.paths i.v.cur (fun p => { p with lanes := left }) }).advance false)
    else
      let ps := i.v.paths.eraseIdx i.v.cur
      let v := { i.v with paths := ps, cur := (if i.v.cur = 0 then ps.length - 1 else i.v.cur - 1) }
      (s.setCrew c (v.after true)).crewGone c))

/-- TRAP: the software trap with its code (R83, R91). -/
def execTrap (c : CrewId) (w : W64) (s : State) : Host.Outcome State Fault Refusal :=
  .next (s.issue c w 0x406 (fun s i => s.trap i i.part 0x0D (BitVec.ofNat 64 (wfld w 16 16))))
/-- BRK: the breakpoint trap (R83, R91). -/
def execBrk (c : CrewId) (w : W64) (s : State) : Host.Outcome State Fault Refusal :=
  .next (s.issue c w 0x407 (fun s i => s.trap i i.part 0x0E 0))

/-- The executing path waits and yields (R85). -/
def Crew.waitOn (v : Crew) (x : Wait) : Crew :=
  ({ v with paths := updNth v.paths v.cur (fun p => { p with wait := x }) }).after true

/-- BAR: the path waits; the barrier releases when every crew of the stand has arrived or exited (R89). -/
def execBar (c : CrewId) (w : W64) (s : State) : Host.Outcome State Fault Refusal :=
  .next (s.issue c w 0x500 (fun s i => (s.setCrew c (i.v.waitOn (.bar (wfld w 32 3) false))).tryBar c i.v.stand (wfld w 32 3)))

/-- A FENCE of a kind: the crew issues nothing further until its actions are complete (R180). -/
def State.fenceOf (s : State) (i : Issue) (kind : Nat) : State :=
  let due := if kind ≠ 2 ∧ wfld i.w 52 2 = 3 then s.snoopIn else 0
  (s.done i { i.v with fence := some (kind, wfld i.w 52 2), snoops := due }).tryFence i.c

/-- FENCE.ACQ (R180). -/
def execFenceAcq (c : CrewId) (w : W64) (s : State) : Host.Outcome State Fault Refusal :=
  .next (s.issue c w 0x1501 (fun s i => s.fenceOf i 1))
/-- FENCE.REL (R180). -/
def execFenceRel (c : CrewId) (w : W64) (s : State) : Host.Outcome State Fault Refusal :=
  .next (s.issue c w 0x2501 (fun s i => s.fenceOf i 2))
/-- FENCE.AR (R180). -/
def execFenceAr (c : CrewId) (w : W64) (s : State) : Host.Outcome State Fault Refusal :=
  .next (s.issue c w 0x3501 (fun s i => s.fenceOf i 3))

/-- The source lane of SHFL, when it is one (Table 3.14). -/
def shflSrc (sub lane b : Nat) : Option Nat :=
  match sub with
  | 0 => some (b % 32)
  | 1 => if b ≤ lane then some (lane - b) else none
  | 2 => some (lane + b)
  | _ => some (lane ^^^ (b % 32))

/-- SHFL, of single registers: a source lane outside 0–31, or not participating, supplies the lane's own A (R88). -/
def execShfl (c : CrewId) (w : W64) (s : State) : Host.Outcome State Fault Refusal :=
  .next (s.issue c w 0x505 (fun s i =>
    let ls := lanesOf i.part
    s.done i (i.each (wfld w 16 8) 1 (fun l =>
      let own := i.read l (wfld w 24 8) 1
      match shflSrc (wfld w 52 4) l (i.immB l 1) with
      | some k => if ls.contains k then i.read k (wfld w 24 8) 1 else own
      | none => own))))

/-- VOTE: ALL, ANY, BALLOT, MATCH over participating lanes (R88). -/
def execVote (c : CrewId) (w : W64) (s : State) : Host.Outcome State Fault Refusal :=
  .next (s.issue c w 0x506 (fun s i =>
    let sub := wfld w 52 4
    let ls := lanesOf i.part
    let p := fun (l : Nat) => i.v.getP l (wfld w 24 3)
    let all := ls.all p
    let any := ls.any p
    let n := if typeOf w = 13 then 2 else 1
    let a := fun (l : Nat) => i.read l (wfld w 24 8) n
    if sub ≤ 1 then s.done i (ls.foldl (fun (v : Crew) l => v.setP l (wfld w 16 3) (if sub = 0 then all else any)) i.v)
    else if sub = 2 then s.done i (i.each (wfld w 16 8) 1 (fun _ => (maskOf (ls.filter p)).toNat))
    else s.done i (i.each (wfld w 16 8) 1 (fun l => (maskOf (ls.filter (fun k => a k == a l))).toNat))))

/-- BWAIT: parks on an unreported copy error, which it consumes; else waits until the outstanding-copy count is at most B (R87, R169). -/
def execBwait (c : CrewId) (w : W64) (s : State) : Host.Outcome State Fault Refusal :=
  .next (s.issue c w 0x507 (fun s i =>
    match i.v.copyErr with
    | (k, d, _) :: rest => s.trap { i with v := { i.v with copyErr := rest } } i.part k d
    | [] => s.setCrew c (i.v.waitOn (.copies (wfld w 32 8)))))

/-- WAITF: checks every participating lane's address, then waits for the words; its traps are of instruction grain (R90). -/
def execWaitf (c : CrewId) (w : W64) (s : State) : Host.Outcome State Fault Refusal :=
  .next (s.issue c w 0x508 (fun s i =>
    let win := s.windowOf c i.v
    let l : List LaneAcc := i.lanes.map (fun k =>
      { lane := k, addr := i.read k (wfld w 24 8) 1, data := i.immB k 1, cmp := 0 })
    match (laneFaults false win 4 l).head? with
    | some (k, cause, d) =>
      (s.setCrew c i.v).parkCrew c
        { cause := cause, instr := w, pc := i.pc, active := i.active, fault := i.part, first := k, detail := d, late := i.late,
          time := 0, recorded := false }
    | none => s.setCrew c (i.v.waitOn (.word (l.map (fun a => (a.addr, BitVec.ofNat 32 a.data)))))))

/-- PAUSE (R87). -/
def execPause (c : CrewId) (w : W64) (s : State) : Host.Outcome State Fault Refusal :=
  .next (s.issue c w 0x509 (fun s i => s.setCrew c (i.v.waitOn (.clocks (wfld w 32 16)))))

/-- A path's wait condition holds (R87, R89, R90). A PAUSE's clocks have passed when the event comes. -/
def State.waitMet (s : State) (c : CrewId) (v : Crew) (p : Path) : Bool :=
  match p.wait with
  | .bar _ r => r
  | .copies b => decide (v.copies ≤ b)
  | .word ws => ws.all (fun e => decide ((s.tile c.die c.tile).ls.readNat e.1 4 = e.2.toNat))
  | .clocks _ => true
  | _ => false

/-- WAIT_CONDITION_MET: the first waiting path whose condition holds becomes ready, past its wait instruction; when the executing path
does not issue, the next ready one is selected (R85). A crew held by a fence completes it once its conditions hold (R180). -/
def execWaitConditionMet (c : CrewId) (s : State) : Host.Outcome State Fault Refusal :=
  .next (match s.crew c with
    | none => s
    | some v =>
      if !s.serves || v.parked.isSome then s
      else if v.fence.isSome then s.tryFence c
      else
        let s := s.accstStep c.die c.tile
        match indexWhere (s.waitMet c v) v.paths with
        | none => s
        | some k =>
          let ps := updNth v.paths k (fun p => v.park? { p with pc := p.pc + 8, wait := .none })
          let v1 := ({ v with paths := ps }).settle (v.frames.length + 1)
          let idle : Bool := match v.paths[v.cur]? with | some p => p.wait != .none | none => true
          s.setCrew c (if idle then v1.select else v1))

end Sys2Proof.Machine
end

