-- ==== Sys2Proof/Machine/Matrix.lean ====
section
/-! DEFINITION. The matrix engine: issue checks, the queue and its two paths, products, compensated pairs, accumulator transfers
(chapter 4: R97–R116; R54–R58). -/

namespace Sys2Proof

namespace Machine

/-- The lowest byte of a region outside a window, if any (R71). -/
def Region2.outside (g : Region2) (win : Nat × Nat) : Option Nat :=
  let hi := win.1 + win.2
  if g.start < win.1 then some g.start
  else ((List.range g.rows).find? (fun r => decide (hi < g.start + r * g.pitch + g.len))).map (fun r => max hi (g.start + r * g.pitch))

/-- The least of a list. -/
def least : List Nat → Option Nat
  | [] => none
  | a :: r => some (r.foldl min a)

/-- The trap of the address checks of R101, misaligned before local-store bound. -/
def regionTrap (l : List Region2 × List Region2) (win : Nat × Nat) : Option (Nat × Nat) :=
  let bad := fun (g : Region2) =>
    if g.start % 32 ≠ 0 then some g.start else if g.pitch % 32 ≠ 0 ∨ g.pitch < g.len then some g.pitch else none
  let badS := fun (g : Region2) => if g.start % 32 ≠ 0 then some g.start else none
  match (l.1.filterMap bad ++ l.2.filterMap badS).head? with
  | some x => some (4, x)
  | none => (least ((l.1 ++ l.2).filterMap (fun g => g.outside win))).map (fun x => (3, x))

/-- A format X instruction other than MWAIT: ready with a free queue entry; a whole crew only; then the checks in order and the queue
(R102, R107, R115). -/
def State.matrixIssue (s : State) (c : CrewId) (w : W64) (op : Nat) : Host.Outcome State Fault Refusal :=
  .next (s.issueIf c w (0x200 + op) (fun s _ => decide ((s.tile c.die c.tile).mq.length < 16)) (fun s i =>
    let l := s.launchOf c
    let acc := (l.map (fun (x : Launch) => x.acc)).getD 0
    let crews := (l.map (fun (x : Launch) => x.crews)).getD 0
    let u := fun (lo : Nat) => i.v.getU (wfld w lo 6)
    let m : MInstr :=
      { slot := c.slot, w := w, ua := u 28, ub := u 34, up := u 40, us := u 46, us1 := i.v.getU (wfld w 46 6 + 1),
        base := (i.v.stand * crews + i.v.index) * acc }
    if i.part ≠ 0xFFFFFFFF ∨ i.active ≠ 0xFFFFFFFF then
      s.trap i i.part 0x0B (BitVec.ofNat 64 (i.part.toNat + i.active.toNat * 2 ^ 32))
    else
      match (accsOf w).find? (fun k => decide (acc / 2 ≤ k)) with
      | some k => s.trap i i.part 2 (BitVec.ofNat 64 k)
      | none =>
        match regionTrap m.regions (s.windowOf c i.v) with
        | some (cause, x) => s.trap i i.part cause (BitVec.ofNat 64 x)
        | none =>
          let t := s.tile c.die c.tile
          (s.setTile c.die c.tile { t with mq := t.mq ++ [m] }).done i { i.v with matrix := i.v.matrix + 1 }))

/-- MMA (R104). -/
def execMma (c : CrewId) (w : W64) (s : State) : Host.Outcome State Fault Refusal := s.matrixIssue c w 0
/-- MMAP (R104, R114). -/
def execMmap (c : CrewId) (w : W64) (s : State) : Host.Outcome State Fault Refusal := s.matrixIssue c w 1
/-- ACCLD (R106). -/
def execAccld (c : CrewId) (w : W64) (s : State) : Host.Outcome State Fault Refusal := s.matrixIssue c w 2
/-- ACCST (R106). -/
def execAccst (c : CrewId) (w : W64) (s : State) : Host.Outcome State Fault Refusal := s.matrixIssue c w 3

/-- MWAIT: stalls the crew until at most CNT matrix instructions are outstanding (R110, R116). -/
def execMwait (c : CrewId) (w : W64) (s : State) : Host.Outcome State Fault Refusal :=
  .next (s.issueIf c w 0x204 (fun _ v => v.part w == 0 || decide (v.matrix ≤ wfld w 16 4)) (fun s i => s.done i i.v))

/-- An instruction with those before it in the queue may start: every earlier one of its crew on its accumulators has completed, save
that an ACCST starts with the executing MMA or MMAP it follows (R108). -/
def Tile.mayStart (t : Tile) (before : List MInstr) (i : MInstr) : Bool :=
  before.all (fun j => !(j.shares i)) && t.xfer.toList.all (fun j => !(j.shares i))
    && (i.op == 3 || t.arr.toList.all (fun j => !(j.shares i)))

/-- The engines of a tile run: the package runs its tiles and the die is present (chapters 12, 16). -/
def State.tileRuns (s : State) (die : Nat) : Bool := s.serves && decide (s.power.pstate = 0) && s.dieLive die

/-- An instruction that an engine of a tile executes can end: so too while a DIE_RESET, which ends the die's stands, drains (R111, R125, Table
12.7). -/
def State.tileEnds (s : State) (die : Nat) : Bool :=
  s.serves && decide (s.power.pstate = 0) && decide (die < 4) && !(s.plat.lostC.contains die)

/-- MATRIX_START: a free path takes the first instruction meant for it (R107, R108). -/
def execMatrixStart (die tile : Nat) (transfer : Bool) (s : State) : Host.Outcome State Fault Refusal :=
  when_ (s.tileRuns die) (fun s =>
    let t := s.tile die tile
    match indexWhere (fun (i : MInstr) => i.transfer == transfer) t.mq with
    | none => s
    | some n =>
      match t.mq[n]? with
      | none => s
      | some i =>
        if (if transfer then t.xfer else t.arr).isSome || !(t.mayStart (t.mq.take n) i) then s
        else
          let t1 := { t with mq := t.mq.eraseIdx n }
          s.drawn.setTile die tile (if transfer then { t1 with xfer := some i, xferSaw := some [], xferDraw := s.fresh, xferDone := [] }
            else { t1 with arr := some i, arrSaw := some [] })) s

/-- A row of a region has a byte in sector `k`. -/
def Region2.touches (g : Region2) (k : Nat) : Bool :=
  decide (0 < g.len) && (List.range g.rows).any (fun r =>
    decide (g.start + r * g.pitch < 32 * k + 32) && decide (32 * k < g.start + r * g.pitch + g.len))

/-- Corrected and uncorrectable sectors met over regions of a store, each sector read once (R109, R112, R124, R142). -/
def regionErrs (st : Store) (l : List Region2) : Nat × Nat :=
  let met := fun (k : Nat) => l.any (fun g => g.touches k)
  ((st.bad.filter (fun e => e.2 == 1 && !(st.poison.contains e.1) && met e.1)).length,
   ((st.poison ++ (st.bad.filter (fun e => decide (2 ≤ e.2))).map (·.1)).eraseDups.filter met).length)

/-- Counts corrected and uncorrectable sectors that a tile's engines read: of local store, and of accumulator memory, w registers and
program slots, which INJECT does not reach (R418, Table 18.1). -/
def State.countSram (s : State) (die : Nat) (e : (Nat × Nat) × (Nat × Nat)) : State :=
  let c := e.1.1 + e.2.1
  let u := e.1.2 + e.2.2
  let s1 := if c = 0 then s else s.count (pairErr die 13) c
  (if u = 0 then s1 else s1.count (pairErr die 14) u).countReal e.2.1 e.2.2

/-- The sectors an instruction reads: its operands, and its accumulators unless it starts from zero or loads them. -/
def MInstr.errs (i : MInstr) (t : Tile) : (Nat × Nat) × (Nat × Nat) :=
  let accs := (List.range i.rows).flatMap (fun r =>
    [{ start := i.word r false, rows := 1, pitch := 0, len := 512 }] ++
      (if kindX i.w = 14 then [{ start := i.word r true, rows := 1, pitch := 0, len := 512 }] else []))
  let g := i.regions
  let l := if i.op = 3 then (0, 0) else regionErrs t.ls (g.1 ++ g.2)
  let a := if i.op = 3 ∨ (i.op ≤ 1 ∧ wfld i.w 52 1 = 0) then regionErrs t.acc accs else (0, 0)
  (l, a)

/-- The effect of an instruction on its tile's memories; `ls` is local store as its operands are read. -/
def MInstr.perform (i : MInstr) (t : Tile) (ls : Store) : Tile :=
  match i.op with
  | 2 => { i.load { t with ls := ls } with ls := t.ls }
  | 3 => t.accst (fun _ => true)
  | _ => { i.product { t with ls := ls } with ls := t.ls }

/-- MATRIX_COMPLETE: the executing instruction of a path ends, and its crew has one fewer outstanding; an ACCST ends after the MMA or
MMAP that it follows (R108, R110). -/
def execMatrixComplete (die tile : Nat) (transfer : Bool) (s : State) : Host.Outcome State Fault Refusal :=
  when_ (s.tileEnds die) (fun s0 =>
    let s := if transfer then s0 else s0.accstStep die tile
    let t := s.tile die tile
    match (if transfer then t.xfer else t.arr) with
    | none => s
    | some i =>
      if transfer && t.arr.toList.any (fun j => j.shares i) then s
      else
        let ls := t.seen (if transfer then t.xferSaw else t.arrSaw) s.fresh
        let t1 := i.perform t ls
        let t2 := if transfer then { t1 with xfer := none, xferSaw := none } else { t1 with arr := none, arrSaw := none }
        let t3 := { t2 with crews := alUpd t2.crews i.slot (fun v => { v with matrix := v.matrix - 1 }) }
        s.drawn.setTile die tile t3 |>.countSram die (i.errs { t with ls := ls })) s

end Machine

end Sys2Proof
end

