-- ==== Sys2Proof/Machine/Trans.lean ====
section
/-! DEFINITION. T-unit micro-ops (R137, R138; Tables 5.11, 5.12): special arguments, and for every other argument some result within
the stated bound of the exact one, which one being a free value of the argument. Exact values are approximated in fixed point with
512 fraction bits, far closer than any bound. -/

namespace Sys2Proof.Machine

/-- Fraction bits of the fixed-point numbers. -/
def fxP : Nat := 512
/-- One. -/
def fxOne : Int := (2 ^ fxP : Nat)
/-- A product. -/
def fxMul (a b : Int) : Int := a * b / fxOne

/-- Σ term × z2ⁿ ÷ (2n + 1): the series of arctangent (z2 negative) and its hyperbolic counterpart. -/
def oddSeries : Nat → Nat → Int → Int → Int
  | 0, _, _, _ => 0
  | k + 1, n, t, z2 => t / (2 * n + 1 : Nat) + oddSeries k (n + 1) (fxMul t z2) z2

/-- Σ rⁿ ÷ n!. -/
def expSeries : Nat → Nat → Int → Int → Int
  | 0, _, _, _ => 0
  | k + 1, n, t, r => t + expSeries k (n + 1) (fxMul t r / (n + 1 : Nat)) r

/-- Sine from n = 1 and t = x, cosine from n = 0 and t = 1. -/
def trigSeries : Nat → Nat → Int → Int → Int
  | 0, _, _, _ => 0
  | k + 1, n, t, x2 => t + trigSeries k (n + 2) (-(fxMul t x2) / ((n + 1) * (n + 2) : Nat)) x2

/-- Σ (−1)ⁿ x^(2n + 1) ÷ (n! (2n + 1)). -/
def erfSeries : Nat → Nat → Int → Int → Int
  | 0, _, _, _ => 0
  | k + 1, n, t, x2 => t / (2 * n + 1 : Nat) + erfSeries k (n + 1) (-(fxMul t x2) / (n + 1 : Nat)) x2

/-- 2 artanh z. -/
def fxLogRatio (z : Int) : Int := 2 * oddSeries 170 0 z (fxMul z z)
/-- ln 2. -/
def fxLn2 : Int := fxLogRatio (fxOne / 3)
/-- arctan 1/n. -/
def fxAtanInv (n : Nat) : Int := oddSeries 130 0 (fxOne / n) (-(fxMul (fxOne / n) (fxOne / n)))
/-- π. -/
def fxPi : Int := 16 * fxAtanInv 5 - 4 * fxAtanInv 239

/-- A finite value in fixed point. -/
def toFix (neg : Bool) (m : Nat) (e : Int) : Int :=
  let x := e + fxP
  sgn neg (if 0 ≤ x then m * 2 ^ x.toNat else m / 2 ^ (-x).toNat)

/-- A fixed-point number times 2^k as a value. -/
def fromFix (i k : Int) : Val := .fin (decide (i < 0)) i.natAbs (k - fxP)

/-- eˣ of a fixed-point x of moderate size. -/
def expVal (x : Int) : Val :=
  let k := x / fxLn2
  fromFix (expSeries 120 0 fxOne (x - k * fxLn2)) k

/-- ln of a positive finite value, in fixed point. -/
def logFix (m : Nat) (e : Int) : Int :=
  let l := bitLen m
  let z := toFix false m (-(l : Int))
  (e + l) * fxLn2 + fxLogRatio ((z - fxOne) * fxOne / (z + fxOne))

/-- x modulo 2π. -/
def modPi (x : Int) : Int := x % (2 * fxPi)

/-- 1 ÷ v and the sum with 1, of positive values. -/
def vrecip (v : Val) : Val := (vdiv (.fin false 1 0) v).1
def vplus1 (v : Val) : Val := (vadd (.fin false 1 0) v).1

/-- The exact result of a T-unit micro-op of a finite argument that is not special, to far more bits than any format holds (Table 5.6).
Codes 0x20–0x25 and 0x28–0x2C. -/
def transExact (op : Nat) (neg : Bool) (m : Nat) (e : Int) : Val :=
  let x := Val.fin neg m e
  let f := toFix neg m e
  let big := decide (12 < vlog2 m e)
  let tiny := decide (vlog2 m e < -60)
  let huge := Val.fin false 1 6000
  let small := Val.fin false 1 (-6000)
  let expOf := fun (n : Bool) (g : Int) => if big then (if n then small else huge) else expVal g
  match op with
  | 0x20 => expOf neg f
  | 0x21 => expOf neg (fxMul f fxLn2)
  | 0x22 => fromFix (logFix m e) 0
  | 0x23 => fromFix (logFix m e * fxOne / fxLn2) 0
  | 0x24 => (vdiv (.fin false 1 0) x).1
  | 0x25 => vrecip (vsqrt x).1
  | 0x28 => if tiny then x else fromFix (trigSeries 100 1 (modPi f) (fxMul (modPi f) (modPi f))) 0
  | 0x29 => if tiny then .fin false 1 0 else fromFix (trigSeries 100 0 fxOne (fxMul (modPi f) (modPi f))) 0
  | 0x2A =>
    if tiny then x
    else if 64 ≤ m * 2 ^ e.toNat / 2 ^ (-e).toNat then .fin neg 1 0
    else
      let y := expVal (2 * f)
      (vdiv (vadd y (.fin true 1 0)).1 (vplus1 y)).1
  | 0x2B =>
    if neg then (let y := expOf true f; (vdiv y (vplus1 y)).1)
    else vrecip (vplus1 (expOf true (-f)))
  | _ =>
    if tiny then (vdiv (fromFix (2 * f) 0) (vsqrt (fromFix fxPi 0)).1).1
    else if 8 ≤ m * 2 ^ e.toNat / 2 ^ (-e).toNat then .fin neg 1 0
    else (vdiv (fromFix (2 * erfSeries 450 0 f (fxMul f f)) 0) (vsqrt (fromFix fxPi 0)).1).1

/-- Bound in ulp of a micro-op in FP32 or FP64 (Table 5.11). -/
def transBound (op : Nat) (wide : Bool) : Nat :=
  if op = 0x24 ∨ op = 0x25 then 1
  else if 0x2A ≤ op then (if wide then 2 else 3)
  else if wide then 1 else 2

/-- The magnitude of an encoding without its sign, an all-ones exponent read as the next binade. -/
def Fmt.mag (f : Fmt) (b : Nat) : Val :=
  let ex := b / 2 ^ f.fb
  let fr := b % 2 ^ f.fb
  if ex = 0 then .fin false fr (1 - (f.bias : Int) - f.fb) else .fin false (2 ^ f.fb + fr) ((ex : Int) - f.bias - f.fb)

/-- Encodings, without sign, no further than `n` ulp from a magnitude. -/
def Fmt.near (f : Fmt) (n m : Nat) (e : Int) : List Nat :=
  let r := (f.round .rne false false m e).1
  let q : Int := max (1 - (f.bias : Int)) (vlog2 m e) - f.fb
  ((List.range (2 * n + 3)).map (fun d => r + d - (n + 1))).filter (fun c =>
    decide (c ≤ f.infEnc false) && decide (r ≤ c + n + 1) &&
    decide (vcmp (vadd (f.mag c) (.fin true m e)).1.abs (.fin false n q) ≤ 0))

/-- Flags of a result with its sign off: inexact always, overflow at infinity, underflow below the smallest normal (R53, R138). -/
def Fmt.transFlags (f : Fmt) (c : Nat) : Nat :=
  flOr flNX (flOr (flag (decide (c = f.infEnc false)) flOF) (flag (decide (c < 2 ^ f.fb)) flUF))

/-- A T-unit micro-op in FP32 or FP64: special arguments under Table 5.12, others within the bound (R137, R138). -/
def Fmt.transIn (f : Fmt) (wide : Bool) (op b : Nat) : Nat × Nat :=
  let one := (f.encode (.fin false 1 0)).1
  let nan := (f.nanEnc, flNV)
  let pick := fun (l : List Nat) => nth 0 l (Free.within op (b2n wide) b % l.length)
  match f.decode b with
  | .nan s => (f.nanEnc, flag s flNV)
  | .inf n =>
    (match op with
     | 0x20 | 0x21 => (if n then 0 else f.infEnc false, 0)
     | 0x22 | 0x23 => if n then nan else (f.infEnc false, 0)
     | 0x24 => (f.signBit n, 0)
     | 0x25 => if n then nan else (0, 0)
     | 0x28 | 0x29 => nan
     | 0x2B => (if n then 0 else one, 0)
     | _ => (one + f.signBit n, 0))
  | .fin n m e =>
    if m = 0 then
      (match op with
       | 0x20 | 0x21 | 0x29 => (one, 0)
       | 0x22 | 0x23 => (f.infEnc true, flDZ)
       | 0x24 | 0x25 => (f.infEnc n, flDZ)
       | 0x2B => ((f.encode (.fin false 1 (-1))).1, 0)
       | _ => (f.signBit n, 0))
    else if n && decide (op = 0x22 ∨ op = 0x23 ∨ op = 0x25) then nan
    else if decide (op = 0x22 ∨ op = 0x23) && decide (vcmp (.fin n m e) (.fin false 1 0) = 0) then (0, 0)
    else if decide (op = 0x28 ∨ op = 0x29) && decide (0 < vcmp (.fin false m e) (.fin false 1 (if wide then 40 else 20))) then
      (let r := Free.within op (b2n wide) b
       (r / 2 % (one + 1) + f.signBit (r % 2 == 1), flNX))
    else
      match transExact op n m e with
      | .fin neg m e =>
        (match f.near (transBound op wide) m e with
         | [] => (let r := f.round .rne false neg m e; (r.1, flOr r.2 flNX))
         | l => (pick l + f.signBit neg, f.transFlags (pick l)))
      | v => f.encode v

/-- A T-unit micro-op of a type other than SQRT and DIV: BF16 and FP16 are computed in FP32 and rounded once (R137). -/
def trans (op ty b : Nat) : Nat × Nat :=
  match ty with
  | 2 => fFP32.transIn false op b
  | 3 => fFP64.transIn true op b
  | _ =>
    let x := cvt ty 2 .rne false b
    let r := fFP32.transIn false op x.1
    let y := cvt 2 ty .rne false r.1
    (y.1, flOr x.2 (flOr r.2 y.2))

end Sys2Proof.Machine
end

