-- ==== Sys2Proof/Machine/Element.lean ====
section
/-! DEFINITION. The element engine: element programs, streams, scans, format V and the element queue (chapter 5: R118–R142). -/

namespace Sys2Proof.Machine

/-- Fields of a micro-op (Table 5.4). -/
def mopOp (m : W64) : Nat := wfld m 0 6
def mopTy (m : W64) : Nat := wfld m 6 4
def mopDst (m : W64) : Nat := wfld m 10 5
def mopRe (m : W64) : Bool := wfld m 33 1 == 1
def mopSg (m : W64) : Bool := wfld m 42 1 == 1

/-- SCAN micro-ops. -/
def isScan (op : Nat) : Bool := decide (0x30 ≤ op) && decide (op ≤ 0x35)

/-- Types a micro-op accepts; none listed for a code that is no micro-op (Table 5.6). -/
def mopTypes (op : Nat) : List Nat :=
  let add := [0, 1, 2, 3, 12, 13]
  let any := [0, 1, 2, 3, 4, 5, 11, 12, 13, 14]
  if op = 0 ∨ op = 0x0A ∨ op = 0x0C then any
  else if op ≤ 0x0D then add
  else if op ≤ 0x16 then [12, 13]
  else if (0x18 ≤ op ∧ op ≤ 0x1A) ∨ (0x20 ≤ op ∧ op ≤ 0x2C) then [0, 1, 2, 3]
  else if 0x30 ≤ op ∧ op ≤ 0x32 then add
  else if 0x33 ≤ op ∧ op ≤ 0x35 then [12, 13]
  else []

/-- Number of operands A, B, C that a micro-op reads (Table 5.6). -/
def mopArgs (op : Nat) : Nat :=
  if op = 4 ∨ op = 5 ∨ op = 0x0A ∨ op = 0x0D then 3
  else if op = 0 ∨ op = 6 ∨ op = 7 ∨ op = 0x0C ∨ op = 0x13 then 1
  else if op ≤ 0x16 ∨ op = 0x27 then 2
  else 1

/-- Operand codes a micro-op reads, the segment flag of a segmented scan last (Tables 5.4, 5.5). -/
def mopReads (m : W64) : List Nat :=
  [wfld m 15 5, wfld m 20 5, wfld m 25 5].take (mopArgs (mopOp m)) ++
    (if isScan (mopOp m) && mopSg m then [wfld m 37 5] else [])

/-- Type of the value a micro-op produces (R135). -/
def mopResult (m : W64) : Nat := if mopOp m = 0x0B then 12 else mopTy m

/-- The pairs CVT accepts: floating-point formats and integers among each other, DS32 with FP32 and FP64, a format with itself (R130). -/
def cvtPair (src dst : Nat) : Bool :=
  let plain := [0, 1, 2, 3, 4, 5, 11, 12, 13]
  (plain.contains src && plain.contains dst) || (src == 14 && [2, 3, 14].contains dst) || (dst == 14 && [2, 3].contains src)

/-- Fields of an image (Table 5.3). -/
def imgOps (img : List W64) : List W64 := (img.drop 2).take (wfld (nth 0 img 0) 0 6)
def imgIn (img : List W64) : Nat := wfld (nth 0 img 0) 6 4
def imgOut (img : List W64) : Nat := wfld (nth 0 img 0) 10 2
def imgK (img : List W64) (j : Nat) : Nat := (nth 0 img (34 + j)).toNat

/-- The checks of one micro-op, given the temporaries and outputs that earlier ones write (R130). -/
def mopOk (img : List W64) (before : List W64) (m : W64) : Bool :=
  let op := mopOp m
  let ty := mopTy m
  let writer := fun (d : Nat) => (before.filter (fun x => mopDst x == d)).getLast?
  (mopTypes op).contains ty
  && !((op == 0x0C || op == 0x1A) && wfld m 30 2 == 3)
  && !(op == 0x0B && wfld m 34 3 == 7)
  && !(op == 0x0C && !(cvtPair (wfld m 20 4) ty))
  && decide (mopDst m ≤ 17)
  && !(isScan op && mopRe m)
  && (mopReads m).all (fun r =>
      if r < 16 then (match writer r with | some x => mopRe m || !(mopRe x) | none => false)
      else if r < 20 then bitOf (imgIn img) (r - 16)
      else !(r == 29 && fmtBits ty == 64))
  && (decide (mopDst m < 16) || (bitOf (imgOut img) (mopDst m - 16) && (writer (mopDst m)).isNone))

/-- An image is not malformed (R130). -/
def programOk (img : List W64) : Bool :=
  let n := wfld (nth 0 img 0) 0 6
  let ops := imgOps img
  decide (1 ≤ n) && decide (n ≤ 32)
  && (List.range n).all (fun k => mopOk img (ops.take k) (nth 0 ops k))
  && (bitsOf 2 (imgOut img)).all (fun k => ops.any (fun m => mopDst m == 16 + k))

/-- Rounds to an integral value: FLOOR 0x18, CEIL 0x19, RINT 0x1A (Table 5.6). -/
def Fmt.integral (f : Fmt) (op : Nat) (mode : Rm) (a : Nat) : Nat × Nat :=
  match f.decode a with
  | .nan s => (f.nanEnc, flag s flNV)
  | .inf _ => (a, 0)
  | .fin n m e =>
    let r := roundAt (if op = 0x1A then mode else .rtz) m e 0
    let up := r.2 && ((op == 0x18 && n) || (op == 0x19 && !n))
    ((f.round .rne false n (r.1 + b2n up) 0).1, flag (op == 0x1A && r.2) flNX)

/-- Integer micro-ops (R50, R131; Table 5.6). -/
def mopInt (op ty sub a b c : Nat) : Nat × Nat :=
  let n := intBits ty
  let x := signed n a
  let y := signed n b
  let z := signed n c
  let w := fun (v : Int) => (wrapTo n v, 0)
  let sat := fun (v : Int) => let r := satS n v; (wrapTo n r.1, flag r.2 (flOr flOF flNX))
  match op with
  | 0x01 | 0x30 => w (x + y)
  | 0x02 => w (x - y)
  | 0x03 => w (x * y)
  | 0x04 => w (x * y + z)
  | 0x05 => w (x * y - z)
  | 0x06 => w (-x)
  | 0x07 => if x = -(2 ^ (n - 1) : Nat) then ((Free.absMin ty).toNat % 2 ^ n, 0) else w x.natAbs
  | 0x08 | 0x32 => (if x ≤ y then a else b, 0)
  | 0x09 | 0x31 => (if x ≤ y then b else a, 0)
  | 0x0B => (b2n (cmpHolds sub (x - y)), 0)
  | 0x0D => w (min (max x y) z)
  | 0x0E => sat (x + y)
  | 0x0F => sat (x - y)
  | 0x10 | 0x33 => (a &&& b, 0)
  | 0x11 | 0x34 => (a ||| b, 0)
  | 0x12 | 0x35 => (a ^^^ b, 0)
  | 0x13 => (2 ^ n - 1 - a, 0)
  | 0x14 => (a * 2 ^ (b % n) % 2 ^ n, 0)
  | 0x15 => (a / 2 ^ (b % n), 0)
  | 0x16 => w (x / (2 ^ (b % n) : Nat))
  | _ => (a, 0)

/-- Floating-point micro-ops (R44, R51, R52, R137; Table 5.6). NEG and ABS only change the sign, of a NaN too, and raise no flag: Table 5.6
calls them sign operations, which R39's arithmetic operations are read not to include (DEDUCED, log entry 64). -/
def mopFloat (f : Fmt) (op ty sub : Nat) (mode : Rm) (a b c : Nat) : Nat × Nat :=
  let x := f.decode a
  let y := f.decode b
  let z := f.decode c
  let sb := f.signBit true
  match op with
  | 0x01 | 0x30 => f.arith (vadd x y)
  | 0x02 => f.arith (vadd x y.negate)
  | 0x03 => f.arith (vmul x y)
  | 0x04 => f.arith (vfma x y z)
  | 0x05 => f.arith (vfma x y z.negate)
  | 0x06 => (a ^^^ sb, 0)
  | 0x07 => (a % sb, 0)
  | 0x08 | 0x32 => f.minMax false a b
  | 0x09 | 0x31 => f.minMax true a b
  | 0x0B =>
    if sub = 6 then (b2n (x.isNan || y.isNan), flag (x.isSnan || y.isSnan) flNV)
    else (let r := fcmp sub x y; (b2n r.1, r.2))
  | 0x0D => (let r := f.minMax true a b; let q := f.minMax false r.1 c; (q.1, flOr r.2 q.2))
  | 0x18 | 0x19 | 0x1A => f.integral op mode a
  | 0x26 => f.arith (vsqrt x)
  | 0x27 => f.arith (vdiv x y)
  | _ => trans op ty a

/-- One micro-op on one element: result and flags (R128; Table 5.6). -/
def mopEval (m : W64) (mode : Rm) (a b c : Nat) : Nat × Nat :=
  let op := mopOp m
  let ty := mopTy m
  if op = 0 then (a, 0)
  else if op = 0x0A then (if c % 2 ^ 32 ≠ 0 then a else b, 0)
  else if op = 0x0C then cvt (wfld m 20 4) ty mode (wfld m 32 1 == 1) a
  else if isInt ty then mopInt op ty (wfld m 34 3) a b c
  else match fmtOf ty with
    | some f => mopFloat f op ty (wfld m 34 3) mode a b c
    | none => (a, 0)

/-- The identity of a scan (R131). -/
def scanId (op ty : Nat) : Nat :=
  if op = 0x33 then 2 ^ fmtBits ty - 1
  else if op = 0x31 ∨ op = 0x32 then
    (match fmtOf ty with
     | some f => f.infEnc (op == 0x31)
     | none => if op = 0x31 then 2 ^ (intBits ty - 1) else 2 ^ (intBits ty - 1) - 1)
  else 0

/-- One combining step of a scan, uncorrectable data passing on (R131, R142). -/
def scanStep (m : W64) (x y : Option Nat) : Option Nat × Nat :=
  match x, y with
  | some a, some b =>
    let r := mopEval m .rne a b 0
    (some r.1, r.2)
  | _, _ => (none, 0)

/-- The columns lo to hi − 1 combined in the fixed tree of a floating-point scan, integers from left to right (R132). -/
def scanTree (m : W64) (xs : List (Option Nat)) : Nat → Nat → Nat → Option Nat × Nat
  | 0, lo, _ => (nth none xs lo, 0)
  | k + 1, lo, hi =>
    if hi ≤ lo + 1 then (nth none xs lo, 0)
    else
      let mid := if isInt (mopTy m) then hi - 1 else lo + 1 + Free.scanSplit lo hi % (hi - lo - 1)
      let x := scanTree m xs k lo mid
      let y := scanTree m xs k mid hi
      let r := scanStep m x.1 y.1
      (r.1, flOr (flOr x.2 y.2) r.2)

/-- A scan along a row: value of each column and flags; `seg` marks the columns that start a segment (R131). -/
def scanRow (m : W64) (xs seg : List (Option Nat)) : List (Option Nat) × Nat :=
  let starts := fun (c : Nat) => c == 0 || (mopSg m && (match nth none seg c with | some v => v % 2 ^ 32 != 0 | none => false))
  let unsure := fun (c : Nat) => mopSg m && (nth none seg c).isNone
  let one := fun (c : Nat) =>
    let b := (((List.range (c + 1)).filter starts).getLast?).getD 0
    let bad := (List.range (c + 1 - b)).any (fun k => unsure (b + k))
    let r :=
      if wfld m 34 1 = 0 then scanTree m xs (c + 1) b (c + 1)
      else if c = b then (some (scanId (mopOp m) (mopTy m)), 0)
      else
        let t := scanTree m xs (c + 1) b c
        let u := scanStep m (some (scanId (mopOp m) (mopTy m))) t.1
        (u.1, flOr t.2 u.2)
    if bad then (none, 0) else r
  let l := (List.range xs.length).map one
  (l.map (·.1), (l.map (·.2)).foldl flOr 0)

/-- A stream of a call block (Tables 5.7–5.9). -/
structure EStream where
  out   : Bool
  /-- DETAIL[15:8]: 0–3 inputs, 4–5 outputs. -/
  ix    : Nat
  off   : Nat
  wreg  : Nat
  inw   : Bool
  fmt   : Nat
  en    : Bool
  bcast : Bool
  wid   : Bool
  rnd   : Nat
  sat   : Bool
  pitch : Nat
  soff  : Nat
  deriving DecidableEq, Repr

/-- A stream from its words. -/
def eStream (out : Bool) (ix w0 w1 w2 : Nat) : EStream :=
  { out := out, ix := ix, off := fld w0 0 21, wreg := fld w0 21 6, inw := bitOf w0 31, fmt := fld w1 0 4, en := bitOf w1 4,
    bcast := bitOf w1 5, wid := bitOf w1 6, rnd := fld w1 7 2, sat := bitOf w1 9, pitch := fld w1 12 20, soff := fld w2 0 21 }

/-- The streams of a call block that a program uses, inputs first. -/
def eStreams (img : List W64) (block : List W32) : List EStream :=
  let u := fun (k : Nat) => (nth 0 block k).toNat
  (bitsOf 4 (imgIn img)).map (fun j => eStream false j (u (1 + 2 * j)) (u (2 + 2 * j)) 0)
    ++ (bitsOf 2 (imgOut img)).map (fun k => eStream true (4 + k) (u (9 + 3 * k)) (u (10 + 3 * k)) (u (11 + 3 * k)))

/-- COLS and ROWS of a call block. -/
def eCols (block : List W32) : Nat := (nth 0 block 0).toNat % 65536
def eRows (block : List W32) : Nat := (nth 0 block 0).toNat / 65536

/-- Bytes of a row of a stream. -/
def EStream.rowLen (x : EStream) (cols : Nat) : Nat := if x.bcast then (fmtBits x.fmt + 7) / 8 else (cols * fmtBits x.fmt + 7) / 8

/-- Local-store bytes of a stream's data, and of its scales. -/
def EStream.regions (x : EStream) (rows cols : Nat) : List Region2 :=
  (if x.inw then [] else [{ start := x.off, rows := rows, pitch := x.pitch, len := x.rowLen cols }])
    ++ (if x.out && isMx x.fmt then [{ start := x.soff, rows := 1, pitch := 0, len := rows * cols / 32 }] else [])

/-- The element-engine conditions of Table 5.10 on a stream: DETAIL[7:0], tested in rising order. -/
def EStream.breaks (x : EStream) (rows cols code : Nat) : Bool :=
  match code with
  | 2 =>
    x.en && (if x.out then !(decide (x.fmt ≤ 13)) || x.rnd == 3 || (isMx x.fmt && (cols % 32 != 0 || x.bcast))
      else !([0, 1, 2, 3, 4, 5, 11, 12, 13].contains x.fmt))
  | 3 => x.en && x.inw && (x.bcast || decide (64 < x.wreg + rows) || decide (4096 < cols * fmtBits x.fmt))
  | _ => !x.en

/-- The checks of EPRUN after those of its fields: cause and DETAIL (R136, Table 5.10). -/
def eprunTrap (img : Option (List W64)) (ps : Nat) (block : List W32) (win : Nat × Nat) : Option (Nat × Nat) :=
  match img with
  | none => some (0x0C, 1 + ps * 256)
  | some img =>
    let rows := eRows block
    let cols := eCols block
    let l := eStreams img block
    let first := fun (code : Nat) => (l.find? (fun x => x.breaks rows cols code)).map (fun x => code + x.ix * 256)
    let re1 := fun (x : EStream) => x.out && !x.bcast && (imgOps img).any (fun m => mopRe m && mopDst m == 12 + x.ix)
    let unit := fun (x : EStream) => if isMx x.fmt then 4 * fmtBits x.fmt else fmtBits x.fmt / 8
    let mis := fun (x : EStream) =>
      if x.inw then none
      else if x.off % unit x ≠ 0 then some x.off
      else if x.pitch % unit x ≠ 0 then some x.pitch
      else none
    let conds := [first 2, first 3, first 4, (if rows = 0 ∨ cols = 0 then some 5 else none),
      ((l.find? re1).map (fun x => 6 + x.ix * 256))]
    match (conds.filterMap id).head? with
    | some d => some (0x0C, d)
    | none =>
      match (l.filterMap mis).head? with
      | some d => some (4, d)
      | none => (least ((l.flatMap (fun x => x.regions rows cols)).filterMap (fun g => g.outside win))).map (fun d => (3, d))

/-- Width of an input as the program sees it (R135). -/
def EStream.inBits (x : EStream) : Nat :=
  if x.fmt = 11 ∨ x.fmt = 4 ∨ x.fmt = 5 then 32 else if x.wid && decide (x.fmt ≤ 1) then 32 else fmtBits x.fmt

/-- An input element as the program sees it, with the flags of its widening (R135, R139). -/
def EStream.deliver (x : EStream) (b : Nat) : Nat × Nat :=
  if x.fmt = 11 then (wrapTo 32 (signed 8 b), 0)
  else if x.fmt = 4 ∨ x.fmt = 5 then cvt x.fmt 2 .rne false b
  else if x.wid && decide (x.fmt ≤ 1) then cvt x.fmt 2 .rne false b
  else (b, 0)

/-- A value in the low bits of 64, the bits above it unspecified (R128). -/
def highOf (draw op el bits v : Nat) : Nat := v % 2 ^ bits + 2 ^ bits * ((Free.tempHigh draw op el).toNat % 2 ^ (64 - bits))

/-- An output lies exactly on an input: same place, pitch, format and BCAST setting (R124). -/
def EStream.coincides (x y : EStream) : Bool :=
  x.inw == y.inw && x.fmt == y.fmt && x.bcast == y.bcast && (if x.inw then x.wreg == y.wreg else x.off == y.off && x.pitch == y.pitch)

/-- Some row of a region shares a byte with `n` bytes from `a`. -/
def Region2.hits (g : Region2) (a n : Nat) : Bool :=
  (List.range g.rows).any (fun r => decide (a < g.start + r * g.pitch + g.len) && decide (g.start + r * g.pitch < a + n))

/-- `n` bytes from `a`, of w registers or of local store, are also bytes of some of these streams that does not coincide with this one
(R124). -/
def EStream.overlaps (x : EStream) (l : List EStream) (rows cols : Nat) (inW : Bool) (a n : Nat) : Bool :=
  l.any (fun y => !(x.coincides y) &&
    (if inW then y.inw && ({ start := y.wreg * 512, rows := rows, pitch := 512, len := y.rowLen cols } : Region2).hits a n
     else (y.regions rows cols).any (fun g => g.hits a n)))

/-- A row of an input stream and its flags; a BCAST stream gives every column its one element (R134, R135, R142). Elements are read from
`ls` and `w`, but one that an output overlaps may be read as the rows before have left it, from `now` (R124). -/
def EStream.readRow (x : EStream) (ls w : Store) (now : Store × Store) (olap : Bool → Nat → Nat → Bool) (draw r cols : Nat) :
    List (Option Nat) × Nat :=
  let n := fmtBits x.fmt / 8
  let base := if x.inw then (x.wreg + r) * 512 else x.off + r * x.pitch
  let one := fun (c : Nat) =>
    let a := base + c * n
    let st := if olap x.inw a n && !(Free.keepsOld draw x.ix (r * 65536 + c)) then (if x.inw then now.2 else now.1) else (if x.inw then w else ls)
    if st.poisoned a n then (none, 0)
    else
      let d := x.deliver (st.readNat a n)
      (some (highOf draw (32 + x.ix) (r * 65536 + c) x.inBits d.1), d.2)
  if x.bcast then (let e := one 0; (List.replicate cols e.1, e.2))
  else (let l := (List.range cols).map one; (l.map (·.1), (l.map (·.2)).foldl flOr 0))

/-- What a row's micro-ops have produced so far: temporaries and outputs, each a list by column. -/
structure ERow where
  temps : Sparse (List (Option Nat))
  outs  : Sparse (List (Option Nat))
  flags : Nat
  deriving DecidableEq, Repr

/-- The operand a code names, by column (Table 5.5). -/
def ERow.operand (e : ERow) (img : List W64) (ins : Sparse (List (Option Nat))) (q0 q1 : Nat) (draw r cols : Nat) (wide : Bool)
    (code : Nat) : List (Option Nat) :=
  let all := fun (v : Nat) => List.replicate cols (some v)
  if code < 16 then alGet [] e.temps code
  else if code < 20 then alGet [] ins (code - 16)
  else if code < 28 then all (imgK img (code - 20))
  else if code = 28 then all (if wide then q0 + q1 * 2 ^ 32 else q0)
  else if code = 29 then all q1
  else if code = 30 then (List.range cols).map (fun c => some (highOf draw 36 (r * 65536 + c) 32 c))
  else all 0

/-- Applies one micro-op to every column, or as a row-end micro-op to the last (R129). -/
def ERow.apply (e : ERow) (img : List W64) (ins : Sparse (List (Option Nat))) (q0 q1 draw r cols k : Nat) : ERow :=
  let m := nth 0 (imgOps img) k
  let op := mopOp m
  let ty := mopTy m
  let wide := fmtBits ty == 64
  let width := fun (j : Nat) =>
    if op = 0x0C then fmtBits (wfld m 20 4) else if op = 0x0A ∧ j = 2 then 64 else if isScan op ∧ j = 1 then 64 else fmtBits ty
  let args := (List.range (mopReads m).length).map (fun j =>
    let l := (e.operand img ins q0 q1 draw r cols wide (nth 0 (mopReads m) j)).map (fun x => x.map (· % 2 ^ width j))
    if mopRe m then [(l.getLast?).getD none] else l)
  let el := fun (c : Nat) => r * 65536 + (if mopRe m then cols - 1 else c)
  let res : List (Option Nat) × Nat :=
    if isScan op then
      scanRow m (nth [] args 0) (if mopSg m then nth [] args 1 else (nth [] args 0).map (fun _ => some 0))
    else
      let l := (List.range (if mopRe m then 1 else cols)).map (fun c =>
        let a := fun (j : Nat) => nth none (nth [] args j) c
        if (List.range args.length).any (fun j => (a j).isNone) then (none, (Free.badFlags draw).toNat)
        else
          let mode := (rmOf (wfld m 30 2) (Free.randIn draw k (el c)).toNat).getD .rne
          let v := mopEval m mode ((a 0).getD 0) ((a 1).getD 0) ((a 2).getD 0)
          (some v.1, v.2))
      (l.map (·.1), (l.map (·.2)).foldl flOr 0)
  let n := fmtBits (mopResult m)
  let vals := (List.range res.1.length).map (fun c => (nth none res.1 c).map (highOf draw k (el c) n))
  let e1 := { e with flags := flOr e.flags res.2 }
  if mopDst m < 16 then { e1 with temps := alPut e1.temps (mopDst m) vals }
  else { e1 with outs := alPut e1.outs (mopDst m - 16) vals }

/-- A row's micro-ops: those of every element in program order, then the row-end ones (R129). -/
def eRowRun (img : List W64) (ins : Sparse (List (Option Nat))) (q0 q1 draw r cols flags : Nat) : ERow :=
  let n := (imgOps img).length
  let at_ := fun (re : Bool) => (List.range n).filter (fun k => mopRe (nth 0 (imgOps img) k) == re)
  (at_ false ++ at_ true).foldl (fun (e : ERow) k => e.apply img ins q0 q1 draw r cols k) { temps := [], outs := [], flags := flags }

/-- A row of an output stream: data bytes, scale bytes, flags (R42, R129, R135, R142). -/
def EStream.emit (x : EStream) (ty draw r cols : Nat) (vals : List (Option Nat)) : List Byte × List Byte × Nat :=
  let one := x.bcast || vals.length == 1
  let l := if one then [(vals.getLast?).getD none] else vals
  let mode := fun (c : Nat) => (rmOf x.rnd (Free.randIn draw (32 + x.ix) (r * 65536 + c)).toNat).getD .rne
  if isMx x.fmt then
    let blocks := (List.range (cols / 32)).map (fun j =>
      mxBlock x.fmt (fun c => mode (32 * j + c)) (((l.drop (32 * j)).take 32).map (fun v => match v with
        | some b => valOf ty (b % 2 ^ fmtBits ty)
        | none => Val.nan false)))
    let codes := blocks.flatMap (fun b => b.2.1)
    let bits := (List.range codes.length).foldl (fun a k => a + nth 0 codes k * 2 ^ (k * fmtBits x.fmt)) 0
    (leBytes (x.rowLen cols) bits, blocks.map (fun b => BitVec.ofNat 8 b.1), (blocks.map (fun b => b.2.2)).foldl flOr 0)
  else
    let es := (List.range l.length).map (fun c => match nth none l c with
      | some b => cvt ty x.fmt (mode c) x.sat (b % 2 ^ fmtBits ty)
      | none => (badElem x.fmt, 0))
    (es.flatMap (fun e => leBytes (fmtBits x.fmt / 8) e.1), [], (es.map (·.2)).foldl flOr 0)

/-- Type of the value written to an output stream (R135). -/
def outType (img : List W64) (k : Nat) : Nat := (((imgOps img).find? (fun m => mopDst m == 16 + k)).map mopResult).getD 2

/-- The bytes of a row with each element of `n` bits that overlaps an input new, or left as it was (R124). -/
def rowLeft (keep : Nat → Bool) (n : Nat) (old new : List Byte) : List Byte :=
  if (List.range (8 * new.length / n)).any keep then
    let o := leNat old
    let v := leNat new
    leBytes new.length ((List.range (8 * new.length / n)).foldl (fun a k => a + fld (if keep k then o else v) (k * n) n * 2 ^ (k * n)) 0)
  else new

/-- Writes a row of an output to its store; an element that overlaps an input may be left with its old value (R124). -/
def EStream.putRow (x : EStream) (old : Store × Store) (olap : Bool → Nat → Nat → Bool) (draw r cols : Nat) (b : List Byte × List Byte × Nat)
    (st : Store × Store) : Store × Store :=
  let n := fmtBits x.fmt
  let base := if x.inw then (x.wreg + r) * 512 else x.off + r * x.pitch
  let keep := fun (k : Nat) => olap x.inw (base + k * n / 8) (max 1 (n / 8)) && Free.keepsOld draw (64 + x.ix) (r * 65536 + k)
  let l := rowLeft keep n ((if x.inw then old.2 else old.1).readBytes base b.1.length) b.1
  let ls1 := if x.inw then st.1 else st.1.writeBytes base l
  let w1 := if x.inw then st.2.writeBytes base l else st.2
  let sc := x.soff + r * (cols / 32)
  let keepS := fun (k : Nat) => olap false (sc + k) 1 && Free.keepsOld draw (96 + x.ix) (r * 65536 + k)
  (if isMx x.fmt then ls1.writeBytes sc (rowLeft keepS 8 (old.1.readBytes sc b.2.1.length) b.2.1) else ls1, w1)

/-- An EPRUN: local store and w registers after it, and its flags. Inputs are read from `seen`, local store as it stood, and before outputs
are written (R124, R129, R142); with an uncorrectable program slot every output element is written as one computed from an uncorrectable
sector. -/
def eprun (img : List W64) (badSlot : Bool) (e : EInstr) (seen ls w : Store) (draw : Nat) : Store × Store × Nat :=
  let rows := eRows e.block
  let cols := eCols e.block
  let l := eStreams img e.block
  let ins := l.filter (fun x => !x.out)
  let outs := l.filter (fun x => x.out)
  (List.range rows).foldl (fun (acc : Store × Store × Nat) r =>
    let rd := ins.map (fun x => (x.ix, x.readRow seen w (acc.1, acc.2.1) (x.overlaps outs rows cols) draw r cols))
    let fl := (rd.map (fun x => x.2.2)).foldl flOr 0
    let row := eRowRun img (rd.map (fun x => (x.1, x.2.1))) e.q0.toNat e.q1.toNat draw r cols fl
    outs.foldl (fun (acc : Store × Store × Nat) x =>
      let vals := alGet [] row.outs (x.ix - 4)
      let b := x.emit (outType img (x.ix - 4)) draw r cols (if badSlot then vals.map (fun _ => none) else vals)
      let st := x.putRow (ls, w) (x.overlaps ins rows cols) draw r cols b (acc.1, acc.2.1)
      (st.1, st.2, flOr acc.2.2 b.2.2)) (acc.1, acc.2.1, flOr acc.2.2 row.flags)) (ls, w, 0)

/-- An element context of a tile. -/
def Tile.ectx (t : Tile) (k : Nat) : ECtx := alGet {} t.ctx k

/-- A format V instruction other than VWAIT enters the queue once it has a free entry (R121, R122). -/
def State.elementIssue (s : State) (c : CrewId) (w : W64) (op : Nat) (check : State → Issue → EInstr → Option (Nat × Nat)) :
    Host.Outcome State Fault Refusal :=
  .next (s.issueIf c w (0x300 + op) (fun s _ => decide ((s.tile c.die c.tile).eq.length < 16)) (fun s i =>
    let uq := wfld w 26 6
    let e : EInstr :=
      { slot := c.slot, ctx := i.v.stand, w := w, block := (List.range 16).map (fun k => i.v.getU (16 * wfld w 24 2 + k)),
        q0 := i.v.getU uq, q1 := i.v.getU (uq + 1), lanes := i.part,
        put := (List.range 32).map (fun l => i.v.getG l (wfld w 32 8)) }
    match check s i e with
    | some (cause, d) => s.trap i i.part cause (BitVec.ofNat 64 d)
    | none =>
      let t := s.tile c.die c.tile
      (s.setTile c.die c.tile { t with eq := t.eq ++ [e] }).done i { i.v with element := i.v.element + 1 }))

/-- The image of a program slot in a crew's launch. -/
def State.imageOf (s : State) (c : CrewId) (ps : Nat) : Option (List W64) := (s.launchOf c).bind (fun (l : Launch) => l.progs[ps]?)

/-- EPRUN: the checks of R136, then the queue (R129, R136). -/
def execEprun (c : CrewId) (w : W64) (s : State) : Host.Outcome State Fault Refusal :=
  s.elementIssue c w 0 (fun s i e => eprunTrap (s.imageOf c (wfld w 16 6)) (wfld w 16 6) e.block (s.windowOf c i.v))
/-- VGET (R120, R122). -/
def execVget (c : CrewId) (w : W64) (s : State) : Host.Outcome State Fault Refusal := s.elementIssue c w 1 (fun _ _ _ => none)
/-- VPUT (R120). -/
def execVput (c : CrewId) (w : W64) (s : State) : Host.Outcome State Fault Refusal := s.elementIssue c w 2 (fun _ _ _ => none)
/-- VFLAGS (R120, R139). -/
def execVflags (c : CrewId) (w : W64) (s : State) : Host.Outcome State Fault Refusal := s.elementIssue c w 3 (fun _ _ _ => none)

/-- VWAIT: stalls the crew until at most CNT element instructions are outstanding (R121). -/
def execVwait (c : CrewId) (w : W64) (s : State) : Host.Outcome State Fault Refusal :=
  .next (s.issueIf c w 0x304 (fun _ v => v.part w == 0 || decide (v.element ≤ wfld w 41 4)) (fun s i => s.done i i.v))

/-- ELEMENT_START: the engine takes the head of its strict queue (R122). -/
def execElementStart (die tile : Nat) (s : State) : Host.Outcome State Fault Refusal :=
  when_ (s.tileRuns die) (fun s =>
    let t := s.tile die tile
    match t.ex, t.eq with
    | none, e :: r => s.setTile die tile { t with ex := some e, exSaw := some [], eq := r }
    | _, _ => s) s

/-- Corrected and uncorrectable sectors an EPRUN reads, of local store and of its context's w registers, each once (R124, R142). -/
def eprunErrs (img : List W64) (e : EInstr) (ls w : Store) : (Nat × Nat) × (Nat × Nat) :=
  let rows := eRows e.block
  let cols := eCols e.block
  let ins := (eStreams img e.block).filter (fun x => !x.out)
  let a := regionErrs ls (ins.flatMap (fun x => x.regions rows cols))
  let b := regionErrs w ((ins.filter (fun x => x.inw)).map (fun x =>
    { start := x.wreg * 512, rows := rows, pitch := 512, len := x.rowLen cols }))
  (a, b)

/-- Ends an element instruction: its crew has one fewer outstanding (R121). -/
def State.elementDone (s : State) (die tile : Nat) (e : EInstr) : State :=
  let t := s.tile die tile
  s.setTile die tile { t with ex := none, exSaw := none, crews := alUpd t.crews e.slot (fun v => { v with element := v.element - 1 }) }

/-- PID of an image (Table 5.3). -/
def imgPid (img : List W64) : Nat := wfld (nth 0 img 0) 16 16

/-- Tally counts an EPRUN of the program a PID names. Table 5.3 says that Tally reports the PID with the program's counts and no table of
chapter 18 lists such a count (DESIGN CHOICE, log entry 66). -/
def State.countProgram (s : State) (pid : Nat) : State :=
  if 1 ≤ s.plat.stage then
    { s with tally := { s.tally with programs := alMod 0 s.tally.programs pid (fun v => BitVec.ofNat 64 (satAdd (2 ^ 64 - 1) v.toNat 1)) } }
  else s

/-- EPRUN's effect, its flags ORed into the context; a program slot found uncorrectable is reloaded from the launch's table (R123, R139,
R142). -/
def State.eprunEnd (s0 : State) (die tile : Nat) (e : EInstr) (bad : Bool) : State :=
  let s := s0.accstStep die tile
  let t := s.tile die tile
  let ps := wfld e.w 16 6
  let img := alGet [] t.progs ps
  let x := t.ectx e.ctx
  let seen := t.seen t.exSaw s.fresh
  let r := eprun img bad e seen t.ls x.w s.fresh
  let er := eprunErrs img e seen x.w
  let x1 : ECtx := { w := r.2.1, flags := x.flags ||| BitVec.ofNat 5 r.2.2 }
  let table := ((t.launch.bind (fun n => alFind s.launches n)).map (·.progs)).getD []
  (((s.countProgram (imgPid img)).drawn.setTile die tile
    { t.putLs r.1 with
             ctx := alPut t.ctx e.ctx x1
             progs := match bad, table[ps]? with | true, some w => alPut t.progs ps w | _, _ => t.progs }).countSram die
      (er.1, (er.2.1, er.2.2 + b2n bad))).elementDone die tile e

/-- ELEMENT_COMPLETE: the executing instruction takes effect and ends (R120–R123, R139). A VGET from an uncorrectable sector gets a value
the spec does not state (log entry 14). `bad`: the program slot is found uncorrectable. -/
def execElementComplete (die tile : Nat) (bad : Bool) (s : State) : Host.Outcome State Fault Refusal :=
  when_ (s.tileEnds die) (fun s =>
    let t := s.tile die tile
    match t.ex with
    | none => s
    | some e =>
      let x := t.ectx e.ctx
      let c : CrewId := { die := die, tile := tile, slot := e.slot }
      let at_ := fun (l : Nat) => 512 * wfld e.w 16 6 + 4 * (32 * wfld e.w 22 2 + l)
      match wfld e.w 8 8 with
      | 0 => s.eprunEnd die tile e bad
      | 1 =>
        let bad := (lanesOf e.lanes).any (fun l => x.w.poisoned (at_ l) 4)
        let get := fun (l : Nat) =>
          if x.w.poisoned (at_ l) 4 then (Free.poisonLoad (s.fresh + l)).toNat % 2 ^ 32 else x.w.readNat (at_ l) 4
        let s1 := if bad then { s with fresh := s.fresh + 32 } else s
        (s1.onCrew c (fun v => (lanesOf e.lanes).foldl (fun (v : Crew) l => v.set false l (wfld e.w 32 8) (get l)) v)).elementDone die tile e
      | 2 =>
        let w1 := (lanesOf e.lanes).foldl (fun (w : Store) l => w.writeNat (at_ l) 4 (nth 0 e.put l).toNat) x.w
        (s.setTile die tile { t with ctx := alPut t.ctx e.ctx { x with w := w1 } }).elementDone die tile e
      | _ =>
        let s1 := s.onCrew c (fun v => v.set true 0 (wfld e.w 32 6) x.flags.toNat)
        let t1 := s1.tile die tile
        let s2 := if wfld e.w 40 1 = 1 then s1.setTile die tile { t1 with ctx := alPut t1.ctx e.ctx { x with flags := 0 } } else s1
        s2.elementDone die tile e) s

end Sys2Proof.Machine
end

