-- ==== Sys2Proof/Machine/CopyDesc.lean ====
section
/-! DEFINITION. The copy descriptor: its fields, the addresses it forms, the checks of Table 6.6 and the late check of indexed rows
(R150–R159, R455; Tables 6.2–6.6). Functions of the descriptor's eight words. -/

namespace Sys2Proof.Machine

/-- Word k of a descriptor. -/
def cdW (ws : List W64) (k : Nat) : W64 := nth 0 ws k
/-- Header fields (Table 6.3). -/
def cdKind (ws : List W64) : Nat := wfld (cdW ws 0) 0 2
def cdSsp (ws : List W64) : Nat := wfld (cdW ws 0) 2 2
def cdDsp (ws : List W64) : Nat := wfld (cdW ws 0) 4 2
def cdSfmt (ws : List W64) : Nat := wfld (cdW ws 0) 6 4
def cdDfmt (ws : List W64) : Nat := wfld (cdW ws 0) 10 4
def cdRnd (ws : List W64) : Nat := wfld (cdW ws 0) 14 2
def cdSat (ws : List W64) : Bool := wfld (cdW ws 0) 16 1 == 1
def cdFlag (ws : List W64) : Bool := wfld (cdW ws 0) 17 1 == 1
def cdFsp (ws : List W64) : Nat := wfld (cdW ws 0) 18 2
def cdNdim (ws : List W64) : Nat := wfld (cdW ws 0) 20 3
def cdRed (ws : List W64) : Bool := wfld (cdW ws 0) 23 1 == 1
def cdFval (ws : List W64) : Nat := wfld (cdW ws 0) 32 32
/-- Raw addresses, 52 bits (Table 6.4). -/
def cdSrc (ws : List W64) : Nat := wfld (cdW ws 1) 0 52
def cdDst (ws : List W64) : Nat := wfld (cdW ws 2) 0 52
def cdFaddr (ws : List W64) : Nat := wfld (cdW ws 3) 0 52
def cdAux (ws : List W64) : Nat := wfld (cdW ws 6) 0 52
def cdAuxSp (ws : List W64) : Nat := wfld (cdW ws 6) 52 2

/-- GATHER or SCATTER. -/
def cdIndexed (ws : List W64) : Bool := cdKind ws == 1 || cdKind ws == 2
/-- An MX side. -/
def cdMx (ws : List W64) : Bool := isMx (cdSfmt ws) || isMx (cdDfmt ws)
/-- Word 6 is the auxiliary word (R151). -/
def cdHasAux (ws : List W64) : Bool := cdIndexed ws || cdMx ws

/-- Extent of dimension k; 1 at or above NDIM (R151). -/
def cdExt (ws : List W64) (k : Nat) : Nat :=
  if cdNdim ws ≤ k then 1
  else match k with
    | 0 => wfld (cdW ws 4) 0 24
    | 1 => wfld (cdW ws 4) 24 16
    | 2 => wfld (cdW ws 4) 40 16
    | 3 => wfld (cdW ws 1) 52 12
    | _ => wfld (cdW ws 2) 52 12

/-- Source stride of dimension k, 0 where there is none. -/
def cdS (ws : List W64) (k : Nat) : Int :=
  if cdNdim ws ≤ k ∨ k = 0 then 0
  else match k with
    | 1 => signed 32 (wfld (cdW ws 5) 0 32)
    | 2 => signed 32 (wfld (cdW ws 5) 32 32)
    | 3 => if cdHasAux ws then 0 else signed 32 (wfld (cdW ws 6) 0 32)
    | _ => if cdHasAux ws then 0 else signed 32 (wfld (cdW ws 6) 32 32)

/-- Destination strides D1 and D2. -/
def cdD (ws : List W64) (k : Nat) : Int :=
  if cdNdim ws ≤ k then 0 else signed 32 (wfld (cdW ws 7) (if k = 1 then 0 else 32) 32)

/-- Elements a descriptor moves (R152). -/
def cdTotal (ws : List W64) : Nat := cdExt ws 0 * cdExt ws 1 * cdExt ws 2 * cdExt ws 3 * cdExt ws 4

/-- Index of dimension k of element number e. -/
def cdIx (ws : List W64) (e k : Nat) : Nat :=
  match k with
  | 0 => e % cdExt ws 0
  | 1 => e / cdExt ws 0 % cdExt ws 1
  | 2 => e / (cdExt ws 0 * cdExt ws 1) % cdExt ws 2
  | 3 => e / (cdExt ws 0 * cdExt ws 1 * cdExt ws 2) % cdExt ws 3
  | _ => e / (cdExt ws 0 * cdExt ws 1 * cdExt ws 2 * cdExt ws 3) % cdExt ws 4

/-- Die and offset of an address in a space (Table 6.4). -/
def cdLoc (sp raw : Nat) : Nat × Nat :=
  match sp with
  | 0 => (0, fld raw 0 21)
  | 1 => (fld raw 32 3, fld raw 0 29)
  | _ => (0, raw)

/-- Alignment unit of a side: its element, or a block of an MX side (Table 6.6). -/
def cdUnit (fmt : Nat) : Nat := if isMx fmt then 4 * fmtBits fmt else fmtBits fmt / 8

/-- Byte at which an element, or on an MX side its block, starts from the row's start. -/
def cdStep (fmt i0 : Nat) : Nat := if isMx fmt then i0 / 32 * cdUnit fmt else i0 * cdUnit fmt

/-- Source offset of an element; `idx` is its row's index for a GATHER (R152). -/
def cdSrcAt (ws : List W64) (idx e : Nat) : Int :=
  let i := cdIx ws e
  let row : Nat := if cdKind ws = 1 then idx else i 1
  ((cdLoc (cdSsp ws) (cdSrc ws)).2 + cdStep (cdSfmt ws) (i 0) : Nat) + row * cdS ws 1 + i 2 * cdS ws 2 + i 3 * cdS ws 3 + i 4 * cdS ws 4

/-- Destination offset of an element; `idx` is its row's index for a SCATTER (R152). -/
def cdDstAt (ws : List W64) (idx e : Nat) : Int :=
  let i := cdIx ws e
  let base := (cdLoc (cdDsp ws) (cdDst ws)).2
  let hi : Nat := i 2 + cdExt ws 2 * (i 3 + cdExt ws 3 * i 4)
  let row : Nat := if cdKind ws = 2 then idx else i 1
  if cdKind ws = 3 then (base + i 1 * cdUnit (cdDfmt ws) : Nat) + i 0 * cdD ws 1 + hi * cdD ws 2
  else (base + cdStep (cdDfmt ws) (i 0) : Nat) + row * cdD ws 1 + hi * cdD ws 2

/-- The format pairs of Table 6.5. -/
def copyPair (s d : Nat) : Bool :=
  let flt := fun (c : Nat) => decide (c ≤ 5)
  let f4 := fun (c : Nat) => decide (c ≤ 3)
  let i2 := fun (c : Nat) => c == 11 || c == 12
  (s == d && !(isMx s) && s != 15) || (flt s && flt d) || ((s == 2 || s == 3) && d == 14) || (s == 14 && (d == 2 || d == 3))
    || (f4 s && i2 d) || (i2 s && f4 d) || (s == 11 && d == 12) || (isMx s && (d == 0 || d == 2)) || (decide (s ≤ 2) && isMx d)

/-- Codes and combinations of the third check of Table 6.6 (R151–R153, R156, R158). -/
def cdCodesOk (ws : List W64) : Bool :=
  let nd := cdNdim ws
  let sf := cdSfmt ws
  let df := cdDfmt ws
  cdDsp ws != 3 && decide (1 ≤ nd) && decide (nd ≤ 5) && (List.range nd).all (fun k => cdExt ws k != 0) && copyPair sf df
  && cdRnd ws != 3 && cdFsp ws != 3 && (cdKind ws == 0 || decide (2 ≤ nd))
  && (!(cdHasAux ws) || (decide (nd ≤ 3) && cdAuxSp ws != 3 && !(cdIndexed ws && cdMx ws)))
  && (cdSsp ws != 3 || (sf == df && cdKind ws == 0))
  && (!(cdRed ws) || ((cdKind ws == 0 || cdKind ws == 2) && cdDsp ws == 2 && (df == 0 || df == 2 || df == 12)))
  && (!(cdMx ws) || (!(isMx sf && isMx df) && cdKind ws == 0 && cdExt ws 0 % 32 == 0
        && cdAuxSp ws == (if isMx sf then cdSsp ws else cdDsp ws)))

/-- A descriptor names local store anywhere. -/
def cdNamesLocal (ws : List W64) : Bool :=
  cdSsp ws == 0 || cdDsp ws == 0 || (cdFlag ws && cdFsp ws == 0) || (cdHasAux ws && cdAuxSp ws == 0)

/-- Addresses and strides with the size each must be a multiple of (Table 6.6); the pattern of a fill is no address. -/
def cdAligned (ws : List W64) : Bool :=
  let su := cdUnit (cdSfmt ws)
  let du := cdUnit (cdDfmt ws)
  let ok := fun (v : Int) (u : Nat) => decide (v % (u : Int) = 0)
  (cdSsp ws == 3 || ok (cdLoc (cdSsp ws) (cdSrc ws)).2 su) && (List.range 4).all (fun k => ok (cdS ws (k + 1)) su)
  && ok (cdLoc (cdDsp ws) (cdDst ws)).2 du && ok (cdD ws 1) du && ok (cdD ws 2) du
  && ok (cdLoc (cdFsp ws) (cdFaddr ws)).2 4
  && (!(cdIndexed ws) || ok (cdLoc (cdAuxSp ws) (cdAux ws)).2 4)

/-- A run of bytes of a space that a descriptor touches: space, die, first byte, end. -/
structure Span where
  sp  : Nat
  die : Nat
  lo  : Int
  hi  : Int
  deriving DecidableEq, Repr

/-- The span of a run of `len` bytes at an address, moved along dimensions given as extent and stride. -/
def spanOf (sp raw len : Nat) (dims : List (Nat × Int)) : Span :=
  let l := cdLoc sp raw
  let reach := fun (f : Int → Int → Int) => dims.foldl (fun (a : Int) d => a + f 0 (((d.1 : Int) - 1) * d.2)) 0
  { sp := sp, die := l.1, lo := l.2 + reach min, hi := l.2 + reach max + len }

/-- Bytes of `n` elements of a format. -/
def fmtBytes (fmt n : Nat) : Nat := n * fmtBits fmt / 8

/-- The spans checked when a descriptor is taken: the indexed side is left out (R455). -/
def cdSpans (ws : List W64) : List Span :=
  let e := cdExt ws
  let flat := e 2 * e 3 * e 4
  (if cdSsp ws = 3 ∨ cdKind ws = 1 then []
   else [spanOf (cdSsp ws) (cdSrc ws) (fmtBytes (cdSfmt ws) (e 0)) [(e 1, cdS ws 1), (e 2, cdS ws 2), (e 3, cdS ws 3), (e 4, cdS ws 4)]])
  ++ (if cdKind ws = 3 then
        [spanOf (cdDsp ws) (cdDst ws) (fmtBytes (cdDfmt ws) (e 1)) [(e 0, cdD ws 1), (flat, cdD ws 2)]]
      else if cdKind ws = 2 then []
      else [spanOf (cdDsp ws) (cdDst ws) (fmtBytes (cdDfmt ws) (e 0)) [(e 1, cdD ws 1), (flat, cdD ws 2)]])
  ++ (if cdIndexed ws then [spanOf (cdAuxSp ws) (cdAux ws) (4 * e 1) []]
      else if cdMx ws then [spanOf (cdAuxSp ws) (cdAux ws) (e 1 * e 2 * e 0 / 32) []] else [])
  ++ (if cdFlag ws then [spanOf (cdFsp ws) (cdFaddr ws) 4 []] else [])

/-- A local span outside the stand's window, or a landing span outside the store or the stream's window (R21, R71, R145). -/
def Span.bad (x : Span) (ls : Nat × Nat) (wins : List (Nat × Nat)) : Option Nat :=
  match x.sp with
  | 0 => if x.lo < ls.1 ∨ ((ls.1 + ls.2 : Nat) : Int) < x.hi then some 3 else none
  | 1 =>
    let w := nth (0, 0) wins x.die
    if 4 ≤ x.die ∨ x.lo < 0 ∨ 402653184 < x.hi ∨ w.2 = 0 ∨ x.lo < (w.1 * 2097152 : Nat) ∨ (((w.1 + w.2) * 2097152 : Nat) : Int) < x.hi
    then some 5 else none
  | _ => none

/-- The checks of Table 6.6 after the descriptor has been read: the cause of the first that fails. `ls` is the stand's window; none: a
heavy Bucker (R159). -/
def cdCheck (ws : List W64) (ls : Option (Nat × Nat)) (wins : List (Nat × Nat)) : Option Nat :=
  let bad := (cdSpans ws).filterMap (fun x => x.bad (ls.getD (0, 0)) wins)
  if !(cdCodesOk ws) then some 5
  else if ls.isNone && cdNamesLocal ws then some 5
  else if !(cdAligned ws) then some 4
  else if bad.contains 3 then some 3
  else if bad.contains 5 then some 5
  else none

/-- The late check of the rows that the indices name (R455). -/
def cdLateBad (ws : List W64) (idx : List (Option W32)) (ls : Nat × Nat) (wins : List (Nat × Nat)) : Bool :=
  let e := cdExt ws
  idx.any (fun x => match x with
    | none => false
    | some i =>
      if i = 0xFFFFFFFF then false
      else
        let move := fun (sp : Span) (st : Int) => { sp with lo := sp.lo + i.toNat * st, hi := sp.hi + i.toNat * st }
        let sp := if cdKind ws = 1 then
            move (spanOf (cdSsp ws) (cdSrc ws) (fmtBytes (cdSfmt ws) (e 0)) [(e 2, cdS ws 2)]) (cdS ws 1)
          else move (spanOf (cdDsp ws) (cdDst ws) (fmtBytes (cdDfmt ws) (e 0)) [(e 2, cdD ws 2)]) (cdD ws 1)
        (sp.bad ls wins).isSome)

/-- The unit of an address: space and die (R164). -/
def unitOf (sp raw : Nat) : Nat × Nat := (sp, if sp = 1 then (cdLoc 1 raw).1 else 0)
/-- Source and destination units of R164. -/
def cdSrcUnit (ws : List W64) : Nat × Nat := unitOf (cdSsp ws) (cdSrc ws)
def cdDstUnit (ws : List W64) : Nat × Nat := unitOf (cdDsp ws) (cdDst ws)
/-- The units that a descriptor's data is read from, the scales of an MX source among them. -/
def cdSrcUnits (ws : List W64) : List (Nat × Nat) :=
  if isMx (cdSfmt ws) then [cdSrcUnit ws, unitOf (cdAuxSp ws) (cdAux ws)] else [cdSrcUnit ws]
/-- The units that a descriptor's data is written to, the scales of an MX destination among them. -/
def cdDstUnits (ws : List W64) : List (Nat × Nat) :=
  if isMx (cdDfmt ws) then [cdDstUnit ws, unitOf (cdAuxSp ws) (cdAux ws)] else [cdDstUnit ws]
/-- The unit of the flagged final write, if there is one. -/
def cdFlagUnit (ws : List W64) : List (Nat × Nat) := if cdFlag ws then [unitOf (cdFsp ws) (cdFaddr ws)] else []

/-- Two lists have a member in common. -/
def meet (a b : List (Nat × Nat)) : Bool := a.any (fun x => b.contains x)

/-- Two descriptors are ordered wherever both write: they read one source unit, or either is a fill (R164). -/
def cdOrdered (a b : List W64) : Bool := meet (cdSrcUnits a) (cdSrcUnits b) || cdSsp a == 3 || cdSsp b == 3

/-- Bytes that an element occupies from an offset; on an MX side, its block. -/
def cdReach (fmt : Nat) : Nat := cdUnit fmt

/-- A source byte of an element is also a destination byte of the descriptor (R163). `row` gives a row's index. -/
def cdOverlaps (ws : List W64) (row : Nat → Nat) (e : Nat) : Bool :=
  cdSsp ws == cdDsp ws && cdSrcUnit ws == cdDstUnit ws &&
    (let a := cdSrcAt ws (row (cdIx ws e 1)) e
     let n : Int := cdReach (cdSfmt ws)
     let m : Int := cdReach (cdDfmt ws)
     (List.range (cdTotal ws)).any (fun f =>
       let b := cdDstAt ws (row (cdIx ws f 1)) f
       decide (a < b + m) && decide (b < a + n)))

end Sys2Proof.Machine
end

