-- ==== Sys2Proof/Machine/Traps.lean ====
section
/-! DEFINITION. Trap records and their answers (R91–R96; Table 3.16; DSP_TRAP_ANSWER, DSP_TRAP_HEAD). -/

namespace Sys2Proof.Machine

/-- The crew a TRAP_ID names on a die (Table 3.16). -/
def trapCrew (die : Nat) (id : BitVec 17) : CrewId := { die := die, tile := fld id.toNat 0 7, slot := fld id.toNat 7 6 }

/-- Generation of a crew slot (R93). -/
def State.genOf (s : State) (c : CrewId) : Nat := alGet 0 (s.tile c.die c.tile).gens c.slot

/-- TRAP_ID of a parked crew (Table 3.16). -/
def State.trapId (s : State) (c : CrewId) : Nat := c.tile + c.slot * 2 ^ 7 + s.genOf c * 2 ^ 13

/-- An answer takes effect only when the slot is parked with that generation; any other is stale (R94). -/
def State.answer (s : State) (die : Nat) (id : BitVec 17) (f : State → CrewId → Crew → Trap → State) : Host.Outcome State Fault Refusal :=
  .next (
    if !s.serves then s
    else
      let c := trapCrew die id
      match s.crew c with
      | some v =>
        match v.parked with
        | some t => if fld id.toNat 13 4 = s.genOf c then f s c v t else s.count (svc 1)
        | none => s.count (svc 1)
      | none => s.count (svc 1))

/-- A parked crew resumes with the active lanes it had when it parked (R93). -/
def Crew.unpark (v : Crew) : Crew := { v with parked := none }

/-- What follows a resumption: its record, if still unwritten, is not written; accesses that failed meanwhile trap in turn; barriers
count the crew again (R89, R91). -/
def State.resumed (s : State) (c : CrewId) (v : Crew) : State :=
  let s1 := { s.setCrew c v with trapWait := alMod [] s.trapWait c.die (fun l => l.filter (· != c)) }
  (s1.raiseGroup c).tryBars c v.stand

/-- TRAP_ANSWER_REPLAY: the instruction is re-executed for the FAULT lanes only (R93). -/
def execTrapAnswerReplay (die : Nat) (id : BitVec 17) (s : State) : Host.Outcome State Fault Refusal :=
  s.answer die id (fun s c v t =>
    let u := v.unpark
    s.resumed c { u with replay := if t.cause = 9 then none else some (t.fault, t.instr, if t.late then some t.pc else none) })

/-- TRAP_ANSWER_SKIP: the crew goes on past the instruction, the FAULT lanes' destinations unchanged (R93). -/
def execTrapAnswerSkip (die : Nat) (id : BitVec 17) (s : State) : Host.Outcome State Fault Refusal :=
  s.answer die id (fun s c v t =>
    let u := v.unpark
    s.resumed c (if t.late then u else u.advance false))

/-- Takes accesses that still wait for translation off their entries and drops them (R264). -/
def State.withdraw (s : State) (p : Req → Bool) : State :=
  ((s.reqs.filter (fun e => p e.2 && (match e.2.stage with | .xlat | .pended _ => true | _ => false))).map (·.1)).foldl State.withdrawn s

/-- Ends every crew of a stand, parked or running: nothing of it issues again; accesses already made complete (R82, R93, R264). -/
def State.killStand (s : State) (die tile stand : Nat) : State :=
  let t := s.tile die tile
  let slots := (t.crews.filter (fun e => e.2.stand == stand)).map (·.1)
  let s1 := s.withdraw (fun r => match r.who with | .lane c _ _ | .fetch c _ => c.die == die && c.tile == tile && slots.contains c.slot | _ => false)
  let t1 := s1.tile die tile
  let s2 := s1.setTile die tile { t1 with
    crews := t1.crews.map (fun e =>
      if e.2.stand = stand then
        (e.1, { e.2 with paths := [], parked := none, replay := none, subLeft := none, fence := none, snoops := 0, groups := [] }) else e) }
  let s3 := { s2 with trapWait := alMod [] s2.trapWait die (fun l => l.filter (fun c => !(c.tile == tile && slots.contains c.slot))) }
  slots.foldl (fun (u : State) k => u.crewGone { die := die, tile := tile, slot := k }) s3

/-- TRAP_ANSWER_KILL: every crew of the stand ends (R93, R94). -/
def execTrapAnswerKill (die : Nat) (id : BitVec 17) (s : State) : Host.Outcome State Fault Refusal :=
  s.answer die id (fun s c v _ =>
    let t := s.tile c.die c.tile
    let s1 := s.setTile c.die c.tile { t with stands := alUpd t.stands v.stand (fun x => { x with killed := true }) }
    s1.killStand c.die c.tile v.stand)

/-- Records of a die's trap ring, a power of two (R92). -/
def State.trapSize (s : State) (die : Nat) : Nat := 2 ^ ((alFind s.cfg.trapRing die).map (·.2)).getD 6

/-- Records of the trap ring in use: TAIL − HEAD modulo 2^32. -/
def State.trapUsed (s : State) (die : Nat) : Nat := (alGet 0 s.trapTail die + 2 ^ 32 - alGet 0 s.trapHead die) % 2 ^ 32

/-- TRAP_HEAD_WRITE: HEAD, unless it would stand after TAIL or more than the ring before it (R96, DSP_TRAP_HEAD). -/
def execTrapHeadWrite (die : Nat) (v : W64) (s : State) : Host.Outcome State Fault Refusal :=
  when_ s.serves (fun s =>
    let h := wfld v 0 32
    if (alGet 0 s.trapTail die + 2 ^ 32 - h) % 2 ^ 32 ≤ s.trapSize die then { s with trapHead := alPut s.trapHead die h }
    else s.count (svc 2)) s

/-- The eight words of a trap record (Table 3.16). -/
def State.trapWords (s : State) (c : CrewId) (v : Crew) (t : Trap) : List Nat :=
  let l := s.launchOf c
  [s.trapId c + t.cause * 2 ^ 17 + c.die * 2 ^ 25 + t.active.toNat * 2 ^ 32,
   t.instr.toNat,
   t.pc % 2 ^ 52,
   t.fault.toNat + t.first * 2 ^ 32,
   t.detail.toNat,
   (l.map (fun (x : Launch) => x.tag)).getD 0 + (l.map (fun (x : Launch) => x.stream)).getD 0 * 2 ^ 32,
   ((alFind (s.tile c.die c.tile).stands v.stand).map (fun (x : Stand) => x.index % 2 ^ 32)).getD 0 + v.index % 16 * 2 ^ 32,
   t.time]

/-- TRAP_RECORD_WRITE: the oldest parked crew's record goes to the ring, visible before TAIL advances, and source 64 + n fires
(R92, R96). -/
def execTrapRecordWrite (die : Nat) (s : State) : Host.Outcome State Fault Refusal :=
  when_ s.serves (fun s =>
    match alGet [] s.trapWait die with
    | [] => s
    | c :: rest =>
      match s.crew c with
      | none => { s with trapWait := alPut s.trapWait die rest }
      | some v =>
        match v.parked with
        | none => { s with trapWait := alPut s.trapWait die rest }
        | some t =>
          if s.trapSize die ≤ s.trapUsed die then s
          else
            let base := ((alFind s.cfg.trapRing die).map (·.1)).getD 0
            let tail := alGet 0 s.trapTail die
            let bytes := (s.trapWords c v t).flatMap (leBytes 8)
            let fin := fun (u : State) =>
              let u1 : State := { u with
                trapWait := alPut u.trapWait die rest, trapTail := alPut u.trapTail die ((tail + 1) % 2 ^ 32) }
              (u1.onCrew c (fun x => { x with parked := x.parked.map (fun y => { y with recorded := true }) })).raise (64 + die)
            let put := s.ringWrite (.service die) 0 (base + tail % s.trapSize die * 64) bytes
            if put.1 then fin put.2 else put.2) s

end Sys2Proof.Machine
end

