-- ==== Sys2Proof/Machine/Bucker.lean ====
section
/-! DEFINITION. Bucker copies: submission by BCOPY, the turns that move elements with their conversions, poison and reductions, index
lists, flagged final writes, completion and data-path errors (R81, R144–R170, R455). -/

namespace Sys2Proof.Machine

/-- A Bucker's descriptors not complete, oldest first. -/
def State.descs (s : State) : BuckerId → List Desc
  | .tile d t ch => alGet [] (s.tile d t).chans ch
  | .heavy d b => alGet [] s.heavy (d * 8 + b)

/-- Sets them. -/
def State.setDescs (s : State) (b : BuckerId) (l : List Desc) : State :=
  match b with
  | .tile d t ch => let x := s.tile d t; s.setTile d t { x with chans := if l.isEmpty then alDel x.chans ch else alPut x.chans ch l }
  | .heavy d n => { s with heavy := if l.isEmpty then alDel s.heavy (d * 8 + n) else alPut s.heavy (d * 8 + n) l }

/-- A descriptor of a Bucker by its serial number. -/
def State.descOf (s : State) (b : BuckerId) (serial : Nat) : Option Desc := (s.descs b).find? (fun d => d.serial == serial)

/-- Replaces a descriptor. -/
def State.putDesc (s : State) (b : BuckerId) (d : Desc) : State :=
  s.setDescs b ((s.descs b).map (fun x => if x.serial = d.serial then d else x))

/-- The die a Bucker lies on. -/
def buckerDie : BuckerId → Nat
  | .tile d _ _ => d
  | .heavy d _ => d

/-- A Bucker runs: its tile's clock, or the pair fabric of its foundation die (Table 6.1, R147). -/
def State.buckerRuns (s : State) : BuckerId → Bool
  | .tile d _ _ => s.tileRuns d
  | .heavy d _ => s.serves && decide (s.power.pstate ≤ 1) && !(s.plat.lostF.contains d)

/-- Every read of a descriptor has been issued. -/
def Desc.moved (d : Desc) : Bool := decide (cdTotal d.words ≤ d.pos)

/-- Writes of a descriptor that have not landed. -/
def State.copyOut (s : State) (b : BuckerId) (serial : Nat) : List Req :=
  ((s.reqs.map (·.2)).filter (fun r => r.who == Who.bucker b serial && r.kind.writes))

/-- Every write of a descriptor issued so far, its data moved, has landed. -/
def State.dataLanded (s : State) (b : BuckerId) (d : Desc) : Bool := d.moved && (s.copyOut b d.serial).isEmpty

/-- A new descriptor. -/
def newDesc (serial : Nat) (ws : List W64) : Desc :=
  { serial := serial, crew := none, stream := 0, recAddr := 0, index := 0, where_ := 0, words := ws, pos := 0, idx := none, err := none,
    wins := [], lsBase := 0, lsSize := 0, space := 0, flagIssued := false }

/-- One lane submits the descriptor at a local-store offset; the cause of its trap when it is refused (R81, R159). -/
def State.submit (s : State) (c : CrewId) (v : Crew) (ch addr : Nat) : State × Option Nat :=
  let l := s.launchOf c
  let win := s.windowOf c v
  match laneCheck false win 64 addr with
  | some k => (s, some k)
  | none =>
    let r := s.readLs c.die c.tile addr 64
    if r.2.1 then (r.2.2, some 8)
    else
      let ws := bytesToWords 8 (leBytes 64 r.1)
      let wins := (l.map (fun (x : Launch) => x.wins)).getD []
      match cdCheck ws (some win) wins with
      | some k => (r.2.2, some k)
      | none =>
        let d := { newDesc s.serial ws with
          crew := some c, stream := (l.map (fun (x : Launch) => x.stream)).getD 0, where_ := addr, wins := wins, lsBase := win.1,
          lsSize := win.2, space := (l.map (fun (x : Launch) => x.space)).getD 0 }
        let b := BuckerId.tile c.die c.tile ch
        let s1 := r.2.2.setDescs b (r.2.2.descs b ++ [d])
        ({ s1 with serial := s.serial + 1 }, none)

/-- A submission has room: the count would not exceed 255 and the channel's queue holds fewer than 16 (R81). -/
def State.copyRoom (s : State) (c : CrewId) (ch copies : Nat) : Bool :=
  decide (copies < 255) && decide (((s.descs (.tile c.die c.tile ch)).filter (fun d => !d.moved)).length < 16)

/-- Submits the lanes of a BCOPY in order, as far as there is room: lanes left, faults, copies accepted (R81). -/
def State.submitLanes (s : State) (i : Issue) (ch : Nat) :
    List Nat → List (Nat × Nat × W64) → Nat → State × List Nat × List (Nat × Nat × W64) × Nat
  | [], faults, n => (s, [], faults, n)
  | k :: rest, faults, n =>
    if s.copyRoom i.c ch n then
      let addr := addOff (i.read k (wfld i.w 24 8) 1) (off24 i.w 32)
      let r := s.submit i.c i.v ch addr
      match r.2 with
      | some cause => State.submitLanes r.1 i ch rest (faults ++ [(k, cause, BitVec.ofNat 64 addr)]) n
      | none => State.submitLanes r.1 i ch rest faults (n + 1)
    else (s, k :: rest, faults, n)

/-- BCOPY: each participating lane submits one descriptor, in lane order, waiting for room; the crew holds at it until all have submitted
(R79, R81, R159). -/
def execBcopy (c : CrewId) (w : W64) (s : State) : Host.Outcome State Fault Refusal :=
  .next (s.issue c w 0x102 (fun s i =>
    let ls := match i.v.subLeft with
      | some (_, m, _) => lanesOf m
      | none => i.lanes
    let f0 := match i.v.subLeft with
      | some (_, _, f) => f
      | none => []
    let r := s.submitLanes i (wfld w 16 4) ls f0 i.v.copies
    let v := { i.v with copies := r.2.2.2 }
    if r.2.1.isEmpty then r.1.laneEnd { i with v := { v with subLeft := none } } { v with subLeft := none } r.2.2.1
    else r.1.setCrew c { v with subLeft := some (w, maskOf r.2.1, r.2.2.1) }))

/-- What a Bucker's read of a few bytes gives: a value with the numbers of its poisoned 32-byte sectors, a failure with its cause and the failing
access's address, or a wait. -/
inductive SpanOut where
  | ok (v : Nat) (poisoned : List Nat) (s : State)
  | fail (cause at_ : Nat) (s : State)
  | wait (s : State)

/-- The source whose tokens a Bucker uses. -/
def buckerSource : BuckerId → Source
  | .tile d t _ => .tile d t
  | .heavy d _ => .heavy d

/-- A Bucker's access to a line of a landing store; unless `ask`, one whose request has been accepted (R146, R170, R293, R303). -/
def State.landGate (s : State) (b : BuckerId) (ask : Bool) (m off : Nat) : Gate :=
  s.gateIf ask (buckerSource b) (s.landRoute (buckerSource b) m off)

/-- Bytes within one line of global memory as the turn's access to that line returned them: value and poisoned sectors, or the failure's cause and
the access's address. -/
def lineRead (got : List (Req × AccResult)) (va n : Nat) : Except (Nat × Nat) (Nat × List Nat) :=
  match got.find? (fun e => decide (e.1.va ≤ va) && decide (va + n ≤ e.1.va + e.1.size)) with
  | none => .ok (0, sectorsOf va n)
  | some (r, a) =>
    match unitCause a with
    | some 8 => .ok (0, sectorsOf va n)
    | some k => .error (k, r.va)
    | none =>
      let b := readBytes r a
      .ok (leNat ((b.1.drop (va - r.va)).take n), (sectorsOf va n).filter b.2.contains)

/-- Reads bytes of a space for a Bucker; those of global memory stand in what the turn's accesses returned, up to two lines of them (Table 6.4).
`known`: landing lines that the turn has been accepted for. -/
def State.copyRead (s : State) (b : BuckerId) (got : List (Req × AccResult)) (known : List (Nat × Nat × Nat)) (sp die : Nat) (off : Int) (n : Nat) :
    SpanOut :=
  match sp with
  | 0 =>
    (match b with
     | .tile dd t _ =>
       let r := s.readLs dd t off.toNat n
       .ok r.1 ((sectorsOf off.toNat n).filter (fun k => (r.2.2.tile dd t).ls.poisoned (32 * k) 32)) r.2.2
     | .heavy _ _ => .fail 5 0 s)
  | 1 =>
    (match s.landGate b (!known.contains (1, die, off.toNat / 128)) die off.toNat with
     | .refused t => .wait t
     | .answer _ t => .ok 0 (sectorsOf off.toNat n) t
     | .go t =>
       let r := t.readLand die off.toNat n
       .ok r.1 ((sectorsOf off.toNat n).filter (fun k => (alGet {} r.2.2.landing die).poisoned (32 * k) 32)) r.2.2)
  | _ =>
    (pieces (wrapTo 64 off) n).foldl (fun (acc : SpanOut × Nat) e =>
      match acc.1 with
      | .ok v p u =>
        (match lineRead got e.1 e.2 with
         | .ok (x, q) => (.ok (v + x * 256 ^ acc.2) (p ++ q) u, acc.2 + e.2)
         | .error (k, a) => (.fail k a u, acc.2))
      | y => (y, acc.2)) (.ok 0 [] s, 0) |>.1

/-- A move under way: writes so far, first data-path error as cause and DETAIL, source sectors that read as poisoned (space, die,
sector), rows with a poisoned index, what the turn's accesses to global memory returned, landing lines for which its requests have been
accepted, and the state. -/
structure Moving where
  got   : List (Req × AccResult)
  ws    : List CopyW
  err   : Option (Nat × Nat)
  bad   : List (Nat × Nat × Nat)
  rows  : Nat
  known : List (Nat × Nat × Nat)
  wait  : Bool
  s     : State

/-- The index of a row: none when it read as poisoned (R154). -/
def Desc.rowIdx (d : Desc) (e : Nat) : Option W32 := if cdIndexed d.words then nth none (d.idx.getD []) (cdIx d.words e 1) else some 0

/-- A row's index as a number. -/
def Desc.rowOf (d : Desc) (i1 : Nat) : Nat := ((nth none (d.idx.getD []) i1).map (·.toNat)).getD 0

/-- A read of a move: value, or none where it failed or meets poison, which is noted; each landing line is asked for once in a turn (R168). -/
def Moving.read (m : Moving) (b : BuckerId) (sp die : Nat) (off : Int) (n : Nat) : Moving × Option Nat :=
  let a := off.toNat
  let known := m.known ++ (if sp ≠ 1 ∨ n = 0 then [] else [(sp, die, a / 128), (sp, die, (a + n - 1) / 128)])
  match m.s.copyRead b m.got m.known sp die off n with
  | .wait u => ({ m with wait := true, s := u }, none)
  | .fail k at_ u => ({ m with s := u, known := known, err := m.err.orElse (fun _ => some (k, at_)) }, none)
  | .ok v p u =>
    ({ m with s := u, known := known, bad := m.bad ++ p.map (fun k => (sp, die, k)) }, if p.isEmpty then some v else none)

/-- First bit of an element within its MX block. -/
def mxBit (ws : List W64) (e : Nat) : Nat := cdIx ws e 0 % 32 * fmtBits (cdSfmt ws)

/-- The bytes that hold an element of the source: of an MX block those that hold its bits (R37, R152). -/
def Desc.srcSpan (d : Desc) (e : Nat) : Int × Nat :=
  let ws := d.words
  let sf := cdSfmt ws
  let off := cdSrcAt ws (d.rowOf (cdIx ws e 1)) e
  if isMx sf then (off + (mxBit ws e / 8 : Nat), (mxBit ws e + fmtBits sf - 1) / 8 - mxBit ws e / 8 + 1) else (off, cdUnit sf)

/-- Address of the scale of an element's block (R158). -/
def scaleAt (ws : List W64) (e : Nat) : Nat :=
  (cdLoc (cdAuxSp ws) (cdAux ws)).2 + (cdIx ws e 1 + cdExt ws 1 * cdIx ws e 2) * (cdExt ws 0 / 32) + cdIx ws e 0 / 32

/-- Parts of lines joined into one span of each line. -/
def lineSpans (l : List (Nat × Nat)) : List (Nat × Nat) :=
  l.foldl (fun (acc : List (Nat × Nat)) e =>
    if acc.any (fun x => x.1 / 128 == e.1 / 128) then
      acc.map (fun x => if x.1 / 128 = e.1 / 128 then (min x.1 e.1, max (x.1 + x.2) (e.1 + e.2) - min x.1 e.1) else x)
    else acc ++ [e]) []

/-- The accesses to global memory that reading some elements needs, one for each line (R152, R158, R185). -/
def Desc.reads (d : Desc) (b : BuckerId) (es : List Nat) : List Req :=
  let ws := d.words
  let live := es.filter (fun e => match d.rowIdx e with | some i => !(cdIndexed ws && i == 0xFFFFFFFF) | none => false)
  let own := if cdSsp ws = 2 then live.flatMap (fun e => pieces (wrapTo 64 (d.srcSpan e).1) (d.srcSpan e).2) else []
  let scales := if isMx (cdSfmt ws) ∧ cdAuxSp ws = 2 then live.map (fun e => (wrapTo 64 (scaleAt ws e : Nat), 1)) else []
  (lineSpans own ++ lineSpans scales).map (fun e => unitReq (.bucker b d.serial) .bread d.space e.1 e.2)

/-- What an element's source gives: its value in terms of the source format, none when it is poisoned. Of an MX block the bytes that hold
the element are read, and its scale (R37, R158). -/
def Moving.source (m : Moving) (b : BuckerId) (d : Desc) (e : Nat) : Moving × Option Val × Option Nat :=
  let ws := d.words
  let sf := cdSfmt ws
  if cdSsp ws = 3 then
    let x := cdSrc ws % 2 ^ fmtBits sf
    (m, some (valOf sf x), some x)
  else
    let r := m.read b (cdSsp ws) (cdLoc (cdSsp ws) (cdSrc ws)).1 (d.srcSpan e).1 (d.srcSpan e).2
    if isMx sf then
      if r.1.wait then (r.1, none, none)
      else
        let q := r.1.read b (cdAuxSp ws) (cdLoc (cdAuxSp ws) (cdAux ws)).1 (scaleAt ws e : Nat) 1
        match r.2, q.2 with
        | some v, some sc =>
          let x := fld v (mxBit ws e % 8) (fmtBits sf)
          (q.1, some (mxVal sf sc x), some x)
        | _, _ => (q.1, none, none)
    else (r.1, r.2.map (valOf sf), r.2)

/-- Converts an element between formats that are no MX target (Table 6.5). FP32 is a target of Table 2.4 only from FP64 and DS32, so SAT does
not touch what an MX block gives it (R48). -/
def copyConvert (ws : List W64) (mode : Rm) (v : Val) (raw : Nat) : Nat :=
  let sf := cdSfmt ws
  let df := cdDfmt ws
  if sf = df then raw
  else if isMx sf then
    (match fmtOf df with
     | some f => (f.convert mode (cdSat ws) (df == 2) v).1
     | none => 0)
  else (cvt sf df mode (cdSat ws) raw).1

/-- The rounding of an element of a move. -/
def copyMode (ws : List W64) (draw e : Nat) : Rm := (rmOf (cdRnd ws) (Free.randIn draw 0 e).toNat).getD .rne

/-- Rows of a SCATTER that name one index with row i1. -/
def Desc.sameRows (d : Desc) (i1 : Nat) : List Nat :=
  (List.range (cdExt d.words 1)).filter (fun k => nth none (d.idx.getD []) k == nth none (d.idx.getD []) i1)

/-- Whether a SCATTER row's bytes at a destination are those the sector or line ends with (R155). -/
def Desc.wins? (d : Desc) (e : Nat) (off : Int) : Bool :=
  let l := d.sameRows (cdIx d.words e 1)
  if cdKind d.words ≠ 2 ∨ cdRed d.words = true ∨ l.length ≤ 1 then true
  else nth 0 l (Free.collide d.serial (off.toNat / (if cdDsp d.words = 2 then 128 else 32)) % l.length) == cdIx d.words e 1

/-- Moves one element of a destination that is no MX side (R152–R157, R163). -/
def Moving.one (m : Moving) (b : BuckerId) (d : Desc) (draw e : Nat) : Moving :=
  if m.wait then m
  else
    let ws := d.words
    let ed := cdUnit (cdDfmt ws)
    let die := (cdLoc (cdDsp ws) (cdDst ws)).1
    let off := cdDstAt ws (d.rowOf (cdIx ws e 1)) e
    let put := fun (m : Moving) (v : Nat) (p : Bool) =>
      { m with ws := m.ws ++ [{ sp := cdDsp ws, die := die, off := off, n := ed, val := v, poisoned := p, row := e / cdExt ws 0 }] }
    match d.rowIdx e with
    | none => if cdKind ws = 1 then (let m1 := put m 0 true; if cdIx ws e 0 = 0 then { m1 with rows := m1.rows + 1 } else m1) else m
    | some i =>
      if cdIndexed ws && i == 0xFFFFFFFF then (if cdKind ws = 1 then put m 0 false else m)
      else
        let r := m.source b d e
        if r.1.wait then r.1
        else if !(d.wins? e off) then r.1
        else
          match r.2.1, r.2.2 with
          | some v, some raw =>
            let x := if cdOverlaps ws d.rowOf e then (Free.overlap d.serial e).toNat % 2 ^ fmtBits (cdDfmt ws)
              else copyConvert ws (copyMode ws draw e) v raw
            put r.1 x false
          | _, _ => put r.1 0 true

/-- Moves one block of 32 elements into an MX destination, elements and scale (R42, R158). -/
def Moving.block (m : Moving) (b : BuckerId) (d : Desc) (draw e : Nat) : Moving :=
  if m.wait then m
  else
    let ws := d.words
    let df := cdDfmt ws
    let r := (List.range 32).foldl (fun (acc : Moving × List (Option Val)) k =>
      if acc.1.wait then acc
      else
        let x := acc.1.source b d (e + k)
        (x.1, acc.2 ++ [x.2.1])) (m, [])
    if r.1.wait then r.1
    else
      let bad := r.2.any (fun x => x.isNone)
      let both := (List.range 32).any (fun k => cdOverlaps ws d.rowOf (e + k))
      let q := mxBlock df (fun k => copyMode ws draw (e + k)) (r.2.map (fun x => x.getD (vzero false)))
      let bits := (List.range 32).foldl (fun a k => a + nth 0 q.2.1 k * 2 ^ (k * fmtBits df)) 0
      let free := (List.range 4).foldl (fun a k => a + (Free.overlap d.serial (e + k)).toNat * 2 ^ (64 * k)) 0
      let ax := cdLoc (cdAuxSp ws) (cdAux ws)
      let so : Int := (scaleAt ws e : Nat)
      { r.1 with ws := r.1.ws ++
          [{ sp := cdDsp ws, die := (cdLoc (cdDsp ws) (cdDst ws)).1, off := cdDstAt ws 0 e, n := cdUnit df,
             val := (if both then free % 256 ^ cdUnit df else bits), poisoned := bad },
           { sp := cdAuxSp ws, die := ax.1, off := so, n := 1, val := (if both then (Free.overlap d.serial (e + 4)).toNat % 256 else q.1),
             poisoned := bad }] }

/-- Adjacent writes of global memory as one run, within a line and, for reductions, within a row (R156, R185). -/
def mergeW (red : Bool) (l : List CopyW) : List CopyW :=
  (l.foldl (fun (acc : List CopyW) x =>
    match acc with
    | y :: rest =>
      if y.poisoned = x.poisoned ∧ y.off + y.n = x.off ∧ x.off % 128 ≠ 0 ∧ (!red || y.row = x.row)
      then { y with n := y.n + x.n, val := y.val + x.val * 256 ^ y.n } :: rest
      else x :: acc
    | [] => [x]) []).reverse

/-- A write of global memory as an access. -/
def copyReq (b : BuckerId) (d : Desc) (kind : AccKind) (x : CopyW) : Req :=
  { id := 0, who := .bucker b d.serial, kind := kind, space := d.space, va := wrapTo 64 x.off, pa := 0, size := x.n,
    data := BitVec.ofNat 1024 x.val, cmp := 0, mask := (if kind = .redl then 0xFFFFFFFF else BitVec.ofNat 128 (2 ^ x.n - 1)), sub := 0,
    ty := cdDfmt d.words, dst := 255, uni := false, sx := false, noInstall := false, poisoned := x.poisoned, levels := [], stage := .xlat }

/-- Splits a write at the end of its line. -/
def CopyW.split (x : CopyW) : List CopyW :=
  let m := 128 - (x.off % 128).toNat
  if x.n ≤ m then [x]
  else [{ x with n := m, val := x.val % 256 ^ m }, { x with off := x.off + m, n := x.n - m, val := x.val / 256 ^ m }]

/-- Makes one run of writes of global memory (R161, R163, R168). -/
def State.putRun (s : State) (b : BuckerId) (d : Desc) (x : CopyW) : State :=
  (x.split).foldl (fun (t : State) y => t.unitStart (copyReq b d .bwrite y)) s

/-- The 32-byte sector that a write into local or landing store lies in: space, die, sector. -/
def CopyW.sector (x : CopyW) : Nat × Nat × Nat := (x.sp, x.die, x.off.toNat / 32)

/-- Cuts a write at sector ends. -/
def CopyW.cut (x : CopyW) : List CopyW :=
  let m := 32 - x.off.toNat % 32
  if x.n ≤ m then [x]
  else [{ x with n := m, val := x.val % 256 ^ m }, { x with off := x.off + m, n := x.n - m, val := x.val / 256 ^ m }]

/-- The writes into a sector cover it whole. -/
def coversSector (l : List CopyW) (k : Nat) : Bool :=
  (List.range 32).all (fun j => l.any (fun x => decide (x.off.toNat ≤ 32 * k + j) && decide (32 * k + j < x.off.toNat + x.n)))

/-- Some element from `e` on is written into a sector of local or landing store. -/
def Desc.writesLater (d : Desc) (e : Nat) (k : Nat × Nat × Nat) : Bool :=
  let ws := d.words
  let hits := fun (sp raw : Nat) (off : Int) (n : Nat) =>
    (sp, (cdLoc sp raw).1) == (k.1, k.2.1) && decide (off < 32 * k.2.2 + 32) && decide (((32 * k.2.2 : Nat) : Int) < off + n)
  (List.range (cdTotal ws - e)).any (fun j =>
    let f := e + j
    hits (cdDsp ws) (cdDst ws) (cdDstAt ws (d.rowOf (cdIx ws f 1)) f) (cdUnit (cdDfmt ws))
    || (isMx (cdDfmt ws) && hits (cdAuxSp ws) (cdAux ws)
          ((cdLoc (cdAuxSp ws) (cdAux ws)).2 + (cdIx ws f 1 + cdExt ws 1 * cdIx ws f 2) * (cdExt ws 0 / 32) + cdIx ws f 0 / 32 : Nat) 1))

/-- A sector written whole: its bytes at once, poison and codeword renewed when the writes cover it, marked where a source was poisoned
(R163, R167, R168, R272). -/
def Store.putSector (st : Store) (k : Nat) (l : List CopyW) : Store :=
  let st1 := if coversSector l k then st.clrPoison (32 * k) 32 else st
  let st2 := (l.filter (fun x => !x.poisoned)).foldl (fun (t : Store) x => t.writeBytes x.off.toNat (leBytes x.n x.val)) st1
  if l.any (fun x => x.poisoned) then st2.setPoison (32 * k) 32 else st2

/-- Makes writes into local and landing sectors (R161, R163, R168); those into a landing store that is not reached are discarded (R170). -/
def State.putSectors (s : State) (b : BuckerId) (l : List CopyW) : State :=
  (l.map CopyW.sector).eraseDups.foldl (fun (t : State) k =>
    let mine := l.filter (fun x => x.sector == k)
    match k.1, b with
    | 0, .tile dd n _ =>
      let t1 := t.accstStep dd n
      t1.setTile dd n ((t1.tile dd n).putLs ((t1.tile dd n).ls.putSector k.2.2 mine))
    | 0, .heavy _ _ => t
    | _, _ =>
      match t.landRoute (buckerSource b) k.2.1 (32 * k.2.2) with
      | .go _ => { t with landing := alMod {} t.landing k.2.1 (fun st => st.putSector k.2.2 mine) }
      | .answer _ _ => t) s

/-- Requests for the landing lines that writes go to: accepted, or refused for want of a token (R146, R293). -/
def State.landEnter (s : State) (b : BuckerId) (l : List CopyW) : Bool × State :=
  ((l.filter (fun x => x.sp == 1)).map (fun x => (x.die, x.off.toNat / 128))).eraseDups.foldl (fun (acc : Bool × State) k =>
    if acc.1 then
      (match acc.2.landGate b true k.1 (128 * k.2) with
       | .refused t => (false, t)
       | .answer _ t => (true, t)
       | .go t => (true, t))
    else acc) (true, s)

/-- Makes the reductions of a move: whole lines as one add-to-line, the rest element by element (R156). -/
def State.putRed (s : State) (b : BuckerId) (d : Desc) (x : CopyW) : State :=
  if x.n = 128 ∧ !x.poisoned then s.unitStart (copyReq b d .redl x)
  else
    let ed := cdUnit (cdDfmt d.words)
    (List.range (x.n / ed)).foldl (fun (t : State) k =>
      t.unitStart (copyReq b d .red { x with off := x.off + (k * ed : Nat), n := ed, val := x.val / 256 ^ (k * ed) % 256 ^ ed })) s

/-- Makes the writes of a move into global memory: data first, poison marks after. -/
def State.putWrites (s : State) (b : BuckerId) (d : Desc) (l : List CopyW) : State :=
  let runs := mergeW (cdRed d.words) l
  let f := fun (t : State) (x : CopyW) => if cdRed d.words then t.putRed b d x else t.putRun b d x
  (runs.filter (fun x => x.poisoned)).foldl f ((runs.filter (fun x => !x.poisoned)).foldl f s)

/-- A path of a crew that waits at a BWAIT executes it again, to report an error (R169). -/
def Crew.rewait (v : Crew) : Crew :=
  let ps := v.paths.map (fun p => match p.wait with | .copies _ => { p with wait := .none } | _ => p)
  let v1 := { v with paths := ps }
  let waits : Bool := match v1.paths[v1.cur]? with | some p => p.wait != .none | none => true
  if waits then v1.select else v1

/-- Notes the first error of a descriptor: for its crew's next BWAIT, or the event log once the crew has exited; for its COPY record's
status (R168, R169). -/
def State.copyErrAt (s : State) (b : BuckerId) (d : Desc) (cause : Nat) (detail : Nat) : State :=
  if d.err.isSome then s
  else
    let s1 := s.putDesc b { d with err := some (cause, detail) }
    match b, d.crew with
    | .tile _ _ ch, some c =>
      (match s1.crew c with
       | some v =>
         if v.paths.isEmpty then s1.logCopyErr c cause (BitVec.ofNat 64 detail)
         else s1.setCrew c ({ v with copyErr := v.copyErr ++ [(cause, BitVec.ofNat 64 detail, ch, d.serial)] }).rewait
       | none => s1)
    | _, _ =>
      s1.setStream d.stream { s1.stream d.stream with flights := (s1.stream d.stream).flights.map (fun f =>
        if f.addr == d.recAddr && f.typ == 2 && (match f.err with | some e => decide (d.index < e.1) | none => true)
        then { f with err := some (d.index, cause) } else f) }

/-- A descriptor's flag is never written: its own data-path error, or any failure of its COPY record (R168). -/
def State.flagLost (s : State) (b : BuckerId) (d : Desc) : Bool :=
  d.err.isSome || (match b with
    | .heavy _ _ =>
      (match (s.stream d.stream).flights.find? (fun f => f.addr == d.recAddr && f.typ == 2) with | some f => f.err.isSome | none => true)
    | _ => false)

/-- An earlier descriptor holds a later one's data: both write a unit, they are ordered, and a write of the earlier one to that unit, its
flag among them, has not landed (R164). -/
def State.holdsBack (s : State) (b : BuckerId) (x d : Desc) : Bool :=
  cdOrdered x.words d.words &&
    ((meet (cdDstUnits x.words) (cdDstUnits d.words) && !(s.dataLanded b x))
     || (meet (cdFlagUnit x.words) (cdDstUnits d.words) && !(s.flagLost b x) && !(x.flagIssued && s.dataLanded b x)))

/-- Descriptors ordered before one at the same destination that still have writes to land (R164). -/
def State.copyHeld (s : State) (b : BuckerId) (d : Desc) : Bool :=
  match b with
  | .tile _ _ _ =>
    ((s.descs b).takeWhile (fun x => x.serial != d.serial)).any (fun x => s.holdsBack b x d)
  | .heavy _ _ =>
    let fs := (s.stream d.stream).flights.takeWhile (fun f => f.addr != d.recAddr)
    fs.any (fun f => f.typ == 2 && f.fin.isNone && decide (f.handed < wfld (nth 0 f.words 2) 0 13))
    || s.heavy.any (fun e => e.2.any (fun x =>
        x.stream == d.stream && fs.any (fun f => f.addr == x.recAddr && f.typ == 2)
          && s.holdsBack (.heavy (e.1 / 8) (e.1 % 8)) x d))

/-- The descriptor a Bucker moves next: the first with reads still to issue (R148). -/
def State.activeDesc (s : State) (b : BuckerId) : Option Desc := (s.descs b).find? (fun d => !d.moved)

/-- It can move now: its index list has been read and no earlier write holds its own (R148, R154). -/
def State.movable (s : State) (b : BuckerId) : Option Desc :=
  match s.activeDesc b with
  | some d => if (cdIndexed d.words && d.idx.isNone) || s.copyHeld b d then none else some d
  | none => none

/-- A move may end before element e: the descriptor's end, a block's end on an MX destination, else where the next element does not go on
in the same sector, or line for reductions (R156, R163). -/
def Desc.mayEnd (d : Desc) (e : Nat) : Bool :=
  let ws := d.words
  if cdTotal ws ≤ e then true
  else if isMx (cdDfmt ws) then e % 32 == 0
  else
    let a := cdDstAt ws (d.rowOf (cdIx ws (e - 1) 1)) (e - 1) + cdUnit (cdDfmt ws)
    decide (a % (if cdRed ws then 128 else 32) = 0) || decide (cdDstAt ws (d.rowOf (cdIx ws e 1)) e ≠ a)

/-- Where a turn of at most `count` elements and 1 KiB ends. -/
def Desc.turnEnd (d : Desc) (count : Nat) : Nat :=
  let ws := d.words
  let size := max 1 (max (fmtBits (cdSfmt ws)) (fmtBits (cdDfmt ws)))
  let n := max 1 (min count (8192 / size))
  let down := ((List.range n).map (fun k => d.pos + n - k)).find? d.mayEnd
  let up := ((List.range 160).map (fun k => d.pos + n + k)).find? d.mayEnd
  (down.orElse (fun _ => up)).getD (d.pos + n)

/-- The channel's turn has come: every channel before it in rotation gives up its turn (R148). -/
def State.hasTurn (s : State) : BuckerId → Bool
  | .tile d t ch =>
    let from_ := (s.tile d t).turn
    (List.range ((ch + 16 - from_) % 16)).all (fun k => (s.movable (.tile d t ((from_ + k) % 16))).isNone)
  | .heavy _ _ => true

/-- The elements that a turn moves, up to `fin`. -/
def Desc.turnOf (d : Desc) (fin : Nat) : List Nat := (List.range (fin - d.pos)).map (fun k => d.pos + k)

/-- What a turn does with the elements up to `fin`, its reads of global memory having returned: conversions, the writes to issue (R148,
R152–R158). -/
def State.moves (s : State) (b : BuckerId) (d : Desc) (fin : Nat) (got : List (Req × AccResult)) : Moving :=
  let m0 : Moving := { got := got, ws := [], err := none, bad := [], rows := 0, known := [], wait := false, s := s }
  let es := d.turnOf fin
  if isMx (cdDfmt d.words) then (es.filter (fun e => e % 32 == 0)).foldl (fun (m : Moving) e => m.block b d s.fresh e) m0
  else es.foldl (fun (m : Moving) e => m.one b d s.fresh e) m0

/-- A Bucker has done with what it read for a descriptor: the accesses end; one still under way was made for a turn that did not come to be. -/
def State.readsOver (s : State) (b : BuckerId) (serial : Nat) : State :=
  s.reqs.foldl (fun (t : State) e =>
    match t.req e.1 with
    | some r =>
      if r.who == .bucker b serial && r.kind == .bread then
        (match r.stage with
         | .replied _ | .backoff _ => t.dropReq r.id
         | .xlat | .pended _ => t.withdrawn r.id
         | _ => t.setReq { r with noInstall := true })
      else t
    | none => t) s

/-- A turn whose reads of global memory have returned: it is converted and written. A sector of local or landing store is written once, when no
later element goes into it (R163, R167); for want of a token at a landing store the turn waits. -/
def State.turnMove (s : State) (b : BuckerId) (d : Desc) (fin : Nat) (got : List (Req × AccResult)) : State :=
  let m := s.moves b d fin got
  if m.wait then m.s
  else
    let all := d.part ++ (m.ws.filter (fun x => decide (x.sp ≤ 1))).flatMap CopyW.cut
    let whole := fun (k : Nat × Nat × Nat) =>
      coversSector (all.filter (fun x => x.sector == k)) k.2.2 || !(d.writesLater fin k)
    let out := all.filter (fun x => whole x.sector)
    let go := m.s.landEnter b out
    if !go.1 then go.2
    else
      let new := m.bad.eraseDups.filter (fun k => !(d.counted.contains k))
      let d1 := { d with pos := fin, part := all.filter (fun x => !(whole x.sector)), counted := d.counted ++ new }
      let s0 := go.2.readsOver b d.serial
      let s1 := ((s0.putDesc b d1).putSectors b out).putWrites b d1 (m.ws.filter (fun x => decide (1 < x.sp)))
      let n := new.length + m.rows
      let s2 := if n = 0 then s1 else s1.count (pairErr (buckerDie b) 16) n
      let s3 := if cdRnd d.words = 2 then s2.drawn else s2
      let s4 := match m.err with
        | some (k, x) => s3.copyErrAt b d1 k x
        | none => s3
      match b with
      | .tile dd t ch => s4.setTile dd t { s4.tile dd t with turn := (ch + 1) % 16 }
      | .heavy _ _ => s4

/-- BUCKER_TURN: up to 1 KiB of the descriptor whose channel has the turn moves. Its reads of global memory go to their homes, and the turn goes
on when they have returned; its global writes land when their accesses complete (R146, R148, R152–R158, R163, R168, R290, R293). -/
def execBuckerTurn (b : BuckerId) (count : Nat) (s : State) : Host.Outcome State Fault Refusal :=
  when_ (s.buckerRuns b && s.hasTurn b) (fun s =>
    match s.movable b with
    | none => s
    | some d =>
      let fin := min (d.turnEnd count) (cdTotal d.words)
      match s.unitAll (d.reads b (d.turnOf fin)) with
      | .wait t => t
      | .done got t => t.turnMove b d fin got) s

/-- Reads a descriptor's whole index list, from its store or from global memory; with the list the cause and address of the first access that
failed; no list while an access is on its way or refused (R154, R169). -/
def State.idxRead (s : State) (b : BuckerId) (d : Desc) : Option (List (Option W32)) × Option (Nat × Nat) × State :=
  let ws := d.words
  let ax := cdLoc (cdAuxSp ws) (cdAux ws)
  let of_ := fun (st : Store) (k : Nat) =>
    if st.poisoned (ax.2 + 4 * k) 4 then none else some (BitVec.ofNat 32 (st.readNat (ax.2 + 4 * k) 4))
  let n := cdExt ws 1
  match cdAuxSp ws, b with
  | 0, .tile dd t _ =>
    let s1 := s.accstStep dd t
    (some ((List.range n).map (of_ (s1.tile dd t).ls)), none, s1)
  | 1, _ =>
    (List.range n).foldl (fun (acc : Option (List (Option W32)) × Option (Nat × Nat) × State) k =>
      match acc.1 with
      | none => acc
      | some l =>
        match acc.2.2.landGate b (k == 0 || (ax.2 + 4 * k) % 128 == 0) ax.1 (ax.2 + 4 * k) with
        | .refused u => (none, none, u)
        | .answer _ u => (some (l ++ [none]), none, u)
        | .go u => (some (l ++ [of_ (alGet {} u.landing ax.1) k]), none, u)) (some [], none, s)
  | _, _ =>
    let xs := readReqs (.bucker b d.serial) .bread d.space ax.2 (4 * n)
    match s.unitAll xs with
    | .wait t => (none, none, t)
    | .done got t =>
      let bytes := got.flatMap (fun e => (readBytes e.1 e.2).1)
      let bad := got.flatMap (fun e => (readBytes e.1 e.2).2)
      let one := fun (k : Nat) => if bad.contains ((ax.2 + 4 * k) / 32) then none else some (BitVec.ofNat 32 (byteFld bytes (4 * k) 4))
      let fail := got.findSome? (fun e => match unitCause e.2 with | some 8 => none | some c => some (c, e.1.va) | none => none)
      (some ((List.range n).map one), fail, t.unitEnd xs)

/-- INDEX_LIST_READ: the whole list is known; a row that fails the late check ends the descriptor with nothing moved; a poisoned SCATTER
index is an error (R154, R455). -/
def execIndexListRead (b : BuckerId) (s : State) : Host.Outcome State Fault Refusal :=
  when_ (s.buckerRuns b) (fun s =>
    match s.activeDesc b with
    | none => s
    | some d =>
      if !(cdIndexed d.words) || d.idx.isSome then s
      else
        let r := s.idxRead b d
        match r.1 with
        | none => r.2.2
        | some l =>
          let ax := (cdLoc (cdAuxSp d.words) (cdAux d.words)).2
          if cdLateBad d.words l (d.lsBase, d.lsSize) d.wins then
            let d1 := { d with idx := some l, pos := cdTotal d.words }
            (r.2.2.putDesc b d1).copyErrAt b d1 5 d.where_
          else
            let d1 := { d with idx := some l }
            let s1 := r.2.2.putDesc b d1
            match r.2.1 with
            | some (cause, at_) => s1.copyErrAt b d1 cause at_
            | none =>
              match indexWhere (fun (x : Option W32) => x.isNone) l with
              | some k => if cdKind d.words = 2 then s1.copyErrAt b d1 8 (ax + 4 * k) else s1
              | none => s1) s

/-- COPY records of a stream before one, in order. -/
def State.copiesBefore (s : State) (d : Desc) : List Flight :=
  ((s.stream d.stream).flights.takeWhile (fun f => f.addr != d.recAddr)).filter (fun f => f.typ == 2)

/-- The COPY record of a descriptor. -/
def State.copyFlight (s : State) (d : Desc) : Option Flight :=
  (s.stream d.stream).flights.find? (fun f => f.addr == d.recAddr && f.typ == 2)

/-- Everything R165 asks for has landed, and no unreported error holds the flag (R165, R168). -/
def State.flagReady (s : State) (b : BuckerId) (d : Desc) : Bool :=
  s.dataLanded b d &&
  match b with
  | .tile dd t ch =>
    ((s.descs b).takeWhile (fun x => x.serial != d.serial)).all (fun x =>
        s.dataLanded b x && (!(cdFlag x.words) || x.flagIssued || s.flagLost b x))
    && (s.tile dd t).crews.all (fun e => e.2.copyErr.all (fun x => x.2.2.1 != ch || decide (d.serial < x.2.2.2)))
  | .heavy _ _ =>
    (match s.copyFlight d with
     | some f => decide (wfld (nth 0 f.words 2) 0 13 ≤ f.handed)
     | none => false)
    && (s.copiesBefore d).all (fun f => f.fin.isSome && f.err.isNone)
    && s.heavy.all (fun e => e.2.all (fun x =>
        x.stream != d.stream || x.recAddr != d.recAddr || s.dataLanded (.heavy (e.1 / 8) (e.1 % 8)) x))

/-- FLAGGED_FINAL_WRITE: the 4-byte write of FVAL is issued (R165). -/
def execFlaggedFinalWrite (b : BuckerId) (serial : Nat) (s : State) : Host.Outcome State Fault Refusal :=
  when_ (s.buckerRuns b) (fun s =>
    match s.descOf b serial with
    | none => s
    | some d =>
      if cdFlag d.words && !d.flagIssued && !(s.flagLost b d) && s.flagReady b d then
        let l := cdLoc (cdFsp d.words) (cdFaddr d.words)
        let x : CopyW := { sp := cdFsp d.words, die := l.1, off := l.2, n := 4, val := cdFval d.words, poisoned := false }
        let go := s.landEnter b [x]
        if !go.1 then go.2
        else
          let d1 := { d with flagIssued := true }
          if x.sp ≤ 1 then (go.2.putDesc b d1).putSectors b [x] else (go.2.putDesc b d1).putRun b d1 x
      else s) s

/-- A COPY record whose descriptors are all complete has its status (R166, Table 14.12). -/
def Flight.copyDone (f : Flight) : Flight :=
  if f.finished < wfld (nth 0 f.words 2) 0 13 then f
  else { f with fin := some (match f.err with
    | some (k, c) => (4, BitVec.ofNat 64 (k + c * 65536))
    | none => (0, 0)) }

/-- Changes the COPY record of a descriptor. -/
def State.onCopy (s : State) (stream addr : Nat) (g : Flight → Flight) : State :=
  s.setStream stream { s.stream stream with flights := (s.stream stream).flights.map (fun f =>
    if f.addr = addr ∧ f.typ = 2 then (g f).copyDone else f) }

/-- DESCRIPTOR_COMPLETE: the last write has landed, the flag included; the crew's outstanding-copy count falls, or the COPY record is one
nearer its end (R81, R166). -/
def execDescriptorComplete (b : BuckerId) (serial : Nat) (s : State) : Host.Outcome State Fault Refusal :=
  when_ s.serves (fun s =>
    match s.descOf b serial with
    | none => s
    | some d =>
      if s.dataLanded b d && (!(cdFlag d.words) || d.flagIssued || s.flagLost b d) then
        let s1 := s.setDescs b ((s.descs b).filter (fun x => x.serial != serial))
        match b, d.crew with
        | .tile _ _ _, some c => s1.onCrew c (fun v => { v with copies := v.copies - 1 })
        | _, _ => s1.onCopy d.stream d.recAddr (fun f => { f with finished := f.finished + 1 })
      else s) s

/-- The trap-style cause of a failing answer (Table 3.15, R169). -/
def copyCause : AccResult → Nat
  | .xlatError => 7
  | _ => 6

/-- COPY_DATA_PATH_ERROR: a copy's write met a decode error, an error reply or a host failure: the write is discarded and the error noted
(R168, R169). -/
def execCopyDataPathError (b : BuckerId) (serial cause addr : Nat) (s : State) : Host.Outcome State Fault Refusal :=
  when_ s.serves (fun s =>
    let hit := fun (r : Req) => r.va == addr && (match r.stage with | .replied x => x.fails && copyCause x == cause | _ => false)
    match (s.copyOut b serial).find? hit, s.descOf b serial with
    | some r, some d => (s.dropReq r.id).copyErrAt b d cause addr
    | some r, none => s.dropReq r.id
    | _, _ => s) s

/-- A CHAN_EVAC on a foundation die holds its heavy Bucker 7 (R149, R278). -/
def State.evacHolds (s : State) (die b : Nat) : Bool :=
  b == 7 && s.acts.any (fun (a : Act) => a.code == 5 && a.die == die && a.state == 0)

/-- The dispatcher reads a COPY record's next descriptor from memory (R149, R159). -/
def State.descRead (s : State) (n : Nat) (v : Stream) (f : Flight) : WordsOut :=
  s.readWords (.stream n f.addr) v.space (wfld (nth 0 f.words 1) 0 52 + 64 * f.handed) 8

/-- HEAVY_BUCKER_TAKE: a free masked heavy Bucker takes the next descriptor in array order and checks it; one that fails or cannot be read
performs nothing (R149, R159). -/
def execHeavyBuckerTake (die b n addr : Nat) (s : State) : Host.Outcome State Fault Refusal :=
  when_ (s.buckerRuns (.heavy die b) && decide (b < 8) && !(s.evacHolds die b)) (fun s =>
    let v := s.stream n
    let id := BuckerId.heavy die b
    let mask := fun (f : Flight) => bitOf (wfld (nth 0 f.words 2) 16 8) b && f.die == die
    match v.flights.find? (fun f => f.addr == addr && f.typ == 2 && f.fin.isNone) with
    | none => s
    | some f =>
      let earlier := (v.flights.takeWhile (fun x => x.addr != addr)).any (fun x =>
        x.typ == 2 && x.fin.isNone && mask x && decide (x.handed < wfld (nth 0 x.words 2) 0 13))
      if !(mask f) || earlier || decide (wfld (nth 0 f.words 2) 0 13 ≤ f.handed) || !((s.descs id).all Desc.moved) then s
      else
        let refuse := fun (t : State) (cause : Nat) => t.onCopy n addr (fun x =>
          { x with handed := x.handed + 1, finished := x.finished + 1,
                   err := (match x.err with | some e => some (if f.handed < e.1 then (f.handed, cause) else e) | none => some (f.handed, cause)) })
        match s.descRead n v f with
        | .wait u => u
        | .fail .poison _ u => refuse u 8
        | .fail .translation _ u => refuse u 7
        | .fail .decode _ u => refuse u 6
        | .ok ws u =>
          match cdCheck ws none v.wins with
          | some cause => refuse u cause
          | none =>
            let d := { newDesc u.serial ws with
              stream := n, recAddr := addr, index := f.handed, wins := v.wins, space := v.space }
            let u1 := u.setDescs id (u.descs id ++ [d])
            ({ u1 with serial := u.serial + 1 }).onCopy n addr (fun x => { x with handed := x.handed + 1 })) s

end Sys2Proof.Machine
end

