-- ==== Sys2Proof/Machine/CacheCmds.lean ====
section
/-! DEFINITION. Accesses at their homes, fills, the eviction buffer, failing ways and the registers that a read resets (chapter 8;
R234, R284, R297). -/

namespace Sys2Proof.Machine

/-- An accepted access may be taken by its home now. -/
def State.arrives (s : State) (id : Nat) (ok : Req → Bool) : Bool :=
  match s.req id with
  | some r => s.serves && decide (r.stage = .sent) && s.homeHere (r.pa / 128) && ok r && !(s.earlier r)
  | none => false

/-- HOME_ACCESS: an access reaches its home slice (R206–R213), and meets there the errors that come with the command (R215, R277). -/
def execHomeAccess (id : Nat) (errs : AccErrs) (s : State) : Host.Outcome State Fault Refusal :=
  when_ (s.arrives id (fun r => !(hostLine (r.pa / 128)))) (fun s =>
    match s.req id with
    | some r => (s.setReq { r with errs := errs }).homeStep (.acc id)
    | none => s) s

/-- RDC: the home takes an uncached read (Table 9.9). -/
def execRdc (id : Nat) (s : State) : Host.Outcome State Fault Refusal :=
  when_ (s.arrives id (fun r => !r.kind.writes)) (fun s => s.homeStep (.acc id)) s

/-- WR: the home takes an uncached write (Table 9.9). -/
def execWrReq (id : Nat) (s : State) : Host.Outcome State Fault Refusal :=
  when_ (s.arrives id (fun r => r.kind == .store || r.kind == .bwrite)) (fun s => s.homeStep (.acc id)) s

/-- AT: the home takes an uncached atomic or reduction (Table 9.9). -/
def execAtReq (id : Nat) (s : State) : Host.Outcome State Fault Refusal :=
  when_ (s.arrives id (fun r => r.kind == .atomic || r.kind == .red || r.kind == .redl)) (fun s => s.homeStep (.acc id)) s

/-- The way a fill installs in: the one kept for it while that way is in service, else another; while none can be had the fill waits (R209). -/
def Slice.fillWay (v : Slice) (f : Fill) : Option (Slice × Nat) :=
  if v.enabled f.way then some (v, f.way)
  else (v.choose (setOf f.addr)).bind (fun w => (v.evict (setOf f.addr) w false).map (fun v1 => (v1, w)))

/-- L2_FILL_RETURN: the line comes from memory and the waiting accesses are applied in order (R208, R214); a fill ordered behind
an eviction write comes after its acknowledgement. A sector whose transfer fails a fifth time comes as poison (R277). -/
def execL2FillReturn (line : Nat) (crc : List Nat) (s : State) : Host.Outcome State Fault Refusal :=
  when_ (s.serves && !(hostLine line) && (s.lineSlice line).fills.any (fun f => f.addr == line)
      && ((s.lineSlice line).evIndex line).isNone) (fun s =>
    let v := s.lineSlice line
    match v.fills.find? (fun f => f.addr == line) with
    | none => s
    | some f =>
      match ({ v with fills := v.fills.filter (fun g => g.addr != line) }).fillWay f with
      | none => s
      | some fw =>
        let s1 := (s.setLineSlice line (fw.1.install fw.2 line ((s.memLine line).lose (crcLost crc)) false)).countRead line
        f.waiters.foldl State.homeStep (s1.linkRead line crc)) s

/-- EVICTION_WRITE_ISSUE: the controller takes an entry's write; accesses after it see the line as written (R212); a sector whose transfer
fails a fifth time is recorded as poisoned (R277). -/
def execEvictionWriteIssue (line : Nat) (crc : List Nat) (s : State) : Host.Outcome State Fault Refusal :=
  when_ (s.serves && !(hostLine line) && (s.lineSlice line).evb.any (fun e => e.addr == line && !e.issued)
      && !(s.memBlocked line)) (fun s =>
    let v := s.lineSlice line
    match v.evb.find? (fun e => e.addr == line && !e.issued) with
    | some e =>
      ((s.setLineSlice line { v with evb := v.evb.map (fun x => if x.addr = line then { x with issued := true } else x) }).linkWrite line crc).putMem line (e.line.lose (crcLost crc))
    | none => s) s

/-- EVICTION_WRITE_ACK: the line's oldest issued entry is freed; lines and requests that waited for room go on (R212, R217). -/
def execEvictionWriteAck (line : Nat) (s : State) : Host.Outcome State Fault Refusal :=
  when_ (s.serves && !(hostLine line) && (s.lineSlice line).evb.any (fun e => e.addr == line && e.issued)) (fun s =>
    let v := s.lineSlice line
    let h := s.homeOf line
    ((s.setLineSlice line { v with evb := v.evb.eraseP (fun e => e.addr == line && e.issued) }).drainWays h.1 h.2).drainHome line) s

/-- CLEAN_VICTIM_OFFER: a cluster's clean victim at its home slice, allocated or declined (R210). The data is the home's, or the
victim is not clean. -/
def execCleanVictimOffer (cluster line : Nat) (data : Line) (s : State) : Host.Outcome State Fault Refusal :=
  when_ (s.serves && decide (cluster < 8) && !(hostLine line) && s.isMem (line * 128) && (s.busyRec line).isNone
      && !((s.lineSlice line).fills.any (fun f => f.addr == line)) && data == s.homeData line
      && (match s.dirOf line with | some (some _, _) => false | _ => true)) (fun s => s.offerClean line data) s

/-- WAY_DISABLE: a way at 16 corrected errors in 24 hours is disabled, or its slice flagged (R216–R218). -/
def execWayDisable (die k way : Nat) (s : State) : Host.Outcome State Fault Refusal :=
  when_ (s.serves && decide (die < 4) && decide (k < 32) && decide (way < 16)) (fun s => s.wayLimit die k way) s

/-- MEM_L2_WAY_READ: the read resets EVHI to the occupancy (R219). -/
def execMemL2WayRead (die k : Nat) (s : State) : Host.Outcome State Fault Refusal :=
  when_ (s.serves && decide (die < 4) && decide (k < 32)) (fun s =>
    s.setSlice die k { s.slice die k with evhi := (s.slice die k).evb.length }) s

/-- MEM_STACK_TEMP_READ: the read resets TMAX to the highest current temperature (R284). -/
def execMemStackTempRead (die : Nat) (s : State) : Host.Outcome State Fault Refusal :=
  when_ (s.serves && decide (die < 4)) (fun s =>
    { s with tmax := alPut s.tmax die (((List.range 3).map (fun k => (alGet {} s.hbm (die * 3 + k)).temp)).foldl max 0) }) s

/-- COL_SAT_READ: the read resets REFUSE and SATUS (R297). -/
def execColSatRead (die l : Nat) (s : State) : Host.Outcome State Fault Refusal :=
  when_ (s.serves && decide (die < 4) && decide (l < 10)) (fun s =>
    { s with colSat := alPut s.colSat (die * 10 + l) (0, 0, (alGet (0, 0, 0) s.colSat (die * 10 + l)).2.2) }) s

end Sys2Proof.Machine
end

