-- ==== Sys2Proof/Machine/Cairn.lean ====
section
/-! DEFINITION. Cairn: safety profile and seal, identity and attestation, debug levels, lifecycle, lockstep, boundary scan
(chapters 15, 17). -/

namespace Sys2Proof.Machine

/-- SAFE_STATUS as read (R406). -/
def State.safeStatus (s : State) : Nat :=
  let c := s.cairn
  b2n c.armed + b2n c.pending.isSome * 2 + (c.lc % 4) * 4 + (c.dbg % 4) * 16 + (c.dkey % 8) * 64 + (s.power.pstate % 8) * 512
    + (min 15 c.mism) * 4096 + (min 255 c.refc) * 65536

/-- SAFETY_PROFILE's own part: a field out of range is PROFILE_INVALID; an accepted profile is pending (R407, Table 17.1). -/
def doSafetyProfile (_p : Port) (k : Packet) (s : State) : EbOut :=
  let b := pktData k
  let tj := byteFld b 0 1
  let hbm := byteFld b 1 1
  let ceil := byteFld b 2 2
  let cool := byteFld b 4 1
  let sup := byteFld b 5 1
  if 106 ≤ tj ∧ tj ≤ 118 ∧ 96 ≤ hbm ∧ hbm ≤ 100 ∧ 600 ≤ ceil ∧ ceil ≤ 2800 ∧ cool ≤ 1 ∧ sup ≤ 1 then
    .reply 0 [] { s with cairn := { s.cairn with pending := some { tj := tj, hbm := hbm, ceil := ceil, cool := cool, supply := sup, bytes := b } } }
  else .reply 0x0301 [] s

/-- The registers sealed by a profile, with STAGE 3 and the TYPE 5 measurement; a limit above the new ceiling is lowered to it
at the next budget exchange (R408). -/
def State.seal (s : State) (q : Profile) : State :=
  let s1 : State := { s with
    cairn := { s.cairn with tjTrip := q.tj, hbmTrip := q.hbm, powerCeil := q.ceil, coolantAction := q.cool, supplyAction := q.supply,
                            armed := true, pending := none }
    plat := { s.plat with stage := 3 } }
  let s2 := s1.measure 5 0 (shake 64 q.bytes)
  if s2.powerCeil < s2.power.newLimit.getD s2.power.limit then { s2 with power := { s2.power with newLimit := some s2.powerCeil } } else s2

/-- SAFETY_ARM's own part (R408). -/
def doSafetyArm (_p : Port) (_k : Packet) (s : State) : EbOut :=
  match s.cairn.pending with
  | none => .reply 0x0303 [] s
  | some q => let t := s.seal q; .reply 0 (leBytes 8 t.safeStatus) t

/-- SAFETY_PROFILE (R407). -/
def execSafetyProfile (p : Port) (k : Packet) (s : State) : Host.Outcome State Fault Refusal :=
  .next (s.ebior 0x0301 p k (doSafetyProfile p k))
/-- SAFETY_ARM (R408). -/
def execSafetyArm (p : Port) (k : Packet) (s : State) : Host.Outcome State Fault Refusal :=
  .next (s.ebior 0x0302 p k (doSafetyArm p k))

/-- The 16-byte die-set identity of QUERY_IDENTITY. -/
def dieSetId : List Byte := padTo 16 Free.dieSet

/-- QUERY_IDENTITY's own part (R349, Table 14.6). -/
def doQueryIdentity (_p : Port) (_k : Packet) (s : State) : EbOut :=
  .reply 0 (leBytes 2 0x4000 ++ leBytes 1 0 ++ leBytes 1 s.plat.stage ++ leBytes 4 Free.enterprise ++ dieSetId
    ++ leBytes 8 (if s.plat.stage = 0 then 0 else s.cairn.fwVersion)) s

/-- QUERY_IDENTITY (R349). -/
def execQueryIdentity (p : Port) (k : Packet) (s : State) : Host.Outcome State Fault Refusal :=
  .next (s.ebior 0x0401 p k (doQueryIdentity p k))

/-- The seed ξ of the identity key (R371): SHAKE256 of the fused seed, "LYSEG-ID" and the stepping byte, 32 bytes. -/
def Fuses.xi (f : Fuses) : List Byte :=
  shake 32 (f.identity.getD [] ++ [0x4C#8, 0x59#8, 0x53#8, 0x45#8, 0x47#8, 0x2D#8, 0x49#8, 0x44#8] ++ [0x00#8])

/-- A new attestation report, signed (R370). -/
def State.attestReport (s : State) (nonce : List Byte) : List Byte :=
  let head := nonce ++ leBytes 2 s.cairn.log.length ++ leBytes 1 s.plat.stage ++ leBytes 1 s.cairn.lc ++ leBytes 1 s.cairn.dbg
    ++ leBytes 1 s.power.pstate ++ leBytes 26 0 ++ padTo 1952 (Free.mldsaPk s.fuses.xi) ++ (s.cairn.log.map Meas.bytes).flatten
  head ++ padTo 3309 (Free.mldsaSign s.fuses.xi (shake 64 head)) ++ leBytes 3 0

/-- The part of a report from an offset: its length, then up to 1,020 bytes (R370). -/
def reportPart (r : List Byte) (off : Nat) : List Byte := leBytes 4 r.length ++ (r.drop off).take 1020

/-- ATTEST's own part (R370, Table 17.2, R410). -/
def doAttest (_p : Port) (k : Packet) (s : State) : EbOut :=
  let nonce := (pktData k).take 32
  let off := byteFld (pktData k) 32 4
  if s.cairn.lc = 3 ∨ s.cairn.idErased ∨ (s.cairn.lc = 0 ∧ s.fuses.identity = none) then .reply 5 [] s
  else if off = 0 then
    let r := s.attestReport nonce
    .reply 0 (reportPart r 0) { s with cairn := { s.cairn with report := some r } }
  else match s.cairn.report with
    | some r => if r.take 32 = nonce then .reply 0 (reportPart r off) s else .reply 0x0401 [] s
    | none => .reply 0x0401 [] s

/-- ATTEST (R370). -/
def execAttest (p : Port) (k : Packet) (s : State) : Host.Outcome State Fault Refusal :=
  .next (s.ebior 0x0402 p k (doAttest p k))

/-- Releases every debug halt and breakpoint (R414); halted crews resume at their next instruction. -/
def State.releaseDebug (s : State) : State :=
  { s with tiles := s.tiles.map (fun e => (e.1, { e.2 with halted := false, stepping := none }))
           dbgUnit := { s.dbgUnit with bk := [] } }

/-- The debug-unlock key: an image key slot's fused hash, intact, or the debug key's (R411). -/
def Fuses.keyFor (f : Fuses) (key : Nat) : Option (List Byte) :=
  if key = 4 then f.debugHash else if bitOf f.revoked.toNat key then none else nth none f.keyHash key

/-- The level code is permitted for the key in the lifecycle state (Tables 17.2, 17.3). -/
def State.levelPermitted (s : State) (level key : Nat) : Bool :=
  let lc := s.cairn.lc
  let dbgKey := key == 4
  let running := decide (key = s.cairn.keyslot)
  if level = 1 then
    (match lc with
     | 0 => dbgKey
     | 1 => dbgKey || (s.fuses.keyFor key).isSome
     | 2 => dbgKey || running
     | _ => false)
  else if level = 2 then (match lc with | 1 => dbgKey || running | _ => dbgKey)
  else if level = 0x10 then decide (lc = 0) && dbgKey
  else if level = 0x11 then (decide (lc = 0) && dbgKey) || (decide (lc = 1) && (dbgKey || running))
  else if level = 0x12 then decide (lc ≤ 2) && (dbgKey || running)
  else false

/-- A refusal of DEBUG_UNLOCK: counted, and the attempt ends (R412). -/
def State.refuseUnlock (s : State) : State :=
  { s with cairn := { s.cairn with refc := satAdd 255 s.cairn.refc 1, challenge := none } }

/-- The bytes of a debug event's measurement (R413). -/
def debugValue (level key lc stage : Nat) (challenge : List Byte) : List Byte :=
  leBytes 1 level ++ leBytes 1 key ++ leBytes 1 lc ++ leBytes 1 stage ++ padTo 32 challenge ++ leBytes 28 0

/-- Grants a level or an advance once the signature verified (R410, R413). -/
def State.grantDebug (s : State) (c : Challenge) : State :=
  let v := debugValue c.level c.key s.cairn.lc s.plat.stage c.value
  let s0 := { s with cairn := { s.cairn with challenge := none } }
  if c.level = 1 ∨ c.level = 2 then
    let s1 := if s.cairn.dbg = 2 ∧ c.level = 1 then s0.releaseDebug else s0
    ({ s1 with cairn := { s1.cairn with dbg := c.level, dkey := c.key } }).measure 6 c.level v
  else
    let s1 := s0.measure 6 c.level v
    if c.level = 0x10 then { s1 with fuses := { s1.fuses with dev := true } }
    else if c.level = 0x11 then { s1 with fuses := { s1.fuses with fld := true } }
    else
      let s2 := s1.releaseDebug
      { s2 with fuses := { s2.fuses with scr := true }
                cairn := { s2.cairn with lc := 3, dbg := 0, dkey := 7, idErased := true } }

/-- M of a debug unlock (R411). -/
def unlockMessage (lc : Nat) (c : Challenge) : List Byte :=
  shake 64 ([0x4C#8, 0x59#8, 0x53#8, 0x45#8, 0x47#8, 0x2D#8, 0x44#8, 0x42#8, 0x47#8] ++ c.value ++ leBytes 1 c.level ++ leBytes 1 c.key
    ++ dieSetId ++ leBytes 1 lc)

/-- DEBUG_UNLOCK's own part, by the phase of byte 0 (R411–R413, Table 17.4). Bytes 3,313–3,315 of phase 2 that are not zero, as the table
lists them, are answered as a failed check is, which the table does not say (DESIGN CHOICE, log entry 67). -/
def doDebugUnlock (rand : List Byte) (p : Port) (k : Packet) (s : State) : EbOut :=
  let b := pktData k
  let level := byteFld b 1 1
  let key := byteFld b 2 1
  match byteFld b 0 1 with
  | 0 =>
    let s0 := { s with cairn := { s.cairn with challenge := none } }
    if 16 ≤ s.cairn.refc then .reply 0x0A01 [] s0.refuseUnlock
    else if level ∉ [1, 2, 0x10, 0x11, 0x12] ∨ 4 < key then .reply 7 [] s0
    else if !(s.levelPermitted level key) then .reply 0x0A02 [] s0
    else if (s.fuses.keyFor key).isNone then .reply 0x0A01 [] s0.refuseUnlock
    else
      let ch := padTo 32 rand
      .reply 0 ch { s0 with cairn := { s0.cairn with challenge := some { port := p, level := level, key := key, value := ch, pk := none, until_ := s.now + 10000000000 } } }
  | 1 =>
    if level ∉ [1, 2, 0x10, 0x11, 0x12] ∨ 4 < key then .reply 7 [] s
    else match s.cairn.challenge with
    | some c =>
      let pk := (b.drop 4).take 1952
      if c.port = p ∧ c.level = level ∧ c.key = key ∧ c.pk = none ∧ s.fuses.keyFor key = some (shake 32 pk) then
        .reply 0 [] { s with cairn := { s.cairn with challenge := some { c with pk := some pk } } }
      else .reply 0x0A01 [] s.refuseUnlock
    | none => .reply 0x0A01 [] s.refuseUnlock
  | 2 =>
    if level ∉ [1, 2, 0x10, 0x11, 0x12] ∨ 4 < key then .reply 7 [] s
    else match s.cairn.challenge with
    | some c =>
      if c.port = p ∧ c.level = level ∧ c.key = key ∧ c.pk.isSome ∧ byteFld b 3313 3 = 0
          ∧ Free.mldsaVerify (c.pk.getD []) (unlockMessage s.cairn.lc c) ((b.drop 4).take 3309) then
        .reply 0 [] (s.grantDebug c)
      else .reply 0x0A01 [] s.refuseUnlock
    | none => .reply 0x0A01 [] s.refuseUnlock
  | _ => .reply 7 [] s

/-- DEBUG_UNLOCK phase 0 (R411). -/
def execDebugUnlockChallenge (p : Port) (k : Packet) (rand : List Byte) (s : State) : Host.Outcome State Fault Refusal :=
  .next (s.ebior 0x0A01 p k (doDebugUnlock rand p k))
/-- DEBUG_UNLOCK phase 1 (R411). -/
def execDebugUnlockKey (p : Port) (k : Packet) (s : State) : Host.Outcome State Fault Refusal :=
  .next (s.ebior 0x0A01 p k (doDebugUnlock (Free.challenge s.fresh) p k))
/-- DEBUG_UNLOCK phase 2 (R413). -/
def execDebugUnlockSignature (p : Port) (k : Packet) (s : State) : Host.Outcome State Fault Refusal :=
  let own := doDebugUnlock (Free.challenge s.fresh) p k
  .next (s.ebior 0x0A01 p k own)

/-- CHALLENGE_EXPIRY: the challenge's 10 s have passed (R412). -/
def execChallengeExpiry (s : State) : Host.Outcome State Fault Refusal :=
  when_ (s.on && s.cairn.challenge.any (fun c => s.due c.until_)) (fun s => { s with cairn := { s.cairn with challenge := none } }) s

/-- DEBUG_LOCK's own part: halts and breakpoints released, level Closed, TYPE 6 with ARG 0 (R414). -/
def doDebugLock (_p : Port) (_k : Packet) (s : State) : EbOut :=
  let s1 := s.releaseDebug
  let s2 : State := { s1 with cairn := { s1.cairn with dbg := 0, dkey := 7 } }
  .reply 0 [] ((s2.measure 6 0 (Free.lockValue s.fresh)).drawn)

/-- DEBUG_LOCK (R414). -/
def execDebugLock (p : Port) (k : Packet) (s : State) : Host.Outcome State Fault Refusal :=
  .next (s.ebior 0x0A02 p k (doDebugLock p k))

/-- POWER_LIMIT_SET's own part: out of range has no effect; in Run and Idle the reply waits for the budget exchange, in Park and
Halt it gives the limit still in force (R375, R394, R403). -/
def doPowerLimitSet (p : Port) (k : Packet) (s : State) : EbOut :=
  let l := byteFld (pktData k) 0 2
  if l < 600 ∨ s.powerCeil < l then .reply 0x0B01 [] s
  else
    let s1 := { s with power := { s.power with newLimit := some l, supl := false } }
    if s.power.pstate ≤ 1 then .hold { s1 with power := { s1.power with limitPorts := s1.power.limitPorts ++ [p] } }
    else .reply 0 (leBytes 2 s.power.limit) s1

/-- POWER_LIMIT_SET (R375). -/
def execPowerLimitSet (p : Port) (k : Packet) (s : State) : Host.Outcome State Fault Refusal :=
  .next (s.ebior 0x0B01 p k (doPowerLimitSet p k))

/-- LOCKSTEP_MISMATCH: the pair resets and restarts, the mismatch is logged and counted; a third within 1 s halts the package for
good (R405). -/
def execLockstepMismatch (s : State) : Host.Outcome State Fault Refusal :=
  when_ s.on (fun s =>
    let times := (s.now :: s.cairn.mismTimes.filter (fun t => decide (s.now < t + 1000000000))).take 3
    let s1 : State := { s with cairn := { s.cairn with restarting := true, mism := satAdd 15 s.cairn.mism 1, mismTimes := times } }
    let s2 := s1.logEv 0x0012 4 1 [s1.cairn.mism]
    if 3 ≤ times.length then
      let s3 := s2.halt (Free.mismLasth % 16)
      { s3 with power := { s3.power with mismHalt := true } }
    else s2) s

/-- IDCODE's value (R422). -/
def idcodeValue : Nat := 0x4000 * 4096 + (Free.jedec % 2048) * 2 + 1

/-- The boundary register's pins in R422's order, bit 0 first (DESIGN CHOICE, log entry 7). -/
def State.pins (s : State) : Nat :=
  b2n (!s.plat.perst) + (Free.i3cPins s.fresh % 4) * 2 + b2n (!s.power.warnPin) * 8 + b2n s.plat.on * 16 + b2n s.plat.coolant * 32
    + b2n (!s.plat.thermTrip) * 64 + s.plat.straps.toNat * 128

/-- The pin-driving instructions take effect in Test and Scrap, or at STAGE 0 (R423). -/
def State.scanAllowed (s : State) : Bool :=
  decide (s.cairn.lc = 0) || decide (s.cairn.lc = 3) || decide (s.plat.stage = 0)

/-- Loads a pin-driving instruction, or BYPASS counted by Tally where it may not take effect (R423). -/
def State.scanDrive (s : State) (code : Nat) (dr : Option Nat) : State :=
  if s.scanAllowed then { s with jtag := { instr := code, dr := dr.getD s.jtag.dr } }
  else ({ s with jtag := { s.jtag with instr := 0xFF } }).count (svc 14)

/-- EXTEST (R422, R423). -/
def execExtest (s : State) : Host.Outcome State Fault Refusal :=
  when_ s.plat.on (fun s => (s.scanDrive 0 (some s.pins)).drawn) s
/-- IDCODE (R422). -/
def execIdcode (s : State) : Host.Outcome State Fault Refusal :=
  when_ s.plat.on (fun s => { s with jtag := { instr := 1, dr := idcodeValue } }) s
/-- SAMPLE/PRELOAD (R422). -/
def execSamplePreload (s : State) : Host.Outcome State Fault Refusal :=
  when_ s.plat.on (fun s => ({ s with jtag := { instr := 2, dr := s.pins } }).drawn) s
/-- CLAMP (R423). -/
def execClamp (s : State) : Host.Outcome State Fault Refusal :=
  when_ s.plat.on (fun s => s.scanDrive 3 none) s
/-- HIGHZ (R423). -/
def execHighz (s : State) : Host.Outcome State Fault Refusal :=
  when_ s.plat.on (fun s => s.scanDrive 4 none) s
/-- BYPASS, 0xFF or any code that names no other instruction (R422). -/
def execBypass (code : Byte) (s : State) : Host.Outcome State Fault Refusal :=
  when_ (s.plat.on && decide (5 ≤ code.toNat)) (fun s => { s with jtag := { s.jtag with instr := 0xFF } }) s

end Sys2Proof.Machine
end

