-- ==== Sys2Proof/Machine/CohCmds.lean ====
section
/-! DEFINITION. The coherence messages as homes and agents take them, dead agents, and CXL.cache towards the host (chapter 9;
R339). -/

namespace Sys2Proof.Machine

/-- A message is taken and acted on when its conditions hold; its ends are homes and agents that may take part (R221, R223). -/
def State.onMsg (s : State) (m : CMsg) (ok : Bool) (f : State → State) : Host.Outcome State Fault Refusal :=
  match s.takeMsg m with
  | some t => when_ (s.serves && ok && s.partOf m.line m.src && s.partOf m.line m.dst) (fun _ => f t) s
  | none => .next s

/-- An agent of another package, declared dead, has rejoined when a request of it comes after its reclamation here has been logged (DEDUCED from
R245 and R246, log entry 70). -/
def State.rejoined (s : State) (a : Nat) : Bool :=
  s.dead.contains a && !(s.ownAgent a) && (alFind s.reclaimed a).isNone && !(s.notices.contains (a, 0x7F))

/-- A request taken by its home, where it meets the errors that come with the command (R215, R277). -/
def State.homeMsg (s : State) (op : MsgOp) (m : CMsg) (errs : AccErrs := {}) : Host.Outcome State Fault Refusal :=
  s.onMsg m (decide (m.op = op) && decide (m.dst = 0x7F) && s.homeHere m.line && (!(s.dead.contains m.src) || s.rejoined m.src)) (fun t =>
    ({ t with dead := if s.rejoined m.src then t.dead.filter (· != m.src) else t.dead } : State).homeStep (.msg { m with errs := errs }))

/-- RDS (R231). -/
def execRds (m : CMsg) (errs : AccErrs) (s : State) : Host.Outcome State Fault Refusal := s.homeMsg .rds m errs
/-- RDW (R231, R238). -/
def execRdw (m : CMsg) (errs : AccErrs) (s : State) : Host.Outcome State Fault Refusal := s.homeMsg .rdw m errs
/-- RDU (R231). -/
def execRdu (m : CMsg) (errs : AccErrs) (s : State) : Host.Outcome State Fault Refusal := s.homeMsg .rdu m errs
/-- UPG (R231). -/
def execUpg (m : CMsg) (errs : AccErrs) (s : State) : Host.Outcome State Fault Refusal := s.homeMsg .upg m errs
/-- VICD (R231, R211). -/
def execVicd (m : CMsg) (s : State) : Host.Outcome State Fault Refusal := s.homeMsg .vicd m
/-- VICC (R231, R210). -/
def execVicc (m : CMsg) (s : State) : Host.Outcome State Fault Refusal := s.homeMsg .vicc m

/-- A message taken by an agent of this package; a snoop for which its forward queue has no place waits (R237). -/
def State.agentMsg (s : State) (m : CMsg) (ok : Bool) (f : State → State) : Host.Outcome State Fault Refusal :=
  s.onMsg m (ok && s.ownAgent m.dst && !(s.dead.contains m.dst) && !(s.fqFull m.dst m)) f

/-- FWDS (R236). -/
def execFwds (m : CMsg) (s : State) : Host.Outcome State Fault Refusal := s.agentMsg m (decide (m.op = .fwds)) (fun t => t.agentSnoop m.dst m)
/-- FWDU (R236). -/
def execFwdu (m : CMsg) (s : State) : Host.Outcome State Fault Refusal := s.agentMsg m (decide (m.op = .fwdu)) (fun t => t.agentSnoop m.dst m)
/-- INV (R236, R238). -/
def execInv (m : CMsg) (s : State) : Host.Outcome State Fault Refusal := s.agentMsg m (decide (m.op = .inv)) (fun t => t.agentSnoop m.dst m)
/-- CUR (R236). -/
def execCur (m : CMsg) (s : State) : Host.Outcome State Fault Refusal := s.agentMsg m (decide (m.op = .cur)) (fun t => t.agentSnoop m.dst m)
/-- RCL (R236). -/
def execRcl (m : CMsg) (s : State) : Host.Outcome State Fault Refusal := s.agentMsg m (decide (m.op = .rcl)) (fun t => t.agentSnoop m.dst m)

/-- DataS, DataE or DataU at an agent (R237). -/
def execDataReceive (m : CMsg) (s : State) : Host.Outcome State Fault Refusal :=
  s.agentMsg m (decide (m.op = .datas) || decide (m.op = .datae) || decide (m.op = .datau)) (fun t => t.agentRecv m.dst m)
/-- CMP (R237). -/
def execCmp (m : CMsg) (s : State) : Host.Outcome State Fault Refusal := s.agentMsg m (decide (m.op = .cmp)) (fun t => t.agentRecv m.dst m)
/-- VCMP (R236). -/
def execVcmp (m : CMsg) (s : State) : Host.Outcome State Fault Refusal := s.agentMsg m (decide (m.op = .vcmp)) (fun t => t.agentRecv m.dst m)

/-- INVACK at the requester or at the home (R235, R237). -/
def execInvack (m : CMsg) (s : State) : Host.Outcome State Fault Refusal :=
  if m.dst = 0x7F then s.onMsg m (decide (m.op = .invack) && s.homeHere m.line) (fun t => t.homeAck m.line m.src)
  else s.agentMsg m (decide (m.op = .invack)) (fun t => t.agentRecv m.dst m)

/-- FWDDONE at the home, in home-ordered mode (R233). -/
def execFwddone (m : CMsg) (s : State) : Host.Outcome State Fault Refusal :=
  s.onMsg m (decide (m.op = .fwddone) && decide (m.dst = 0x7F) && s.homeHere m.line) (fun t =>
    match t.busyRec m.line with
    | some b => if b.due = some m.src then (t.setBusyRec m.line (some { b with due := none })).busyDone m.line else t
    | none => t)

/-- WBD at the home of a busy line; it waits while its data cannot be written (R235). -/
def execWbd (m : CMsg) (s : State) : Host.Outcome State Fault Refusal :=
  s.onMsg m (decide (m.op = .wbd) && decide (m.dst = 0x7F) && s.homeHere m.line) (fun t => (t.homeData? m.line m.src (some m.line')).getD s)

/-- RSPI at the home: its data is current (R235). -/
def execRspi (m : CMsg) (s : State) : Host.Outcome State Fault Refusal :=
  s.onMsg m (decide (m.op = .rspi) && decide (m.dst = 0x7F) && s.homeHere m.line) (fun t => (t.homeData? m.line m.src none).getD t)

/-- CACK at the home frees the line (R233). -/
def execCack (m : CMsg) (s : State) : Host.Outcome State Fault Refusal :=
  s.onMsg m (decide (m.op = .cack) && decide (m.dst = 0x7F) && s.homeHere m.line) (fun t =>
    match t.busyRec m.line with
    | some b =>
      (match b.why with
       | .coherent q _ => if q.src = m.src then (t.setBusyRec m.line (some { b with cack := false })).busyDone m.line else t
       | _ => t)
    | none => t)

/-- Dead notices for agents on their way to every home of the package and to its agents (R244). -/
def State.noticesHere (s : State) (l : List Nat) : State :=
  let new := l.filter (fun a => !(s.dead.contains a))
  { s with dead := new ++ s.dead
           notices := s.notices ++ new.flatMap (fun a => (a, 0x7F) :: ((List.range 9).map (fun k => (a, s.agentId k)))) }

/-- Sends a package of the coherence set a message on MGT (R244, Table 13.3); with no usable route it does not go. -/
def State.sendMgt (s : State) (slot : Nat) (dead : Option Nat) : State :=
  match s.egress (s.myBoard * 8 + slot) none with
  | some l => s.ridgeSend l { dest := s.agentAddr slot 0x7F, src := s.agentAddr s.mySlot 0x7F, vc := 2, hops := 6, req := 0, acc := none,
                              ans := none, dead := dead }
  | none => s

/-- The other packages of the coherence set. -/
def State.peers (s : State) : List Nat := if s.coherentSet then (bitsOf 8 (s.cfg.cohSet.getD 0)).filter (· != s.mySlot) else []

/-- HEARTBEAT: the time a cluster, a package of the set or a foundation die was last heard; this package's own goes to every package of the set on
the maintenance class of Ridge (R244, R302). -/
def execHeartbeat (b : Beat) (s : State) : Host.Outcome State Fault Refusal :=
  when_ s.serves (fun s =>
    let k := match b with | .cluster k => k | .package p => 16 + p | .foundation d => 32 + d
    let s1 : State := { s with beats := alPut s.beats k s.now }
    if b = .package s.mySlot then s1.peers.foldl (fun (t : State) p => t.sendMgt p none) s1 else s1) s

/-- Declares agents dead: the coherence engine sends a Dead notice of each to every home and every agent of the set (R244). -/
def State.declareDead (s : State) (l : List Nat) : State :=
  let new := l.filter (fun a => !(s.dead.contains a))
  s.peers.foldl (fun (t : State) p => new.foldl (fun (u : State) a => u.sendMgt p (some a)) t) (s.noticesHere l)

/-- CLUSTER_HEARTBEAT_TIMEOUT: no heartbeat for 8 µs, as from a cluster island that is lost (R244). -/
def execClusterHeartbeatTimeout (k : Nat) (s : State) : Host.Outcome State Fault Refusal :=
  when_ (s.serves && decide (k < 8) && decide (alGet 0 s.beats k + 8000 ≤ s.now)) (fun s => s.declareDead [s.agentId k]) s

/-- PACKAGE_HEARTBEAT_TIMEOUT: no package heartbeat for 200 µs; all its agents are dead (R244). -/
def execPackageHeartbeatTimeout (slot : Nat) (s : State) : Host.Outcome State Fault Refusal :=
  when_ (s.serves && s.coherentSet && bitOf (s.cfg.cohSet.getD 0) slot && decide (slot ≠ s.mySlot)
      && decide (alGet 0 s.beats (16 + slot) + 200000 ≤ s.now)) (fun s =>
    s.declareDead ((List.range 9).map (fun k => slot * 16 + k))) s

/-- CLUSTER_RESET: the driver resets a cluster; its caches are empty, its cores stop, and its agent is dead until its reclamation has been
logged (R244, R246). What it has sent goes on. -/
def execClusterReset (k : Nat) (s : State) : Host.Outcome State Fault Refusal :=
  when_ (s.serves && decide (k < 8)) (fun s =>
    let a := s.agentId k
    let over_ := s.dead.contains a && (alFind s.reclaimed a).isNone && !(s.notices.contains (a, 0x7F))
    let s1 : State := { s with agents := alPut s.agents a {}
                               cores := s.cores.map (fun (e : Nat × NCore) => (e.1, if e.1 / 8 = k then ({} : NCore) else e.2)) }
    if over_ then { s1 with dead := s1.dead.filter (· != a) }
    else ({ s1 with rejoin := if s1.rejoin.contains a then s1.rejoin else s1.rejoin ++ [a] } : State).declareDead [a]) s

/-- Requests of a dead agent leave a home's queues (Table 9.14). -/
def notOf (x : Nat) : Waiting → Bool
  | .msg m => m.src != x
  | _ => true

/-- Clears the requests of a dead agent from every queue and from those on their way. -/
def State.dropRequests (s : State) (x : Nat) : State :=
  { s with
    slices := s.slices.map (fun e => (e.1, { e.2 with
      waitq := e.2.waitq.filter (notOf x), fills := e.2.fills.map (fun f => { f with waiters := f.waiters.filter (notOf x) }) }))
    hostQ := s.hostQ.filter (notOf x)
    host := s.host.map (fun e => (e.1, { e.2 with waiters := e.2.waiters.filter (notOf x) }))
    msgs := s.msgs.filter (fun m => !(m.src == x && msgClass m.op == 0) && m.dst != x) }

/-- Writes a line poisoned at its home: where no eviction-buffer entry is to be had, to memory behind what is there (R245). -/
def State.homePoison (s : State) (line : Nat) : State :=
  match s.homeVictim line Line.dead with
  | some t => t
  | none =>
    let v := s.lineSlice line
    (s.setLineSlice line { v with evb := v.evb.map (fun e => if e.addr = line then { e with line := Line.dead } else e) }).putMem line Line.dead

/-- A busy line that waits for a dead agent, or for a request of it (Table 9.14); with the number of lines poisoned. -/
def State.reclaimBusy (s : State) (x : Nat) (b : Busy) : State × Nat :=
  let ofX := match b.why with | .coherent m _ => m.src == x | _ => false
  if ofX then ((s.setBusyRec b.addr none).drainHome b.addr, 0)
  else
    let data := b.due == some x && (match b.why with | .coherent _ _ => false | _ => true)
    let s1 := if data then s.homePoison b.addr else s
    let b1 := { b with acks := b.acks.filter (· != x), due := (if b.due = some x then none else b.due) }
    ((s1.setBusyRec b.addr (some b1)).busyDone b.addr, b2n data)

/-- A directory entry that names a dead agent (Table 9.14), with the number of lines poisoned; of a line still busy, whose snoops are out, the agent
is only removed. -/
def State.reclaimDir (s : State) (x line : Nat) : State × Nat :=
  match s.dirOf line with
  | none => (s, 0)
  | some (o, pres) =>
    if !(pres.contains x) then (s, 0)
    else
      let rest := pres.filter (· != x)
      let o1 := if o = some x then none else o
      if (s.busyRec line).isSome ∨ o ≠ some x then (s.setDir line o1 rest, 0)
      else
        let s1 := s.homePoison line
        if rest.isEmpty then (s1.setDir line none [], 1)
        else ((s1.snoopAll .inv line 0x7F rest).setBusyRec line (some { addr := line, why := .recall, acks := rest, due := none, cack := false }), 1)

/-- Every home of the package reclaims a dead agent (R245, Table 9.14). -/
def State.reclaim (s : State) (x : Nat) : State :=
  let s0 := s.dropRequests x
  let busy := (s0.slices.map (fun e => e.2.busy)).flatten ++ s0.hostBusy
  let s1 := busy.foldl (fun (acc : State × Nat) b => let q := acc.1.reclaimBusy x b; (q.1, acc.2 + q.2)) (s0, 0)
  let lines := (s1.1.slices.map (fun e => e.2.dir.map (fun d => d.2.addr))).flatten ++ s1.1.host.map (·.1)
  let r := lines.foldl (fun (acc : State × Nat) l => let q := acc.1.reclaimDir x l; (q.1, acc.2 + q.2)) s1
  ({ r.1 with reclaimed := alPut r.1.reclaimed x r.2 } : State).goSnoops

/-- DEAD_NOTICE at every home of the package (destination 0x7F), or at an agent, whose transactions with the dead one complete
(R245, R246). -/
def execDeadNotice (agent dst : Nat) (s : State) : Host.Outcome State Fault Refusal :=
  when_ (s.serves && s.notices.contains (agent, dst)) (fun s =>
    let s1 : State := { s with notices := s.notices.erase (agent, dst) }
    if dst = 0x7F then s1.reclaim agent
    else ((alGet {} s1.agents dst).lines.map (·.1)).foldl (fun (t : State) l => t.tryFinish dst l) s1) s

/-- RECLAMATION_COMPLETE: the homes have finished; the entry is logged, and a cluster that was reset rejoins (R245, R246). -/
def execReclamationComplete (agent : Nat) (s : State) : Host.Outcome State Fault Refusal :=
  when_ (s.serves && (alFind s.reclaimed agent).isSome) (fun s =>
    let n := alGet 0 s.reclaimed agent
    ({ s with reclaimed := alDel s.reclaimed agent
              rejoin := s.rejoin.filter (· != agent)
              dead := if s.rejoin.contains agent then s.dead.filter (· != agent) else s.dead }).logEv 0x0009 4 1 [agent, n]) s

/-- A host snoop is received: it is applied after those received before it (R197, R241, R242). While Cache_Enable is clear no host line is held, so
the answer is RspIHitI (R339). -/
def State.hostSnoop (s : State) (op half : Nat) : Host.Outcome State Fault Refusal :=
  when_ (s.runs && decide (s.plat.hpState = 1) && decide (half < 2 ^ 41)) (fun s =>
    ({ s with snoopQ := s.snoopQ ++ [(op, half)], snoopIn := s.snoopIn + 1 } : State).goSnoops) s

/-- SNPINV (R241). -/
def execSnpinv (half : Nat) (s : State) : Host.Outcome State Fault Refusal := s.hostSnoop 0 half
/-- SNPDATA (R241). -/
def execSnpdata (half : Nat) (s : State) : Host.Outcome State Fault Refusal := s.hostSnoop 1 half
/-- SNPCUR (R241). -/
def execSnpcur (half : Nat) (s : State) : Host.Outcome State Fault Refusal := s.hostSnoop 2 half

/-- The state a grant gives a half. -/
def goSt : Go → HSt
  | .grantS => .s
  | .grantE => .e
  | .grantM => .m
  | .err => .e

/-- Puts 64 bytes and their two marks into a half of a line. -/
def putHalf (l : Line) (i : Nat) (d : Nat) (poisoned : Bool) : Line :=
  let p := if poisoned then 3 else 0
  { data := BitVec.ofNat 1024 (setFld l.data.toNat (512 * i) 512 d), pmask := BitVec.ofNat 4 (setFld l.pmask.toNat (2 * i) 2 p) }

/-- Marks a half's two sectors poisoned. -/
def markHalf (l : Line) (i : Nat) : Line := { l with pmask := BitVec.ofNat 4 (setFld l.pmask.toNat (2 * i) 2 3) }

/-- A half's data has come: the accesses that waited go on as far as they can, and the snoops that waited for them follow (R242). -/
def State.halfDone (s : State) (half : Nat) (h : HostLine) : State :=
  let h1 := { h with hold := if h.waiters.isEmpty ∨ h.hold.contains (half % 2) then h.hold else h.hold ++ [half % 2] }
  (({ s with host := alPut s.host (devLine half) h1 } : State).drainHost (devLine half)).goSnoops

/-- GO of an eviction: a modified half's data goes out on the WritePull, and the half is gone (R243). -/
def State.evictGo (s : State) (half : Nat) (h : HostLine) (d : D2H) : State :=
  let line := devLine half
  let i := half % 2
  let s1 := if d.op = 4 then s.toHost { kind := 2, op := 4, half := half, data := some (lineHalf h.line i) } else s
  let h1 := h.setHalf i .i none
  let s2 : State := { s1 with host := alPut s1.host line h1 }
  if h1.leaving then s2 else (((s2.drainHost line).dropEmpty line).drainHome line).goSnoops

/-- GO_RECEIVE (R240, R242): GO-Err leaves the half poisoned (DEDUCED, log entry 15); an eviction's GO ends it (R243). -/
def execGoReceive (half : Nat) (g : Go) (s : State) : Host.Outcome State Fault Refusal :=
  when_ s.runs (fun s =>
    let line := devLine half
    let i := half % 2
    match alFind s.host line with
    | none => s
    | some h =>
      match h.d2h i with
      | none => s
      | some d =>
        if 4 ≤ d.op then s.evictGo half h d
        else if d.op = 3 then
          if g = .err then s.halfDone half { (h.setHalf i (h.half i) (some { d with go := some g })) with line := markHalf h.line i }
          else s
        else if g = .err then s.halfDone half { (h.setHalf i (if d.op = 0 then .s else .e) none) with line := markHalf h.line i }
        else if d.op = 2 then s.halfDone half (h.setHalf i (goSt g) none)
        else { s with host := alPut s.host line (h.setHalf i (h.half i) (some { d with go := some g })) }) s

/-- HOST_DATA_RECEIVE: the half's data; the waiting accesses and snoops go on (R242). -/
def execHostDataReceive (half : Nat) (data : BitVec 512) (poisoned : Bool) (s : State) : Host.Outcome State Fault Refusal :=
  when_ s.runs (fun s =>
    let i := half % 2
    match alFind s.host (devLine half) with
    | none => s
    | some h =>
      match h.d2h i with
      | none => s
      | some d =>
        let h1 := { h with line := putHalf h.line i data.toNat poisoned }
        if d.op = 3 then s.halfDone half (h1.setHalf i (h.half i) (some { d with go := some .grantS }))
        else
          match d.go with
          | some g => if d.op ≤ 1 then s.halfDone half (h1.setHalf i (goSt g) none) else s
          | none => s) s

/-- HOST_LINE_EVICT: recall, then DirtyEvict or CleanEvictNoData of each half (R243). -/
def execHostLineEvict (line : Nat) (s : State) : Host.Outcome State Fault Refusal :=
  when_ (s.serves && (match alFind s.host line with
      | some h => h.d0.isNone && h.d1.isNone && h.waiters.isEmpty && (s.busyRec line).isNone
      | none => false)) (fun s => s.snoopAct 3 (hostHalf line 0)) s

/-- Host lines that hold dirty data, in the cache or at an agent. -/
def State.dirtyHost (s : State) : Nat :=
  (s.host.filter (fun e => e.2.h0 = .m || e.2.h1 = .m
    || (match e.2.owner with | some o => (let st := s.ast o e.1; st = .m || st = .o) | none => false))).length

/-- Every host line leaves the agents and the host-line cache; node cores waiting for one take an access fault; watches wake; every
outstanding host access fails (R339). -/
def State.emptyHost (s : State) : State :=
  let waits := (s.agents.map (fun e => (e.2.lines.filter (fun l => hostLine l.1)).filterMap (fun l => l.2.acc.map (·.1)))).flatten
  let s1 : State := { s with
    agents := s.agents.map (fun e => (e.1, { lines := e.2.lines.filter (fun l => !(hostLine l.1)), fq := e.2.fq.filter (fun m => !(hostLine m.line)) }))
    msgs := s.msgs.filter (fun m => !(hostLine m.line))
    host := [], hostBusy := [], hostQ := []
    streams := s.streams.map (fun e => (e.1, match e.2.watch with
      | some l => if hostLine l then { e.2 with watch := none, woken := true } else e.2
      | none => e.2))
    reqs := s.reqs.map (fun e => (e.1, match e.2.stage with
      | .sent => if hostLine (e.2.pa / 128) then { e.2 with stage := .replied .host } else e.2
      | .atHome => if hostLine (e.2.pa / 128) then { e.2 with stage := .replied .host } else e.2
      | _ => e.2)) }
  let cs := s1.cores.map (fun (e : Nat × NCore) => (e.1, { e.2 with resv := e.2.resv.filter (fun l => !(hostLine l)) }))
  { s1 with cores := waits.foldl (fun m c => alMod {} m c (fun (v : NCore) => { v with faults := v.faults + 1 })) cs }

/-- CACHE_ENABLE_CLEAR; snoops that were waiting find no line left (R339). -/
def execCacheEnableClear (s : State) : Host.Outcome State Fault Refusal :=
  when_ (s.runs && s.plat.cacheEn) (fun s =>
    let n := s.dirtyHost
    let s1 := s.emptyHost.goSnoops
    ({ s1 with plat := { s1.plat with cacheEn := false, cacheOff := true } }).logEv 0x0016 4 1 [0, n]) s

end Sys2Proof.Machine
end

