-- ==== Sys2Proof/Machine/StreamCmds.lean ====
section
/-! DEFINITION. The stream commands, PACKAGE_PARK and RESUME's acceptance, and their drains (R346, R350, R357–R359, R402). -/

namespace Sys2Proof.Machine

/-- The four slot bytes and masks at a byte offset of a body: dies of the valid slots, and the masks (Table 14.7). -/
def parseSlots (b : List Byte) (o : Nat) : List (Option Nat) × List W64 :=
  ((List.range 4).map (fun j => let v := byteFld b (o + j) 1; if bitOf v 7 then some (v % 4) else none),
   (List.range 4).map (fun j => BitVec.ofNat 64 (byteFld b (o + 4 + 8 * j) 8)))

/-- The four landing windows at a byte offset: base and size in 2 MiB units (Table 14.7). -/
def parseWins (b : List Byte) (o : Nat) : List (Nat × Nat) :=
  (List.range 4).map (fun m => (byteFld b (o + 8 * m) 2, byteFld b (o + 8 * m + 2) 2))

/-- A placement is valid: some valid slot, each with a non-zero mask, distinct dies, none lost (R357). -/
def State.placementOk (s : State) (slots : List (Option Nat)) (masks : List W64) : Bool :=
  let v := (List.range 4).filter (fun j => (nth none slots j).isSome)
  let dies := v.filterMap (fun j => nth none slots j)
  !v.isEmpty && v.all (fun j => nth 0 masks j != 0) && decide (dies.eraseDups.length = dies.length)
    && dies.all (fun d => !(s.plat.lostC.contains d))

/-- A window is valid when base + size ≤ 192 (R357). -/
def winsOk (w : List (Nat × Nat)) : Bool := w.all (fun e => decide (e.1 + e.2 ≤ 192))

/-- Another port's stream command handles the stream (R346). -/
def Stream.heldBy (v : Stream) (p : Port) : Bool :=
  match v.drain with | some d => d.port != p | none => false

/-- STREAM_OPEN's own part (R357, Table 14.7). -/
def doStreamOpen (p : Port) (k : Packet) (s : State) : EbOut :=
  let b := pktData k
  let n := byteFld b 0 1
  let cls := byteFld b 1 1
  let space := byteFld b 2 1
  let srsz := byteFld b 3 1
  let first := byteFld b 4 8
  let sring := byteFld b 12 8
  let sl := parseSlots b 24
  let wins := parseWins b 60
  let v := s.stream n
  if 63 < n ∨ 1 < cls ∨ 15 < space ∨ srsz < 4 ∨ 12 < srsz ∨ first % 64 ≠ 0 ∨ 2 ^ 52 ≤ first ∨ sring % 32 ≠ 0 ∨ 2 ^ 52 ≤ sring then
    .reply 7 [] s
  else if v.heldBy p then .reply 0x0906 [] s
  else if v.state ≠ 0 then .reply 0x0901 [] s
  else if !(s.placementOk sl.1 sl.2) then .reply 0x0903 [] s
  else if !(winsOk wins) then .reply 0x0904 [] s
  else .reply 0 [] (s.setStream n { state := 1, cls := cls, space := space, srsz := srsz, sring := sring, next := first,
                                    slots := sl.1, masks := sl.2, wins := wins })

/-- STREAM_CLOSE's own part: the stream drains (R358). -/
def doStreamClose (p : Port) (k : Packet) (s : State) : EbOut :=
  let n := byteFld (pktData k) 0 1
  let v := s.stream n
  if 63 < n then .reply 7 [] s
  else if v.heldBy p then .reply 0x0906 [] s
  else if v.state = 0 then .reply 0x0902 [] s
  else .hold (s.setStream n { v with
    state := 5, drain := some { migrate := false, port := p, stopped := v.err, slots := v.slots, masks := v.masks, wins := none,
                                       until_ := s.now + 1000000 * byteFld (pktData k) 4 4 } })

/-- STREAM_MIGRATE's own part: the stream stops at a command boundary and drains (R359). -/
def doStreamMigrate (p : Port) (k : Packet) (s : State) : EbOut :=
  let b := pktData k
  let n := byteFld b 0 1
  let v := s.stream n
  let sl := parseSlots b 8
  let wins := if bitOf (byteFld b 1 1) 0 then some (parseWins b 44) else none
  if 63 < n then .reply 7 [] s
  else if v.heldBy p then .reply 0x0906 [] s
  else if v.state = 0 then .reply 0x0902 [] s
  else if !(s.placementOk sl.1 sl.2) then .reply 0x0903 [] s
  else if !(winsOk (wins.getD [])) then .reply 0x0904 [] s
  else .hold (s.setStream n { v with
    state := 5, drain := some { migrate := true, port := p, stopped := v.err, slots := sl.1, masks := sl.2, wins := wins,
                                       until_ := s.now + 1000000 * byteFld b 4 4 } })

/-- STREAM_OPEN (R357). -/
def execStreamOpen (p : Port) (k : Packet) (s : State) : Host.Outcome State Fault Refusal :=
  .next (s.ebior 0x0901 p k (doStreamOpen p k))
/-- STREAM_CLOSE (R358). -/
def execStreamClose (p : Port) (k : Packet) (s : State) : Host.Outcome State Fault Refusal :=
  .next (s.ebior 0x0902 p k (doStreamClose p k))
/-- STREAM_MIGRATE (R359). -/
def execStreamMigrate (p : Port) (k : Packet) (s : State) : Host.Outcome State Fault Refusal :=
  .next (s.ebior 0x0903 p k (doStreamMigrate p k))

/-- The drain under way on a stream, when its started records have all completed. -/
def Stream.drained (v : Stream) (migrate : Bool) : Option Drain :=
  match v.drain with
  | some d => if d.migrate = migrate ∧ v.flights.isEmpty then some d else none
  | none => none

/-- An access of a stream's own: the dispatcher's reads ahead for it among them. -/
def ofStream (n : Nat) : Who → Bool
  | .stream k _ => k == n
  | _ => false

/-- STREAM_CLOSE_DRAINED: the stream is closed, its watch released, its hints and requests dropped, and the reply written
(R358, R388, R389). -/
def execStreamCloseDrained (n : Nat) (s : State) : Host.Outcome State Fault Refusal :=
  when_ (s.serves && ((s.stream n).drained false).isSome) (fun s =>
    match (s.stream n).drained false with
    | some d => ((((s.unitQuit (ofStream n)).dropWatch n).setStream n {}).dropHints n).finish d.port 0 []
    | none => s) s

/-- MIGRATE_DRAINED: the epoch advances, the new placement and windows take effect, the stream restarts unless it was stopped,
and the reply carries the epoch (R359). -/
def execMigrateDrained (n : Nat) (s : State) : Host.Outcome State Fault Refusal :=
  when_ (s.serves && ((s.stream n).drained true).isSome) (fun s =>
    let v := s.stream n
    match v.drained true with
    | some d =>
      let ep := (v.epoch + 1) % 65536
      ((((s.unitQuit (ofStream n)).dropWatch n).setStream n { v with
        state := (if d.stopped then 4 else 1), epoch := ep, slots := d.slots, masks := d.masks, wins := d.wins.getD v.wins,
        watch := none, woken := false, err := d.stopped, drain := none }).dropHints n).finish d.port 0 (leBytes 2 ep)
    | none => s) s

/-- STREAM_DRAIN_TIMEOUT: TMO ran out; the stream stays open and stopped with its old placement, and the reply is STREAM_BUSY
(R358, R359). -/
def execStreamDrainTimeout (n : Nat) (s : State) : Host.Outcome State Fault Refusal :=
  when_ (s.serves && (s.stream n).drain.any (fun d => s.due d.until_)) (fun s =>
    let v := s.stream n
    match v.drain with
    | some d => (s.setStream n { v with state := 4, err := d.stopped, drain := none }).finish d.port 0x0905 []
    | none => s) s

/-- PACKAGE_PARK's own part in each state (R350). -/
def doPackagePark (p : Port) (k : Packet) (s : State) : EbOut :=
  let tmo := byteFld (pktData k) 0 4
  if s.power.pstate = 3 ∨ s.power.parking.isSome then .reply 5 [] s
  else if tmo < 1 ∨ 10000 < tmo then .reply 7 [] s
  else if s.power.pstate = 2 then .reply 0 [] s
  else if !s.acts.isEmpty then .reply 0x0703 [] (s.count (svc 17))
  else .hold { s with power := { s.power with parking := some p, parkUntil := s.now + 1000000 * tmo } }

/-- PACKAGE_PARK (R350). -/
def execPackagePark (p : Port) (k : Packet) (s : State) : Host.Outcome State Fault Refusal :=
  .next (s.ebior 0x0802 p k (doPackagePark p k))

/-- PARK_ENTRY: every started record has completed and no DIE_RESET runs; the package is in Park (R350, R399). -/
def execParkEntry (s : State) : Host.Outcome State Fault Refusal :=
  when_ (s.serves && decide (s.power.pstate ≤ 1) && s.power.parking.isSome && s.streams.all (fun e => e.2.flights.isEmpty)
      && s.acts.all (fun (a : Act) => a.code != 9) && s.plat.resetting.isEmpty) (fun s =>
    match s.power.parking with
    | some p =>
      let s1 := (List.range 4).foldl (fun (t : State) n => t.setOp n 0) s
      ({ s1 with power := { s1.power with pstate := 2, parking := none } }).limitReplies.finish p 0 []
    | none => s) s

/-- Ends a waiting PACKAGE_PARK in PARK_TIMEOUT; its streams start records again (R350, R403). -/
def State.endPark (s : State) : State :=
  match s.power.parking with
  | some p => ({ s with power := { s.power with parking := none } }).finish p 0x0802 []
  | none => s

/-- PARK_TIMEOUT: TMO ran out first (R350, R403). -/
def execParkTimeout (s : State) : Host.Outcome State Fault Refusal :=
  when_ (s.up && s.power.parking.isSome && s.due s.power.parkUntil) State.endPark s

/-- Every junction sensor reads below 95 °C and every stack below 90 °C (R397, R402). -/
def State.cooled (s : State) : Bool :=
  decide (s.power.hubT < 95) && (List.range 4).all (fun n => decide ((s.die n).tj < 95)) && s.hbm.all (fun e => decide (e.2.temp < 90))

/-- RESUME's own part (R350, R397, R402): the reply comes with RESUME_COMPLETE. -/
def doResume (p : Port) (_k : Packet) (s : State) : EbOut :=
  let go := EbOut.hold { s with power := { s.power with resuming := some p } }
  if s.power.resuming.isSome then .reply 5 [] s
  else if s.power.pstate = 2 then go
  else if s.power.pstate ≠ 3 then .reply 0x0803 [] s
  else if s.power.mismHalt then .reply 5 [] s
  else if s.power.lasth = 1 ∧ s.cairn.coolantAction = 1 then .reply 5 [] s
  else if !s.plat.coolant || decide (s.now < s.power.coolSince + 2000000000) then .reply 0x0804 [] s
  else if (s.power.lasth = 2 ∨ s.power.lasth = 3) ∧ !s.cooled then .reply 0x0803 [] s
  else go

/-- RESUME (R402). -/
def execResume (p : Port) (k : Packet) (s : State) : Host.Outcome State Fault Refusal :=
  .next (s.ebior 0x0803 p k (doResume p k))

end Sys2Proof.Machine
end

