-- ==== Sys2Proof/Machine/Dispatcher.lean ====
section
/-! DEFINITION. What the dispatcher's records share: when a stream takes its next record, rejection, watches, its own accesses, and
completion with the status ring (R193, R238, R352–R356). -/

namespace Sys2Proof.Machine

/-- Status records of a stream written and not consumed (R356). -/
def Stream.ringUsed (v : Stream) : Nat := (v.etail + 2 ^ 32 - v.ehead) % 2 ^ 32

/-- The stream starts records at this moment: it runs, fewer than 16 records are in flight, none of them a WAIT, the status ring is not
full, and the package neither parks nor is parked (R350, R354, R356). -/
def State.takes (s : State) (n : Nat) : Bool :=
  let v := s.stream n
  s.serves && decide (s.power.pstate ≤ 1) && s.power.parking.isNone && decide (n < 64) && decide (v.state = 1)
    && decide (v.flights.length < 16) && v.flights.all (fun f => f.typ != 4) && decide (v.ringUsed < 2 ^ v.srsz)

/-- A record as it starts. -/
def State.newFlight (s : State) (addr : Nat) (ws : List W64) : Flight :=
  { addr := addr, typ := wfld (nth 0 ws 0) 0 8, words := ws, fin := none, handed := 0, finished := 0, err := none, die := 0,
    since := s.now, last := 0, pos := wfld (nth 0 ws 1) 0 52 }

/-- ORD, STOP and IRQ of a record, and its TAG (Table 14.8). -/
def Flight.ord (f : Flight) : Bool := bitOf (nth 0 f.words 0).toNat 8
def Flight.stop (f : Flight) : Bool := bitOf (nth 0 f.words 0).toNat 9
def Flight.irq (f : Flight) : Bool := bitOf (nth 0 f.words 0).toNat 10
def Flight.tag (f : Flight) : Nat := wfld (nth 0 f.words 0) 32 32

/-- The dispatcher has done with what it read for a stream's next record. -/
def State.nextRead (s : State) (n : Nat) : State := s.unitQuit (fun w => w == .stream n (s.stream n).next)

/-- The stream's next record starts: it is in flight and the stream moves past it (R354). -/
def State.start (s : State) (n : Nat) (f : Flight) : State :=
  let v := s.stream n
  (s.nextRead n).setStream n { v with flights := v.flights ++ [f], next := v.next + 64, state := (if f.typ = 4 then 3 else v.state) }

/-- The stream's next record is rejected with a reason of Table 14.12; the stream stops when STOP or the rule says so (R356). -/
def State.reject (s : State) (n : Nat) (ws : List W64) (reason : Nat) (stop : Bool) : State :=
  let f := { s.newFlight (s.stream n).next ws with fin := some (1, BitVec.ofNat 64 reason) }
  let v := s.stream n
  let halt := stop || f.stop
  (s.nextRead n).setStream n { v with flights := v.flights ++ [f], next := v.next + 64, state := (if halt then 4 else v.state), err := v.err || halt }

/-- The stream passes its next record, which starts and completes at once (Table 14.9). -/
def State.pass (s : State) (n next : Nat) (irq : Bool) : State :=
  let s1 := (s.nextRead n).setStream n { s.stream n with next := next }
  if irq then s1.raise n else s1

/-- The record parks the stream: an EMPTY, or a LINK whose NEXT is zero (R355). -/
def parks (ws : List W64) : Bool :=
  wfld (nth 0 ws 0) 0 8 == 0 || (wfld (nth 0 ws 0) 0 8 == 10 && wfld (nth 0 ws 1) 0 52 == 0)

/-- Types that always start as with ORD = 1 (Table 14.9). -/
def alwaysOrd (typ : Nat) : Bool := typ == 3 || typ == 9

/-- The line a stream watches, when the dispatcher's agent can: one of its own package, whose memory or host lines it covers (R221, R238,
Table 9.1). -/
def State.watchable (s : State) (pa : Nat) : Option Nat := if s.homeHere (pa / 128) then some (pa / 128) else none

/-- The watch a stream has asked for is still on its way; a request that was refused is sent again (R238, R296). -/
def State.watchOpen (s : State) (n : Nat) : Option State :=
  match (s.stream n).watch with
  | none => none
  | some line =>
    match s.ast (s.agentId 8) line with
    | .s => none
    | .i => some (s.setWatch n line)
    | _ => some s

/-- The dispatcher takes the stream's next record, read uncached and coherent, and acts on it when it is of the given type. One that
cannot be read, of no listed type, or out of place in the last record of a block is rejected and stops the stream (R352–R356). While the watch
of a stream that is to park is on its way the record is not read, so that it is read again once the watch stands (R238). A PHASE_HINT
or OP_REQUEST of the wrong class, which R3 passes over, is held back by ORD as any record is and raises no source for IRQ: R3 says neither
(DESIGN CHOICE, log entry 67). -/
def State.take (s : State) (n : Nat) (typ : Nat) (f : State → List W64 → State) : State :=
  if !(s.takes n) then s
  else
    match s.watchOpen n with
    | some u => u
    | none =>
      let v := s.stream n
      match s.readKeep (.stream n v.next) v.space v.next 8 with
      | .wait u => u
      | .fail _ _ u => u.reject n [] 4 true
      | .ok ws u =>
        let t := wfld (nth 0 ws 0) 0 8
        if !(parks ws) && (bitOf (nth 0 ws 0).toNat 8 || alwaysOrd t) && !v.flights.isEmpty then u
        else if decide (10 < t) || (decide (fld v.next 6 6 = 63) && t != 0 && t != 10) then u.reject n ws 1 true
        else if t != typ then u
        else if parks ws then f u ws
        else f (u.dropWatch n) ws

/-- Sets the status and DETAIL of a record in flight. -/
def State.finFlight (s : State) (n addr status : Nat) (detail : W64) : State :=
  s.setStream n { s.stream n with flights := (s.stream n).flights.map (fun f =>
    if f.addr = addr ∧ f.fin = none then { f with fin := some (status, detail) } else f) }

/-- DETAIL of ACCESS_ERROR (Table 14.12). -/
def accessDetail (addr cause : Nat) : W64 := BitVec.ofNat 64 (addr % 2 ^ 52 + cause * 2 ^ 56)

/-- Trap-style cause of a failing answer to a record's own access (Table 14.12). -/
def recCause (r : Req) : AccResult → Option Nat
  | .ok => none
  | .line l => if l.marked (r.pa % 128) r.size then some 8 else none
  | .decode | .host => some 6
  | .xlatError => some 7
  | _ => some 8

/-- What a record's own 8-byte access gives: performed, with the word as it stood; failed; or not yet. -/
inductive RecOut where
  | done (old : W64) (s : State)
  | fail (cause : Nat) (s : State)
  | wait (s : State)

/-- A record's own access, which ends with its answer (R192, R193, R356). -/
def State.recAccess (s : State) (x : Req) : RecOut :=
  match s.unitAll [x] with
  | .wait t => .wait t
  | .done l t =>
    match l with
    | [] => .wait t
    | (r, a) :: _ =>
      match recCause r a with
      | some k => .fail k (t.unitEnd [x])
      | none => .done (match a with | .line l => BitVec.ofNat 64 (l.get (r.pa % 128) 8) | _ => 0) (t.unitEnd [x])

/-- A record's own write of 8 bytes: a store, or an atomic ADD, which poison turns away (R192, R193, R356). -/
def recWr (n rec_ space va : Nat) (v : W64) (add : Bool) : Req :=
  let x := unitWr (.stream n rec_) (if add then .atomic else .store) space va (leBytes 8 v.toNat) false
  if add then { x with ty := 13 } else x

/-- The stream parks at its next record, which it has just read as one to park at, when its watch on the record's line stood meanwhile, so that no
write to it passes unseen; else it asks for the line first, and reads the record again (R238, R355). -/
def State.parkAt (s : State) (n : Nat) : State :=
  let v := s.stream n
  match s.unitXlat (.stream n v.next) .bread v.space v.next with
  | .wait u => u
  | .fail u => u
  | .hit pa u =>
    match u.watchable pa with
    | none => (u.nextRead n).setStream n { u.stream n with state := 2, watch := none, woken := false }
    | some line =>
      if (u.stream n).watch = some line ∧ u.ast (u.agentId 8) line = .s then
        (u.nextRead n).setStream n { u.stream n with state := 2, woken := false }
      else (u.nextRead n).setWatch n line

/-- Lines that the dispatcher holds and no stream watches any more, their release having been refused, are released (R296, Table 9.7). -/
def State.releaseWatches (s : State) : State :=
  let a := s.agentId 8
  ((alGet {} s.agents a).lines.map (·.1)).foldl (fun (t : State) line =>
    if t.ast a line = .s ∧ !(t.streams.any (fun e => e.2.watch == some line)) then (t.agentReq a line .vicc .siA none).state else t) s

/-- STREAM_WAKE: a watch has ended; a parked stream reads its record again, and so does a WAIT (R238). A line that no agent can watch is
read again at any time. -/
def execStreamWake (n : Nat) (s : State) : Host.Outcome State Fault Refusal :=
  when_ (s.serves && decide (n < 64)) (fun s =>
    let v := s.stream n
    if v.woken || (decide (v.state = 2) && v.watch.isNone) then
      s.setStream n { v with state := (if v.state = 2 then 1 else v.state), watch := none, woken := false }
    else s.releaseWatches) s

/-- A record is gone from its stream: a stream that waited for its WAIT runs again; the stream stops when told to, or remembers it when it
drains (R354, R356, R359). -/
def Stream.completed (v : Stream) (addr : Nat) (stop : Bool) : Stream :=
  let fs := v.flights.filter (fun f => f.addr != addr)
  let st := if stop ∧ 1 ≤ v.state ∧ v.state ≤ 3 then 4 else if v.state = 3 ∧ fs.all (fun f => f.typ != 4) then 1 else v.state
  { v with flights := fs, state := st, err := v.err || stop,
           drain := if stop then v.drain.map (fun d => { d with stopped := true }) else v.drain }

/-- The four words of a status record (R356). -/
def statusWords (f : Flight) (status : Nat) (detail : W64) (now : Nat) : List Nat :=
  [wfld (nth 0 f.words 0) 0 8 + status * 2 ^ 16 + f.tag * 2 ^ 32, f.addr % 2 ^ 52, detail.toNat, now]

/-- The launch of a LAUNCH record that has completed is forgotten. -/
def State.forgetLaunch (s : State) (n addr : Nat) : State :=
  { s with launches := s.launches.filter (fun e => !(e.2.stream == n && e.2.addr == addr)) }

/-- A stand or a record ends now (Idle, Table 16.7). -/
def State.worked (s : State) : State := { s with power := { s.power with busyAt := s.now } }

/-- A stream gives up its watch, for a WAIT that has ended. -/
def State.dropWatchIf (s : State) (n : Nat) (c : Bool) : State := if c then s.dropWatch n else s

/-- RECORD_COMPLETE: a record whose work is done completes; a status other than OK is written to the status ring first, which waits for
room, for its translation and until it has landed; one that meets an error reply, a decode error or a host failure is logged and stops the
stream (R354, R356). -/
def execRecordComplete (n addr : Nat) (s : State) : Host.Outcome State Fault Refusal :=
  when_ (s.serves && decide (n < 64)) (fun s =>
    let v := s.stream n
    match v.flights.find? (fun f => f.addr == addr && f.fin.isSome) with
    | none => s
    | some f =>
      let fin := f.fin.getD (0, 0)
      let leave := fun (t0 : State) (stop : Bool) =>
        let t := t0.worked
        (t.dropWatchIf n (f.typ == 4)).setStream n (((t.dropWatchIf n (f.typ == 4)).stream n).completed addr stop) |>.forgetLaunch n addr
      if fin.1 = 0 then
        let s1 := leave s false
        if f.irq then s1.raise n else s1
      else if 2 ^ v.srsz ≤ v.ringUsed then s
      else
        let lost := fun (t : State) (cause : Nat) =>
          let t1 := (leave t true).logEv 0x0017 4 1 [n, f.addr, fin.1, cause]
          if f.irq then t1.raise n else t1
        let put := fun (t : State) =>
          let t1 := leave t f.stop
          (t1.setStream n { t1.stream n with etail := (v.etail + 1) % 2 ^ 32 }).raise n
        let at_ := v.sring + v.etail % 2 ^ v.srsz * 32
        match s.unitWrites (writeReqs (.stream n f.addr) .store v.space at_ ((statusWords f fin.1 fin.2 s.now).flatMap (leBytes 8)) false) with
        | .wait t => t
        | .fail 6 _ t => lost t 6
        | .fail 7 _ t => lost t 7
        | .fail _ _ t => put t
        | .ok _ _ _ t => put t) s

/-- EHEAD of a stream, unless it would pass ETAIL, seen from the ring's size (R356, DSP_STREAM_CTL). -/
def State.setEhead (s : State) (n h : Nat) : State :=
  let v := s.stream n
  if (v.etail + 2 ^ 32 - h) % 2 ^ 32 ≤ 2 ^ v.srsz then s.setStream n { v with ehead := h } else s.count (svc 7)

/-- STREAM_EHEAD_WRITE (R356). -/
def execStreamEheadWrite (n : Nat) (v : W64) (s : State) : Host.Outcome State Fault Refusal :=
  when_ (s.serves && decide (n < 64)) (fun s => s.setEhead n (wfld v 0 32)) s

/-- CONT restarts a stream stopped under R356 at the first record after the stopping one that has not started; it is ignored in any other
state. -/
def State.contStream (s : State) (n : Nat) : State :=
  let v := s.stream n
  if v.state = 4 ∧ v.err then s.setStream n { v with state := (if v.flights.any (fun f => f.typ == 4) then 3 else 1), err := false } else s

/-- STREAM_CONT (R356). -/
def execStreamCont (n : Nat) (s : State) : Host.Outcome State Fault Refusal :=
  when_ (s.serves && decide (n < 64)) (fun s => s.contStream n) s

end Sys2Proof.Machine
end

