-- ==== Sys2Proof/Machine/Power.lean ====
section
/-! DEFINITION. Firebreak's events: samples, voltage, budgets, hints, droop, supply warning, heat, coolant, Idle, safety net
(chapter 16; R284, R285 of chapter 11). -/

namespace Sys2Proof.Machine

/-- Quantises a signature count: 16 × count ÷ the counter's largest, at most 15 (R382). -/
def quant4 (j c : Nat) : Nat := min 15 (c * 16 / Free.sigMax j)

/-- The 64-bit signature, counter 0 in bits [3:0] (R382). -/
def signature (counts : List Nat) : W64 :=
  BitVec.ofNat 64 (((List.range 16).map (fun j => quant4 j (nth 0 counts j) * 16 ^ j)).foldl (· + ·) 0)

/-- Sum of absolute nibble differences of two signatures (R383). -/
def sigDist (a b : W64) : Nat :=
  ((List.range 16).map (fun j => (((wfld a (4 * j) 4 : Int) - wfld b (4 * j) 4).natAbs))).foldl (· + ·) 0

/-- The measured work rate in units of 2^-16: counters 0 to 3, each divided by its largest (R383). -/
def workRate (counts : List Nat) : Nat :=
  ((List.range 4).map (fun j => nth 0 counts j * 65536 / Free.sigMax j)).foldl (· + ·) 0

/-- The entry that matches: smallest distance up to 6, ties to the lower index (R383). -/
def matchPhase (t : Sparse Phase) (sig : W64) : Option Nat :=
  let c := (t.map (fun e => (e.1, sigDist e.2.sig sig))).filter (fun e => decide (e.2 ≤ 6))
  (c.foldl (fun (b : Option (Nat × Nat)) e => match b with | some v => if e.2 < v.2 then some e else b | none => some e) none).map (·.1)

/-- The entry an unmatched sample takes: an empty one, else the least recently used (R383). -/
def victimPhase (t : Sparse Phase) : Nat :=
  match alFree t 256 with
  | some k => k
  | none => ((t.foldl (fun (b : Option (Nat × Nat)) e => match b with | some v => if e.2.used < v.2 then some (e.1, e.2.used) else b | none => some (e.1, e.2.used)) none).map (·.1)).getD 0

/-- The nearest observed point to k, the lower of two (R383). -/
def nearestObs (obs : List Nat) (k : Nat) : Nat :=
  ((List.range 8).filter (fun j => decide (0 < nth 0 obs j))).foldl
    (fun (b : Nat) j => if decide ((j - k) + (k - j) < (b - k) + (k - b)) || decide (nth 0 obs b = 0) then j else b) k

/-- One eighth of the way from `p` to `m` (R383). -/
def eighth (p m : Nat) : Nat := ((p : Int) + ((m : Int) - p) / 8).toNat

/-- An entry after a sample that ran point k with power p and work w (R383). -/
def Phase.learn (e : Phase) (k p w clock : Nat) : Phase :=
  let pw := updNth e.pw k (fun x => eighth x p)
  let wr := updNth e.wr k (fun x => eighth x w)
  let obs := updNth e.obs k (· + 1)
  { e with
    pw := (List.range 8).map (fun j => if nth 0 obs j = 0 then scalePower (nth 0 pw (nearestObs obs j)) (nearestObs obs j) j else nth 0 pw j)
    wr := (List.range 8).map (fun j => if nth 0 obs j = 0 then scaleWork (nth 0 wr (nearestObs obs j)) (nearestObs obs j) j else nth 0 wr j)
    obs := obs, used := clock }

/-- The phase table after a sample (R383). -/
def DieFb.learn (d : DieFb) (sig : W64) (p w : Nat) : DieFb :=
  let clock := d.clock + 1
  match matchPhase d.phase sig with
  | some k => { d with phase := alUpd d.phase k (fun e => e.learn d.op p w clock), entry := some k, clock := clock }
  | none =>
    let k := victimPhase d.phase
    let e : Phase := { sig := sig, pw := (List.range 8).map (scalePower p d.op), wr := (List.range 8).map (scaleWork w d.op),
                       obs := (List.range 8).map (fun j => if j = d.op then 1 else 0), used := clock }
    { d with phase := alPut d.phase k e, entry := some k, clock := clock }

/-- Issue gating after a sample (R379): one more eighth while over budget at OP0, one less when 5 % under. -/
def DieFb.regate (d : DieFb) (p : Nat) : DieFb :=
  if d.op = 0 ∧ d.budget < p then { d with gate := min 7 (d.gate + 1) }
  else if p * 100 ≤ d.budget * 95 then { d with gate := d.gate - 1 }
  else d

/-- VDD_TILEn plus VDD_FDNn averaged over the last 100 µs, W (FBK_DIE.PWR). -/
def Tally.diePower (t : Tally) (n : Nat) : Nat :=
  let l := alGet [] t.fbDie n
  l.foldl (· + ·) 0 / max 1 l.length / 1000

/-- SIGNATURE_SAMPLE: signature, phase table, gating, boost and a decision, every 100 µs (R374, R379, R382–R384). The tile clocks that were gated since
the last sample are counted (Table 18.2; as many of the die's tile clocks as the gate withholds, DEDUCED, log entry 50). -/
def execSignatureSample (die : Nat) (x : SigSample) (s : State) : Host.Outcome State Fault Refusal :=
  when_ (s.serves && s.dieLive die) (fun s =>
    let sig := signature x.counts
    let boost := decide (x.requests * 5 < x.refusals * 100)
    let p := s.tally.diePower die
    let d := ((s.die die).learn sig p (workRate x.counts)).regate p
    let s1 := (s.setDie die { d with pwr := p, boost := boost, explore := false }).count (dieAct die 18)
      ((s.die die).gated * 100 * opMHz (s.die die).op / 8)
    let s2 := (List.range 16).foldl (fun t j => t.count (dieAct die j) (nth 0 x.counts j)) s1
    let s3 := { s2 with tally := { s2.tally with sigs := alPut s2.tally.sigs die sig } }
    (if boost then s3.count (dieAct die 22) else s3).decideOp die) s

/-- EXPLORATION_SAMPLE: once every 10 ms the point below the choice runs for one sample when the entry never observed it and
nothing raises the target above it (R384). -/
def execExplorationSample (die : Nat) (s : State) : Host.Outcome State Fault Refusal :=
  let d := s.die die
  let own := d.choice (some d.budget) (s.ceiling die)
  let fresh_ := match d.entry.bind (alFind d.phase) with
    | some e => decide (nth 0 e.obs (own - 1) = 0)
    | none => false
  when_ (s.decides die && decide (0 < own) && fresh_ && decide (d.explored + 10000000 ≤ s.now)
      && decide (max d.request d.hintMin < own) && !d.boost) (fun s =>
    (s.setDie die { s.die die with explore := true, explored := s.now }).decideOp die) s

/-- The voltage a die steps towards: its goal's, or that of the highest raised hint it can be given (R373, R387). -/
def State.wantMv (s : State) (n : Nat) : Nat :=
  let d := s.die n
  let h := ((d.hints.filter (·.raised)).map (fun h => opMv (min (d.fit h.opmin) (s.ceiling n)))).foldl max 0
  max (opMv d.goal) h

/-- VOLTAGE_STEP: one 5 mV step of the voltage target (R373): up before the clock changes, down after it has; none during a
supply episode (R393), and no raise on a rail without frames (R444). -/
def execVoltageStep (die : Nat) (s : State) : Host.Outcome State Fault Refusal :=
  when_ (s.serves && s.dieLive die && !s.power.warn) (fun s =>
    let d := s.die die
    if d.mv < s.wantMv die then
      if s.tally.railMax.contains die then s else s.setDie die { d with mv := d.mv + 5 }
    else if s.wantMv die < d.mv ∧ opMv d.op < d.mv then s.setDie die { d with mv := d.mv - 5 }
    else s) s

/-- VOLTAGE_REPORTED: the board reports a voltage; a raise that waits for it changes the clock (R373). -/
def execVoltageReported (die mv : Nat) (s : State) : Host.Outcome State Fault Refusal :=
  when_ (s.serves && s.dieLive die) (fun s =>
    let s1 := s.setDie die { s.die die with rep := mv }
    if s1.power.warn || s1.power.pstate != 0 then s1 else s1.moveClock die) s

/-- The accepted limit takes effect, and the ports that wait for it are answered (R375). -/
def State.takeLimit (s : State) : State :=
  if s.power.pstate ≤ 1 then
    match s.power.newLimit with
    | some l =>
      s.power.limitPorts.foldl (fun (t : State) q => t.finish q 0 (leBytes 2 l))
        { s with power := { s.power with limit := l, newLimit := none, limitPorts := [] } }
    | none => s
  else s

/-- The dies that exchange budgets (R377). -/
def State.liveDies (s : State) : List Nat := (List.range 4).filter s.dieLive

/-- The budget requests carry each hint from T − 200 µs on (R387). -/
def State.markHints (s : State) : State :=
  s.liveDies.foldl (fun (t : State) n =>
    t.setDie n { t.die n with hints := (t.die n).hints.map (fun h => if h.t ≤ t.now + 200000 then { h with marked := true } else h) }) s

/-- The grants of the live dies, from the limit in force and the measured powers (R377). -/
def State.grantList (s : State) : List (Nat × Int) :=
  grants s.power.limit ((s.power.pwr : Int) - ((s.liveDies.map (fun n => (s.die n).pwr)).foldl (· + ·) 0 : Nat)) (s.cfg.pacedReserve.getD 0) s.now
    (s.liveDies.map (fun n => (n, s.die n, s.ceiling n)))

/-- Each grant is sent to its die (R377). -/
def State.sendGrants (s : State) (gs : List (Nat × Int)) : State :=
  gs.foldl (fun (t : State) g => t.setDie g.1 { t.die g.1 with grant := some g.2.toNat }) s

/-- BUDGET_EXCHANGE: an accepted limit takes effect and is answered, and each live die is sent its grant from the measured powers (R375–R377). -/
def execBudgetExchange (s : State) : Host.Outcome State Fault Refusal :=
  when_ (s.serves && decide (s.power.pstate ≤ 2)) (fun s =>
    let m := s.takeLimit.markHints
    let sent := m.sendGrants m.grantList
    { sent with power := { sent.power with exchanged := s.now } }) s

/-- GRANT_RECEIVE: a lower budget takes effect at once with a decision; a higher one waits (R378). -/
def execGrantReceive (die : Nat) (s : State) : Host.Outcome State Fault Refusal :=
  when_ (s.serves && s.dieLive die && (s.die die).grant.isSome) (fun s =>
    let d := s.die die
    let g := d.grant.getD 0
    if g ≤ d.budget then (s.setDie die { d with budget := g, grant := none, raise := none, lastGrant := s.now }).decideOp die
    else s.setDie die { d with grant := none, raise := some g, raiseAt := s.power.exchanged + 50000, lastGrant := s.now }) s

/-- GRANT_RAISE_EFFECT: a raised budget takes effect 50 µs after the exchange, with a decision (R378). -/
def execGrantRaiseEffect (die : Nat) (s : State) : Host.Outcome State Fault Refusal :=
  when_ (s.serves && s.dieLive die && (s.die die).raise.isSome && s.due (s.die die).raiseAt) (fun s =>
    let d := s.die die
    (s.setDie die { d with budget := d.raise.getD 0, raise := none }).decideOp die) s

/-- GRANT_TIMEOUT: no grant for 200 µs; the die takes its floor as its budget (R378). -/
def execGrantTimeout (die : Nat) (s : State) : Host.Outcome State Fault Refusal :=
  when_ (s.serves && s.dieLive die && decide ((s.die die).lastGrant + 200000 ≤ s.now)) (fun s =>
    let d := s.die die
    s.setDie die { d with budget := d.floor, raise := none }) s

/-- HINT_PREPARE: the budget requests carry the hint from T − 200 µs; the voltage raise starts at T − 40 µs (R387). -/
def execHintPrepare (die i : Nat) (voltage : Bool) (s : State) : Host.Outcome State Fault Refusal :=
  when_ (s.serves && s.dieLive die && (match (s.die die).hints[i]? with
      | some h => decide (h.t ≤ s.now + (if voltage then 40000 else 200000))
      | none => false)) (fun s =>
    let d := s.die die
    s.setDie die { d with hints := updNth d.hints i (fun h => if voltage then { h with raised := true } else { h with marked := true }) }) s

/-- Puts hint i of a die in force, or drops it when its time passes outside Run (R386, R387, R394, R403); in a supply episode it counts as
unmet at its T (R394). -/
def State.hintForce (s : State) (die i : Nat) : State :=
  let d := s.die die
  if 2 ≤ s.power.pstate then s.setDie die { d with hints := d.hints.eraseIdx i }
  else
    let s1 := (s.setDie die { d with hints := updNth d.hints i (fun h => { h with inForce := true, marked := true, raised := true, unmet := s.power.warn }) }).decideOp die
    if s.power.warn then s1.count (dieAct die 20) else s1

/-- HINT_START: at T the hint is in force and the die decides (R386, R387). -/
def execHintStart (die i : Nat) (s : State) : Host.Outcome State Fault Refusal :=
  when_ (s.serves && s.dieLive die && (match (s.die die).hints[i]? with
      | some h => !h.inForce && decide (h.t ≤ s.now)
      | none => false)) (fun s => s.hintForce die i) s

/-- HINT_END: at T + DUR the hint ends and the die decides (R386, R374). -/
def execHintEnd (die i : Nat) (s : State) : Host.Outcome State Fault Refusal :=
  when_ (s.serves && s.dieLive die && (match (s.die die).hints[i]? with
      | some h => h.inForce && decide (h.t + h.dur * 1000 ≤ s.now)
      | none => false)) (fun s =>
    let d := s.die die
    (s.setDie die { d with hints := d.hints.eraseIdx i }).decideOp die) s

/-- MARGIN_LOW: the tile's clock periods are lengthened by 25 % and the episode is counted; a droop beyond what the stretch
covers is not detected and the logic may fail: fault `marginExceeded` (R390). -/
def execMarginLow (die tile : Nat) (covered : Bool) (s : State) : Host.Outcome State Fault Refusal :=
  if s.serves && s.dieLive die && decide (tile < 68) then
    if covered then
      .next ((s.setTile die tile { s.tile die tile with stretched := true }).count (dieAct die 16) (b2n (!(s.tile die tile).stretched)))
    else .fault .marginExceeded
  else .next s

/-- STRETCH_END: 64 clocks after the margin recovers the stretch ends (R390). -/
def execStretchEnd (die tile : Nat) (s : State) : Host.Outcome State Fault Refusal :=
  when_ (s.serves && s.dieLive die && (s.tile die tile).stretched) (fun s =>
    s.setTile die tile { s.tile die tile with stretched := false }) s

/-- STRETCH_INTERVAL: a die stretched for more than 10 % of a 1 ms interval has its target lowered one point for 10 ms, and
the step is counted (R392). -/
def execStretchInterval (die stretched total : Nat) (s : State) : Host.Outcome State Fault Refusal :=
  when_ (s.serves && s.dieLive die && decide (total < stretched * 10)) (fun s =>
    (s.setDie die { s.die die with lowered := some (s.now + 10000000) }).count (dieAct die 17)) s

/-- SUPPLY_WARN_ASSERT: an episode begins or continues: OP0 clocks, clusters at 1.0 GHz, voltages held; the fourth in 1 s may
set the OP3 ceiling (R393, R394); before STAGE 1 it is logged and changes no clock (R451); ignored in Halt. -/
def execSupplyWarnAssert (s : State) : Host.Outcome State Fault Refusal :=
  when_ s.on (fun s =>
    let s0 := { s with power := { s.power with warnPin := true } }
    if s.power.pstate = 3 || s.power.warn then s0
    else
      let times := s.now :: s.power.episTimes.filter (fun t => decide (s.now < t + 1000000000))
      let p := { s0.power with warn := true, warnAt := s.now, epis := satAdd 65535 s.power.epis 1, episTimes := times.take 4 }
      let s1 := { s0 with power := p.capped, tally := { s0.tally with episodeSeen := true } }
      let s2 := (s1.count 3)
      let s3 := if 1 ≤ s.plat.stage then (List.range 4).foldl (fun (t : State) n => t.setOp n 0) s2 else s2
      if s3.cairn.supplyAction = 1 ∧ 4 ≤ times.length ∧ !s3.power.supl then
        ({ s3 with power := { s3.power with supl := true } }).logEv 0x0011 255 1 [2]
      else s3) s

/-- SUPPLY_WARN_DEASSERT: the pin rises; the episode holds for 50 µs more (R393). -/
def execSupplyWarnDeassert (s : State) : Host.Outcome State Fault Refusal :=
  when_ (s.on && s.power.warnPin) (fun s => { s with power := { s.power with warnPin := false, warnOff := s.now } }) s

/-- SUPPLY_EPISODE_END: 50 µs after deassertion the episode is logged with its length, source 78 fires and the controllers
decide (R393). -/
def execSupplyEpisodeEnd (s : State) : Host.Outcome State Fault Refusal :=
  when_ (s.on && s.power.warn && !s.power.warnPin && s.due (s.power.warnOff + 50000)) (fun s =>
    let s1 := { s with power := ({ s.power with warn := false }).capped }
    ((s1.logEv 0x000F 255 1 [s.now - s.power.warnAt]).raise 78).decideAll) s

/-- JUNCTION_SAMPLE: levels rise, ceilings that fall act at once, three samples at the trip halt (R396, R397). -/
def execJunctionSample (pairs : List Nat) (hub : Nat) (s : State) : Host.Outcome State Fault Refusal :=
  when_ s.up (fun s =>
    let s1 := (List.range 4).foldl (fun (t : State) n =>
      let d := t.die n
      let temp := nth 0 pairs n
      let old := t.ceiling n
      (t.setDie n { d with tj := temp, jlvl := max d.jlvl (heatLevel junctionThr temp), hot := heatMarks junctionThr d.hot temp t.now }).ceilingFell n old) s
    let p := s1.power
    let hottest := (hub :: pairs).foldl max 0
    let run := if s.cairn.tjTrip ≤ hottest then p.tjRun + 1 else 0
    let s2 := { s1 with power := ({ p with hubT := hub, hubLvl := max p.hubLvl (heatLevel junctionThr hub), hubHot := heatMarks junctionThr p.hubHot hub s.now, tjRun := run }).capped
                        tally := { s1.tally with tmax := (List.range 5).foldl (fun m k => alMod 0 m (if k < 4 then 32 + k else 48) (max (if k < 4 then nth 0 pairs k else hub))) s1.tally.tmax } }
    if 3 ≤ run then s2.halt 2 else s2) s

/-- JUNCTION_LEVEL_EXIT: levels whose samples stayed 2 °C below their entry for 1 ms are left; `die` 4 is H (R396). -/
def execJunctionLevelExit (die : Nat) (s : State) : Host.Outcome State Fault Refusal :=
  when_ (s.up && decide (die ≤ 4)) (fun s =>
    if die = 4 then { s with power := ({ s.power with hubLvl := heatExit s.power.hubHot s.power.hubLvl s.now }).capped }
    else s.setDie die { s.die die with jlvl := heatExit (s.die die).hot (s.die die).jlvl s.now }) s

/-- STACK_TEMP_SAMPLE: the stack's level rises, the ceiling on Cn acts at once, a reading at SAFE_HBM_TRIP halts (R284, R397). -/
def execStackTempSample (die stack temp : Nat) (s : State) : Host.Outcome State Fault Refusal :=
  when_ (s.up && decide (1 ≤ s.plat.stage) && !(s.plat.lostF.contains die) && decide (die < 4) && decide (stack < 3)) (fun s =>
    let old := s.ceiling die
    let k := alGet {} s.hbm (die * 3 + stack)
    let k1 := { k with temp := temp, lvl := max k.lvl (heatLevel stackThr temp), hot := heatMarks stackThr k.hot temp s.now }
    let s1 := { s with
      hbm := alPut s.hbm (die * 3 + stack) k1
      tmax := alMod 0 s.tmax die (max temp)
      tally := { s.tally with tmax := alMod 0 s.tally.tmax (36 + 3 * die + stack) (max temp) } }
    let s2 := s1.ceilingFell die old
    if s.cairn.hbmTrip ≤ temp then s2.halt 3 else s2) s

/-- STACK_LEVEL_EXIT: a level whose samples stayed 2 °C below its entry for 1 ms is left (R284). -/
def execStackLevelExit (die stack : Nat) (s : State) : Host.Outcome State Fault Refusal :=
  when_ (s.up && decide (die < 4) && decide (stack < 3)) (fun s =>
    { s with hbm := alUpd s.hbm (die * 3 + stack) (fun k => { k with lvl := heatExit k.hot k.lvl s.now }) }) s

/-- LPDDR_TEMP_SAMPLE: the package's channels double their refresh at 85 °C and are capped at 50 % from 95 °C (R285). -/
def execLpddrTempSample (die k temp : Nat) (s : State) : Host.Outcome State Fault Refusal :=
  when_ (s.serves && decide (die < 4) && decide (k < 4) && !(s.plat.lostF.contains die)) (fun s =>
    let h := if 95 ≤ temp then 2 else if 85 ≤ temp then 1 else 0
    (List.range 4).foldl (fun (t : State) j => t.setChan die (96 + 4 * k + j) { t.chan die (96 + 4 * k + j) with heat := h }) s) s

/-- THERM_TRIP: THERM_TRIP_N asserts and every clock except Cairn's stops, in every state and stage (R398, R403, R451). -/
def execThermTrip (s : State) : Host.Outcome State Fault Refusal :=
  when_ s.on (fun s => { s with plat := { s.plat with thermTrip := true } }) s

/-- COOLANT_OK_DEASSERT: the 10 µs filter starts (R400). -/
def execCoolantOkDeassert (s : State) : Host.Outcome State Fault Refusal :=
  when_ (s.on && s.plat.coolant) (fun s =>
    { s with plat := { s.plat with coolant := false }, power := { s.power with coolLow := s.power.pstate != 3, coolOff := s.now } }) s

/-- COOLANT_HALT: still deasserted after 10 µs, the package halts (R400, R451). -/
def execCoolantHalt (s : State) : Host.Outcome State Fault Refusal :=
  when_ (s.on && !s.plat.coolant && s.power.coolLow && s.due (s.power.coolOff + 10000)) (fun s => s.halt 1) s

/-- COOLANT_OK_ASSERT: a deassertion shorter than 10 µs is ignored and counted; the 2 s of R402 start (R400, R402). -/
def execCoolantOkAssert (s : State) : Host.Outcome State Fault Refusal :=
  when_ (s.on && !s.plat.coolant) (fun s =>
    let s1 := { s with plat := { s.plat with coolant := true }, power := { s.power with coolLow := false, coolSince := s.now } }
    if s.power.coolLow then s1.count 4 else s1) s

/-- No stand is resident and no record is started (Table 16.7). -/
def State.noWork (s : State) : Bool :=
  s.tiles.all (fun e => e.2.stands.isEmpty) && s.streams.all (fun e => e.2.flights.isEmpty)

/-- IDLE_ENTRY: after 1 ms with no resident stand and no started record the tile islands are gated at the OP0 clock (R399). -/
def execIdleEntry (s : State) : Host.Outcome State Fault Refusal :=
  when_ (s.serves && decide (s.power.pstate = 0) && s.noWork && s.due (s.power.busyAt + 1000000)) (fun s =>
    let s1 := (List.range 4).foldl (fun (t : State) n => t.setOp n 0) s
    { s1 with power := { s1.power with pstate := 1 } }) s

/-- IDLE_EXIT: the first record started brings the tiles back to run (R399). -/
def execIdleExit (s : State) : Host.Outcome State Fault Refusal :=
  when_ (s.serves && decide (s.power.pstate = 1) && !s.noWork) (fun s =>
    { s with power := { s.power with pstate := 0 } }) s

/-- POWER_SAFETY_NET: the 10 ms average exceeded 1.05 × the ceiling at every sample for 100 ms; every die is held at OP0 until
power-off and the log records it (R381). -/
def execPowerSafetyNet (s : State) : Host.Outcome State Fault Refusal :=
  when_ (s.runs && decide (1 ≤ s.plat.stage) && !s.power.snet && decide (10000 < s.tally.excess)) (fun s =>
    let s1 := { s with power := { s.power with snet := true } }
    ((List.range 4).foldl State.decideOp s1).logEv 0x0011 255 2 [1]) s

end Sys2Proof.Machine
end

