-- ==== Sys2Proof/Machine/Records.lean ====
section
/-! DEFINITION. Stream records: launches with their stands, copies, signals, waits, hints, requests, flushes, epochs, links (R63–R71,
R95, R126, R149, R193, R195, R354–R356, R385–R389). -/

namespace Sys2Proof.Machine

/-- Stands of a tile under the occupancy rule (R70). -/
def occupancy (crews nreg lsSplit lsStand acc : Nat) (ee : Bool) : Nat :=
  let bySlots := min 16 (48 / crews)
  let byRegs := (4096 / nreg) / crews
  let byLs := if lsStand = 0 then 16 else 128 * lsSplit / lsStand
  let byAcc := if acc = 0 then 16 else 16 / (acc * crews)
  min bySlots (min byRegs (min byLs (min byAcc (if ee then 4 else 16))))

/-- Physical number of logical tile t of a die: the t-th enabled at test (Table 14.10). -/
def State.physTile (s : State) (die t : Nat) : Option Nat := (bitsOf 68 (nth 0 s.fuses.enabled die).toNat)[t]?

/-- The tile can become eligible at some time: its die is not lost and it is neither retired nor retiring (R65, R301, R434). -/
def State.canServe (s : State) (die t : Nat) : Bool :=
  !(s.plat.lostC.contains die) && !(s.tile die t).retired && !(s.tile die t).retiring

/-- Stands of a launch. -/
def Launch.total (l : Launch) : Nat := l.gx * l.gy * l.gz

/-- A paced launch other than `lid` waits for the tile (R354). -/
def State.pacedWaits (s : State) (lid die t : Nat) : Bool :=
  s.launches.any (fun e => e.1 != lid && e.2.paced && !e.2.closed && decide (e.2.next < e.2.total) && e.2.tiles.contains (die, t))

/-- The tile takes stands of a launch: it holds none of another, and a paced launch that waits for it comes first (R65, R354). -/
def State.tileOpen (s : State) (lid : Nat) (paced : Bool) (e : Nat × Nat) : Bool :=
  let t := s.tile e.1 e.2
  s.dieLive e.1 && s.canServe e.1 e.2
    && (if t.stands.isEmpty then paced || !(s.pacedWaits lid e.1 e.2) else decide (t.launch = some lid))

/-- The launch shape of a LAUNCH record with the checks of R69, R126 and Table 14.12: reason, or the launch. -/
def State.launchOfRec (s : State) (n : Nat) (ws : List W64) (lid : Nat) : Except Nat Launch :=
  let v := s.stream n
  let w := nth 0 ws
  let crews := wfld (w 1) 56 4 + 1
  let nreg := 8 * wfld (w 2) 48 6
  let split := wfld (w 2) 54 4
  let ls := 4 * wfld (w 5) 0 9
  let acc := wfld (w 5) 9 5
  let ee := wfld (w 4) 59 1
  let nprog := wfld (w 4) 52 7
  let gx := wfld (w 2) 0 16
  let gy := wfld (w 2) 16 16
  let gz := wfld (w 2) 32 16
  let per := occupancy crews nreg split ls acc (ee == 1)
  let dsel := bitsOf 4 (wfld (w 1) 52 4)
  let tiles := dsel.flatMap (fun j =>
    match nth none v.slots j with
    | some d => (bitsOf 64 (w 3 &&& nth 0 v.masks j).toNat).filterMap (fun t => (s.physTile d t).map (fun p => (d, p)))
    | none => [])
  if gx = 0 ∨ gy = 0 ∨ gz = 0 ∨ nreg = 0 ∨ 256 < nreg ∨ 10 < split ∨ 128 * split < ls ∨ 16 < acc ∨ wfld (w 1) 0 3 ≠ 0 ∨ 64 < nprog
      ∨ (nprog ≠ 0 ∧ wfld (w 4) 0 7 ≠ 0) ∨ (nprog ≠ 0 ∧ ee = 0) ∨ per = 0 then .error 2
  else if dsel.any (fun j => (nth none v.slots j).isNone) then .error 6
  else
    let ok := tiles.filter (fun e => s.canServe e.1 e.2)
    if ok.isEmpty then .error 5
    else
      .ok { id := lid, stream := n, addr := v.next, tag := wfld (w 0) 32 32, gx := gx, gy := gy, gz := gz, crews := crews, nreg := nreg,
            lsSplit := split, lsStand := ls, acc := acc, ee := ee, entry := wfld (w 1) 0 52, space := v.space, progs := [], wins := v.wins,
            tiles := ok, per := per, paced := v.cls == 0, next := 0, ended := 0, killed := 0, lost := 0, unplaced := 0, closed := false }

/-- The images of a program table, 48 words each (R127). -/
def images (n : Nat) (l : List W64) : List (List W64) := (List.range n).map (fun k => (l.drop (48 * k)).take 48)

/-- What a launch does to a tile before its first stand there, or before its next one when another launch took the tile meanwhile: L1 and instruction buffer invalidated, programs loaded (R75, R126, R193,
R203). -/
def State.readyTile (s : State) (lid : Nat) (progs : List (List W64)) (e : Nat × Nat) : State :=
  let s1 := s.flushL1 e.1 e.2
  let t := s1.tile e.1 e.2
  s1.setTile e.1 e.2 { t with
    launch := some lid, ibuf := [], progs := (List.range progs.length).foldl (fun (a : Sparse (List W64)) k => alPut a k (nth [] progs k)) t.progs }

/-- A checked launch starts, once its images are read and some tile takes its stands; the L1s of all its tiles are invalidated (R65, R126, R193,
R354). -/
def State.launchGo (s : State) (n : Nat) (ws : List W64) (l : Launch) : State :=
  let w4 := nth 0 ws 4
  let nprog := wfld w4 52 7
  match s.readKeep (.stream n (s.stream n).next) l.space (wfld w4 0 52) (48 * nprog) with
  | .wait u => u
  | .fail _ _ u => u.reject n ws 3 false
  | .ok tab u =>
    let imgs := images nprog tab
    if !(imgs.all programOk) then u.reject n ws 3 false
    else if !(l.tiles.any (fun e => u.tileOpen l.id l.paced e)) then u
    else
      let u1 := l.tiles.foldl (fun (t : State) e =>
        if (t.tile e.1 e.2).stands.isEmpty then t.readyTile l.id imgs e else t.flushL1 e.1 e.2) u
      ({ u1 with launches := alPut u1.launches l.id { l with progs := imgs }, launchNum := u1.launchNum + 1 }).start n (u.newFlight l.addr ws)

/-- LAUNCH: checked, its images loaded and the L1s of its tiles invalidated before stands start (R69, R126, R193). -/
def execLaunch (n : Nat) (s : State) : Host.Outcome State Fault Refusal :=
  .next (s.take n 1 (fun u ws =>
    match u.launchOfRec n ws u.launchNum with
    | .error k => u.reject n ws k false
    | .ok l => u.launchGo n ws l))

/-- A crew as it starts: registers zero, all 32 lanes at ENTRY (R63, R67, R84). The latch of SREAD index 14 is 0 until the first SREAD of index
13, which R68 leaves open (DESIGN CHOICE, log entry 64). The bottom frame has no reconvergence point: its field holds no address. -/
def newCrew (stand index entry : Nat) : Crew :=
  { stand := stand, index := index, g := [], u := [], p := [],
    paths := [{ pc := entry, lanes := BitVec.allOnes 32, frame := 0, wait := .none }], cur := 0, issued := 0,
    frames := [{ id := 0, rcv := 2 ^ 65, call := false, parent := 0 }], nextFrame := 1, dtimeHi := 0, parked := none, replay := none,
    subLeft := none, copies := 0, matrix := 0, element := 0, copyErr := [], fence := none, groups := [], nextGrp := 0 }

/-- Puts the next stand of a launch into a stand slot of a tile: its crews take crew slots slot × CREWS on, its element context has its
flags cleared (R63, R71, R73, R139). -/
def State.placeStand (s : State) (lid : Nat) (l : Launch) (die tile slot : Nat) : State :=
  let s0 := if (s.tile die tile).launch = some lid then s else s.readyTile lid l.progs (die, tile)
  let t := s0.tile die tile
  let crews := (List.range l.crews).foldl (fun (a : Sparse Crew) k => alPut a (slot * l.crews + k) (newCrew slot k l.entry)) t.crews
  let ctx := if l.ee = 1 then alMod {} t.ctx slot (fun (x : ECtx) => { x with flags := 0 }) else t.ctx
  let s1 := s0.setTile die tile { t with
    launch := some lid, crews := crews, ctx := ctx,
    stands := alPut t.stands slot { launch := lid, index := l.next, killed := false, lost := false } }
  { s1 with launches := alPut s1.launches lid { l with next := l.next + 1 } }

/-- STAND_PLACE: the next stand in linear order on an eligible tile with room (R63–R65, R70). -/
def execStandPlace (launch die tile : Nat) (s : State) : Host.Outcome State Fault Refusal :=
  when_ (s.serves && decide (s.power.pstate = 0)) (fun s =>
    match alFind s.launches launch with
    | none => s
    | some l =>
      if l.closed || decide (l.total ≤ l.next) || !(l.tiles.contains (die, tile)) || !(s.tileOpen launch l.paced (die, tile)) then s
      else
        match (List.range l.per).find? (fun k => (alFind (s.tile die tile).stands k).isNone) with
        | some slot => s.placeStand launch l die tile slot
        | none => s) s

/-- The status of a launch that is over (Table 14.12, R95). -/
def Launch.status (l : Launch) : Nat × W64 :=
  if 0 < l.lost ∨ 0 < l.unplaced then (3, BitVec.ofNat 64 (l.lost + l.unplaced * 2 ^ 32))
  else if 0 < l.killed then (2, BitVec.ofNat 64 l.killed)
  else (0, 0)

/-- A launch is over when its placed stands have ended and no more will be placed: all were, it is closed, or no eligible tile remains
(R95, R300, R434). -/
def State.launchDone (s : State) (lid : Nat) : State :=
  match alFind s.launches lid with
  | none => s
  | some l =>
    if l.ended = l.next ∧ (l.next = l.total ∨ l.closed ∨ !(l.tiles.any (fun e => s.canServe e.1 e.2))) then
      let l1 := { l with unplaced := l.total - l.next }
      ({ s with launches := alPut s.launches lid l1 }).finFlight l.stream l.addr l1.status.1 l1.status.2
    else s

/-- Every lane of a crew has ended and everything it started has completed (R82). -/
def State.crewOver (s : State) (c : CrewId) (v : Crew) : Bool :=
  v.paths.isEmpty && v.parked.isNone && decide (v.copies = 0) && decide (v.matrix = 0) && decide (v.element = 0) && (s.crewReqs c).isEmpty

/-- Frees a stand's slots and counts it as ended. -/
def State.freeStand (s : State) (die tile slot : Nat) : State :=
  let t := s.tile die tile
  match alFind t.stands slot with
  | none => s
  | some x =>
    let s1 := s.worked.setTile die tile { t with stands := alDel t.stands slot, crews := t.crews.filter (fun e => e.2.stand != slot) }
    ({ s1 with launches := alUpd s1.launches x.launch (fun (l : Launch) =>
        { l with ended := l.ended + 1, killed := l.killed + b2n x.killed, lost := l.lost + b2n x.lost }) }).launchDone x.launch

/-- STAND_END: a stand whose crews have all ended, with every store, atomic, reduction and copy of theirs complete, frees its slots; its
launch may be over (R64, R82, R95). -/
def execStandEnd (die tile slot : Nat) (s : State) : Host.Outcome State Fault Refusal :=
  when_ (s.serves && !(s.plat.resetting.contains die)) (fun s =>
    if ((s.tile die tile).crews.filter (fun e => e.2.stand == slot)).all (fun e =>
        s.crewOver { die := die, tile := tile, slot := e.1 } e.2) then s.freeStand die tile slot
    else s) s

/-- COPY: its descriptors go to the masked heavy Buckers of the slot's foundation die (R149, Table 14.11). -/
def execCopy (n : Nat) (s : State) : Host.Outcome State Fault Refusal :=
  .next (s.take n 2 (fun u ws =>
    let w2 := nth 0 ws 2
    if wfld w2 0 13 = 0 ∨ 4096 < wfld w2 0 13 ∨ wfld (nth 0 ws 1) 0 6 ≠ 0 ∨ wfld w2 16 8 = 0 then u.reject n ws 2 false
    else
      match nth none (u.stream n).slots (wfld w2 13 2) with
      | none => u.reject n ws 6 false
      | some d => u.start n { u.newFlight (u.stream n).next ws with die := d }))

/-- The record of a type in flight whose work is not done. -/
def State.openFlight (s : State) (n typ : Nat) : Option Flight := (s.stream n).flights.find? (fun f => f.typ == typ && f.fin.isNone)

/-- A record of one type starts when `ok` accepts its words, and does its work, at once or at later attempts. -/
def State.attempt (s : State) (n : Nat) (typ : Nat) (ok : List W64 → Bool) (go : State → Flight → State) : State :=
  if s.serves && decide (n < 64) then
    let s1 := match s.openFlight n typ with
      | some f => go s f
      | none => s
    s1.take n typ (fun u ws =>
      if ok ws then
        let f := u.newFlight (u.stream n).next ws
        go (u.start n f) f
      else u.reject n ws 2 false)
  else s

/-- The write of a SIGNAL or EPOCH record; it is performed after every earlier record has completed, so it releases all their writes
(R193, R356). -/
def State.recordWrite (s : State) (n : Nat) (f : Flight) (v : W64) (add : Bool) : State :=
  let va := wfld (nth 0 f.words 1) 0 52
  match s.recAccess (recWr n f.addr (s.stream n).space va v add) with
  | .wait u => u
  | .fail k u => u.finFlight n f.addr 10 (accessDetail va k)
  | .done _ u => u.finFlight n f.addr 0 0

/-- SIGNAL: a store or an atomic ADD (R193, Table 14.11). -/
def execSignal (n : Nat) (s : State) : Host.Outcome State Fault Refusal :=
  .next (s.attempt n 3 (fun ws => wfld (nth 0 ws 1) 0 3 == 0) (fun u f =>
    u.recordWrite n f (nth 0 f.words 2) (bitOf (nth 0 f.words 3).toNat 0)))

/-- EPOCH: the placement epoch is written (R355, Table 14.11). -/
def execEpoch (n : Nat) (s : State) : Host.Outcome State Fault Refusal :=
  .next (s.attempt n 9 (fun ws => wfld (nth 0 ws 1) 0 3 == 0) (fun u f =>
    u.recordWrite n f (BitVec.ofNat 64 (u.stream n).epoch) false))

/-- The condition of a WAIT (Table 14.11). -/
def condMet (ws : List W64) (x : W64) : Bool :=
  match wfld (nth 0 ws 3) 0 2 with
  | 0 => x == nth 0 ws 2
  | 1 => decide ((nth 0 ws 2).toNat ≤ x.toNat)
  | _ => x != nth 0 ws 2

/-- A WAIT whose condition has held is over, as an acquire of system scope, once the host snoops that had been received by then have been applied
(R193, R197). -/
def State.waitDue (s : State) (n : Nat) (f : Flight) (due : Nat) : State :=
  if due ≤ s.snoopOut then s.finFlight n f.addr 0 0
  else s.setStream n { s.stream n with flights := (s.stream n).flights.map (fun g => if g.addr = f.addr then { g with due := some due } else g) }

/-- A WAIT's read of its word: met, failed, or noted as the last value read (R193, R355, Table 14.12). -/
def State.waitRead (s : State) (n : Nat) (f : Flight) (va : Nat) : State :=
  match s.recAccess (unitReq (.stream n f.addr) .bread (s.stream n).space va 8) with
  | .wait t => t
  | .fail k t => t.finFlight n f.addr 10 (accessDetail va k)
  | .done x t =>
    if condMet f.words x then t.waitDue n f t.snoopIn
    else t.setStream n { t.stream n with flights := (t.stream n).flights.map (fun g => if g.addr = f.addr then { g with last := x } else g) }

/-- A WAIT holds a watch on its line and then reads its word, so that no write to it passes unseen between reads; a line that the dispatcher
cannot watch it reads anew each time (R193, R238, R355). -/
def State.waitGo (s : State) (n : Nat) (f : Flight) : State :=
  let va := wfld (nth 0 f.words 1) 0 52
  match f.due with
  | some due => s.waitDue n f due
  | none =>
    match s.unitXlat (.stream n f.addr) .bread (s.stream n).space va with
    | .wait u => u
    | .fail u => u.finFlight n f.addr 10 (accessDetail va 7)
    | .hit pa u =>
      match u.watchable pa with
      | none => u.waitRead n f va
      | some line =>
        if (u.stream n).watch = some line ∧ u.ast (u.agentId 8) line = .s then u.waitRead n f va
        else
          match u.route .hub pa with
          | .answer _ _ => u.waitRead n f va
          | .go _ => u.setWatch n line

/-- WAIT: later records wait for its condition (R193, R355, Table 14.11). -/
def execWait (n : Nat) (s : State) : Host.Outcome State Fault Refusal :=
  .next (s.attempt n 4 (fun ws => wfld (nth 0 ws 1) 0 3 == 0 && wfld (nth 0 ws 3) 0 2 != 3) (fun u f => u.waitGo n f))

/-- WAIT_TIMEOUT: the timeout of a WAIT expires (R356, Table 14.12). -/
def execWaitTimeout (n : Nat) (s : State) : Host.Outcome State Fault Refusal :=
  when_ (s.serves && decide (n < 64)) (fun s =>
    match s.openFlight n 4 with
    | none => s
    | some f =>
      let us := wfld (nth 0 f.words 3) 32 32
      if us ≠ 0 ∧ f.since + 1000 * us ≤ s.now then s.finFlight n f.addr 9 f.last else s) s

/-- Dies of the placement slots that a mask names. -/
def Stream.diesOf (v : Stream) (smask : Nat) : List Nat := (bitsOf 4 smask).filterMap (fun j => nth none v.slots j)

/-- The checks that a hint and a request share: reason 2 for no slot, 6 for a slot that is not valid (R385, R388). -/
def Stream.smaskBad (v : Stream) (smask : Nat) : Option Nat :=
  if smask = 0 then some 2 else if (bitsOf 4 smask).any (fun j => (nth none v.slots j).isNone) then some 6 else none

/-- A die takes a hint: at most 8 are held, a ninth is passed over and counted; one whose T has passed is in force at once (R386). -/
def State.takeHint (s : State) (h : Hint) (die : Nat) : State :=
  let d := s.die die
  if 8 ≤ d.hints.length then s.count (dieAct die 21)
  else if h.t + 1000 * h.dur ≤ s.now then s
  else
    let s1 := s.setDie die { d with hints := d.hints ++ [h] }
    if h.t ≤ s.now then s1.hintForce die d.hints.length else s1

/-- PHASE_HINT (R3, R385, R386). -/
def execPhaseHint (n : Nat) (s : State) : Host.Outcome State Fault Refusal :=
  .next (s.take n 5 (fun u ws =>
    let v := u.stream n
    let w1 := nth 0 ws 1
    let t := (nth 0 ws 2).toNat
    let irq := bitOf (nth 0 ws 0).toNat 10
    if v.cls ≠ 0 then (u.pass n (v.next + 64) false).count (svc 0)
    else if wfld w1 16 16 = 0 ∨ u.now + 2000000 < t then u.reject n ws 2 false
    else
      match v.smaskBad (wfld w1 0 4) with
      | some k => u.reject n ws k false
      | none =>
        let h : Hint := { stream := n, t := t, dur := wfld w1 16 16, opmin := wfld w1 4 3, pwr := wfld (nth 0 ws 3) 0 12,
                          inForce := false, marked := false, raised := false }
        (v.diesOf (wfld w1 0 4)).foldl (fun (x : State) d => x.takeHint h d) (u.pass n (v.next + 64) irq)))

/-- OP_REQUEST (R3, R388). -/
def execOpRequest (n : Nat) (s : State) : Host.Outcome State Fault Refusal :=
  .next (s.take n 6 (fun u ws =>
    let v := u.stream n
    let w1 := nth 0 ws 1
    if v.cls ≠ 1 then (u.pass n (v.next + 64) false).count (svc 0)
    else
      match v.smaskBad (wfld w1 0 4) with
      | some k => u.reject n ws k false
      | none =>
        (v.diesOf (wfld w1 0 4)).foldl (fun (x : State) d =>
          x.setDie d { x.die d with reqs := if wfld w1 7 1 = 1 then alDel (x.die d).reqs n else alPut (x.die d).reqs n (wfld w1 4 3 + 1) })
          (u.pass n (v.next + 64) (bitOf (nth 0 ws 0).toNat 10))))

/-- Lines within a range of line numbers that a flush finds dirty: in an L2 slice, in an eviction buffer, owned by a caching agent of any package, or
modified in the host-line cache (R195, Table 9.9). -/
def State.dirtyLines (s : State) (lo hi : Nat) : List Nat :=
  let inR := fun (a : Nat) => decide (lo ≤ a) && decide (a < hi)
  (s.slices.flatMap (fun e =>
      (e.2.lines.filter (fun x => x.2.dirty && inR x.2.addr)).map (fun x => x.2.addr)
      ++ (e.2.evb.filter (fun x => inR x.addr)).map (·.addr)
      ++ (e.2.dir.filter (fun x => x.2.owner.isSome && inR x.2.addr)).map (fun x => x.2.addr))
    ++ s.agents.flatMap (fun e => (e.2.lines.filter (fun x => (x.2.st == .m || x.2.st == .o || x.2.st == .omA || x.2.st == .miA) && inR x.1)).map (·.1))
    ++ (s.host.filter (fun e => (e.2.h0 == .m || e.2.h1 == .m || e.2.owner.isSome) && inR e.1)).map (·.1)).eraseDups

/-- The accesses that flush some lines of a page (R195). -/
def flushReqs (n : Nat) (f : Flight) (space : Nat) (vas : List Nat) : List Req := vas.map (fun a => unitReq (.stream n f.addr) .flush space a 128)

/-- Changes a FLUSH_RANGE record. -/
def State.onFlush (s : State) (n : Nat) (f : Flight) (g : Flight → Flight) : State :=
  s.setStream n { s.stream n with flights := (s.stream n).flights.map (fun x => if x.addr = f.addr then g x else x) }

/-- The page a FLUSH_RANGE has come to: its dirty lines are found, those of a page in another package being all its lines, which only their homes
can tell (R195; log entry 35). -/
def State.flushFind (s : State) (n : Nat) (f : Flight) (past : Nat) : State :=
  match s.unitXlat (.stream n f.addr) .flush (s.stream n).space f.pos with
  | .wait u => u
  | .fail u => u.finFlight n f.addr 8 (BitVec.ofNat 64 f.pos)
  | .hit pa u =>
    let lo := pa / 128
    let hi := (pa + (past - f.pos) + 127) / 128
    let all := (List.range (hi - lo)).map (fun k => lo + k)
    match u.region pa with
    | .unmapped | .regs => u.finFlight n f.addr 8 (BitVec.ofNat 64 f.pos)
    | g =>
      let lines := if (u.remoteOf g).isSome then all else u.dirtyLines lo hi
      u.onFlush n f (fun x => { x with lines := some (lines.map (fun l => f.pos / 2 ^ 25 * 2 ^ 25 + l * 128 % 2 ^ 25)) })

/-- A FLUSH_RANGE goes on: one page, or what of the range lies in it, each dirty line of which is flushed by an access to its home; a page that is
not mapped, or an access that fails, ends it (R195). -/
def State.flushGo (s : State) (n : Nat) (f : Flight) : State :=
  let stop := wfld (nth 0 f.words 1) 0 52 + (nth 0 f.words 2).toNat
  let past := min stop ((f.pos / 2 ^ 25 + 1) * 2 ^ 25)
  if stop ≤ f.pos then s.finFlight n f.addr 0 0
  else if 2 ^ 52 ≤ f.pos then s.finFlight n f.addr 8 (BitVec.ofNat 64 f.pos)
  else
    match f.lines with
    | none => s.flushFind n f past
    | some vas =>
      let xs := flushReqs n f (s.stream n).space vas
      match s.unitAll xs with
      | .wait u => u
      | .done l u =>
        match firstFail l with
        | some (_, a) => (u.unitEnd xs).finFlight n f.addr 8 (BitVec.ofNat 64 a)
        | none =>
          let u1 := (u.unitEnd xs).onFlush n f (fun x => { x with pos := past, lines := none })
          if stop ≤ past then u1.finFlight n f.addr 0 0 else u1

/-- FLUSH_RANGE (R195). -/
def execFlushRange (n : Nat) (s : State) : Host.Outcome State Fault Refusal :=
  .next (s.attempt n 7 (fun _ => true) (fun u f => u.flushGo n f))

/-- LINK: the stream moves to NEXT, or parks when NEXT is zero; a NEXT that is not 64-byte aligned stops it (R355). -/
def execLink (n : Nat) (s : State) : Host.Outcome State Fault Refusal :=
  .next (s.take n 10 (fun u ws =>
    let next := wfld (nth 0 ws 1) 0 52
    if next = 0 then u.parkAt n
    else if next % 64 ≠ 0 then u.reject n ws 2 true
    else u.pass n next (bitOf (nth 0 ws 0).toNat 10)))

/-- EMPTY: the stream parks (R355). -/
def execEmpty (n : Nat) (s : State) : Host.Outcome State Fault Refusal :=
  .next (s.take n 0 (fun u _ => u.parkAt n))

end Sys2Proof.Machine
end

