-- ==== Sys2Proof/Machine/Ridge.lean ====
section
/-! DEFINITION. Ridge links: training, flits and retry, lane and link retirement, failover, and messages that arrive (R306–R321,
R448). -/

namespace Sys2Proof.Machine

/-- A Ridge flit, as Table 13.2 lays it out, and whether its CRC-32C matches. -/
structure Flit where
  typ   : Nat
  seq   : Nat
  ack   : Nat
  ackv  : Bool
  smask : BitVec 15
  cvc   : Nat
  ccnt  : Nat
  slots : List (BitVec 128)
  crcOk : Bool
  deriving DecidableEq, Repr

/-- The flit that 256 bytes hold, the least significant first (R7, R308, Table 13.2). -/
def flitOf (b : List Byte) : Flit :=
  let h := byteFld b 0 12
  { typ := fld h 0 2, seq := fld h 2 12, ack := fld h 14 12, ackv := bitOf h 26, smask := BitVec.ofNat 15 (fld h 27 15), cvc := fld h 42 3,
    ccnt := fld h 45 8, slots := (List.range 15).map (fun j => BitVec.ofNat 128 (byteFld b (12 + 16 * j) 16)),
    crcOk := b.length == 256 && crc32c (b.take 252) == byteFld b 252 4 }

/-- UP4 or UP3. -/
def Link.up (v : Link) : Bool := v.state == 2 || v.state == 3

/-- Number of lanes in a mask. -/
def laneCount (m : BitVec 4) : Nat := popCount 4 m.toNat

/-- State of a link that trained with a set of lanes (Table 13.1). -/
def upState (m : BitVec 4) : Option Nat := if laneCount m = 4 then some 2 else if laneCount m = 3 then some 3 else none

/-- Sequence counters and replay buffer as training leaves them. -/
def Link.fresh (v : Link) : Link := { v with rx := 0, nak := none, tx := 0, replay := [] }

/-- A link changes; when its state is another one source 76 fires (R32). -/
def State.linkState (s : State) (l : Nat) (v : Link) : State :=
  let t := s.setLink l v
  if v.state = (s.link l).state then t else t.raise 76

/-- Lane or link events go to the event log and raise source 76 (R312). -/
def State.laneEvent (s : State) (l left : Nat) : State := (s.logEv 0x000C (l / 16) 2 [l, left]).raise 76

/-- The hash by which a message takes its link (R317). -/
def msgHash (m : RMsg) : Option Nat :=
  if m.vc ≤ 3 then none
  else if m.vc = 7 then some (Free.chunkHash (m.req / 2 ^ 20) (m.req % 2 ^ 20))
  else
    match m.acc, m.coh with
    | some a, _ => some (Free.ridgeHash (a.pa / 128))
    | none, some c => some (Free.ridgeHash c.line)
    | none, none => some (Free.ridgeHash m.req)

/-- A message goes no further: a request is answered to its source as unreachable, a coherent one among them; anything else is discarded (R314,
R318). -/
def State.goesNoFurther (s : State) (m : RMsg) : State :=
  match m.acc, m.coh with
  | some a, _ => s.respond m.src m.req (a.pa / 128) .unreachable
  | none, some c =>
    if msgClass c.op ≠ 0 ∨ m.ans.isSome then s
    else if m.src / 1024 = s.myAddr / 1024 then s.unreached c.src (s.lineHere c.hpkg c.line)
    else
      (match s.egress (m.src / 1024) (some (Free.ridgeHash c.line)) with
       | some l => s.ridgeSend l { dest := m.src, src := s.myAddr, vc := 6, hops := 6, req := m.req, acc := none, ans := some .unreachable, coh := some c }
       | none => s)
  | none, none => s

/-- One message of a link that has left UP is sent again on the route chosen afresh, or answered as unreachable (R314). -/
def State.failoverOne (s : State) (l : Nat) (e : Nat × Nat × RMsg) : State :=
  let m := e.2.2
  let s1 := if e.2.1 = 0 then s.count (svc 9) else s
  let mine := m.acc.isSome && decide (m.src = s.myAddr)
  match s1.egress (m.dest / 1024) (msgHash m) with
  | some k =>
    let s2 := s1.ridgeSend k m
    if mine then
      (match s2.req m.req with
       | some r =>
         ((s2.giveBack (.ridge l)).setIssued (.ridge k) ((s2.giveBack (.ridge l)).issued (.ridge k) + 1)).setReq
           { r with levels := r.levels.map (fun x => if x = .ridge l then .ridge k else x) }
       | none => s2)
    else s2
  | none => if mine then s1.reply m.req .unreachable else s1.goesNoFurther m

/-- The failover of a link that is not UP: its replay buffer empties (R314). -/
def State.failover (s : State) (l : Nat) : State :=
  let v := s.link l
  v.replay.foldl (fun (t : State) e => t.failoverOne l e) (s.setLink l { v with replay := [] })

/-- LINK_FAILOVER (R314). -/
def execLinkFailover (link : Nat) (s : State) : Host.Outcome State Fault Refusal :=
  when_ (s.serves && decide (link < 64) && !(s.link link).up) (fun s => s.failover link) s

/-- A link goes DOWN, its replay buffer failed over first (R314, R448, Table 12.7). -/
def State.linkDown (s : State) (l : Nat) : State :=
  let v := s.link l
  if v.state = 5 ∨ v.state = 0 then s
  else
    let s1 := (s.linkState l { v with state := 0 }).failover l
    s1.setLink l ({ s1.link l with state := 0, lanes := 0 }).fresh

/-- A retrain begins: counted, and the third within one second retires the link (Table 13.1, R312, R313). -/
def State.linkRetrain (s : State) (l : Nat) : State :=
  let v := s.link l
  let recent := (s.now :: v.trains).filter (fun t => decide (s.now < t + 1000000000))
  let v1 := { v with retr := satAdd 255 v.retr 1, trains := recent, lanes := 0 }
  let s1 := s.count (1536 + 4 * l + 1)
  if 3 ≤ recent.length then (s1.linkState l { v1 with state := 5 }).laneEvent l 0 else s1.linkState l { v1 with state := 4 }

/-- A link is retired until a RIDGE_RETRAIN (R312). -/
def State.linkRetire (s : State) (l : Nat) : State :=
  (s.linkState l { s.link l with state := 5, lanes := 0 }).laneEvent l 0

/-- Releases the flits of a replay buffer that an acknowledgement covers. -/
def released (ack : Nat) (l : List (Nat × Nat × RMsg)) : List (Nat × Nat × RMsg) :=
  match indexWhere (fun (e : Nat × Nat × RMsg) => e.1 == ack) l with
  | some i => l.drop (i + 1)
  | none => l

/-- A NAK: flits after the last good one are replayed, of the 512 that the replay buffer holds, behind which later ones wait to be sent; the fourth replay of one flit puts the link into RETRAIN (R309, R311). -/
def State.nakOn (s : State) (l last : Nat) : State :=
  let v := s.link l
  let rest := released last v.replay
  let sent := rest.take 512
  let again := sent.map (fun e => (e.1, e.2.1 + 1, e.2.2)) ++ rest.drop 512
  let n := sent.length
  let s1 := ((s.setLink l { v with replay := again, retry := satAdd 65535 v.retry n }).count (1536 + 4 * l) n).count (svc 9)
    (sent.filter (fun e => e.2.1 == 0)).length
  if again.any (fun e => decide (4 ≤ e.2.1)) then s1.linkRetrain l else s1

/-- NAK_RECEIVE (R309). -/
def execNakReceive (link last : Nat) (s : State) : Host.Outcome State Fault Refusal :=
  when_ (s.serves && decide (link < 64) && (s.link link).up) (fun s => s.nakOn link last) s

/-- FLIT_RECEIVE: 256 bytes reach a link's receiver. A CRC mismatch or a gap in SEQ discards the flit and every later one until the replay, and owes
a NAK; a good flit acknowledges and
returns credit, and a data flit advances the sequence; one of the reserved type is discarded (R10, R308, R309). -/
def execFlitReceive (link : Nat) (bytes : List Byte) (fecC fecU : Nat) (s : State) : Host.Outcome State Fault Refusal :=
  when_ (s.serves && decide (link < 64) && (s.link link).up) (fun s0 =>
    let s := (s0.count (1536 + 4 * link + 2) fecC).count (1536 + 4 * link + 3) fecU
    let f := flitOf bytes
    let v := s.link link
    let bad := !f.crcOk || (f.typ == 0 && f.seq != v.rx) || (v.nak.isSome && f.typ != 0)
    if bad then s.setLink link { v with nak := some ((v.rx + 4095) % 4096) }
    else if f.typ = 3 then s
    else
      let v0 := if f.ccnt = 0 then v else { v with credit := alMod 0 v.credit f.cvc (· + f.ccnt) }
      let v1 := if f.typ = 0 then { v0 with rx := (v0.rx + 1) % 4096, nak := none } else v0
      let v2 := if f.ackv && f.typ != 2 then { v1 with replay := released f.ack v1.replay } else v1
      let s1 := s.setLink link v2
      if f.typ = 2 then s1.nakOn link f.ack else s1) s

/-- A link may train: committed, not held DOWN by configuration, its die live and its clock present (R306, R307, R365, R448). -/
def State.trains (s : State) (l : Nat) : Bool :=
  s.serves && decide (l < 64) && s.dieLive (l / 16) && s.plat.ridgeClk && bitOf (s.cfg.ridgeLinks.getD (2 ^ 64 - 1)) l

/-- LINK_TRAINING_START (R307). -/
def execLinkTrainingStart (link : Nat) (s : State) : Host.Outcome State Fault Refusal :=
  when_ (s.trains link && decide ((s.link link).state = 0)) (fun s =>
    s.linkState link ({ s.link link with state := 1, lanes := 0 }).fresh) s

/-- LINK_TRAINING_END: UP4, UP3 or DOWN, with the partner's device address (R307). -/
def execLinkTrainingEnd (link : Nat) (lanes : BitVec 4) (peer : Nat) (s : State) : Host.Outcome State Fault Refusal :=
  when_ (s.trains link && decide ((s.link link).state = 1)) (fun s =>
    let v := s.link link
    let m := lanes &&& ~~~v.faulty
    match upState m with
    | some st => s.linkState link ({ v with state := st, lanes := m, peer := peer % 2 ^ 20 }).fresh
    | none => s.linkState link ({ v with state := 0, lanes := 0 }).fresh) s

/-- LINK_RETRAIN_END: lanes that fail are faulty from then on; with three or four left the link is UP again, else it is retired
(Table 13.1, R312); a link that returns from RETIRED is logged too. The replay buffer has been failed over. -/
def execLinkRetrainEnd (link : Nat) (lanes : BitVec 4) (s : State) : Host.Outcome State Fault Refusal :=
  when_ (s.trains link && decide ((s.link link).state = 4) && (s.link link).replay.isEmpty) (fun s =>
    let v := s.link link
    let m := lanes &&& ~~~v.faulty
    let newly := ~~~lanes &&& ~~~v.faulty
    let v1 := { v with faulty := v.faulty ||| newly, revive := false }
    match upState m with
    | some st =>
      let s1 := s.linkState link ({ v1 with state := st, lanes := m }).fresh
      if newly = 0 ∧ ¬ v.revive then s1 else s1.laneEvent link (laneCount m)
    | none => (s.linkState link { v1 with state := 5, lanes := 0 }).laneEvent link (laneCount m)) s

/-- A lane is permanently faulty: the link retrains without it, or a second one retires it (R312). -/
def State.laneFault (s : State) (l lane : Nat) : State :=
  let v := s.link l
  let f := v.faulty ||| (1#4 <<< lane)
  if f = v.faulty then s
  else
    let s1 := s.setLink l { v with faulty := f }
    if 2 ≤ laneCount f then s1.linkRetire l
    else if v.up then (s1.laneEvent l 3).linkRetrain l
    else s1.laneEvent l 3

/-- LANE_PERMANENT_FAULT (R312). -/
def execLanePermanentFault (link lane : Nat) (s : State) : Host.Outcome State Fault Refusal :=
  when_ (s.serves && decide (link < 64) && decide (lane < 4) && decide ((s.link link).state ≠ 5)) (fun s => s.laneFault link lane) s

/-- RIDGE_RETRAIN begins: a link that is UP or RETIRED trains again on all its lanes (R312, Table 13.1). -/
def State.ridgeAgain (s : State) (l : Nat) : State :=
  let v := s.link l
  if v.up || v.state == 5 then
    (s.linkState l { v with state := 4, lanes := 0, faulty := 0, trains := [], revive := v.state == 5, retr := satAdd 255 v.retr 1 }).count (1536 + 4 * l + 1)
  else s

/-- REFCLK_RIDGE_LOSS: every link goes DOWN (R448). -/
def execRefclkRidgeLoss (s : State) : Host.Outcome State Fault Refusal :=
  when_ (s.on && s.plat.ridgeClk) (fun s =>
    let s1 : State := { s with plat := { s.plat with ridgeClk := false } }
    (List.range 64).foldl (fun (t : State) l => t.linkDown l) s1) s

/-- REFCLK_RIDGE_RETURN: the links train again under Table 13.1 (R448). -/
def execRefclkRidgeReturn (s : State) : Host.Outcome State Fault Refusal :=
  when_ (s.on && !s.plat.ridgeClk) (fun s => { s with plat := { s.plat with ridgeClk := true } }) s

/-- The unit is one of Table 13.4. -/
def unitListed (die unit : Nat) : Bool :=
  if die < 4 then decide (unit < 68) || unit == 80 || (decide (96 ≤ unit) && decide (unit ≤ 113))
  else if die = 4 then decide (unit ≤ 16)
  else decide (die = 5) && decide (unit = 0)

/-- Another package's memory request starts as one of this package's own, from the link that delivered it: it is admitted by this package's levels,
and reaches its home or is answered at once (R290, R295, R320). -/
def State.remoteStart (s : State) (link : Nat) (m : RMsg) (a : RAcc) : State :=
  let r := s.newReq { id := 0, who := .remote m.src m.req link, kind := accKindOf a.kind, space := 0, va := a.pa, pa := a.pa, size := a.size,
                      data := a.data, cmp := a.cmp, mask := a.mask, sub := a.sub, ty := a.ty, dst := 255, uni := false, sx := false,
                      noInstall := true, poisoned := a.psn, levels := [], stage := .backoff 0 }
  r.1.tryAdmit r.2

/-- A coherence message of another package joins those in flight; its line as this package numbers it (R223). -/
def State.cohArrive (s : State) (c : CMsg) : State := { s with msgs := s.msgs ++ [{ c with line := s.lineHere c.hpkg c.line }] }

/-- RIDGE_MESSAGE_ARRIVE: a message for this package reaches its unit, a coherence message its home or agent, a Dead notice every home and agent, one for a reserved unit is discarded and counted, any other is
forwarded or, at hop limit 0, discarded and counted; a request that goes no further is answered as unreachable (R315, R317, R318). -/
def execRidgeMessageArrive (link : Nat) (m : RMsg) (s : State) : Host.Outcome State Fault Refusal :=
  when_ (s.serves && decide (link < 64) && (s.link link).up) (fun s =>
    if m.dest / 1024 = s.myAddr / 1024 then
      if !(unitListed (m.dest / 128 % 8) (m.dest % 128)) then s.count (svc 11)
      else
        match m.acc, m.ans, m.coh, m.dead with
        | some a, _, _, _ => s.remoteStart link m a
        | none, some _, some c, _ => s.unreached c.src (s.lineHere c.hpkg c.line)
        | none, some r, none, _ =>
          (match s.req m.req with
           | some q => if q.stage = .sent ∧ (ridgeOf q.levels).isSome then s.reply q.id (accResultOf r) else s
           | none => s)
        | none, none, some c, _ => s.cohArrive c
        | none, none, none, some a => s.noticesHere [a]
        | none, none, none, none => { s with rdgIn := s.rdgIn ++ [m] }
    else if m.hops = 0 then (s.count (svc 10)).goesNoFurther m
    else
      match s.egress (m.dest / 1024) (msgHash m) with
      | some k =>
        if link / 16 = k / 16 ∨ (s.colRoute (link / 16) (k / 16) 0).isSome then s.ridgeSend k m else s.goesNoFurther m
      | none => s.goesNoFurther m) s

end Sys2Proof.Machine
end

