-- ==== Sys2Proof/Machine/Collective.lean ====
section
/-! DEFINITION. Collective engines: plans, chunks and their answers (R322–R330). -/

namespace Sys2Proof.Machine

/-- A chunk's header and payload as they are sent, with a given CRC (R7, R326, Table 13.9). -/
def Chunk.raw (k : Chunk) (crc : Nat) : List Byte :=
  leBytes 8 (k.cid % 2 ^ 24 + k.chunk % 2 ^ 20 * 2 ^ 24 + k.step % 2 ^ 12 * 2 ^ 44 + k.try_ % 4 * 2 ^ 56 + b2n k.psn * 2 ^ 58)
    ++ leBytes 8 (k.src % 2 ^ 20 + (k.payload.length - 1) % 2 ^ 12 * 2 ^ 20 + crc * 2 ^ 32) ++ k.payload

/-- CRC-32C of a chunk, over its header with CRC zero and its payload (R326). -/
def Chunk.crc (k : Chunk) : Nat := crc32c (k.raw 0)

/-- A chunk as it is sent. -/
def Chunk.bytes (k : Chunk) : List Byte := k.raw k.crc

/-- The chunk that a header and the payload after it say (Table 13.9). -/
def chunkAt (b : List Byte) : Chunk :=
  let w0 := byteFld b 0 8
  { cid := fld w0 0 24, chunk := fld w0 24 20, step := fld w0 44 12, try_ := fld w0 56 2, psn := bitOf w0 58, src := fld (byteFld b 8 8) 0 20,
    payload := b.drop 16 }

/-- The chunk is as it was sent: its length is the header's and its CRC matches, over the bytes as they came (R326). -/
def chunkGood (b : List Byte) : Bool :=
  decide (b.length = 16 + fld (byteFld b 8 8) 20 12 + 1)
    && crc32c (b.take 12 ++ [0, 0, 0, 0] ++ b.drop 16) == byteFld b 12 4

/-- Parts of a span of one line outside some poisoned sectors, the whole span when it meets none. -/
def cleanParts (bad : List Nat) (e : Nat × Nat) : List (Nat × Nat) :=
  let ks := sectorsOf e.1 e.2
  if ks.any bad.contains then
    (ks.filter (fun k => !(bad.contains k))).map (fun k => (max e.1 (32 * k), min (e.1 + e.2) (32 * k + 32) - max e.1 (32 * k)))
  else [e]

/-- The writes of a reduction's results: none into a sector of DBUF that holds poison, which stays so; all poison when the chunk is (R328). -/
def redReqs (who : Who) (space va : Nat) (l : List Byte) (bad : List Nat) (psn : Bool) : List Req :=
  if psn then writeReqs who .bwrite space va l true
  else ((pieces va l.length).flatMap (cleanParts bad)).map (fun e => unitWr who .bwrite space e.1 ((l.drop (e.1 - va)).take e.2) false)

/-- A plan of an engine. -/
def State.planOf (s : State) (die cid : Nat) : Option Plan := (alGet [] s.plans die).find? (fun p => p.cid == cid)

/-- Changes a plan of an engine. -/
def State.setPlan (s : State) (die : Nat) (p : Plan) : State :=
  { s with plans := alMod [] s.plans die (fun l => l.map (fun x => if x.cid = p.cid then p else x)) }

/-- Takes a plan off its engine. -/
def State.dropPlan (s : State) (die cid : Nat) : State :=
  { s with plans := alMod [] s.plans die (fun l => l.filter (fun x => x.cid != cid)) }

/-- Writes bytes over a line of this package's memory where its current copy stands: at an agent, in an eviction buffer, in L2 or the host-line
cache, else in memory. -/
def State.poke (s : State) (line o n d : Nat) : State :=
  let f := fun (l : Line) => l.merge o n d (2 ^ n - 1) false
  let s1 : State := { s with agents := s.agents.map (fun e =>
    (e.1, { e.2 with lines := e.2.lines.map (fun x => if x.1 = line then (x.1, { x.2 with line := f x.2.line }) else x) })) }
  if hostLine line then { s1 with host := alUpd s1.host line (fun h => h.put (f h.line)) }
  else
    let v := s1.lineSlice line
    let s2 := s1.setLineSlice line { v with
      evb := v.evb.map (fun e => if e.addr = line then { e with line := f e.line } else e)
      lines := v.lines.map (fun x => if x.2.addr = line then (x.1, { x.2 with line := f x.2.line, dirty := true }) else x) }
    s2.putMem line (f (s2.memLine line))

/-- The bytes of a buffer whose contents are left unspecified, line by line, as far as the package's translation caches and memory hold it now; no
access is made (R329, log entry 61). -/
def State.ruin (s : State) (die space va n : Nat) : State :=
  (pieces va n).foldl (fun (t : State) e =>
    match (t.xlt.look (some die) space e.1 AccKind.bwrite.need).1 with
    | .hit pa => if t.homeHere (pa / 128) then t.poke (pa / 128) (pa % 128) e.2 (Free.ruined s.fresh (pa / 128)).toNat else t
    | _ => t) s.drawn

/-- An engine gives back the Ridge tokens of a chunk that is answered or given up (R294, R326). -/
def State.chunkBack (s : State) (o : OutChunk) : State :=
  match o.levels with
  | some (l, n) => s.setIssued (.ridge l) (s.issued (.ridge l) - n)
  | none => s

/-- A plan ends in a collective error: its accesses are given up, the contents of DBUF are unspecified, its record completes so, the cause is
logged and source 77 raised. Causes: 0 re-sends exhausted, 1 step timeout, 2 peer unreachable, 3 failed access, 4 die reset (R329; numbering the
model's own, log entry 10). -/
def State.planError (s : State) (die cid cause : Nat) : State :=
  match s.planOf die cid with
  | none => s
  | some p =>
    let s1 := (p.out.foldl State.chunkBack s).unitQuit (fun w => match w with | .engine d c _ => d == die && c == cid | _ => false)
    ((((s1.ruin die p.space p.dbuf p.nbytes).dropPlan die cid).finFlight p.stream p.addr 5 (BitVec.ofNat 64 cid)).logEv 0x000D die 2 [cid, cause]).raise 77

/-- Bytes of a chunk of a plan's buffers (R323). -/
def Plan.chunkLen (p : Plan) (c : Nat) : Nat := min 4096 (p.nbytes - 4096 * c)

/-- A step writes a chunk of DBUF (Table 13.7). -/
def PStep.writes (t : PStep) (c : Nat) : Bool :=
  match t.kind with
  | 2 | 3 => decide (t.first ≤ c) && decide (c ≤ t.first + t.count)
  | 4 => decide (t.dfirst ≤ c) && decide (c ≤ t.dfirst + t.count)
  | _ => false

/-- Every earlier step of the plan that writes a chunk of DBUF has written it (R324). -/
def Plan.ready (p : Plan) (k c : Nat) : Bool :=
  (List.range k).all (fun i => match p.steps[i]? with | some t => !(t.writes c) || p.landed.contains (i, c) | none => true)

/-- A read of a source chunk by step `k` must wait as a DBUF access does: it reads DBUF, or the buffers are one (R323, R324). -/
def Plan.sourceReady (p : Plan) (k c : Nat) (fromD : Bool) : Bool := !(fromD || p.sbuf == p.dbuf) || p.ready k c

/-- Chunks in an engine's retention buffer, of 512 (R328). -/
def State.retained (s : State) (die : Nat) : Nat := ((alGet [] s.plans die).map (fun p => p.out.length)).foldl (· + ·) 0

/-- Device address of a die's collective engine (Table 13.4). -/
def State.engineAddr (s : State) (die : Nat) : Nat := s.myAddr + die * 128 + 80

/-- Ridge tokens that a chunk takes: one for every 7 payload slots or part thereof (R310, R326). -/
def chunkTokens (payload : Nat) : Nat := ((payload + 15) / 16 + 1 + 6) / 7

/-- What sending a chunk gives: sent, with the tokens it holds; refused for want of tokens; or no route. -/
inductive SendOut where
  | sent (levels : Option (Nat × Nat)) (s : State)
  | refused (s : State)
  | unreachable

/-- Sends a chunk to a peer engine: over Ridge when it is on another package, with the tokens of its link; none when that is unreachable (R317,
R326, R329). -/
def State.sendChunk (s : State) (die peer : Nat) (k : Chunk) : SendOut :=
  let out := fun (t : State) => ({ t with chunkOut := t.chunkOut ++ [(die, peer, k.bytes)] } : State)
  if peer / 1024 = s.myAddr / 1024 then .sent none (out s)
  else
    match s.egress (peer / 1024) (some (Free.chunkHash k.cid k.chunk)) with
    | none => .unreachable
    | some l =>
      let n := chunkTokens k.payload.length
      if s.holds_ (.engine die) (.ridge l) < n then .refused ((s.ask (.engine die) (.ridge l)).countRefusal (.ridge l))
      else
        .sent (some (l, n)) ((out (s.useHeld (.engine die) (.ridge l) n)).ridgeSend l
          { dest := peer, src := s.engineAddr die, vc := 7, hops := 6, req := k.cid * 2 ^ 20 + k.chunk, acc := none, ans := none })

/-- A chunk as it is sent. -/
def State.chunkOf (s : State) (die cid : Nat) (o : OutChunk) : Chunk :=
  { cid := cid, chunk := o.chunk, step := o.step, try_ := o.try_, psn := o.psn, src := s.engineAddr die, payload := o.payload }

/-- A SEND step sends one of its chunks, once its source is ready, has been read, and the retention buffer has room (R324, R328). -/
def State.stepSend (s : State) (die cid k j : Nat) : State :=
  match s.planOf die cid with
  | none => s
  | some p =>
    match p.steps[k]? with
    | none => s
    | some t =>
      let c := t.first + j
      let d := t.dfirst + j
      if p.out.any (fun o => o.step == k && o.chunk == d) || p.acked.contains (k, d) || !(p.sourceReady k c t.from_)
          || decide (512 ≤ s.retained die) then s
      else
        match s.unitRead (.engine die cid k) .bread p.space ((if t.from_ then p.dbuf else p.sbuf) + 4096 * c) (p.chunkLen c) with
        | .wait u => u
        | .fail _ _ u => u.planError die cid 3
        | .ok l bad xs u =>
          let psn := !bad.isEmpty
          let o : OutChunk := { step := k, chunk := d, try_ := 0, payload := l, psn := psn }
          match u.sendChunk die t.peer (u.chunkOf die cid o) with
          | .unreachable => u.planError die cid 2
          | .refused u1 => u1
          | .sent lv u1 => (u1.unitEnd xs).setPlan die { p with
              out := p.out ++ [{ o with levels := lv, sent := u1.now }], poisoned := p.poisoned || psn, prog := alPut p.prog k u1.now }

/-- A LOCAL step copies one of its chunks (R324). -/
def State.stepLocal (s : State) (die cid k j : Nat) : State :=
  match s.planOf die cid with
  | none => s
  | some p =>
    match p.steps[k]? with
    | none => s
    | some t =>
      let c := t.first + j
      let d := t.dfirst + j
      if p.landed.contains (k, d) || !(p.sourceReady k c false) || !(p.ready k d) then s
      else
        match s.unitRead (.engine die cid k) .bread p.space (p.sbuf + 4096 * c) (p.chunkLen c) with
        | .wait u => u
        | .fail _ _ u => u.planError die cid 3
        | .ok l bad xs u =>
          let psn := !bad.isEmpty
          match u.unitWrites (writeReqs (.engine die cid k) .bwrite p.space (p.dbuf + 4096 * d) l psn) with
          | .wait v => v
          | .fail _ _ v => v.planError die cid 3
          | .ok _ _ _ v => (v.unitEnd xs).setPlan die { p with
              landed := p.landed ++ [(k, d)], poisoned := p.poisoned || psn, prog := alPut p.prog k v.now }

/-- Element-by-element reduction of two byte lists in a format (R324, R325). -/
def reduceBytes (fmt rop : Nat) (a b : List Byte) : List Byte :=
  let w := fmtBits fmt / 8
  let sub := nth 0 [0, 2, 1] rop
  (List.range (b.length / w)).flatMap (fun i => leBytes w (atomicNew fmt sub (byteFld a (w * i) w) (byteFld b (w * i) w) 0))

/-- RECV steps of a plan that a chunk can belong to (R324). -/
def Plan.stepsFor (p : Plan) (k : Chunk) : List Nat :=
  (List.range p.steps.length).filter (fun i => match p.steps[i]? with
    | some t => (t.kind == 2 || t.kind == 3) && t.peer == k.src && t.sstep == k.step && t.writes k.chunk
    | none => false)

/-- Answers a chunk, on MRSP when its sender is on another package; with no usable route the answer is discarded (R314, R327). -/
def State.answerChunk (s : State) (die : Nat) (k : Chunk) (a : ChunkAns) : State :=
  let s1 : State := { s with chunkRsp := s.chunkRsp ++ [(die, k.cid, k.step, k.chunk, a)] }
  if k.src / 1024 = s.myAddr / 1024 then s1
  else
    match s.egress (k.src / 1024) (some (Free.chunkHash k.cid k.chunk)) with
    | some l => s1.ridgeSend l { dest := k.src, src := s.engineAddr die, vc := 6, hops := 6, req := k.cid * 2 ^ 20 + k.chunk, acc := none, ans := none }
    | none => s1

/-- What becomes of a chunk at its receiver: it leaves the engine, or is held. -/
inductive ChunkOut where
  | taken (s : State)
  | held (s : State)

/-- A chunk whose plan runs: a duplicate is acknowledged and discarded; the earliest step that lacks it writes or reduces it once earlier
steps have written that chunk (R324, R325, R327). -/
def State.landChunk (s : State) (die : Nat) (k : Chunk) : ChunkOut :=
  match s.planOf die k.cid with
  | none => .held s
  | some p =>
    match (p.stepsFor k).find? (fun i => !(p.landed.contains (i, k.chunk))) with
    | none => if (p.stepsFor k).isEmpty then .held s else .taken (s.answerChunk die k .ack)
    | some i =>
      if !(p.ready i k.chunk) then .held s
      else
        let va := p.dbuf + 4096 * k.chunk
        let ok := fun (u : State) =>
          ChunkOut.taken ((u.setPlan die { p with
            landed := p.landed ++ [(i, k.chunk)], poisoned := p.poisoned || k.psn, prog := alPut p.prog i u.now }).answerChunk die k .ack)
        let who := Who.engine die k.cid i
        let put := fun (u : State) (rs ws : List Req) =>
          match u.unitWrites ws with
          | .wait v => ChunkOut.held v
          | .fail _ _ v => .taken (v.planError die k.cid 3)
          | .ok _ _ _ v => ok (v.unitEnd rs)
        if ((p.steps[i]?).map (fun t => t.kind)).getD 0 = 2 then put s [] (writeReqs who .bwrite p.space va k.payload k.psn)
        else
          match s.unitRead who .bread p.space va k.payload.length with
          | .wait u => .held u
          | .fail _ _ u => .taken (u.planError die k.cid 3)
          | .ok old bad xs u => put u xs (redReqs who p.space va (reduceBytes p.fmt p.rop old k.payload) bad k.psn)

/-- The chunks an engine holds are offered again, oldest first. -/
def State.drainHolds (s : State) (die : Nat) : State :=
  (alGet [] s.holds die).foldl (fun (t : State) e =>
    match t.landChunk die e.2 with
    | .held u => u
    | .taken u => { u with holds := alMod [] u.holds die (fun l => l.erase e) }) s

/-- One pass over the steps of a plan: SEND and LOCAL chunks that can go (R324). -/
def State.stepsGo (s : State) (die cid : Nat) : State :=
  match s.planOf die cid with
  | none => s
  | some p =>
    (List.range p.steps.length).foldl (fun (t : State) k =>
      match p.steps[k]? with
      | none => t
      | some x =>
        (List.range (x.count + 1)).foldl (fun (u : State) j =>
          if x.kind = 1 then u.stepSend die cid k j else if x.kind = 4 then u.stepLocal die cid k j else u) t) s

/-- A chunk that is in the retention buffer goes out again, once there are tokens for it (R326, R328). -/
def State.sendAgain (s : State) (die cid : Nat) (o : OutChunk) : State :=
  match s.planOf die cid with
  | none => s
  | some p =>
    match p.steps[o.step]? with
    | none => s
    | some t =>
      let put := fun (u : State) (x : OutChunk) =>
        u.setPlan die { p with out := p.out.map (fun y => if y.step = o.step ∧ y.chunk = o.chunk then x else y) }
      match s.sendChunk die t.peer (s.chunkOf die cid o) with
      | .unreachable => s.planError die cid 2
      | .refused u => put u { o with owed := true, levels := none }
      | .sent lv u => put u { o with owed := false, levels := lv, sent := s.now }

/-- A plan makes what progress it can: chunks that wait for tokens go out, received chunks land, and what they were waited for goes (R324, R328). -/
def State.planGo (s : State) (die cid : Nat) : State :=
  let owed := ((s.planOf die cid).map (fun p => p.out.filter (·.owed))).getD []
  (((owed.foldl (fun (t : State) o => t.sendAgain die cid o) s).stepsGo die cid).drainHolds die).stepsGo die cid

/-- The engine of a die works. -/
def State.engineRuns (s : State) (die : Nat) : Bool := s.serves && s.dieLive die

/-- The header of a plan (Table 13.6). -/
def planOp (w : List W64) : Nat := wfld (nth 0 w 0) 0 3
def planCid (w : List W64) : Nat := wfld (nth 0 w 0) 32 24
def planNstep (w : List W64) : Nat := wfld (nth 0 w 0) 16 13

/-- A step from its two words (Table 13.7). -/
def planStep (w0 w1 : W64) : PStep :=
  { kind := wfld w0 0 4, peer := wfld w0 4 20, first := wfld w0 24 20, count := wfld w0 44 20, dfirst := wfld w1 0 20,
    from_ := wfld w1 20 1 == 1, sstep := wfld w1 21 12 }

/-- A step is valid in a plan of `n` bytes and operation `op`: listed kind, chunks below 2^20 and within the buffers (R323, R324; that a
chunk lies within NBYTES is DEDUCED from its payload of at least one byte, log entry 38). -/
def stepValid (op n : Nat) (t : PStep) : Bool :=
  let lim := min 1048576 ((n + 4095) / 4096)
  decide (1 ≤ t.kind) && decide (t.kind ≤ 4) && decide (t.first + t.count < lim)
    && (t.kind == 2 || t.kind == 3 || decide (t.dfirst + t.count < if t.kind = 4 then lim else 1048576))
    && !(t.kind == 3 && decide (2 ≤ op))

/-- The header of a plan with OP 0–4 is valid (R323). -/
def headerValid (w : List W64) : Bool :=
  let fmt := wfld (nth 0 w 0) 4 4
  let n := wfld (nth 0 w 3) 0 40
  decide (planOp w ≤ 4) && (decide (fmt ≤ 5) || fmt == 12) && decide (wfld (nth 0 w 0) 8 2 ≠ 3)
    && decide (1 ≤ planNstep w) && decide (planNstep w ≤ 4096) && decide (n ≤ 2 ^ 32) && decide (n % (fmtBits fmt / 8) = 0)

/-- A plan of a stream's record. -/
def State.newPlan (s : State) (n addr space : Nat) (w : List W64) (steps : List PStep) : Plan :=
  { cid := planCid w, stream := n, addr := addr, space := space, op := planOp w, fmt := wfld (nth 0 w 0) 4 4, rop := wfld (nth 0 w 0) 8 2,
    sbuf := wfld (nth 0 w 1) 0 52, dbuf := wfld (nth 0 w 2) 0 52, nbytes := wfld (nth 0 w 3) 0 40, steps := steps, landed := [], out := [],
    acked := [], poisoned := false, tmo := wfld (nth 0 w 4) 0 32, since := s.now, prog := [] }

/-- CHUNK_RECEIVE: NACK on a CRC mismatch; landed or reduced; held for its plan; BUSY when the buffer of 256 is full (R326, R327). -/
def execChunkReceive (die : Nat) (bytes : List Byte) (s : State) : Host.Outcome State Fault Refusal :=
  when_ (s.engineRuns die) (fun s =>
    let k := chunkAt bytes
    if !(chunkGood bytes) then s.answerChunk die k .nack
    else
      match s.landChunk die k with
      | .taken u => u.planGo die k.cid
      | .held u =>
        if 256 ≤ (alGet [] u.holds die).length then u.answerChunk die k .busy
        else { u with holds := alMod [] u.holds die (fun l => l ++ [(u.now, k)]) }) s

/-- CHUNK_HOLD_EXPIRY: a chunk held 100 ms for a plan that has not started gets NACK (R327). -/
def execChunkHoldExpiry (die cid chunk : Nat) (s : State) : Host.Outcome State Fault Refusal :=
  when_ (s.engineRuns die && (s.planOf die cid).isNone) (fun s =>
    match (alGet [] s.holds die).find? (fun e => e.2.cid == cid && e.2.chunk == chunk && decide (e.1 + 100000000 ≤ s.now)) with
    | some e => ({ s with holds := alMod [] s.holds die (fun l => l.erase e) }).answerChunk die e.2 .nack
    | none => s) s

/-- A chunk is sent again, its tokens given back first: with TRY one higher after a NACK or timeout, or unchanged after BUSY; TRY 3 refused is a
collective error (R328, R329). -/
def State.resend (s : State) (die cid step chunk : Nat) (busy : Bool) : State :=
  match s.planOf die cid with
  | none => s
  | some p =>
    match p.out.find? (fun o => o.step == step && o.chunk == chunk) with
    | some o =>
      if !busy && decide (3 ≤ o.try_) then s.planError die cid 0
      else
        let o1 := { (if busy then o else { o with try_ := o.try_ + 1 }) with levels := none }
        (s.chunkBack o).sendAgain die cid o1
    | none => s

/-- CHUNK_ANSWER (R327, R328). -/
def execChunkAnswer (die cid step chunk : Nat) (a : ChunkAns) (s : State) : Host.Outcome State Fault Refusal :=
  when_ (s.engineRuns die) (fun s =>
    match s.planOf die cid with
    | none => s
    | some p =>
      match p.out.find? (fun o => o.step == step && o.chunk == chunk) with
      | none => s
      | some o =>
        match a with
         | .ack =>
           ((s.chunkBack o).setPlan die { p with
             out := p.out.filter (fun o => !(o.step == step && o.chunk == chunk)), acked := p.acked ++ [(step, chunk)],
             prog := alPut p.prog step s.now }).planGo die cid
         | .nack => s.resend die cid step chunk false
         | .busy => s.resend die cid step chunk true) s

/-- CHUNK_TIMEOUT: no answer for 50 µs (R328). -/
def execChunkTimeout (die cid step chunk : Nat) (s : State) : Host.Outcome State Fault Refusal :=
  when_ (s.engineRuns die) (fun s =>
    if ((s.planOf die cid).map (fun p => p.out.any (fun o => o.step == step && o.chunk == chunk && !o.owed && decide (o.sent + 50000 ≤ s.now)))).getD false
    then s.resend die cid step chunk false else s) s

/-- Every chunk of a step is done: landed, or answered ACK (R330). -/
def Plan.stepDone (p : Plan) (k : Nat) (t : PStep) : Bool :=
  (List.range (t.count + 1)).all (fun j =>
    match t.kind with
    | 1 => p.acked.contains (k, t.dfirst + j)
    | 4 => p.landed.contains (k, t.dfirst + j)
    | _ => p.landed.contains (k, t.first + j))

/-- STEP_TIMEOUT: a step made no progress for TMO, 10 s when 0 (R329). -/
def execStepTimeout (die cid step : Nat) (s : State) : Host.Outcome State Fault Refusal :=
  when_ (s.engineRuns die) (fun s =>
    match s.planOf die cid with
    | none => s
    | some p =>
      match p.steps[step]? with
      | none => s
      | some t =>
        let tmo := if p.tmo = 0 then 10000000000 else 1000 * p.tmo
        if !(p.stepDone step t) && decide (alGet p.since p.prog step + tmo ≤ s.now) then s.planError die cid 1 else s) s

/-- PLAN_COMPLETE: every RECV chunk has landed and every SEND chunk has been acknowledged; with a poisoned chunk the status is
POISONED_DATA (R328, R330). -/
def execPlanComplete (die cid : Nat) (s : State) : Host.Outcome State Fault Refusal :=
  when_ (s.engineRuns die) (fun s =>
    match s.planOf die cid with
    | none => s
    | some p =>
      if (List.range p.steps.length).all (fun k => match p.steps[k]? with | some t => p.stepDone k t | none => true) then
        (s.dropPlan die cid).finFlight p.stream p.addr (if p.poisoned then 6 else 0) (if p.poisoned then BitVec.ofNat 64 cid else 0)
      else s) s

end Sys2Proof.Machine
end

