-- ==== Sys2Proof/Machine/CrewArith.lean ====
section
/-! DEFINITION. Format A: moves, integer and FP32 arithmetic, comparisons and conversions (R51, R52, R68, R78; Table 3.8). -/

namespace Sys2Proof.Machine

/-- Width in bits of an integer type of format A. -/
def bitsA (ty : Nat) : Nat := 32 * regsOf ty

/-- MOV (R78). -/
def execMov (c : CrewId) (w : W64) (s : State) : Host.Outcome State Fault Refusal := s.formatA c w 0x00 (fun _ _ b _ => b)

/-- SEL: by p(C[2:0]) of the lane (R78). -/
def execSel (c : CrewId) (w : W64) (s : State) : Host.Outcome State Fault Refusal :=
  .next (s.issue c w 0x01 (fun s i =>
    let n := regsOf (typeOf w)
    s.done i (i.each (wfld w 16 8) n (fun l =>
      if i.v.getP l (wfld w 40 3) then i.read l (wfld w 24 8) n else i.srcB l))))

/-- A special register of a crew (Table 3.2). -/
def State.special (s : State) (c : CrewId) (v : Crew) (lane k : Nat) : Nat :=
  let l := s.launchOf c
  let st := (alFind (s.tile c.die c.tile).stands v.stand).map (·.index)
  let gx := (l.map (·.gx)).getD 1
  let gy := (l.map (·.gy)).getD 1
  let ix := st.getD 0
  let win := (l.map (fun (x : Launch) => x.window v.stand)).getD (0, 0)
  match k with
  | 0 => lane
  | 1 => v.index
  | 2 => (l.map (·.crews)).getD 0
  | 3 => ix % gx
  | 4 => ix / gx % gy
  | 5 => ix / (gx * gy)
  | 6 => gx
  | 7 => gy
  | 8 => (l.map (·.gz)).getD 0
  | 9 => win.1
  | 10 => win.2
  | 11 => c.tile
  | 12 => c.die
  | 13 => s.now % 2 ^ 32
  | 14 => v.dtimeHi.toNat
  | _ => (l.map (·.tag)).getD 0

/-- SREAD: a special register; index 13 also latches the high half of domain time (R68). -/
def execSread (c : CrewId) (w : W64) (s : State) : Host.Outcome State Fault Refusal :=
  .next (s.issue c w 0x02 (fun s i =>
    let k := wfld w 32 4
    let v := i.each (wfld w 16 8) 1 (fun l => s.special c i.v l k)
    s.done i (if k = 13 then { v with dtimeHi := BitVec.ofNat 32 (s.now / 2 ^ 32) } else v)))

/-- IADD (R78). -/
def execIadd (c : CrewId) (w : W64) (s : State) : Host.Outcome State Fault Refusal := s.formatA c w 0x08 (fun _ a b _ => a + b)
/-- ISUB (R78). -/
def execIsub (c : CrewId) (w : W64) (s : State) : Host.Outcome State Fault Refusal :=
  s.formatA c w 0x09 (fun ty a b _ => wrapTo (bitsA ty) ((a : Int) - b))
/-- IMUL: low half (R78). -/
def execImul (c : CrewId) (w : W64) (s : State) : Host.Outcome State Fault Refusal := s.formatA c w 0x0A (fun _ a b _ => a * b)
/-- IMULHI: high half, signed (R78). -/
def execImulhi (c : CrewId) (w : W64) (s : State) : Host.Outcome State Fault Refusal :=
  s.formatA c w 0x0B (fun _ a b _ => wrapTo 32 (signed 32 a * signed 32 b / (2 ^ 32 : Nat)))
/-- IMULHU: high half, unsigned (R78). -/
def execImulhu (c : CrewId) (w : W64) (s : State) : Host.Outcome State Fault Refusal := s.formatA c w 0x0C (fun _ a b _ => a * b / 2 ^ 32)
/-- IMAD (R78). -/
def execImad (c : CrewId) (w : W64) (s : State) : Host.Outcome State Fault Refusal := s.formatA c w 0x0D (fun _ a b x => a * b + x)
/-- IMIN, signed (R78). -/
def execImin (c : CrewId) (w : W64) (s : State) : Host.Outcome State Fault Refusal :=
  s.formatA c w 0x0E (fun ty a b _ => if signed (bitsA ty) a ≤ signed (bitsA ty) b then a else b)
/-- IMAX, signed (R78). -/
def execImax (c : CrewId) (w : W64) (s : State) : Host.Outcome State Fault Refusal :=
  s.formatA c w 0x0F (fun ty a b _ => if signed (bitsA ty) a ≤ signed (bitsA ty) b then b else a)
/-- UMIN (R78). -/
def execUmin (c : CrewId) (w : W64) (s : State) : Host.Outcome State Fault Refusal := s.formatA c w 0x10 (fun _ a b _ => min a b)
/-- UMAX (R78). -/
def execUmax (c : CrewId) (w : W64) (s : State) : Host.Outcome State Fault Refusal := s.formatA c w 0x11 (fun _ a b _ => max a b)
/-- AND (R78). -/
def execAnd (c : CrewId) (w : W64) (s : State) : Host.Outcome State Fault Refusal := s.formatA c w 0x12 (fun _ a b _ => a &&& b)
/-- OR (R78). -/
def execOr (c : CrewId) (w : W64) (s : State) : Host.Outcome State Fault Refusal := s.formatA c w 0x13 (fun _ a b _ => a ||| b)
/-- XOR (R78). -/
def execXor (c : CrewId) (w : W64) (s : State) : Host.Outcome State Fault Refusal := s.formatA c w 0x14 (fun _ a b _ => a ^^^ b)
/-- NOT (R78). -/
def execNot (c : CrewId) (w : W64) (s : State) : Host.Outcome State Fault Refusal :=
  s.formatA c w 0x15 (fun ty a _ _ => 2 ^ bitsA ty - 1 - a)
/-- SHL: by B mod width (R78). -/
def execShl (c : CrewId) (w : W64) (s : State) : Host.Outcome State Fault Refusal :=
  s.formatA c w 0x16 (fun ty a b _ => a * 2 ^ (b % bitsA ty))
/-- SHR, logical (R78). -/
def execShr (c : CrewId) (w : W64) (s : State) : Host.Outcome State Fault Refusal :=
  s.formatA c w 0x17 (fun ty a b _ => a / 2 ^ (b % bitsA ty))
/-- SAR, arithmetic (R78). -/
def execSar (c : CrewId) (w : W64) (s : State) : Host.Outcome State Fault Refusal :=
  s.formatA c w 0x18 (fun ty a b _ => wrapTo (bitsA ty) (signed (bitsA ty) a / ((2 ^ (b % bitsA ty) : Nat) : Int)))
/-- POPC (R78). -/
def execPopc (c : CrewId) (w : W64) (s : State) : Host.Outcome State Fault Refusal := s.formatA c w 0x19 (fun _ a _ _ => popCount 32 a)
/-- CLZ (R78). -/
def execClz (c : CrewId) (w : W64) (s : State) : Host.Outcome State Fault Refusal := s.formatA c w 0x1A (fun _ a _ _ => 32 - bitLen a)
/-- BFX: from position B[4:0], width B[12:8], 0 meaning 32 (R78). -/
def execBfx (c : CrewId) (w : W64) (s : State) : Host.Outcome State Fault Refusal :=
  s.formatA c w 0x1B (fun _ a b _ => let n := fld b 8 5; fld a (fld b 0 5) (if n = 0 then 32 else n))

/-- Conditions of ISETP: 0–5 signed, 6–9 unsigned (Table 3.8). -/
def icmp (code n a b : Nat) : Bool :=
  match code with
  | 6 => decide (a < b)
  | 7 => decide (a ≤ b)
  | 8 => decide (b < a)
  | 9 => decide (b ≤ a)
  | _ => cmpHolds code (signed n a - signed n b)

/-- ISETP (R78). -/
def execIsetp (c : CrewId) (w : W64) (s : State) : Host.Outcome State Fault Refusal := s.formatP c w 0x1C icmp

/-- FADD: no flags recorded (R44, R78). -/
def execFadd (c : CrewId) (w : W64) (s : State) : Host.Outcome State Fault Refusal :=
  s.formatA c w 0x20 (fun _ a b _ => (fFP32.arith (vadd (fFP32.decode a) (fFP32.decode b))).1)
/-- FSUB (R44, R78). -/
def execFsub (c : CrewId) (w : W64) (s : State) : Host.Outcome State Fault Refusal :=
  s.formatA c w 0x21 (fun _ a b _ => (fFP32.arith (vadd (fFP32.decode a) (fFP32.decode b).negate)).1)
/-- FMUL (R44, R78). -/
def execFmul (c : CrewId) (w : W64) (s : State) : Host.Outcome State Fault Refusal :=
  s.formatA c w 0x22 (fun _ a b _ => (fFP32.arith (vmul (fFP32.decode a) (fFP32.decode b))).1)
/-- FFMA: rounded once (R44, R78). -/
def execFfma (c : CrewId) (w : W64) (s : State) : Host.Outcome State Fault Refusal :=
  s.formatA c w 0x23 (fun _ a b x => (fFP32.arith (vfma (fFP32.decode a) (fFP32.decode b) (fFP32.decode x))).1)
/-- FMIN (R51). -/
def execFmin (c : CrewId) (w : W64) (s : State) : Host.Outcome State Fault Refusal :=
  s.formatA c w 0x24 (fun _ a b _ => (fFP32.minMax false a b).1)
/-- FMAX (R51). -/
def execFmax (c : CrewId) (w : W64) (s : State) : Host.Outcome State Fault Refusal :=
  s.formatA c w 0x25 (fun _ a b _ => (fFP32.minMax true a b).1)

/-- FSETP: 0–5 under R52, 6 UNORD (R52, R78). -/
def execFsetp (c : CrewId) (w : W64) (s : State) : Host.Outcome State Fault Refusal :=
  s.formatP c w 0x26 (fun code _ a b =>
    let x := fFP32.decode a
    let y := fFP32.decode b
    if code = 6 then x.isNan || y.isNan else (fcmp code x y).1)

/-- CVT: source format C[3:0], target TYPE, under RND and SAT; each stochastically rounded element draws its own value (R44, R46–R49,
R456). The bits of D above a 16- or 8-bit result, which R78 leaves open, are written 0 (DESIGN CHOICE, log entry 64). -/
def execCvt (c : CrewId) (w : W64) (s : State) : Host.Outcome State Fault Refusal :=
  .next (s.issue c w 0x28 (fun s i =>
    let ty := typeOf w
    let sc := codeC w
    let r := i.lanes.foldl (fun (a : Crew × Nat) l =>
      let x := fld (i.read l (wfld w 24 8) (regsOf sc)) 0 (fmtBits sc)
      let m := (rmOf (wfld w 52 2) (Free.rand a.2).toNat).getD .rne
      (a.1.setN (uniOf w) l (wfld w 16 8) (regsOf ty) (cvt sc ty m (wfld w 54 1 == 1) x).1, a.2 + 1)) (i.v, s.fresh)
    { s with fresh := if wfld w 52 2 = 2 then r.2 else s.fresh }.done i r.1))

end Sys2Proof.Machine
end

