-- ==== Sys2Proof/Machine/JobStart.lean ====
section
/-! DEFINITION. COLLECTIVE records and job starts: the broadcast tree, its acknowledgements and its re-feeds (R322–R335, R439). -/

namespace Sys2Proof.Machine

/-- Members that member `i` serves (R331). -/
def kidsOf (f n i : Nat) : List Nat := ((List.range f).map (fun j => f * i + 1 + j)).filter (fun k => decide (k < n))

/-- Member `m` lies in the subtree of `u`, followed up `k` levels (R331). -/
def inSub (f u : Nat) : Nat → Nat → Bool
  | 0, m => m == u
  | k + 1, m => m == u || (m != 0 && inSub f u k ((m - 1) / f))

/-- A broadcast this package holds. -/
def State.bcastOf (s : State) (bid : Nat) : Option Bcast := s.bcasts.find? (fun b => b.bid == bid)

/-- Changes a broadcast this package holds. -/
def State.setBcast (s : State) (b : Bcast) : State := { s with bcasts := s.bcasts.map (fun x => if x.bid = b.bid then b else x) }

/-- Holds a new broadcast; the 256 most recent are kept (R332). -/
def State.addBcast (s : State) (b : Bcast) : State := { s with bcasts := (b :: s.bcasts).take 256 }

/-- Sends a job-start message on BC; with no live route it does not go (R310, R331). -/
def State.bcSend (s : State) (bid kind dest index : Nat) : State :=
  let s1 : State := { s with bcOut := s.bcOut ++ [{ bid := bid, kind := kind, dest := dest, index := index }] }
  if dest / 1024 = s.myAddr / 1024 then s1
  else
    match s.egress (dest / 1024) none with
    | some l => s1.ridgeSend l { dest := dest, src := s.myAddr, vc := 3, hops := 6, req := bid, acc := none, ans := none }
    | none => s

/-- START to a member of a broadcast. -/
def State.sendStart (s : State) (b : Bcast) (i : Nat) : State := s.bcSend b.bid 0 (nth 0 b.members i) i

/-- The children a member starts with (R331, R333). -/
def firstChildren (f n i now : Nat) : List Child := (kidsOf f n i).map (fun k => { index := k, state := 0, since := now })

/-- Sets the state of a child, from now on. -/
def Bcast.setChild (b : Bcast) (i st now : Nat) : Bcast :=
  { b with children := b.children.map (fun c => if c.index = i then { c with state := st, since := now } else c) }

/-- A child's silence, or that of the alternate parent of a re-feed in a state, has lasted its time (R333, R334). -/
def Bcast.silent (b : Bcast) (child now tmo rst : Nat) : Bool :=
  b.children.any (fun c => c.index == child && decide (c.since + tmo ≤ now))
    || b.refeeds.any (fun r => r.alt == child && r.state == rst && decide (r.since + tmo ≤ now))

/-- The state of a child, if it is one. -/
def Bcast.childState (b : Bcast) (i : Nat) : Option Nat := (b.children.find? (fun c => c.index == i)).map (·.state)

/-- Every child of the tree is DONE or declared unreached (R333). -/
def Bcast.served (b : Bcast) : Bool :=
  (kidsOf b.f b.n b.index).all (fun i => decide (3 ≤ (b.childState i).getD 3))

/-- The bitmap of unreachable members, 128 bytes (R335). -/
def Bcast.bitmap (b : Bcast) : List Byte :=
  leBytes 128 (((List.range b.n).map (fun i => if b.unreached.contains i then 2 ^ i else 0)).foldl (· + ·) 0)

/-- A job start at its root ends in a collective error (R329; a failed access as a failed translation, DEDUCED, log entry 39). -/
def State.startError (s : State) (b : Bcast) (n addr : Nat) : State :=
  (((s.setBcast { b with root := none, doneSent := true }).finFlight n addr 5 (BitVec.ofNat 64 b.bid)).logEv 0x000D 4 2 [b.bid, 3]).raise 77

/-- The root of a start that is over writes its bitmap and its record is done (R335). -/
def State.startFinish (s : State) (b : Bcast) (n addr : Nat) : State :=
  match s.unitWrites (writeReqs (.stream n addr) .bwrite b.space (b.dbuf + 4 * b.n) b.bitmap false) with
  | .wait u => u
  | .fail _ _ u => u.startError b n addr
  | .ok _ _ _ u =>
    let k := b.unreached.length
    (u.setBcast { b with root := none, doneSent := true }).finFlight n addr (if k = 0 then 0 else 7) (BitVec.ofNat 64 k)

/-- What follows an event of a broadcast: the root's start may be over; a served package sends DONE to its senders once (R333, R335). -/
def State.settle (s : State) (bid : Nat) : State :=
  match s.bcastOf bid with
  | none => s
  | some b =>
    match b.root with
    | some (n, addr) => if b.served && b.refeeds.all (fun r => decide (2 ≤ r.state)) then s.startFinish b n addr else s
    | none =>
      if b.served && !b.doneSent then
        b.parents.foldl (fun (t : State) p => t.bcSend bid 2 p b.index) (s.setBcast { b with doneSent := true })
      else s

/-- One subtree of an unreached member is re-fed to the lowest eligible alternate parent; with none its members are unreachable (R334). -/
def State.refeedOne (s : State) (bid u sub : Nat) : State :=
  match s.bcastOf bid with
  | none => s
  | some b =>
    let fits := fun (m : Nat) => m != 0 && b.acked.contains m && !(inSub b.f u 1024 m) && !(b.unreached.contains m)
      && decide ((b.refeeds.filter (fun r => r.alt == m && r.state != 3)).length < b.f)
    match (List.range b.n).find? fits with
    | some m => (s.setBcast { b with refeeds := b.refeeds ++ [{ sub := sub, alt := m, state := 0, since := s.now }] }).bcSend bid 4 (nth 0 b.members m) sub
    | none =>
      s.setBcast { b with unreached := b.unreached
        ++ (List.range b.n).filter (fun m => inSub b.f sub 1024 m && !(b.unreached.contains m)) }

/-- The root marks a member unreachable and re-feeds what it was to serve (R334). -/
def State.rootUnreached (s : State) (bid u : Nat) : State :=
  match s.bcastOf bid with
  | none => s
  | some b =>
    if b.unreached.contains u then s
    else
      let lost := b.refeeds.filter (fun r => r.alt == u && decide (r.state < 2))
      let b1 := { b.setChild u 4 s.now with
        unreached := b.unreached ++ [u], refeeds := b.refeeds.map (fun r => if r.alt = u ∧ r.state < 2 then { r with state := 3 } else r) }
      (kidsOf b.f b.n u ++ lost.map (·.sub)).foldl (fun (t : State) x => t.refeedOne bid u x) (s.setBcast b1)

/-- A child of this package is DONE or declared unreached; a re-fed one is reported to the root (R333, R334). -/
def State.childEnd (s : State) (b : Bcast) (i st : Nat) : State :=
  let b1 := { b.setChild i st s.now with refed := b.refed.filter (· != i) }
  let root := nth 0 b.members 0
  let s1 := s.setBcast b1
  let s2 := if st = 4 ∧ b.root = none then s1.bcSend b.bid 3 root i else s1
  if b.refed.contains i then s2.bcSend b.bid 5 root i else s2

/-- A member found unreached: by the root, which re-feeds, or by another parent, which reports it (R333, R334). -/
def State.lose (s : State) (b : Bcast) (i : Nat) : State :=
  (if b.root.isSome then s.rootUnreached b.bid i else s.childEnd b i 4).settle b.bid

/-- START: the payload goes to the start ring and the log, ACK to the sender, START to the children; a duplicate is acknowledged, and
answered DONE too once its subtree is complete (R332, R439). -/
def execStartMsg (m : StartMsg) (s : State) : Host.Outcome State Fault Refusal :=
  when_ s.serves (fun s =>
    match s.bcastOf m.bid with
    | some b =>
      let s1 := (s.setBcast { b with parents := if b.parents.contains m.sender then b.parents else b.parents ++ [m.sender] }).bcSend m.bid 1 m.sender b.index
      if b.doneSent then s1.bcSend m.bid 2 m.sender b.index else s1
    | none =>
      match s.cfg.startRing with
      | none => s
      | some (base, log2) =>
        let slot := s.starts % 2 ^ log2
        let put := s.ringWrite .hub 3 (base + 4096 * slot) m.payload
        let u := put.2
        if !put.1 then u
        else
          let b : Bcast := { bid := m.bid, root := none, parents := [m.sender], index := m.index, n := m.n, f := m.f, members := m.members,
                             payload := m.payload, children := firstChildren m.f m.n m.index u.now, refeeds := [], acked := [], unreached := [],
                             refed := [], doneSent := false, dbuf := 0, space := 0 }
          let u1 := (({ u with starts := u.starts + 1 }).logEv 0x000E 4 0 [m.bid, slot, m.payload.length, m.sender]).addBcast b
          let u2 := u1.bcSend m.bid 1 m.sender m.index
          (b.children.foldl (fun (t : State) c => t.sendStart b c.index) u2).settle m.bid) s

/-- START_ACK: a child, or an alternate parent its REFEED, has answered (R333, R334). -/
def execStartAck (bid child : Nat) (s : State) : Host.Outcome State Fault Refusal :=
  when_ s.serves (fun s =>
    match s.bcastOf bid with
    | none => s
    | some b =>
      let b1 := if b.acked.contains child then b else { b with acked := b.acked ++ [child] }
      match b.childState child with
      | some 0 | some 1 => s.setBcast (b1.setChild child 2 s.now)
      | _ =>
        match indexWhere (fun (r : Refeed) => r.alt == child && r.state == 0) b.refeeds with
        | some k => s.setBcast { b1 with refeeds := updNth b.refeeds k (fun r => { r with state := 1, since := s.now }) }
        | none => s) s

/-- DONE: a child's subtree is complete (R333). -/
def execDoneMsg (bid child : Nat) (s : State) : Host.Outcome State Fault Refusal :=
  when_ s.serves (fun s =>
    match s.bcastOf bid with
    | none => s
    | some b => if (b.childState child).any (fun st => decide (st < 3)) then (s.childEnd b child 3).settle bid else s) s

/-- UNREACHED: a parent reports a child to the root (R333, R334). -/
def execUnreached (bid member : Nat) (s : State) : Host.Outcome State Fault Refusal :=
  when_ s.serves (fun s =>
    match s.bcastOf bid with
    | none => s
    | some b => if b.root.isSome && member != 0 && decide (member < b.n) then (s.rootUnreached bid member).settle bid else s) s

/-- REFEED: an alternate parent answers ACK and sends START to the subtree root as to a child (R334). -/
def execRefeed (m : StartMsg) (s : State) : Host.Outcome State Fault Refusal :=
  when_ s.serves (fun s =>
    match s.bcastOf m.bid with
    | none => s
    | some b =>
      let s1 := s.bcSend m.bid 1 m.sender b.index
      match b.childState m.index with
      | none =>
        (s1.setBcast { b with children := b.children ++ [{ index := m.index, state := 0, since := s.now }], refed := b.refed ++ [m.index] }).sendStart b m.index
      | some st =>
        if 3 ≤ st then s1.bcSend m.bid 5 m.sender m.index
        else s1.setBcast { b with refed := if b.refed.contains m.index then b.refed else b.refed ++ [m.index] }) s

/-- REFEED_DONE: a re-fed subtree has ended (R334, R335). -/
def execRefeedDone (bid alt member : Nat) (s : State) : Host.Outcome State Fault Refusal :=
  when_ s.serves (fun s =>
    match s.bcastOf bid with
    | none => s
    | some b =>
      (s.setBcast { b with refeeds := b.refeeds.map (fun r =>
        if r.alt = alt ∧ r.sub = member ∧ r.state < 2 then { r with state := 2 } else r) }).settle bid) s

/-- TACK_TIMEOUT: no ACK within TACK: START is sent once more, then the child is unreached; an alternate parent is unreached at once
(R333, R334). -/
def execTackTimeout (bid child : Nat) (s : State) : Host.Outcome State Fault Refusal :=
  when_ s.serves (fun s =>
    match s.bcastOf bid with
    | none => s
    | some b =>
      if !(b.silent child s.now b.tack 0) then s
      else match b.childState child with
      | some 0 => (s.setBcast (b.setChild child 1 s.now)).sendStart b child
      | some 1 => s.lose b child
      | _ => if b.refeeds.any (fun r => r.alt == child && r.state == 0) then s.lose b child else s) s

/-- TDONE_TIMEOUT: no DONE within TDONE of the ACK (R333, R334). -/
def execTdoneTimeout (bid child : Nat) (s : State) : Host.Outcome State Fault Refusal :=
  when_ s.serves (fun s =>
    match s.bcastOf bid with
    | none => s
    | some b =>
      if !(b.silent child s.now b.tdone 1) then s
      else if b.childState child == some 2 || b.refeeds.any (fun r => r.alt == child && r.state == 1) then s.lose b child else s) s

/-- Entries of a member list (R331). -/
def memberList (n : Nat) (l : List Byte) : List Nat := (List.range n).map (fun i => fld (byteFld l (4 * i) 4) 0 20)

/-- A job start begins at its root: START goes to the root's children (R331). -/
def State.startGo (s : State) (n : Nat) (ws w : List W64) : State :=
  let f := s.newFlight (s.stream n).next ws
  let space := (s.stream n).space
  let nb := wfld (nth 0 w 3) 0 40
  let plen := fld nb 0 16
  let cnt := fld nb 16 11
  let fan := fld nb 27 5
  let tmo := wfld (nth 0 w 4) 0 32
  let err := fun (u : State) => ((u.start n { f with fin := some (5, BitVec.ofNat 64 (planCid w)) }).logEv 0x000D 4 2 [planCid w, 3]).raise 77
  if plen = 0 ∨ 4096 < plen ∨ cnt = 0 ∨ 1024 < cnt ∨ fan < 2 ∨ 16 < fan ∨ planNstep w ≠ 0 then s.reject n ws 2 false
  else
    match s.unitRead (.stream n f.addr) .bread space (wfld (nth 0 w 2) 0 52) (4 * cnt) with
    | .wait u => u
    | .fail _ _ u => err u
    | .ok _ (_ :: _) _ u => err u
    | .ok ml [] _ u =>
      if (nth 0 (memberList cnt ml) 0) / 1024 ≠ u.myAddr / 1024 then u.reject n ws 2 false
      else
        match u.unitRead (.stream n f.addr) .bread space (wfld (nth 0 w 1) 0 52) plen with
        | .wait v => v
        | .fail _ _ v => err v
        | .ok _ (_ :: _) _ v => err v
        | .ok pl [] _ v =>
          let b : Bcast := { bid := planCid w, root := some (n, f.addr), parents := [], index := 0, n := cnt, f := fan,
                             members := memberList cnt ml, payload := pl, children := firstChildren fan cnt 0 v.now, refeeds := [], acked := [],
                             unreached := [], refed := [], doneSent := false, dbuf := wfld (nth 0 w 2) 0 52, space := space,
                             tack := 1000 * (if tmo % 65536 = 0 then 20 else tmo % 65536),
                             tdone := 1000 * (if tmo / 65536 = 0 then 200 else tmo / 65536) }
          (b.children.foldl (fun (t : State) c => t.sendStart b c.index) ((v.start n f).addBcast b)).settle b.bid

/-- A plan with OP 0–4 starts on the engine of its placement slot (R322–R324). -/
def State.planStart (s : State) (n : Nat) (ws w : List W64) : State :=
  let v := s.stream n
  let f := s.newFlight v.next ws
  let steps := (List.range (planNstep w)).map (fun i => planStep (nth 0 w (8 + 2 * i)) (nth 0 w (9 + 2 * i)))
  if !(headerValid w) || !(steps.all (stepValid (planOp w) (wfld (nth 0 w 3) 0 40))) then s.reject n ws 2 false
  else
    match nth none v.slots (wfld (nth 0 ws 2) 0 2) with
    | none => s.reject n ws 6 false
    | some d =>
      if !(s.dieLive d) then
        ((s.start n { f with fin := some (5, BitVec.ofNat 64 (planCid w)) }).logEv 0x000D d 2 [planCid w, 4]).raise 77
      else if 16 ≤ (alGet [] s.plans d).length then s
      else
        let s1 := s.start n f
        ({ s1 with plans := alMod [] s1.plans d (fun l => l ++ [s.newPlan n f.addr v.space w steps]) }).planGo d (planCid w)

/-- COLLECTIVE, as a record the stream takes: its plan is read, header first (R322–R324, R329, R331). -/
def State.collectiveTake (s : State) (n : Nat) (ws : List W64) : State :=
  let v := s.stream n
  let pa := wfld (nth 0 ws 1) 0 52
  let f := s.newFlight v.next ws
  let err := fun (u : State) (cid : Nat) => ((u.start n { f with fin := some (5, BitVec.ofNat 64 cid) }).logEv 0x000D 4 2 [cid, 3]).raise 77
  if pa % 64 ≠ 0 then s.reject n ws 2 false
  else
    match s.readKeep (.stream n v.next) v.space pa 8 with
    | .wait u => u
    | .fail _ _ u => err u 0
    | .ok w u =>
      if planOp w = 5 then
        if 16 ≤ (u.bcasts.filter (fun b => b.root.isSome)).length then u else u.startGo n ws w
      else
        match u.readKeep (.stream n v.next) v.space pa (8 + 2 * planNstep w) with
        | .wait t => t
        | .fail _ _ t => err t (planCid w)
        | .ok all t => t.planStart n ws all

/-- The COLLECTIVE records of a stream in flight make what progress they can: their plans, and a start that is over. -/
def State.collectiveGo (s : State) (n : Nat) : State :=
  ((s.stream n).flights.filter (fun f => f.typ == 8 && f.fin.isNone)).foldl (fun (t : State) f =>
    let t1 := t.plans.foldl (fun (u : State) e =>
      e.2.foldl (fun (x : State) p => if p.stream = n ∧ p.addr = f.addr then x.planGo e.1 p.cid else x) u) t
    match t1.bcasts.find? (fun b => b.root == some (n, f.addr)) with
    | some b => t1.settle b.bid
    | none => t1) s

/-- COLLECTIVE: records already started go on, and the stream's next record starts a plan or a job start (R322–R335). -/
def execCollective (n : Nat) (s : State) : Host.Outcome State Fault Refusal :=
  when_ (s.serves && decide (n < 64)) (fun s => (s.collectiveGo n).take n 8 (fun u ws => u.collectiveTake n ws)) s

end Sys2Proof.Machine
end

