-- ==== Sys2Proof/Machine/DieOps.lean ====
section
/-! DEFINITION. The end of maintenance activities, the reset of a compute die, and lost tiles and dies (R170, R247, R264, R300–R304,
R351, R435). -/

namespace Sys2Proof.Machine

/-- An activity held, by number. -/
def State.actOf (s : State) (num : Nat) : Option Act := s.acts.find? (fun a => a.num == num)

/-- Changes an activity held. -/
def State.setAct (s : State) (a : Act) : State := { s with acts := s.acts.map (fun x => if x.num = a.num then a else x) }

/-- The die field of an activity's log entry: Cn, Fn, or H (Table 18.8). -/
def actDie (a : Act) : Nat := if a.code = 8 ∧ a.die = 4 then 4 else if a.code = 4 ∨ a.code = 7 ∨ a.code = 9 then a.die else 8 + a.die

/-- An activity ends: its log entry, source 79, and on a port its reply, with the activity's number before its result (R433, R435). -/
def State.endAct (s : State) (a : Act) (status : Nat) (result : List Byte) : State :=
  let s1 := ({ s with acts := s.acts.filter (fun x => x.num != a.num) }).logEv 0x0013 (actDie a) 0 [a.num, a.code, status, byteFld result 0 8]
  let s2 := s1.raise 79
  let body := if a.bare then [] else leBytes 2 a.num ++ result
  match a.origin with
  | 0 => s2.finish .h status body
  | 1 => s2.finish .b status body
  | 2 => s2.finish .n status body
  | _ => s2

/-- An activity whose target lies on compute die n (true) or on pair n with its foundation die (Table 18.6). -/
def Act.onDie (a : Act) (n : Nat) (foundation : Bool) : Bool :=
  decide (a.die = n) && (if foundation then decide (a.code ≤ 3) || a.code == 5 || a.code == 6 else a.code == 4 || a.code == 7 || a.code == 8)

/-- Activities that have begun and whose target is lost end with FAILED (R435). -/
def State.failActs (s : State) (p : Act → Bool) : State :=
  (s.acts.filter p).foldl (fun (t : State) a => t.endAct a 0x0705 a.result) s

/-- A source on compute die n. -/
def sourceOn (n : Nat) : Source → Bool
  | .tile d _ | .engine d | .service d => d == n
  | .heavy _ | .hub | .ridge _ => false

/-- Unused tokens of sources go back to their levels (R300). -/
def State.returnHeld (s0 : State) (p : Source → Bool) : State :=
  let s : State := { s0 with asks := s0.asks.filter (fun e => !(p e.1.2)) }
  s.held.foldl (fun (t : State) e =>
    if p e.1.1 then (t.setIssued e.1.2 (t.issued e.1.2 - e.2.length)).setHeld e.1.1 e.1.2 [] else t) s

/-- Requests in back-off, which no level has accepted, are dropped. -/
def State.dropRefused (s : State) (p : Req → Bool) : State :=
  { s with reqs := s.reqs.filter (fun e => !(p e.2 && (match e.2.stage with | .backoff _ => true | _ => false))) }

/-- Every stand on a tile is lost and its crews end (R95, R300). -/
def State.loseStands (s : State) (die tile : Nat) : State :=
  (s.tile die tile).stands.foldl (fun (u : State) e =>
    let t := u.tile die tile
    (u.setTile die tile { t with stands := alUpd t.stands e.1 (fun y => { y with lost := true }) }).killStand die tile e.1) s

/-- A tile with its queues emptied: nothing of what its crews had queued counts any longer (R111, R125, R170). -/
def Tile.emptied (t : Tile) : Tile :=
  { t with mq := [], eq := [], chans := [], crews := t.crews.map (fun e => (e.1, { e.2 with copies := 0, matrix := 0, element := 0 })) }

/-- Launches with a stand on a die. -/
def State.launchesOn (s : State) (n : Nat) : List Nat :=
  ((s.tiles.filter (fun e => decide (e.1 / 68 = n))).flatMap (fun e => e.2.stands.map (fun x => x.2.launch))).eraseDups

/-- Launches that the loss of tiles may have ended. -/
def State.launchesCheck (s : State) : State := s.launches.foldl (fun (t : State) e => t.launchDone e.1) s

/-- A DIE_RESET of Cn is accepted (R300, Table 12.7): its egresses accept nothing, its queues are discarded, its crews end, its launches
place no more, its engine's plans end, its links fail over and go DOWN. -/
def State.resetDie (s : State) (n : Nat) : State :=
  if s.plat.resetting.contains n then s
  else
    let mine := fun (r : Req) => sourceOn n r.who.source
    let s1 : State := { s with
      plat := { s.plat with resetting := s.plat.resetting ++ [n] }
      launches := s.launches.map (fun e => (e.1, if (s.launchesOn n).contains e.1 then { e.2 with closed := true } else e.2)) }
    let s2 := (List.range 68).foldl (fun (t : State) k => if (alFind t.tiles (n * 68 + k)).isSome then t.loseStands n k else t) s1
    let s3 : State := { s2 with
      tiles := s2.tiles.map (fun e => (e.1, if e.1 / 68 = n then e.2.emptied else e.2)), trapWait := alDel s2.trapWait n }
    let s4 := (((s3.withdraw mine).dropRefused mine).unitQuit (fun w => sourceOn n w.source)).returnHeld (sourceOn n)
    let s5 := (alGet [] s4.plans n).foldl (fun (t : State) p => t.planError n p.cid 4) s4
    (List.range 16).foldl (fun (t : State) k => t.linkDown (16 * n + k)) { s5 with holds := alDel s5.holds n }

/-- A tile as its island's reset leaves it: L1 and queues empty, retired tiles still retired; SRAM contents stay (Table 12.7). -/
def Tile.afterReset (t : Tile) : Tile :=
  { retired := t.retired, retiring := t.retiring, gens := t.gens, ls := t.ls, acc := t.acc, progs := t.progs,
    ctx := t.ctx.map (fun e => (e.1, { e.2 with flags := 0 })) }

/-- Every request accepted from Cn has completed or been answered, and every instruction its engines executed has ended (R111, R125,
Table 12.7). -/
def State.drainedDie (s : State) (n : Nat) : Bool :=
  s.reqs.all (fun e => !(sourceOn n e.2.who.source) || (match e.2.stage with | .sent | .atHome | .filling => false | _ => true))
    && (decide (s.power.pstate ≠ 0) || s.tiles.all (fun e => decide (e.1 / 68 ≠ n) || (e.2.arr.isNone && e.2.xfer.isNone && e.2.ex.isNone)))

/-- The tile and service islands of Cn are reset, its stands reported lost, and one report of a kind is written: 0 die reset, 1 die lost,
2 foundation lost (R300–R302; numbering the model's own, log entry 10). -/
def State.resetDone (s : State) (n kind : Nat) : State :=
  let ls := s.launchesOn n
  let lost := ((s.tiles.filter (fun e => decide (e.1 / 68 = n))).map (fun e => e.2.stands.length)).foldl (· + ·) 0
  let unplaced := ((s.launches.filter (fun e => ls.contains e.1)).map (fun e => e.2.total - e.2.next)).foldl (· + ·) 0
  let s1 := (s.reqs.filter (fun e => sourceOn n e.2.who.source)).foldl (fun (t : State) e => t.dropReq e.1) s
  let s2 := (s1.tiles.filter (fun e => decide (e.1 / 68 = n))).foldl (fun (t : State) e =>
    e.2.stands.foldl (fun (u : State) x => u.freeStand n (e.1 % 68) x.1) t) s1
  let d := s2.die n
  let s3 : State := { s2 with
    plat := { s2.plat with resetting := s2.plat.resetting.erase n }
    tiles := s2.tiles.map (fun e => (e.1, if e.1 / 68 = n then e.2.afterReset else e.2))
    fb := alPut s2.fb n { mv := d.mv, rep := d.rep, lastGrant := s2.now }
    dbgUnit := { s2.dbgUnit with bk := s2.dbgUnit.bk.filter (fun e => decide (e.1 / 8 ≠ n)) } }
  ((s3.launchesCheck).logEv 0x000A (if kind = 2 then 8 + n else n) (if kind = 0 then 0 else 3) [kind, lost, unplaced]).raise (72 + n)

/-- DIE_RESET_DRAIN_END: the reset is complete; reports, log entry, source 72 + n, and the activity's end (R300, Table 12.7). -/
def execDieResetDrainEnd (die : Nat) (s : State) : Host.Outcome State Fault Refusal :=
  when_ (s.serves && s.plat.resetting.contains die && s.drainedDie die) (fun s =>
    let s1 := s.resetDone die 0
    match s1.acts.find? (fun a => a.code == 9 && a.die == die && a.begun) with
    | some a => s1.endAct a 0 []
    | none => s1) s

/-- SERVICE_CLOCK_STOP: Cairn performs the DIE_RESET of a die whose service clock stopped (R301). -/
def execServiceClockStop (die : Nat) (s : State) : Host.Outcome State Fault Refusal :=
  when_ (s.serves && decide (die < 4) && !(s.plat.lostC.contains die)) (fun s =>
    ({ s with plat := { s.plat with stopped := if s.plat.stopped.contains die then s.plat.stopped else s.plat.stopped ++ [die] } }).resetDie die) s

/-- Cn is lost: it stays in reset, with one report of a kind (R301, R302). -/
def State.dieGone (s : State) (n kind : Nat) : State :=
  let s1 := (s.resetDie n).answerAll (fun r => sourceOn n r.who.source) .poison
  let s2 : State := { s1 with plat := { s1.plat with lostC := s1.plat.lostC ++ [n], stopped := s1.plat.stopped.erase n } }
  let s3 := (s2.resetDone n kind).failActs (fun a => a.begun && a.onDie n false)
  match s3.acts.find? (fun a => a.code == 9 && a.die == n && a.begun) with
  | some a => s3.endAct a 0x0801 []
  | none => s3

/-- COMPUTE_DIE_LOST: the clock did not return within 1 ms of the reset (R301). -/
def execComputeDieLost (die : Nat) (s : State) : Host.Outcome State Fault Refusal :=
  when_ (s.serves && s.plat.stopped.contains die && !(s.plat.resetting.contains die) && !(s.plat.lostC.contains die)) (fun s =>
    s.dieGone die 1) s

/-- A tile leaves service: its stands are lost, its queues and waiting requests dropped; an instruction that an engine executes completes
(R111, R125, R301, R434). -/
def State.tileGone (s : State) (die tile : Nat) : State :=
  let mine := fun (r : Req) => r.who.source == Source.tile die tile
  let s1 := s.loseStands die tile
  let s2 := s1.setTile die tile { (s1.tile die tile).emptied with retired := true, retiring := false }
  (((s2.withdraw mine).dropRefused mine).returnHeld (fun q => q == Source.tile die tile)).launchesCheck

/-- TILE_LOST: no credit for 2 µs; its stands are lost and it is retired (R301). -/
def execTileLost (die tile : Nat) (s : State) : Host.Outcome State Fault Refusal :=
  when_ (s.serves && s.dieLive die && decide (tile < 68) && !(s.tile die tile).retired) (fun s =>
    let k := (s.tile die tile).stands.length
    ((s.tileGone die tile).logEv 0x0005 die 3 [tile, k]).failActs (fun a => a.code == 7 && a.die == die && a.t4 == tile && a.begun)) s

/-- The states in which an agent's copy of a line is dirty: the only one that is current. -/
def ASt.dirty : ASt → Bool
  | .o | .m | .omA | .miA => true
  | _ => false

/-- A line homed on a lost die leaves an agent: its dirty data is discarded and counted, a request for it completes with poison (R247). -/
def State.dropAgentLine (s : State) (a line : Nat) : State :=
  (if (s.ast a line).dirty then ({ s with tally := { s.tally with dropped := s.tally.dropped + 1 } } : State) else s).loseLine a line

/-- Homes, fills, busy lines and messages of Fn are gone with it, and agents drop every line homed there (R247). -/
def State.homesGone (s : State) (n : Nat) : State :=
  let here := fun (line : Nat) => s.isMem (line * 128) && decide (s.homeDie (line * 128) = n)
  let s1 := s.agents.foldl (fun (t : State) e =>
    if s.ownAgent e.1 then e.2.lines.foldl (fun (u : State) x => if here x.1 then u.dropAgentLine e.1 x.1 else u) t else t) s
  { s1 with slices := s1.slices.filter (fun e => decide (e.1 / 32 ≠ n)), msgs := s1.msgs.filter (fun m => !(here m.line)) }

/-- FOUNDATION_LOST: Fn is isolated, its three ports are severed, Cn is lost with it, and every access homed there is poison from then on
(R302–R304, R247, R264). -/
def execFoundationLost (die : Nat) (s : State) : Host.Outcome State Fault Refusal :=
  when_ (s.serves && decide (die < 4) && !(s.plat.lostF.contains die)) (fun s =>
    let s1 := (List.range 3).foldl (fun (t : State) k => t.sever (3 * die + k)) s
    let s2 := s1.answerAll (fun r => s1.isMem r.pa && decide (s1.homeDie r.pa = die)) .poison
    let s3 := s2.homesGone die
    let s4 : State := { s3 with
      plat := { s3.plat with lostF := s3.plat.lostF ++ [die] }
      xlt := { s3.xlt with mc := s3.xlt.mc.filter (fun e => decide (e.1 / 1024 ≠ die)), mcPlru := s3.xlt.mcPlru.filter (fun e => decide (e.1 / 128 ≠ die)) } }
    let s5 := s4.withdraw (fun r => r.who.pair == some die)
    let s6 := if s5.plat.lostC.contains die then s5.logEv 0x000A (8 + die) 3 [2, 0, 0] |>.raise (72 + die) else s5.dieGone die 2
    s6.failActs (fun a => a.begun && a.onDie die true)) s

end Sys2Proof.Machine
end

