-- ==== Sys2Proof/Machine/Maint.lean ====
section
/-! DEFINITION. Maintenance activities, their conflicts, thresholds and patrol scrub (R276, R278–R283, R300, R312, R351, R432–R437; R219
of chapter 8). -/

namespace Sys2Proof.Machine

/-- The target of an activity is in range (Table 18.6). -/
def targetOk (code die t4 t5 : Nat) : Bool :=
  match code with
  | 1 => decide (die < 4) && decide (t4 < 4)
  | 2 => decide (die < 4) && decide (t4 < 3)
  | 3 => decide (die < 4)
  | 4 => decide (die < 4) && decide (t4 < 16)
  | 5 => decide (die < 4) && decide (t4 < 4) && decide (t5 < if t4 = 3 then 15 else 31)
  | 6 => decide (die < 4) && decide (t4 < 32) && decide (t5 < 16)
  | 7 => decide (die < 4) && decide (t4 < 68)
  | 8 => decide (die < 5)
  | _ => decide (die < 4)

/-- Memory group an activity concerns; that of LP_RETRAIN is the LPDDR group. -/
def actGroup (code t4 : Nat) : Nat := if code = 3 then 3 else t4

/-- Activities on memory channels. -/
def onMemory (code : Nat) : Bool := code == 1 || code == 2 || code == 3 || code == 5

/-- Two activities conflict (Table 18.7). -/
def clash (c1 d1 a1 b1 c2 d2 a2 b2 : Nat) : Bool :=
  decide (d1 = d2) &&
    (if onMemory c1 && onMemory c2 then
       (if (c1 == 2 || c1 == 3) && (c2 == 2 || c2 == 3) then true
        else if c1 == 5 && c2 == 5 then true
        else actGroup c1 a1 == actGroup c2 a2)
     else if (c1 == 4 && c2 == 4) || (c1 == 7 && c2 == 7) then a1 == a2 && b1 == b2
     else if c1 == 9 || c2 == 9 then
       (c1 == 4 || c1 == 7 || c1 == 8 || c1 == 9) && (c2 == 4 || c2 == 7 || c2 == 8 || c2 == 9)
     else (c1 == 6 && c2 == 6) || (c1 == 8 && c2 == 8))

/-- A requested activity conflicts with an activity held. -/
def Act.clashes (a : Act) (code die t4 t5 : Nat) : Bool := clash a.code a.die a.t4 a.t5 code die t4 t5

/-- R280 forbids a CHAN_EVAC: another channel of its group is split. -/
def State.splitForbids (s : State) (code die t4 t5 : Nat) : Bool :=
  let r := s.remapOf die t4
  code == 5 && r.split && r.target != t5

/-- The target of an activity is lost (R435). -/
def State.targetLost (s : State) (a : Act) : Bool :=
  (s.plat.lostC.contains a.die && a.onDie a.die false) || (s.plat.lostF.contains a.die && a.onDie a.die true)

/-- Changes a channel's STATE and LOGICAL, with its log entry (R278, R281). -/
def State.chanState (s : State) (die k st logical : Nat) : State :=
  let c := s.chan die k
  (s.setChan die k { c with state := st, logical := logical }).logEv 0x0002 (8 + die) 2
    [if 96 ≤ k then 3 else k / 32, if 96 ≤ k then k - 96 else k % 32, logical, c.state, st]

/-- The spare of a group is idle: it passed training, and neither holds nor receives a channel's data (R278, R280). -/
def State.spareIdle (s : State) (die g : Nat) : Bool :=
  let r := s.remapOf die g
  decide ((s.chan die (chanIx g (spareOf g))).state = 1) && !r.evac && !r.split

/-- A foundation die is flagged for maintenance (R281, R432). -/
def State.flagF (s : State) (die : Nat) : State :=
  { s with plat := { s.plat with maintF := if s.plat.maintF.contains die then s.plat.maintF else s.plat.maintF ++ [die] } }

/-- CHAN_EVAC begins, or resumes a split channel (R278, R280). With no idle spare it fails, and a channel that firmware found faulty stays in
service as faulty (R281). -/
def State.evacBegin (s : State) (a : Act) : State :=
  let r := s.remapOf a.die a.t4
  let c := s.chan a.die (chanIx a.t4 a.t5)
  let k := a.die * 4 + a.t4
  if r.split && r.target == a.t5 then { s with remap := alPut s.remap k { r with evac := true, split := false } }
  else if !(s.spareIdle a.die a.t4) ∨ c.state ≠ 0 then
    (if a.origin = 3 ∧ c.state = 0 then (s.chanState a.die (chanIx a.t4 a.t5) 6 a.t5).flagF a.die else s).endAct a 0x0705 []
  else
    ({ s with remap := alPut s.remap k { target := a.t5, evac := true, split := false, wmark := 0, poisoned := 0 } }).chanState a.die
      (chanIx a.t4 a.t5) 2 a.t5

/-- TILE_RETIRE begins: the tile is ineligible at once; one already retired completes (R434). -/
def State.retireBegin (s : State) (a : Act) : State :=
  if (s.tile a.die a.t4).retired then s.endAct a 0 (leBytes 4 0)
  else (s.setTile a.die a.t4 { s.tile a.die a.t4 with retiring := true }).launchesCheck

/-- An activity begins (R433–R435); one whose target is lost ends with FAILED. -/
def State.actBegin (s : State) (a0 : Act) : State :=
  let a := { a0 with state := 0, begun := true }
  let s1 := s.setAct a
  if s1.targetLost a then s1.endAct a 0x0705 []
  else
    match a.code with
    | 2 => s1.setChan a.die (chanIx a.t4 0) { s1.chan a.die (chanIx a.t4 0) with retrain := true }
    | 3 => s1.setChan a.die (chanIx 3 0) { s1.chan a.die (chanIx 3 0) with retrain := true }
    | 4 => s1.ridgeAgain (16 * a.die + a.t4)
    | 5 => s1.evacBegin a
    | 6 => (s1.setSlice a.die a.t4 { s1.slice a.die a.t4 with test := some a.t5 }).drainWays a.die a.t4
    | 7 => s1.retireBegin a
    | 9 => s1.resetDie a.die
    | _ => s1

/-- An activity is accepted under the next number; it begins, or is held: waiting for a conflict to end (1), or suspended in Halt (2)
(R403, R433, R435, R437). -/
def State.actAccept (s : State) (code die t4 t5 origin hold : Nat) (bare : Bool) : State :=
  let a : Act := { num := s.actNum + 1, code := code, die := die, t4 := t4, t5 := t5, state := hold, origin := origin, time := s.now,
                   aborting := false, result := [], bare := bare, begun := false }
  let s1 : State := { s with acts := s.acts ++ [a], actNum := s.actNum + 1 }
  if hold = 0 then s1.actBegin a else s1

/-- An action that firmware starts under R432: it waits while anything it conflicts with remains (R437). -/
def State.firmAct (s : State) (code die t4 t5 : Nat) : State :=
  s.actAccept code die t4 t5 3 (if s.acts.any (fun a => a.clashes code die t4 t5) then 1 else 0) false

/-- Number of a port as an activity's origin (R436). -/
def originOf : Port → Nat
  | .h => 0
  | .b => 1
  | .n => 2

/-- The parts that MAINT_START and DIE_RESET share: 16 activities, conflicts and R280 refuse; in Halt the activity is held (R403, R437). -/
def State.portAct (s : State) (p : Port) (code die t4 t5 : Nat) (bare : Bool) : EbOut :=
  if code = 9 ∧ s.plat.lostC.contains die then .reply 0x0801 [] s
  else if decide (16 ≤ s.acts.length) || s.acts.any (fun a => a.clashes code die t4 t5) || s.splitForbids code die t4 t5 then
    .reply 0x0703 [] (s.count (svc 17))
  else .hold (s.actAccept code die t4 t5 (originOf p) (if s.power.pstate = 3 then 2 else 0) bare)

/-- MAINT_START's own part (R350, R433, R437). -/
def doMaintStart (p : Port) (k : Packet) (s : State) : EbOut :=
  let b := pktData k
  let code := byteFld b 0 1
  let die := byteFld b 1 1
  let t4 := byteFld b 4 1
  let t5 := byteFld b 5 1
  if code ≠ 9 ∧ (s.power.pstate = 2 ∨ s.power.parking.isSome) then .reply 5 [] s
  else if code = 0 ∨ 9 < code then .reply 0x0701 [] s
  else if !(targetOk code die t4 t5) then .reply 7 [] s
  else s.portAct p code die t4 t5 false

/-- MAINT_START as one of its rows: the packet names that row's activity, or a code that is none (R433). -/
def State.maintStart (s : State) (code : Nat) (p : Port) (k : Packet) : State :=
  let c := byteFld (pktData k) 0 1
  if 1 ≤ c ∧ c ≤ 9 ∧ c ≠ code then s else s.ebior 0x0701 p k (doMaintStart p k)

/-- An activity asked for on a port or by firmware (R432, R433). -/
def State.activity (s : State) (code : Nat) (byFirmware : State → Bool) : ActReq → State
  | .port p k => s.maintStart code p k
  | .firmware die t4 t5 => if s.serves && targetOk code die t4 t5 && byFirmware s then s.firmAct code die t4 t5 else s

/-- SCRUB (R433). -/
def execScrub (q : ActReq) (s : State) : Host.Outcome State Fault Refusal := .next (s.activity 1 (fun _ => false) q)
/-- HBM_RETRAIN (R276, R433). -/
def execHbmRetrain (q : ActReq) (s : State) : Host.Outcome State Fault Refusal := .next (s.activity 2 (fun _ => true) q)
/-- LP_RETRAIN (R276, R433). -/
def execLpRetrain (q : ActReq) (s : State) : Host.Outcome State Fault Refusal := .next (s.activity 3 (fun _ => true) q)
/-- RIDGE_RETRAIN (R312, R433). -/
def execRidgeRetrain (q : ActReq) (s : State) : Host.Outcome State Fault Refusal := .next (s.activity 4 (fun _ => false) q)

/-- CHAN_EVAC (R278, R280, R433): firmware starts one when the group's spare is idle, or for the channel that is split. -/
def execChanEvac (q : ActReq) (s : State) : Host.Outcome State Fault Refusal :=
  .next (s.activity 5 (fun t => match q with
    | .firmware die t4 t5 => t.spareIdle die t4 || ((t.remapOf die t4).split && (t.remapOf die t4).target == t5)
    | .port _ _ => false) q)
/-- WAY_TEST (R219, R433). -/
def execWayTest (q : ActReq) (s : State) : Host.Outcome State Fault Refusal := .next (s.activity 6 (fun _ => false) q)
/-- TILE_RETIRE (R433, R434). -/
def execTileRetire (q : ActReq) (s : State) : Host.Outcome State Fault Refusal := .next (s.activity 7 (fun _ => true) q)
/-- SENSOR_CAL (R433, R434). -/
def execSensorCal (q : ActReq) (s : State) : Host.Outcome State Fault Refusal := .next (s.activity 8 (fun _ => true) q)

/-- DIE_RESET's own part (R351). -/
def doDieReset (p : Port) (k : Packet) (s : State) : EbOut :=
  let die := byteFld (pktData k) 0 1
  if 4 ≤ die then .reply 7 [] s else s.portAct p 9 die 0 0 true

/-- DIE_RESET, as a command or as MAINT_START (R300, R351). -/
def execDieReset (q : DieResetReq) (s : State) : Host.Outcome State Fault Refusal :=
  match q with
  | .command p k => .next (s.ebior 0x0801 p k (doDieReset p k))
  | .maint p k => .next (s.maintStart 9 p k)

/-- MAINT_STATUS's 16 bytes for an activity (R436). -/
def Act.bytes (a : Act) : List Byte :=
  leBytes 2 a.num ++ leBytes 1 a.code ++ leBytes 1 a.die ++ leBytes 1 a.t4 ++ leBytes 1 a.t5 ++ leBytes 1 a.state ++ leBytes 1 a.origin
    ++ leBytes 8 a.time

/-- MAINT_STATUS (R436). -/
def execMaintStatus (p : Port) (k : Packet) (s : State) : Host.Outcome State Fault Refusal :=
  .next (s.ebior 0x0702 p k (fun t => .reply 0 (t.acts.flatMap Act.bytes) t))

/-- An activity that MAINT_ABORT can end (Table 18.6). -/
def abortable (code : Nat) : Bool := code == 1 || code == 2 || code == 3 || code == 5

/-- MAINT_ABORT's own part: one that has not begun ends at once (R280, R433; DEDUCED, log entry 47). -/
def doMaintAbort (k : Packet) (s : State) : EbOut :=
  match s.actOf (byteFld (pktData k) 0 2) with
  | none => .reply 0x0704 [] s
  | some a =>
    if !(abortable a.code) then .reply 5 [] s
    else if a.begun then .reply 0 [] (s.setAct { a with aborting := true })
    else .reply 0 [] (s.endAct a 0x0702 [])

/-- MAINT_ABORT (R433). -/
def execMaintAbort (p : Port) (k : Packet) (s : State) : Host.Outcome State Fault Refusal :=
  .next (s.ebior 0x0703 p k (doMaintAbort k))

/-- WAITING_ACTIVITY_START: nothing that a waiting action conflicts with remains, earlier waiting ones included (R432, R437). -/
def execWaitingActivityStart (num : Nat) (s : State) : Host.Outcome State Fault Refusal :=
  when_ s.serves (fun s =>
    match s.actOf num with
    | some a => if a.state = 1 ∧ !(s.acts.any (fun x => decide (x.num < num) && x.clashes a.code a.die a.t4 a.t5)) then s.actBegin a else s
    | none => s) s

/-- Counts a sector that a visit or a copy corrected or found uncorrectable (R272, R277). -/
def State.countFix (s : State) (p : Place) (b : Nat) : State :=
  if b = 1 then
    let k := s.chanOf p
    let c := s.chan p.die k
    (s.setChan p.die k { c with ce := alMod 0 c.ce (s.tally.hour % 24) (satAdd 65535 1) }).count (pairErr p.die (if p.group = 3 then 6 else p.group))
  else s.countUe p

/-- Sectors whose place meets `p`: a correctable one is rewritten corrected, an uncorrectable one as poisoned (R278, R283). The state, and
how many of each. -/
def State.scrubWhere (s : State) (p : Place → Bool) : State × Nat × Nat :=
  s.dram.bad.foldl (fun (acc : State × Nat × Nat) e =>
    let pa := e.1 * 32
    let t := acc.1
    if t.isMem pa && p (t.place pa) then
      let t1 := t.countFix (t.place pa) e.2
      if e.2 = 1 then ({ t1 with dram := t1.dram.correct e.1 }, acc.2.1 + 1, acc.2.2)
      else ({ t1 with dram := (t1.dram.correct e.1).setPoison pa 32 }, acc.2.1, acc.2.2 + 1)
    else acc) (s, 0, 0)

/-- CHAN_EVAC_BLOCK_WRITTEN: heavy Bucker 7 has copied a block of 16 units, and WMARK advances; at the channel's size the old channel is
retired and the spare in service; an evacuation that is to be aborted stops there, split at WMARK (R278–R280). -/
def execChanEvacBlockWritten (die group : Nat) (s : State) : Host.Outcome State Fault Refusal :=
  when_ (s.serves && (s.remapOf die group).evac && s.acts.any (fun (a : Act) => a.code == 5 && a.die == die && a.t4 == group && a.begun && a.state == 0))
    (fun s =>
      let r := s.remapOf die group
      if chanUnits group ≤ r.wmark then s
      else
        let x := s.scrubWhere (fun q => decide (q.die = die) && decide (q.group = group) && decide (q.logical = r.target)
          && decide (r.wmark ≤ q.unit) && decide (q.unit < r.wmark + 16))
        let r1 := { r with wmark := r.wmark + 16, poisoned := r.poisoned + x.2.2 }
        if chanUnits group ≤ r1.wmark then
          let s1 : State := { x.1 with remap := alPut x.1.remap (die * 4 + group) { r1 with evac := false, split := false } }
          (s1.chanState die (chanIx group r.target) 4 r.target).chanState die (chanIx group (spareOf group)) 3 r.target
        else
          let stop := x.1.acts.any (fun (a : Act) => a.code == 5 && a.die == die && a.t4 == group && a.begun && a.aborting)
          { x.1 with remap := alPut x.1.remap (die * 4 + group) { r1 with evac := !stop, split := stop } }) s

/-- Channels of a retrain's group. -/
def Act.channels (a : Act) : Nat := if a.code = 3 then 16 else 32

/-- CHANNEL_RETRAIN_COMPLETE: a channel is back in service, its lane repairs added, never removed; the next one follows unless the
activity was aborted (R276). -/
def execChannelRetrainComplete (die chan lrep : Nat) (s : State) : Host.Outcome State Fault Refusal :=
  when_ (s.serves && decide (die < 4) && (s.chan die chan).retrain && !(s.chanBusy die chan)) (fun s =>
    let c := s.chan die chan
    let l := max c.lrep (min 15 (min (repairLanes (if 96 ≤ chan then 3 else 0)) lrep))
    let s1 := s.setChan die chan { c with retrain := false, lrep := l }
    match s1.acts.find? (fun a => (a.code == 2 || a.code == 3) && a.die == die && a.begun && actGroup a.code a.t4 == (if 96 ≤ chan then 3 else chan / 32)) with
    | none => s1
    | some a =>
      let a1 := { a with result := a.result ++ leBytes 1 (l - c.lrep) }
      let s2 := s1.setAct a1
      if a1.aborting || decide (a1.channels ≤ a1.result.length) then s2
      else s2.setChan die (chan + 1) { s2.chan die (chan + 1) with retrain := true }) s

/-- TILE_RETIRE_DEADLINE: stands still on the tile after 100 ms end and are reported lost (R434). -/
def execTileRetireDeadline (die tile : Nat) (s : State) : Host.Outcome State Fault Refusal :=
  when_ (s.serves && (s.tile die tile).retiring) (fun s =>
    match s.acts.find? (fun a => a.code == 7 && a.die == die && a.t4 == tile && a.begun && a.state == 0 && a.result.isEmpty
        && s.due (a.time + 100000000)) with
    | some a => (s.setAct { a with result := leBytes 4 (s.tile die tile).stands.length }).loseStands die tile
    | none => s) s

/-- A WAY_TEST ends, once the way is empty (R218, R219). -/
def State.wayTestEnd (s : State) (a : Act) (passed : Bool) : State :=
  let v := s.slice a.die a.t4
  if v.lines.any (fun e => decide (e.1 % 16 = a.t5)) then s
  else
    let one := 1#16 <<< a.t5
    let v1 := { v with test := none }
    if passed then
      (s.setSlice a.die a.t4 { v1 with
        dis := v.dis &&& ~~~one, ce := if bitOf v.dis.toNat a.t5 then v.ce.filter (fun e => decide (e.1 / 24 ≠ a.t5)) else v.ce }).endAct a 0 (leBytes 1 0)
    else if bitOf v.dis.toNat a.t5 then (s.setSlice a.die a.t4 v1).endAct a 0 (leBytes 1 1)
    else if !v.maint && decide (popCount 16 v.dis.toNat + popCount 16 v.leaving.toNat < 4) then
      ((s.setSlice a.die a.t4 { v1 with dis := v.dis ||| one }).logEv 0x0003 (8 + a.die) 2
        [a.t4, a.t5, ({ v1 with dis := v.dis ||| one } : Slice).wayReg]).endAct a 0 (leBytes 1 1)
    else ((s.setSlice a.die a.t4 { v1 with maint := true }).logEv 0x0003 (8 + a.die) 2
        [a.t4, a.t5, ({ v1 with maint := true } : Slice).wayReg]).endAct a 0 (leBytes 1 2)

/-- Tally number of sensor j of a die, or of the hub (Table 18.1). -/
def sensorNum (die j : Nat) : Nat := if die = 4 then 960 + j else 128 + 208 * die + j

/-- A CHAN_EVAC ends: wholly, or split at WMARK when it was aborted and the block in flight has been written (R278, R280). -/
def State.evacEnd (s : State) (a : Act) : State :=
  let r := s.remapOf a.die a.t4
  let out := leBytes 8 r.poisoned ++ leBytes 4 r.wmark
  if chanUnits a.t4 ≤ r.wmark then s.endAct a 0 out
  else if a.aborting ∧ r.split then s.endAct a 0x0702 out
  else s

/-- A running activity ends when its work is done (R433–R435). -/
def State.actEnd (s : State) (a : Act) (passed : Bool) (result : List Byte) : State :=
  match a.code with
  | 1 =>
    if a.aborting then s.endAct a 0x0702 (padTo 16 result)
    else
      let x := s.scrubWhere (fun q => decide (q.die = a.die) && decide (q.group = a.t4))
      x.1.endAct a 0 (leBytes 8 x.2.1 ++ leBytes 8 x.2.2)
  | 2 | 3 =>
    if (List.range a.channels).any (fun k => (s.chan a.die (chanIx (actGroup a.code a.t4) k)).retrain) then s
    else s.endAct a (if a.result.length < a.channels then 0x0702 else 0) a.result
  | 4 =>
    let st := (s.link (16 * a.die + a.t4)).state
    if st = 1 ∨ st = 4 then s else s.endAct a 0 (leBytes 1 st)
  | 5 => s.evacEnd a
  | 6 => s.wayTestEnd a passed
  | 7 =>
    if (s.tile a.die a.t4).stands.isEmpty then
      let lost := byteFld a.result 0 4
      ((s.tileGone a.die a.t4).logEv 0x0005 a.die 2 [a.t4, lost]).endAct a 0 (leBytes 4 lost)
    else s
  | 8 =>
    let mine := fun (k : Nat) => (List.range (if a.die = 4 then 36 else 208)).any (fun j => sensorNum a.die j == k)
    let now := (result.map (fun b => sensorNum a.die b.toNat)).eraseDups.filter mine
    ({ s with tally := { s.tally with excluded := s.tally.excluded.filter (fun k => !(mine k)) ++ now } }).endAct a 0 (leBytes 2 now.length)
  | _ => s

/-- ACTIVITY_END (R435): what the test found, or the sensors that stay excluded, comes with it. -/
def execActivityEnd (num : Nat) (passed : Bool) (result : List Byte) (s : State) : Host.Outcome State Fault Refusal :=
  when_ s.serves (fun s =>
    match s.actOf num with
    | some a => if a.begun && a.state == 0 then s.actEnd a passed result else s
    | none => s) s

/-- A channel is declared permanently faulty: it is evacuated to an idle spare, or stays in service as faulty (R278, R281). -/
def State.chanFaulty (s : State) (die k : Nat) : State :=
  let g := if 96 ≤ k then 3 else k / 32
  let c := s.chan die k
  if c.state ≠ 0 ∧ c.state ≠ 3 then s
  else if c.state = 0 ∧ s.spareIdle die g then s.firmAct 5 die g c.logical
  else (s.chanState die k 6 c.logical).flagF die

/-- The permanent action of a row of Table 18.5, counted from 0 (R432). A Col module is retired by COL_MODULE_RETIRE itself. -/
def State.permanent (s : State) (row die obj : Nat) : State :=
  match row with
  | 0 | 1 => s.chanFaulty die obj
  | 2 =>
    let g := if 96 ≤ obj then 3 else obj / 32
    let s1 := (s.window 2 (die * 4 + g)).firmAct (if g = 3 then 3 else 2) die (if g = 3 then 0 else g) 0
    if 3 ≤ s1.tally.window24 2 (die * 4 + g) then s1.chanFaulty die obj else s1
  | 3 => s.wayLimit die (obj / 16) (obj % 16)
  | 4 => s.flagF die
  | 5 => if (s.tile die obj).retired || (s.tile die obj).retiring then s else s.firmAct 7 die obj 0
  | 7 => s.laneFault (obj / 4) (obj % 4)
  | 8 => if (s.link obj).state = 5 then s else s.linkRetire obj
  | 9 =>
    let k := sensorNum die obj
    let s1 : State := { s with tally := { s.tally with excluded := if s.tally.excluded.contains k then s.tally.excluded else s.tally.excluded ++ [k] } }
    s1.firmAct 8 die 0 0
  | _ => s

/-- The least count at which a row of Table 18.5 becomes permanent, where the table gives one. -/
def rowLeast (row : Nat) : Nat := nth 0 [8, 8, 256, 16, 4, 3, 0, 0, 0, 0, 2] row

/-- An object of a row of Table 18.5 is one the part has. -/
def objectOk (row die obj : Nat) : Bool :=
  match row with
  | 0 => decide (die < 4) && decide (obj < 96)
  | 1 => decide (die < 4) && decide (96 ≤ obj) && decide (obj < 112)
  | 2 => decide (die < 4) && decide (obj < 112)
  | 3 => decide (die < 4) && decide (obj < 512)
  | 4 => decide (die < 4)
  | 5 => decide (die < 4) && decide (obj < 68)
  | 6 => decide (obj < 16)
  | 7 => decide (obj < 256)
  | 8 => decide (obj < 64)
  | 9 => decide (die < 5) && decide (obj < if die = 4 then 36 else 208)
  | 10 => decide (obj < 8)
  | _ => false

/-- THRESHOLD_CROSSED: the threshold event with the number of the activity it starts, 0 for none, and the permanent action (R432). -/
def execThresholdCrossed (row die obj count : Nat) (s : State) : Host.Outcome State Fault Refusal :=
  when_ (s.serves && objectOk row die obj && decide (rowLeast row ≤ count)) (fun s =>
    let s1 := s.permanent row die obj
    s1.logEv 0x0004 (if row ≤ 4 then 8 + die else if row = 10 then 4 else die) 2
      [row, obj, count, if s1.actNum = s.actNum then 0 else s.actNum + 1]) s

/-- The link CRC failures of a visit's reads, by sector address over 32: counted, and a sector whose transfer fails a fifth time reads as
uncorrectable (R277). -/
def State.visitCrc (s : State) (p : Place → Bool) (crc : List (Nat × Nat)) : State :=
  crc.foldl (fun (t : State) e =>
    let q := t.place (e.1 * 32)
    if t.isMem (e.1 * 32) && p q then
      let t1 := t.countCrc q e.2
      if 5 ≤ e.2 then ({ t1 with dram := t1.dram.inject (e.1 * 32) 2 }).countReal 0 1 else t1
    else t) s

/-- A unit of a physical channel lies in the block in flight to the spare, where a visit waits as any access does (R279, R283). -/
def State.inFlight (s : State) (die chan unit : Nat) : Bool :=
  let g := if 96 ≤ chan then 3 else chan / 32
  let r := s.remapOf die g
  r.evac && chan == chanIx g r.target && decide (r.wmark ≤ unit) && decide (unit < r.wmark + 16)

/-- PATROL_SCRUB_VISIT: early visits first, then the next unit; the unit's sectors are corrected or marked (R277, R283). -/
def execPatrolScrubVisit (die chan unit : Nat) (crc : List (Nat × Nat)) (s : State) : Host.Outcome State Fault Refusal :=
  when_ (s.serves && s.plat.memUp && decide (die < 4) && decide (chan < 112) && !(s.plat.lostF.contains die) && !(s.inFlight die chan unit)
      && !(s.chan die chan).retrain && unit == ((s.chan die chan).early.head?).getD (s.chan die chan).scrub) (fun s =>
    let c := s.chan die chan
    let units := chanUnits (if 96 ≤ chan then 3 else chan / 32)
    let c1 := if c.early.isEmpty then { c with scrub := (c.scrub + 1) % units } else { c with early := c.early.tail }
    let s1 := s.setChan die chan c1
    let here := fun (q : Place) => decide (q.die = die) && decide (s1.chanOf q = chan) && decide (q.unit = unit)
    ((s1.visitCrc here crc).scrubWhere here).1) s

end Sys2Proof.Machine
end

