-- ==== Sys2Proof/Machine/DebugCmds.lean ====
section
/-! DEFINITION. The debug block's requests (R415–R420). -/

namespace Sys2Proof.Machine

/-- The parts of DBG_REQ.ADDR that name a crew's register: slot, lane, file, index. -/
def dbgSlot (q : DbgReq) : Nat := fld q.addr 0 6
def dbgLane (q : DbgReq) : Nat := fld q.addr 6 5
def dbgFile (q : DbgReq) : Nat := fld q.addr 11 3
def dbgIndex (q : DbgReq) : Nat := fld q.addr 14 8

/-- Ends a request with an error code (DBG_STATUS.ERR). -/
def State.dbgEnd (s : State) (err : Nat) : State := { s with dbgUnit := { s.dbgUnit with err := err } }

/-- Ends a request with a result in DBG_DATA. -/
def State.dbgData (s : State) (v : W64) : State := { s with dbgUnit := { s.dbgUnit with data := v, err := 0 } }

/-- The request names a tile, or with UNIT 127 every tile of its die where `all` allows. -/
def dbgOnTile (q : DbgReq) (all : Bool) : Bool := decide (q.die < 4) && (decide (q.unit < 68) || (all && q.unit == 127))

/-- The register a space-0 request names on a tile exists. -/
def dbgRegOk (q : DbgReq) (top : Nat) : Bool :=
  dbgOnTile q false && decide ((dbgSlot q) < 48) && decide ((dbgFile q) ≤ top)
    && (match dbgFile q with | 1 => decide ((dbgIndex q) < 64) | 2 => decide ((dbgIndex q) < 7) | _ => true)

/-- A storage request names bytes that its space has: a local store of at most 1,280 KiB, a landing store of 384 MiB, or mapped memory. -/
def State.dbgStore (s : State) (q : DbgReq) : Bool :=
  match q.space with
  | 1 => dbgOnTile q false && decide (q.addr % 8 = 0) && decide (q.addr < 1310720)
  | 2 => decide (q.die < 4) && decide (q.addr % 8 = 0) && decide (q.addr < 402653184)
  | 3 => decide (q.addr % 8 = 0) && s.isMem q.addr
  | _ => false

/-- A request to a node-core cluster's debug module. -/
def dbgOnCluster (q : DbgReq) : Bool := q.die == 4 && decide (q.unit < 8) && q.space == 0

/-- What stops a request at its target: lost, or stopped by a DIE_RESET or Park, or the requester's own cluster (R415, R417, Table 17.6). -/
def State.dbgTarget (s : State) (q : DbgReq) : Option Nat :=
  if dbgOnCluster q then (if q.core / 8 = q.unit then some 4 else none)
  else if q.space = 2 then (if s.plat.lostF.contains q.die then some 3 else none)
  else if q.space = 3 then (if s.plat.lostF.contains (s.homeDie q.addr) then some 3 else none)
  else if s.plat.lostC.contains q.die then some 3
  else if s.plat.resetting.contains q.die || decide (s.power.pstate = 2) then some 2
  else none

/-- A request: below its level it ends with ERR 1, out of form with ERR 5, at an unfit target with that target's error; else it acts
(R415, R416; of several errors the first of these, DESIGN CHOICE, log entry 45). -/
def State.dbg (s : State) (q : DbgReq) (level : Nat) (ok : Bool) (f : State → State) : Host.Outcome State Fault Refusal :=
  when_ s.serves (fun s =>
    if s.cairn.dbg < level then s.dbgEnd 1
    else if !ok then s.dbgEnd 5
    else
      match s.dbgTarget q with
      | some e => s.dbgEnd e
      | none => f s) s

/-- A crew's register as debug reads it: g, u, p, PC with bit 63, active lanes; an empty slot reads 0. -/
def State.dbgReg (s : State) (q : DbgReq) : W64 :=
  match s.crew { die := q.die, tile := q.unit, slot := (dbgSlot q) } with
  | none => 0
  | some v =>
    let p := v.paths[v.cur]?
    match dbgFile q with
    | 0 => (alGet 0 v.g ((dbgLane q) * 256 + (dbgIndex q))).setWidth 64
    | 1 => (alGet 0 v.u (dbgIndex q)).setWidth 64
    | 2 => BitVec.ofNat 64 (b2n (bitOf (alGet 0 v.p (dbgLane q)).toNat (dbgIndex q)))
    | 3 => BitVec.ofNat 64 (((p.map (·.pc)).getD 0) % 2 ^ 52 + 2 ^ 63)
    | _ => BitVec.ofNat 64 ((p.map (fun x => x.lanes.toNat)).getD 0)

/-- A read of 8 bytes of storage; what an uncorrectable or poisoned sector returns the spec does not state (log entry 14). -/
def State.dbgLoad (s : State) (q : DbgReq) : State :=
  let r := match q.space with
    | 1 => s.readLs q.die q.unit q.addr 8
    | 2 => s.readLand q.die q.addr 8
    | _ => (s.dram.readNat q.addr 8, s.dram.poisoned q.addr 8, s.countRead (q.addr / 128))
  if r.2.1 then r.2.2.drawn.dbgData (Free.poisonLoad r.2.2.fresh) else r.2.2.dbgData (BitVec.ofNat 64 r.1)

/-- READ (R415, R416, R419). -/
def execDbgRead (q : DbgReq) (s : State) : Host.Outcome State Fault Refusal :=
  let seen := dbgOnTile q false && q.space == 0 && ((dbgFile q) == 3 || (dbgFile q) == 4)
  s.dbg q (if seen then 1 else 2) (if q.space = 0 then dbgOnCluster q || dbgRegOk q 4 else s.dbgStore q) (fun s =>
    if dbgOnCluster q then s.drawn.dbgData (Free.debugModule s.fresh)
    else if q.space = 0 then s.dbgData (s.dbgReg q)
    else s.dbgLoad q)

/-- A write to a crew's register; an empty slot takes none. -/
def State.dbgSetReg (s : State) (q : DbgReq) (v : W64) : State :=
  s.onCrew { die := q.die, tile := q.unit, slot := (dbgSlot q) } (fun c =>
    match dbgFile q with
    | 0 => { c with g := alPut c.g ((dbgLane q) * 256 + (dbgIndex q)) (v.setWidth 32) }
    | 1 => { c with u := alPut c.u (dbgIndex q) (v.setWidth 32) }
    | _ => { c with p := alMod 0 c.p (dbgLane q) (fun x =>
        if bitOf v.toNat 0 then x ||| (1#8 <<< (dbgIndex q)) else x &&& ~~~(1#8 <<< (dbgIndex q))) })

/-- WRITE (R415, R416, R419). -/
def execDbgWrite (q : DbgReq) (s : State) : Host.Outcome State Fault Refusal :=
  s.dbg q 2 (if q.space = 0 then dbgOnCluster q || dbgRegOk q 2 else s.dbgStore q) (fun s =>
    let v := s.dbgUnit.data
    let l := leBytes 8 v.toNat
    let s1 : State := match q.space with
      | 0 =>
        if dbgOnCluster q then { s with dbgUnit := { s.dbgUnit with cluster := alPut s.dbgUnit.cluster (q.unit * 2 ^ 48 + q.addr) v } }
        else s.dbgSetReg q v
      | 1 => s.writeLs q.die q.unit q.addr l
      | 2 => { s with landing := alMod {} s.landing q.die (fun t => t.writeBytes q.addr l) }
      | _ => { s with dram := s.dram.writeBytes q.addr l }
    s1.dbgEnd 0)

/-- Tiles that a HALT, RUN or STEP names. -/
def dbgTileList (q : DbgReq) : List Nat := if q.unit = 127 then List.range 68 else [q.unit]

/-- Changes the tiles a request names. -/
def State.dbgTiles (s : State) (q : DbgReq) (f : Tile → Tile) : State :=
  ((dbgTileList q).foldl (fun (t : State) k => t.setTile q.die k (f (t.tile q.die k))) s).dbgEnd 0

/-- HALT: every crew of the tiles stops issuing (R417). -/
def execDbgHalt (q : DbgReq) (s : State) : Host.Outcome State Fault Refusal :=
  s.dbg q 2 (dbgOnTile q true && q.space == 0) (fun s => s.dbgTiles q (fun t => { t with halted := true, stepping := none }))

/-- RUN (R417). -/
def execDbgRun (q : DbgReq) (s : State) : Host.Outcome State Fault Refusal :=
  s.dbg q 2 (dbgOnTile q true && q.space == 0) (fun s => s.dbgTiles q (fun t => { t with halted := false, stepping := none }))

/-- STEP: one crew may issue one instruction (R417). -/
def execDbgStep (q : DbgReq) (s : State) : Host.Outcome State Fault Refusal :=
  s.dbg q 2 (dbgOnTile q false && q.space == 0 && decide ((dbgSlot q) < 48)) (fun s =>
    s.dbgTiles q (fun t => { t with stepping := if t.halted then some (dbgSlot q) else none }))

/-- BKSET: the lowest free breakpoint of the die takes the address, and its index is the result; with all 8 in use the request is bad
(R417; the last DEDUCED, log entry 45). -/
def execBkset (q : DbgReq) (s : State) : Host.Outcome State Fault Refusal :=
  s.dbg q 2 (decide (q.die < 4)) (fun s =>
    match (List.range 8).find? (fun i => (alFind s.dbgUnit.bk (q.die * 8 + i)).isNone) with
    | some i => ({ s with dbgUnit := { s.dbgUnit with bk := alPut s.dbgUnit.bk (q.die * 8 + i) q.addr } }).dbgData (BitVec.ofNat 64 i)
    | none => s.dbgEnd 5)

/-- BKCLR: the breakpoints of the die at the address are cleared (R417; that ADDR names it, DEDUCED, log entry 45). -/
def execBkclr (q : DbgReq) (s : State) : Host.Outcome State Fault Refusal :=
  s.dbg q 2 (decide (q.die < 4)) (fun s =>
    ({ s with dbgUnit := { s.dbgUnit with bk := s.dbgUnit.bk.filter (fun e => !(e.1 / 8 == q.die && e.2 == q.addr)) } }).dbgEnd 0)

/-- INJECT: 1 or 2 symbols of a sector's codeword are corrupted, and the error is counted as injected (R418). -/
def execInject (q : DbgReq) (s : State) : Host.Outcome State Fault Refusal :=
  let n := wfld s.dbgUnit.data 0 2
  s.dbg q 2 (s.dbgStore q && (n == 1 || n == 2)) (fun s =>
    let s1 : State := match q.space with
      | 1 => s.setTile q.die q.unit ((s.tile q.die q.unit).putLs ((s.tile q.die q.unit).ls.inject q.addr n))
      | 2 => { s with landing := alMod {} s.landing q.die (fun t => t.inject q.addr n) }
      | _ => { s with dram := s.dram.inject q.addr n }
    (s1.count (pairErr (if q.space = 3 then s.homeDie q.addr else q.die) 15)).dbgEnd 0)

/-- SAMPLE: a crew's PC or active lanes, without stopping it (R416). -/
def execSample (q : DbgReq) (s : State) : Host.Outcome State Fault Refusal :=
  s.dbg q 1 (q.space == 0 && dbgRegOk q 4 && ((dbgFile q) == 3 || (dbgFile q) == 4)) (fun s => s.dbgData (s.dbgReg q))

end Sys2Proof.Machine
end

