-- ==== Sys2Proof/Machine/Tally.lean ====
section
/-! DEFINITION. Tally, the telemetry and event-log commands, domain time as commands set and read it, samples, heartbeats and hour
buckets (chapter 18; R443, R444). -/

namespace Sys2Proof.Machine

/-- The number is assigned in Table 18.1 or 18.2. -/
def counterAssigned (k : Nat) : Bool :=
  decide (k ≤ 7) || (decide (16 ≤ k) && decide (k ≤ 22)) || (decide (64 ≤ k) && decide (k ≤ 111))
  || (decide (128 ≤ k) && decide (k ≤ 1023))
  || (decide (1024 ≤ k) && decide (k < 1280) && (decide (k % 64 ≤ 22) || (decide (24 ≤ k % 64) && decide (k % 64 ≤ 33))))
  || (decide (1280 ≤ k) && decide (k < 1536) && decide (k % 64 ≤ 19))
  || (decide (1536 ≤ k) && decide (k ≤ 1812))

/-- TAL_CTR(k): counter k at the most recent sample; an excluded sensor reads 0x8000_0000_0000_0000 and an unassigned number 0
(R424). -/
def Tally.read (t : Tally) (k : Nat) : W64 :=
  if !(counterAssigned k) then 0
  else if t.excluded.contains k then 0x8000000000000000#64
  else alGet 0 t.sample k

/-- TELEMETRY_READ's own part (R425). -/
def doTelemetryRead (_p : Port) (k : Packet) (s : State) : EbOut :=
  let first := byteFld (pktData k) 0 2
  let n := byteFld (pktData k) 2 2
  if n < 1 ∨ 127 < n then .reply 7 [] s
  else if 2048 < first + n then .reply 0x0601 [] s
  else .reply 0 (leBytes 8 s.tally.stamp ++ ((List.range n).map (fun j => leBytes 8 (s.tally.read (first + j)).toNat)).flatten) s

/-- TELEMETRY_READ (R425). -/
def execTelemetryRead (p : Port) (k : Packet) (s : State) : Host.Outcome State Fault Refusal :=
  .next (s.ebior 0x0601 p k (doTelemetryRead p k))

/-- The 64 bytes of an event-log entry (Table 18.8); how its fields stand in DATA is free (log entry 10). -/
def LogEntry.bytes (e : LogEntry) : List Byte :=
  leBytes 8 e.seq ++ leBytes 8 e.time ++ leBytes 2 e.code ++ leBytes 1 e.die ++ leBytes 1 e.sev ++ leBytes 4 0
    ++ padTo 40 (Free.eventData e.code e.data)

/-- EVENT_LOG_READ's own part (R438). -/
def doEventLogRead (_p : Port) (k : Packet) (s : State) : EbOut :=
  let q := byteFld (pktData k) 0 8
  let oldest := s.logSeq - s.log.length
  let es := ((s.log.drop (max q oldest - oldest)).take 16)
  .reply (if q < oldest then 0x0602 else 0) ((es.map LogEntry.bytes).flatten) s

/-- EVENT_LOG_READ (R438). -/
def execEventLogRead (p : Port) (k : Packet) (s : State) : Host.Outcome State Fault Refusal :=
  .next (s.ebior 0x0602 p k (doEventLogRead p k))

/-- TIME_SET's own part (R430): in FREE or MASTER a value ahead is stepped to and counted, a value behind is slewed to. -/
def doTimeSet (_p : Port) (k : Packet) (s : State) : EbOut :=
  let v := byteFld (pktData k) 0 8
  if 1 < s.time.sync then .reply 0x0501 [] s
  else if s.now ≤ v then
    .reply 0 [] ({ s with time := { s.time with fine := v * 100000, slew := 0 } }.count 5 (if s.now < v then 1 else 0))
  else .reply 0 [] { s with time := { s.time with slew := s.time.fine - v * 100000 } }

/-- TIME_SET (R430). -/
def execTimeSet (p : Port) (k : Packet) (s : State) : Host.Outcome State Fault Refusal :=
  .next (s.ebior 0x0501 p k (doTimeSet p k))

/-- TIME_READ's own part (R428). -/
def doTimeRead (_p : Port) (_k : Packet) (s : State) : EbOut :=
  .reply 0 (leBytes 8 s.now ++ leBytes 1 s.time.sync) s

/-- TIME_READ (R428). -/
def execTimeRead (p : Port) (k : Packet) (s : State) : Host.Outcome State Fault Refusal :=
  .next (s.ebior 0x0502 p k (doTimeRead p k))

/-- The levels Tally keeps of the state itself (Table 18.2): limit, power state, synchronisation, safety registers. -/
def State.ownLevels (s : State) : List (Nat × W64) :=
  [(1, BitVec.ofNat 64 s.power.limit), (2, BitVec.ofNat 64 s.power.pstate), (6, BitVec.ofNat 64 s.time.sync),
   (16, BitVec.ofNat 64 s.cairn.tjTrip), (17, BitVec.ofNat 64 s.cairn.hbmTrip), (18, BitVec.ofNat 64 s.cairn.powerCeil),
   (19, BitVec.ofNat 64 s.cairn.coolantAction), (20, BitVec.ofNat 64 s.cairn.supplyAction),
   (21, BitVec.ofNat 64 (b2n s.cairn.armed)), (22, BitVec.ofNat 64 s.safeStatus)]

/-- A number the sensors supply as a level: temperatures (Table 18.1). -/
def sensorLevel (k : Nat) : Bool := decide (128 ≤ k) && decide (k ≤ 1023)

/-- Power of a rail as its counter has it, mW (Table 18.1). -/
def Tally.railMw (t : Tally) (r : Nat) : Nat := (alGet 0 t.live (66 + 3 * r)).toNat

/-- Maximum current of a rail, in A, and its upper voltage limit in units of 10 µV, that of VDD_TILEn with its target (Table 19.2). -/
def State.railTop (s : State) (r : Nat) : Nat × Nat :=
  if r < 4 then (600, (s.die r).mv * 1015 / 10)
  else nth (0, 0) [(150, 77250), (150, 77250), (150, 77250), (150, 77250), (220, 77250), (45, 82400), (180, 77250), (200, 108150), (45, 108150),
    (40, 51500), (360, 91800), (2, 189000)] (r - 4)

/-- Power of a rail as Firebreak takes it: at its maximum while it gives no valid frame (R444). -/
def State.fbRail (s : State) (r : Nat) : Nat :=
  if s.tally.railMax.contains r then (s.railTop r).1 * (s.railTop r).2 / 100 else s.tally.railMw r

/-- Sum over the 16 rails. -/
def railSum (f : Nat → Nat) : Nat := ((List.range 16).map f).foldl (· + ·) 0

/-- TALLY_SAMPLE: every 10 µs the levels are taken, package power as the sum of the rails among them, and every counter is held for readers; the 10 ms
power average feeds the safety net, and the last 100 µs give FBK_PKG.PWR (R376, R381, R424, R425, R444). -/
def execTallySample (levels : List (Nat × W64)) (s : State) : Host.Outcome State Fault Refusal :=
  when_ (s.runs && decide (1 ≤ s.plat.stage)) (fun s =>
    let mw := railSum s.tally.railMw
    let live := (levels.filter (fun e => sensorLevel e.1) ++ (0, BitVec.ofNat 64 mw) :: s.ownLevels).foldl (fun m e => alPut m e.1 e.2) s.tally.live
    let fbs := (railSum s.fbRail :: s.tally.fbPower).take 10
    let power := (mw :: s.tally.power).take 1000
    let sum := power.foldl (· + ·) 0
    let above := decide (105 * s.powerCeil * 1000 * power.length < sum * 100)
    { s with
      power := { s.power with pwr := fbs.foldl (· + ·) 0 / fbs.length / 1000 }
      tally := { s.tally with
        fbPower := fbs, fbDie := (List.range 4).foldl (fun m n => alMod [] m n (fun l => ((s.fbRail n + s.fbRail (4 + n)) :: l).take 10)) s.tally.fbDie
        live := live, sample := live, stamp := s.now, power := power, excess := (if above then s.tally.excess + 1 else 0)
        psum := s.tally.psum + mw / 1000, pcnt := s.tally.pcnt + 1
        dsum := (List.range 4).foldl (fun m n => alMod 0 m n (· + (s.die n).pwr)) s.tally.dsum } }) s

/-- AVSBUS_SAMPLE: a good frame gives the rail's voltage, current and power; without a valid frame the counters keep their last
values and the failure is counted (R443, R444). -/
def execAvsbusSample (rail : Nat) (f : AvsFrame) (s : State) : Host.Outcome State Fault Refusal :=
  when_ (s.on && decide (rail < 16)) (fun s =>
    match f with
    | .ok mv ma =>
      let live := [(64 + 3 * rail, mv), (65 + 3 * rail, ma), (66 + 3 * rail, mv * ma / 1000)].foldl
        (fun m e => alPut m e.1 (BitVec.ofNat 64 e.2)) s.tally.live
      { s with tally := { s.tally with rails := alPut s.tally.rails rail (mv, ma), railMax := s.tally.railMax.filter (· != rail),
                                        railAt := alPut s.tally.railAt rail s.now, live := live } }
    | .bad => s.count (svc 19)) s

/-- AVSBUS_FRAME_TIMEOUT: 1 ms without a valid frame; the rail is taken at its maximum until one arrives (R444). -/
def execAvsbusFrameTimeout (rail : Nat) (s : State) : Host.Outcome State Fault Refusal :=
  when_ (s.on && decide (rail < 16) && !(s.tally.railMax.contains rail) && s.due (alGet 0 s.tally.railAt rail + 1000000)) (fun s =>
    { s with tally := { s.tally with railMax := rail :: s.tally.railMax } }) s

/-- TAL_TEL_HEAD_WRITE: records consumed; a write that would pass TAIL is ignored and counted (R426). -/
def execTalTelHeadWrite (v : W64) (s : State) : Host.Outcome State Fault Refusal :=
  when_ s.serves (fun s =>
    let h := wfld v 0 32
    let used := (s.tally.tail + 2 ^ 32 - s.tally.head) % 2 ^ 32
    if (h + 2 ^ 32 - s.tally.head) % 2 ^ 32 ≤ used then
      let thr := match s.cfg.telemetry with | some t => t.2.2.2 | none => 0
      let left := (s.tally.tail + 2 ^ 32 - h) % 2 ^ 32
      { s with tally := { s.tally with head := h, notify := s.tally.notify || decide (left < thr) } }
    else s.count (svc 18)) s

/-- Clears hour buckets of tables keyed by object × stride + bucket. -/
def clearBuckets (t : Sparse Nat) (stride : Nat) (hs : List Nat) : Sparse Nat :=
  t.filter (fun e => !(hs.contains (e.1 % stride)))

/-- HOUR_BUCKET_ADVANCE: the buckets of the hours domain time has entered since start empty (R216, R424, R432). -/
def execHourBucketAdvance (s : State) : Host.Outcome State Fault Refusal :=
  when_ (s.serves && decide (s.tally.hour < s.now / 3600000000000)) (fun s =>
    let h := s.now / 3600000000000
    let hs := (List.range (min 24 (h - s.tally.hour))).map (fun k => (h - k) % 24)
    { s with
      tally := { s.tally with hour := h, windows := clearBuckets s.tally.windows 32 hs }
      slices := s.slices.map (fun e => (e.1, { e.2 with ce := clearBuckets e.2.ce 24 hs }))
      chans := s.chans.map (fun e => (e.1, { e.2 with ce := clearBuckets e.2.ce 24 hs })) }) s

end Sys2Proof.Machine
end

