-- ==== Sys2Proof/Machine/Regs.lean ====
section
/-! DEFINITION. The device registers as node cores read them, register writes, interrupt routes, and messages of port B (R9, R27, R32,
R35, R344, R345, R406 and the register tables of every chapter). -/

namespace Sys2Proof.Machine

/-- A crew slot of a die holds a parked crew. -/
def State.parkedOn (s : State) (die : Nat) : Nat :=
  (s.tiles.map (fun e => if e.1 / 68 = die then (e.2.crews.filter (fun c => c.2.parked.isSome)).length else 0)).foldl (· + ·) 0

/-- Registers of the block of Cn (chapters 3, 13, 16). -/
def State.regC (s : State) (n o : Nat) : Nat :=
  if o = 0x1008 then
    s.parkedOn n % 4096 + (alGet [] s.trapWait n).length % 4096 * 2 ^ 12 + b2n (s.trapUsed n == s.trapSize n) * 2 ^ 24
  else if o = 0x1010 then alGet 0 s.trapTail n
  else if o = 0x1018 then alGet 0 s.trapHead n
  else if 0x50000 ≤ o ∧ o < 0x50080 then
    let v := s.link (16 * n + (o - 0x50000) / 8)
    v.state + v.lanes.toNat * 2 ^ 3 + v.peer % 2 ^ 20 * 2 ^ 8 + min 65535 v.retry * 2 ^ 32 + min 255 v.retr * 2 ^ 48
  else if o = 0x60000 then
    let d := s.die n
    let below := fun (c : Nat) (k : Nat) => if c < d.tgt then 2 ^ k else 0
    let src := below (d.fit d.tgt) 0 + below (s.stackCeiling n) 1 + below (junctionCeil d.jlvl) 2
      + below (if s.power.warn then 0 else if s.power.supl then 3 else 7) 3 + below (if s.power.snet then 0 else 7) 4
    d.op + d.tgt * 2 ^ 3 + s.ceiling n * 2 ^ 6 + src * 2 ^ 9 + min 4095 d.budget * 2 ^ 14 + min 4095 d.pwr * 2 ^ 26 + min 255 d.tj * 2 ^ 38
      + d.gated * 2 ^ 46 + b2n (!d.hints.isEmpty) * 2 ^ 49
  else 0

/-- COL_PORT as read, from the port's state, the pool of the direction that leaves this end, and HALF. -/
def colPortReg (c : ColPort) (pool : Nat) (half : Bool) : Nat :=
  c.state + c.mods % 16 * 2 ^ 4 + pool % 4096 * 2 ^ 8 + min 65535 c.crcr * 2 ^ 32 + min 15 c.mret * 2 ^ 48 + b2n half * 2 ^ 52

/-- Count of a sparse table of hour buckets. -/
def bucketSum (t : Sparse Nat) : Nat := (t.map (·.2)).foldl (· + ·) 0

/-- Registers of the block of Fn (chapters 8, 11, 12). -/
def State.regF (s : State) (n o : Nat) : Nat :=
  if 0x10000 ≤ o ∧ o < 0x10380 then
    let c := s.chan n ((o - 0x10000) / 8)
    c.state + c.logical % 32 * 2 ^ 3 + min 15 c.lrep * 2 ^ 8 + min 65535 (bucketSum c.ce) * 2 ^ 16 + min 65535 c.ue * 2 ^ 32 + min 65535 c.crcr * 2 ^ 48
  else if 0x10400 ≤ o ∧ o < 0x10420 then
    let r := s.remapOf n ((o - 0x10400) / 8)
    r.target % 32 + b2n r.evac * 2 ^ 5 + b2n r.split * 2 ^ 6 + r.wmark % 2 ^ 26 * 2 ^ 8
  else if o = 0x10500 then
    let k := fun (i : Nat) => (alGet {} s.hbm (n * 3 + i) : Stack)
    let lvl := fun (i : Nat) => (k i).lvl - 1
    (k 0).temp % 256 + (k 1).temp % 256 * 2 ^ 8 + (k 2).temp % 256 * 2 ^ 16 + lvl 0 * 2 ^ 24 + lvl 1 * 2 ^ 26 + lvl 2 * 2 ^ 28
      + alGet 0 s.tmax n % 256 * 2 ^ 32
  else if 0x20000 ≤ o ∧ o < 0x20100 then
    (s.slice n ((o - 0x20000) / 8)).wayReg
  else if 0x30000 ≤ o ∧ o < 0x30018 then
    let k := (o - 0x30000) / 8
    colPortReg (s.colPort (3 * n + k)) (s.pool (.col n k)) false
  else if 0x30100 ≤ o ∧ o < 0x30150 then
    let e := alGet (0, 0, 0) s.colSat (n * 10 + (o - 0x30100) / 8)
    min (2 ^ 32 - 1) e.1 + min (2 ^ 24 - 1) e.2.1 * 2 ^ 32
  else 0

/-- FBK_PKG as read (R372–R403). -/
def State.fbkPkg (s : State) : Nat :=
  let p := s.power
  min 4095 p.limit + min 4095 p.pwr * 2 ^ 12 + p.pstate % 8 * 2 ^ 24 + b2n p.warn * 2 ^ 27 + min 65535 p.epis * 2 ^ 28 + p.lasth % 16 * 2 ^ 44
    + b2n p.snet * 2 ^ 48 + b2n p.supl * 2 ^ 49

/-- CW_ID and CW_STATE of a port's window (R343, R344). -/
def State.cwId (s : State) : Nat := 1 + s.plat.stage % 16 * 2 ^ 12
def PortSt.cwState (v : PortSt) : Nat := b2n v.busy + b2n v.done * 2 + b2n v.ien * 4 + v.ign % 2 ^ 32 * 2 ^ 16

/-- A port's window at an offset: CW_ID, CW_STATE, request and reply buffers, and on H the MSI-X table and pending bits (Table 14.3). -/
def State.window8 (s : State) (p : Port) (o : Nat) : Nat :=
  let v := s.port p
  if o = 0 then s.cwId
  else if o = 0x10 then v.cwState
  else if 0x1000 ≤ o ∧ o < 0x2000 then byteFld v.request (o - 0x1000) 8
  else if 0x2000 ≤ o ∧ o < 0x2410 then (match v.reply with | some r => byteFld r.bytes (o - 0x2000) 8 | none => 0)
  else if p = .h ∧ 0x3000 ≤ o ∧ o < 0x3010 then fld v.msixTable (8 * (o - 0x3000)) 64
  else if p = .h ∧ o = 0x3800 then b2n v.msixPending
  else 0

/-- Safety register k as read (R406). -/
def State.safeReg (s : State) (k : Nat) : Nat :=
  nth 0 [s.cairn.tjTrip, s.cairn.hbmTrip, s.cairn.powerCeil, s.cairn.coolantAction, s.cairn.supplyAction, b2n s.cairn.armed, s.safeStatus] k

/-- Compute dies with halted tiles (DBG_STATUS.HALT). -/
def State.haltedDies (s : State) : Nat :=
  ((List.range 4).map (fun n => if s.tiles.any (fun e => decide (e.1 / 68 = n) && e.2.halted) then 2 ^ n else 0)).foldl (· + ·) 0

/-- Registers of a command stream (chapter 14). -/
def State.streamReg (s : State) (n o : Nat) : Nat :=
  let v := s.stream n
  if o = 0 then
    v.state + v.cls * 2 ^ 3 + v.space % 16 * 2 ^ 4 + v.flights.length % 32 * 2 ^ 8 + v.epoch % 2 ^ 16 * 2 ^ 16 + v.etail % 2 ^ 32 * 2 ^ 32
  else if o = 8 then (match v.flights with | f :: _ => f.addr | [] => v.next) % 2 ^ 52
  else if o = 0x10 then v.ehead % 2 ^ 32
  else 0

/-- Registers of the block of H (chapters 1, 10, 12, 13, 14, 16, 17, 18). -/
def State.regH (s : State) (o : Nat) : Nat :=
  if 0x100000 ≤ o ∧ o < 0x100400 then (alGet 0 s.routes ((o - 0x100000) / 8)).toNat
  else if 0x300000 ≤ o ∧ o < 0x300080 then (alGet 0 s.xlt.root ((o - 0x300000) / 8)).toNat
  else if o = 0x300108 then s.xlt.tail
  else if o = 0x300110 then s.xlt.head
  else if o = 0x300118 then
    let n := fun (st : PSt) => (s.xlt.pend.filter (fun e => e.2.st == st)).length
    s.xlt.pend.length % 1024 + n .ringWait % 1024 * 2 ^ 10 + n .posted % 1024 * 2 ^ 20
      + b2n ((s.xlt.tail + 2 ^ 32 - s.xlt.head) % 2 ^ 32 == 4096) * 2 ^ 30 + b2n (s.xlt.pend.length == 512) * 2 ^ 31
  else if o = 0x300128 then s.xlt.done + s.xlt.issued * 2 ^ 32
  else if 0x400000 ≤ o ∧ o < 0x400020 then
    let k := (o - 0x400000) / 8
    colPortReg (s.colPort (12 + k)) (s.pool (.colHub k)) false
  else if o = 0x400020 then
    colPortReg { state := s.plat.hpState, mods := b2n (s.plat.hpState == 1) } (s.pool .hostLevel) s.plat.hpHalf
  else if 0x500000 ≤ o ∧ o < 0x502000 then (alGet 0 s.rdgRoute ((o - 0x500000) / 8)).toNat
  else if 0x502000 ≤ o ∧ o < 0x502200 then (alGet 0 s.rdgWin ((o - 0x502000) / 8)).toNat
  else if 0x600000 ≤ o ∧ o < 0x604000 then s.window8 .n (o - 0x600000)
  else if 0x700000 ≤ o ∧ o < 0x700800 then s.streamReg ((o - 0x700000) / 32) (o % 32)
  else if o = 0x800000 then s.fbkPkg
  else if 0x900000 ≤ o ∧ o < 0x900038 then s.safeReg ((o - 0x900000) / 8)
  else if o = 0x910008 then s.dbgUnit.data.toNat
  else if o = 0x910010 then s.dbgUnit.err % 8 * 2 + s.cairn.dbg % 4 * 2 ^ 4 + s.haltedDies * 2 ^ 6
  else if o = 0xA00000 then
    s.tally.tail + b2n ((s.tally.tail + 2 ^ 32 - s.tally.head) % 2 ^ 32 == 2 ^ (match s.cfg.telemetry with | some t => t.2.1 | none => 0)) * 2 ^ 32
  else if o = 0xA00008 then s.tally.head
  else if 0xA10000 ≤ o ∧ o < 0xA14000 then (s.tally.read ((o - 0xA10000) / 8)).toNat
  else 0

/-- Offset ranges that hold registers, first and past the last: in Cn's block, Fn's and H's (the register tables of every chapter). -/
def regRanges (b : Nat) : List (Nat × Nat) :=
  if b < 4 then [(0x1000, 0x1020), (0x50000, 0x50080), (0x60000, 0x60008)]
  else if b < 8 then
    [(0x10000, 0x10380), (0x10400, 0x10420), (0x10500, 0x10508), (0x20000, 0x20100), (0x30000, 0x30018), (0x30100, 0x30150)]
  else if b = 8 then
    [(0x100000, 0x100400), (0x300000, 0x300080), (0x300100, 0x300130), (0x400000, 0x400028), (0x500000, 0x502200), (0x600000, 0x604000),
     (0x700000, 0x700800), (0x800000, 0x800008), (0x900000, 0x900038), (0x910000, 0x910018), (0xA00000, 0xA00010), (0xA10000, 0xA14000)]
  else []

/-- The spec gives no value to read there: an offset that holds no register, P's block, or the block of a lost die. -/
def State.stray (s : State) (pa : Nat) : Bool :=
  let b := (pa - 0x0F0000000000) / 2 ^ 32
  let o := pa % 2 ^ 32
  !((regRanges b).any (fun e => decide (e.1 ≤ o) && decide (o < e.2))) || (b == 8 && decide (0x700000 ≤ o) && decide (o < 0x700800) && o % 32 / 8 == 3)
    || (decide (b < 4) && s.plat.lostC.contains b) || (decide (4 ≤ b) && decide (b < 8) && s.plat.lostF.contains (b - 4))

/-- The device register at an 8-byte aligned address as node cores read it (R27). WO and RSV fields read zero (R9); an offset that holds no
register reads a free value (log entry 7). -/
def State.regRead (s : State) (pa : Nat) : W64 :=
  let o := pa % 2 ^ 32
  let b := (pa - 0x0F0000000000) / 2 ^ 32
  if s.stray pa then Free.strayReg s.fresh
  else if b < 4 then BitVec.ofNat 64 (s.regC b o)
  else if b < 8 then BitVec.ofNat 64 (s.regF (b - 4) o)
  else BitVec.ofNat 64 (s.regH o)

/-- What a read of a device register changes: EVHI, TMAX, REFUSE and SATUS (R219, R284, R297). -/
def State.regReadEffect (s : State) (pa : Nat) : State :=
  let o := pa % 2 ^ 32
  let b := (pa - 0x0F0000000000) / 2 ^ 32
  if s.stray pa then s.drawn
  else if 4 ≤ b ∧ b < 8 then
    let n := b - 4
    if 0x20000 ≤ o ∧ o < 0x20100 then
      let k := (o - 0x20000) / 8
      s.setSlice n k { s.slice n k with evhi := (s.slice n k).evb.length }
    else if o = 0x10500 then
      { s with tmax := alPut s.tmax n (((List.range 3).map (fun k => (alGet {} s.hbm (n * 3 + k)).temp)).foldl max 0) }
    else if 0x30100 ≤ o ∧ o < 0x30150 then
      let l := (o - 0x30100) / 8
      { s with colSat := alPut s.colSat (n * 10 + l) (0, 0, (alGet (0, 0, 0) s.colSat (n * 10 + l)).2.2) }
    else s
  else s

/-- The device-specific CSRs of a node core: lysid, lystime, lysapctl, lysapflt (chapter 1). -/
def State.csr (s : State) (core num : Nat) : W64 :=
  let c := alGet {} s.cores core
  if num = 0xFC0 then BitVec.ofNat 64 (core % 8 + core / 8 % 8 * 8)
  else if num = 0xCC0 then BitVec.ofNat 64 s.now
  else if num = 0x5C0 then BitVec.ofNat 64 (b2n c.apEn)
  else if num = 0x5C1 then BitVec.ofNat 64 (c.page % 2 ^ 27 + c.cause % 8 * 2 ^ 27 + b2n c.valid * 2 ^ 63)
  else 0

/-- The hart of a core runs (R367). -/
def State.coreRuns (s : State) (core : Nat) : Bool := s.serves && decide (core < 64) && (alGet {} s.cores core).running

/-- Changes what the Lyseg adds to a core. -/
def State.onCore (s : State) (core : Nat) (f : NCore → NCore) : State := { s with cores := alMod {} s.cores core f }

/-- A core's write to one of its CSRs: EN, and V which a 1 clears. -/
def State.csrWrite (s : State) (core num : Nat) (v : W64) : State :=
  if num = 0x5C0 then s.onCore core (fun c => { c with apEn := bitOf v.toNat 0 })
  else if num = 0x5C1 ∧ bitOf v.toNat 63 then s.onCore core (fun c => { c with valid := false })
  else s

/-- Puts 8 bytes into a request buffer. -/
def putRequest (l : List Byte) (o : Nat) (v : W64) : List Byte :=
  let m := padTo 4096 l
  m.take o ++ leBytes 8 v.toNat ++ m.drop (o + 8)

/-- A write to a port's window at an offset: DONE and IEN of CW_STATE, the request buffer, and on H the MSI-X table; CW_EXEC and the request
buffer of a busy port ignore and count it; unmasking the MSI-X entry sends a pending message (R344, Table 14.3). -/
def State.windowWrite (s : State) (p : Port) (o : Nat) (v : W64) : State :=
  let w := s.port p
  let busy := w.busy || (s.cairn.restarting && p != .n)
  let ignored := s.setPort p { w with ign := satAdd (2 ^ 32 - 1) w.ign 1 }
  if o = 0x10 then s.setPort p { w with done := w.done && !(bitOf v.toNat 1), ien := bitOf v.toNat 2 }
  else if o = 8 then (if busy then ignored else s)
  else if 0x1000 ≤ o ∧ o < 0x2000 then (if busy then ignored else s.setPort p { w with request := putRequest w.request (o - 0x1000) v })
  else if p = .h ∧ (o = 0x3000 ∨ o = 0x3008) then
    let t := setFld w.msixTable (8 * (o - 0x3000)) 64 v.toNat
    if w.msixPending && !(bitOf t 96) then s.setPort p { w with msixTable := t, msixPending := false, msixSent := w.msixSent + 1 }
    else s.setPort p { w with msixTable := t }
  else s

/-- A node core's write to a device register that has no command of its own: XLT_ROOT, RDG_ROUTE, RDG_WIN, DBG_DATA, an unknown DBG_REQ.OP,
the service window, and the safety registers, where it is ignored and counted (R9, R316, R406, R415). -/
def State.regWrite (s : State) (machine : Bool) (pa : Nat) (v : W64) : State :=
  let o := pa % 2 ^ 32
  if (pa - 0x0F0000000000) / 2 ^ 32 ≠ 8 then s
  else if 0x300000 ≤ o ∧ o < 0x300080 then
    let x : Xlt := { s.xlt with root := alPut s.xlt.root ((o - 0x300000) / 8) (v &&& 0x00007FFFFFFFE007#64) }
    { s with xlt := if x.on ((o - 0x300000) / 8) then x else x.purge ((o - 0x300000) / 8) }
  else if 0x500000 ≤ o ∧ o < 0x502000 then { s with rdgRoute := alPut s.rdgRoute ((o - 0x500000) / 8) (v &&& 0x000003FFFFFFFFFF#64) }
  else if 0x502000 ≤ o ∧ o < 0x502200 then { s with rdgWin := alPut s.rdgWin ((o - 0x502000) / 8) (v &&& 0x0000000003FF07FF#64) }
  else if 0x600000 ≤ o ∧ o < 0x604000 then s.windowWrite .n (o - 0x600000) v
  else if 0x900000 ≤ o ∧ o < 0x900038 then s.count (svc 13)
  else if o = 0x910000 ∧ machine ∧ (wfld v 0 4 = 0 ∨ 9 < wfld v 0 4) then s.dbgEnd 5
  else if o = 0x910008 ∧ machine then { s with dbgUnit := { s.dbgUnit with data := v } }
  else s

/-- REGISTER_WRITE: an 8-byte aligned write sets the fields that have no behaviour of their own, under their access codes (R9). A node core's
address below 4,096 is a CSR number; a host's is a BAR0 offset. -/
def execRegisterWrite (by_ : RegWriter) (addr : Nat) (v : W64) (s : State) : Host.Outcome State Fault Refusal :=
  match by_ with
  | .node machine core =>
    when_ (s.coreRuns core) (fun s =>
      if addr < 4096 then s.csrWrite core addr v
      else if decide (addr % 8 = 0) && s.region addr == .regs then s.regWrite machine addr v
      else s) s
  | .host => when_ (s.reach .h && decide (addr % 8 = 0)) (fun s => s.windowWrite .h addr v) s

/-- ROUTE_ENTRY_WRITE: the fields are set and PEND kept; EN becoming 1 while PEND is 1 sends exactly one message and clears PEND (R35). -/
def execRouteEntryWrite (i : Nat) (v : W64) (s : State) : Host.Outcome State Fault Refusal :=
  when_ (s.serves && decide (i < 128)) (fun s =>
    let e := v &&& 0x00000000807FF73F#64
    let pend := bitOf (alGet 0 s.routes i).toNat 32
    if pend && bitOf e.toNat 31 then
      let s1 := { s with routes := alPut s.routes i e }
      if wfld e 12 11 = 0 then s1 else s1.sendRoute e
    else { s with routes := alPut s.routes i (if pend then e ||| (1#64 <<< 32) else e) }) s

/-- INTERRUPT_EVENT (R32, R34). -/
def execInterruptEvent (src : Nat) (s : State) : Host.Outcome State Fault Refusal := when_ s.serves (fun s => s.raise src) s

/-- An opcode's own part on a port (Table 14.6). -/
def ownPart (op : Nat) (p : Port) (k : Packet) (s : State) : State → EbOut :=
  match op with
  | 0x0101 => doImageBegin p k
  | 0x0102 => doImageData p k
  | 0x0103 => doImageEnd p k
  | 0x0201 => doConfigWrite p k
  | 0x0202 => doConfigRead p k
  | 0x0203 => doConfigCommit (Free.badWays s.fresh) p k
  | 0x0301 => doSafetyProfile p k
  | 0x0302 => doSafetyArm p k
  | 0x0401 => doQueryIdentity p k
  | 0x0402 => doAttest p k
  | 0x0501 => doTimeSet p k
  | 0x0502 => doTimeRead p k
  | 0x0601 => doTelemetryRead p k
  | 0x0602 => doEventLogRead p k
  | 0x0701 => doMaintStart p k
  | 0x0702 => fun t => .reply 0 (t.acts.flatMap Act.bytes) t
  | 0x0703 => doMaintAbort k
  | 0x0801 => doDieReset p k
  | 0x0802 => doPackagePark p k
  | 0x0803 => doResume p k
  | 0x0901 => doStreamOpen p k
  | 0x0902 => doStreamClose p k
  | 0x0903 => doStreamMigrate p k
  | 0x0A01 => doDebugUnlock (Free.challenge s.fresh) p k
  | 0x0A02 => doDebugLock p k
  | 0x0B01 => doPowerLimitSet p k
  | _ => fun t => .reply 2 [] t

/-- PORT_B_MESSAGE: a message that completes while port B is busy is discarded and counted; else one that carries the enterprise number is
taken as its Ebior command (R345). -/
def execPortBMessage (opcode : Nat) (vendorOk : Bool) (k : Packet) (s : State) : Host.Outcome State Fault Refusal :=
  when_ s.on (fun s =>
    if s.portB.busy || s.cairn.restarting then s.count (svc 12)
    else if vendorOk then s.drawn.ebior opcode .b k (ownPart opcode .b k s)
    else s) s

/-- CAIRN_RESTART_COMPLETE: the pair runs its firmware again; sealed registers, levels, log and time are as before, and a command that waited on
port N is served (R405). -/
def execCairnRestartComplete (s : State) : Host.Outcome State Fault Refusal :=
  when_ (s.on && s.cairn.restarting) (fun s =>
    let s1 : State := { s with cairn := { s.cairn with restarting := false, waiting := none } }
    match s.cairn.waiting with
    | some (op, k) => s1.serve op .n k (ownPart op .n k s1)
    | none => s1) s

end Sys2Proof.Machine
end

