-- ==== Sys2Proof/Machine/NodeCmds.lean ====
section
/-! DEFINITION. What the node cores do: coherent and uncached accesses, fences, device registers, the aperture, access faults (R29–R31, R185,
R189, R196, R230). -/

namespace Sys2Proof.Machine

/-- Kind of a node-core access that goes to a home uncached. -/
def NodeKind.uncached : Sys2Proof.NodeKind → Option AccKind
  | .load => some .load
  | .ifetch => some .fetch
  | .store => some .store
  | .amo => some .atomic
  | .lr | .sc | .evict | .fence => none

/-- The fence sets a memory access belongs to: 1 reads, 2 writes. -/
def nodeClass : Sys2Proof.NodeKind → Nat
  | .load | .lr => 1
  | .store | .sc => 2
  | .amo => 3
  | .ifetch | .evict | .fence => 0

/-- The same of an uncached access in flight. -/
def AccKind.coreClass : AccKind → Nat
  | .load => 1
  | .store => 2
  | .atomic => 3
  | _ => 0

/-- The access reads a value. -/
def nodeReads : Sys2Proof.NodeKind → Bool
  | .load | .ifetch | .lr | .amo => true
  | _ => false

/-- Accesses of a hart in given sets that are out: uncached ones by id, and the lines it waits for. -/
def State.coreOut (s : State) (core set : Nat) : List Nat × List Nat :=
  ((s.reqs.filter (fun e => e.2.who == .aperture core && decide (e.2.kind.coreClass &&& set ≠ 0))).map (·.1),
   ((alGet {} s.agents (s.agentId (core / 8))).lines.filter (fun e => match e.2.acc with
      | some (c, _, x) => c == core && decide (nodeClass x.kind &&& set ≠ 0)
      | none => false)).map (·.1))

/-- A fence of a hart is over: what it waits for has been performed, and for an acquire the host snoops received have been applied (R196, R197). -/
def State.fenceOver (s : State) (core : Nat) (f : CoreFence) : Bool :=
  let out := s.coreOut core 3
  f.ids.all (fun i => !(out.1.contains i)) && f.lines.all (fun l => !(out.2.contains l)) && (!f.acq || s.snoopQ.isEmpty)

/-- The sets an access belongs to at its address: a device register's are input and output. -/
def State.accessSet (s : State) (a : NodeAccess) : Nat :=
  if a.addr < 2 ^ 48 ∧ s.region a.addr = .regs then (if a.kind = .store then 8 else 4) else nodeClass a.kind

/-- A hart's access may be made: no fence holds it back, and before an rl access all earlier ones are over (R196). -/
def State.coreMay (s : State) (core : Nat) (a : NodeAccess) : Bool :=
  (match (alGet {} s.cores core).fence with
   | some f => decide (s.accessSet a &&& f.succ = 0) || s.fenceOver core f
   | none => true)
    && (!a.rl || s.coreOut core 3 == ([], []))

/-- A fence begins, with what is left of the one before it: they then end together (DESIGN CHOICE, log entry 21). -/
def State.fenceOn (s : State) (core : Nat) (f : CoreFence) : State :=
  s.onCore core (fun c => { c with fence := match c.fence with
    | some g => if s.fenceOver core g then some f else
        some { succ := g.succ ||| f.succ, acq := g.acq || f.acq, ids := g.ids ++ f.ids, lines := g.lines ++ f.lines }
    | none => some f })

/-- A hart's FENCE: a predecessor set with reads is an acquire (R196). -/
def State.coreFence (s : State) (core sets : Nat) : State :=
  let out := s.coreOut core (sets % 4)
  s.fenceOn core { succ := sets / 16 % 16, acq := bitOf sets 0, ids := out.1, lines := out.2 }

/-- After an aq access: later reads and writes wait for it (R196). -/
def State.afterAq (s : State) (core : Nat) (a : NodeAccess) : State :=
  if a.aq then
    let out := s.coreOut core 3
    s.fenceOn core { succ := 3, acq := true, ids := out.1, lines := out.2.filter (· == a.addr / 128) }
  else s

/-- The parts of an access, divided where it crosses a line, each with its first byte when there are two (R185). -/
def NodeAccess.parts (a : Sys2Proof.NodeAccess) : List (Option Nat × NodeAccess) :=
  let n := 128 - a.addr % 128
  if a.size ≤ n then [(none, a)]
  else [(some 0, { a with size := n }), (some n, { a with addr := a.addr + n, size := a.size - n, data := a.data >>> (8 * n) })]

/-- A core's uncached access, at a translated address (R30). -/
def State.coreAccess (s : State) (core space va pa : Nat) (kind : AccKind) (off : Option Nat) (a : NodeAccess) : State :=
  let r := s.newReq { unitReq (.aperture core) kind space va a.size with
    pa := pa, data := BitVec.ofNat 1024 a.data.toNat, sub := a.sub, ty := (if a.size = 8 then 13 else 12), dst := off.getD 255, stage := .backoff 0 }
  r.1.tryAdmit r.2

/-- The request of Table 9.7 for an access in a stable state, with its transient state; none where the access is performed at once. -/
def nodeRequest (k : Sys2Proof.NodeKind) (st : ASt) : Option (MsgOp × ASt) :=
  match k, st with
  | .load, .i | .ifetch, .i | .lr, .i => some (.rds, .isD)
  | .store, .i | .amo, .i | .sc, .i => some (.rdu, .imAD)
  | .store, .s | .amo, .s | .sc, .s => some (.upg, .smA)
  | .store, .o | .amo, .o | .sc, .o => some (.upg, .omA)
  | .evict, .m => some (.vicd, .miA)
  | .evict, .o => some (.vicd, .miA)
  | .evict, .e => some (.vicc, .eiA)
  | .evict, .s => some (.vicc, .siA)
  | _, _ => none

/-- A coherent access of a core, or a part of one (R230, R237): a line in a transient state makes it wait. -/
def State.coherentAccess (s : State) (core : Nat) (off : Option Nat) (a : NodeAccess) : Gate :=
  let ag := s.agentId (core / 8)
  let line := a.addr / 128
  let st := s.ast ag line
  if s.dead.contains ag || !st.stable then .refused s
  else
    match nodeRequest a.kind st with
    | none => .go (if a.kind = .evict then s else s.coreOn ag line core off a)
    | some q => s.agentReq ag line q.1 q.2 (if a.kind = .evict then none else some (core, off, a))

/-- A load returns poison, whose value at a core is free; an SC fails; anything else is discarded (R25, R272, R302; log entry 14). -/
def State.strayAccess (s : State) (core : Nat) (off : Option Nat) (a : NodeAccess) : State :=
  if nodeReads a.kind then s.drawn.corePut core off a.size (Free.poisonLoad s.fresh)
  else if a.kind = .sc then s.coreValue core 1 else s

/-- A load of a device register: 8 bytes, or the named half of them, and what the read resets (R27, R30). -/
def State.regLoad (s : State) (core : Nat) (a : NodeAccess) : State :=
  let v := s.regRead (a.addr / 8 * 8)
  (s.regReadEffect (a.addr / 8 * 8)).coreValue core (if a.size = 8 then v else BitVec.ofNat 64 (wfld v (8 * (a.addr % 8)) 32))

/-- The 8 bytes that a 4-byte store makes of a register: the other half keeps its fields, of which DONE of CW_STATE, which a 1 clears, stays
(R30, log entry 43). -/
def State.regHalf (s : State) (addr : Nat) (v : W64) : W64 :=
  let o := addr / 8 * 8
  let old := if o % 2 ^ 32 = 0x600010 then s.regRead o &&& ~~~2#64 else s.regRead o
  BitVec.ofNat 64 (setFld old.toNat (8 * (addr % 8)) 32 v.toNat)

/-- A store to a device register that has no command of its own: 8 bytes, or a half of them; the operation of DBG_REQ lies in its lower half
(R30). -/
def State.regStore (s : State) (a : NodeAccess) : State :=
  if a.size = 8 then s.regWrite a.machine a.addr a.data
  else if a.addr % 2 ^ 32 = 0x910004 then s
  else s.regWrite a.machine (a.addr / 8 * 8) (s.regHalf a.addr a.data)

/-- Size and alignment that device registers take (Table 1.8). -/
def NodeAccess.regShape (a : Sys2Proof.NodeAccess) : Bool := (a.size == 4 || a.size == 8) && a.addr % a.size == 0

/-- An access that a gate answers at once (R25, R302, R314, R338). -/
def State.coreAnswer (s : State) (core : Nat) (off : Option Nat) (a : NodeAccess) (res : AccResult) : State :=
  match res with
  | .host => if nodeReads a.kind then s.accessFault core else s
  | _ => s.strayAccess core off a

/-- One part of an access that uses the caches, at a device physical address: done, or to wait. -/
def State.cachedPart (s : State) (core : Nat) (off : Option Nat) (a : NodeAccess) : Bool × State :=
  let take := fun (g : Gate) => match g with
    | .go t => (true, t)
    | .answer res t => (true, t.coreAnswer core off a res)
    | .refused t => (false, t)
  match s.region a.addr with
  | .near m | .capacity m =>
    if s.plat.lostF.contains m ∨ s.plat.lostF.contains (s.homeDie a.addr) then (true, s.strayAccess core off a)
    else take (s.coherentAccess core off a)
  | .hostMem => if s.hostFails then (true, s.coreAnswer core off a .host) else take (s.coherentAccess core off a)
  | .slot _ => take (s.coherentAccess core off a)
  | .window _ =>
    (match NodeKind.uncached a.kind with
     | some k => (true, s.coreAccess core noSpace a.addr a.addr k off a)
     | none => (true, s))
  | .regs | .unmapped => (true, s)

/-- An uncached access of the core is out: its next begins when it has completed (DESIGN CHOICE, log entry 21). -/
def State.coreBusy (s : State) (core : Nat) : Bool := s.reqs.any (fun e => e.2.who == .aperture core)

/-- The parts of an access in turn, until one must wait. -/
def State.partsRun (s : State) (core : Nat) (ps : List (Option Nat × NodeAccess)) : Bool × State :=
  ps.foldl (fun (acc : Bool × State) p => if acc.1 then acc.2.cachedPart core p.1 p.2 else acc) (true, s)

/-- What a refusal leaves: who asks for tokens, and the counts. -/
def State.refusedAs (s t : State) : State := { s with asks := t.asks, colSat := t.colSat, tally := t.tally }

/-- A memory access through the cluster's caches, or to another package: both parts of one that crosses a line are made together, or it waits. -/
def State.coreMemory (s : State) (core : Nat) (a : NodeAccess) : State :=
  let ps := NodeAccess.parts a
  let s0 := if 1 < ps.length ∧ nodeReads a.kind then s.coreValue core 0 else s
  let r := s0.partsRun core ps
  if r.1 then r.2.afterAq core a else s.refusedAs r.2

/-- The access is one that Table 1.8 answers with an access fault: outside the two parts of the physical space, unmapped, a register access
of another size, alignment or kind, LR or SC to a Ridge window. -/
def State.faultsPart (s : State) (a : NodeAccess) : Bool :=
  if 2 ^ 48 ≤ a.addr then true
  else
    match s.region a.addr with
    | .unmapped => true
    | .regs => !(NodeAccess.regShape a) || a.kind == .amo || a.kind == .lr || a.kind == .sc
    | .window _ => a.kind == .lr || a.kind == .sc
    | _ => false

/-- Some part of the access faults; an aperture access, an eviction and a FENCE do not. -/
def State.faultsAt (s : State) (a : NodeAccess) : Bool :=
  if a.addr / 2 ^ 52 = 8 || a.kind == .evict || a.kind == .fence then false
  else if 2 ^ 48 ≤ a.addr then true
  else match s.region a.addr with
    | .regs => s.faultsPart a
    | _ => (NodeAccess.parts a).any (fun p => s.faultsPart p.2 || s.region p.2.addr == .regs)

/-- NODE_CORE_ACCESS: memory through the cluster's caches, a Ridge window uncached, a FENCE, a device register by load, or by store where it has
no command of its own (R29, R30, R196, R230). -/
def execNodeCoreAccess (core : Nat) (a : NodeAccess) (s : State) : Host.Outcome State Fault Refusal :=
  when_ (s.coreRuns core) (fun s =>
    if a.kind = .fence then s.coreFence core a.sub
    else if 2 ^ 48 ≤ a.addr ∨ s.faultsAt a ∨ !(s.coreMay core a) then s
    else
      match s.region a.addr with
      | .regs =>
        (match a.kind with
         | .load | .ifetch => s.regLoad core a
         | .store => s.regStore a
         | _ => s)
      | .window _ => if s.coreBusy core then s else s.coreMemory core a
      | _ => s.coreMemory core a) s

/-- An aperture miss makes or joins its page's pending entry, without a waiter; a full table refuses and counts (R31, R257, R262). -/
def State.aperturePend (s : State) (va : Nat) (need : BitVec 3) : State :=
  let x := s.xlt
  let page := fld va 25 27
  let put := fun (k : Nat) (e : PEntry) => ({ s with xlt := { x with pend := alPut x.pend k e } } : State)
  match x.pend.find? (fun e => e.2.space == 0 && e.2.page == page) with
  | some (k, e) => put k { e with need := e.need ||| need, aperture := e.aperture ||| need, src := e.src ||| 16#5 }
  | none =>
    match alFree x.pend 512 with
    | some k => put k { st := .walk, space := 0, page := page, need := need, aperture := need, waiters := [], src := 16#5, cause := 0,
                        level := 0, entry := 0, restart := false }
    | none => s.count (svc 3)

/-- What an aperture access meets on its way to memory: the addresses of its parts, or a fault of a cause with the address it names. -/
inductive ApOut where
  | hits (l : List Nat) (s : State)
  | fault (va cause : Nat) (s : State)

/-- Translates the parts of an aperture access in turn; the first that misses, is refused or has no memory decides (R31). -/
def State.apertureXlat (s : State) (need : Nat) (vas : List Nat) : ApOut :=
  vas.foldl (fun (acc : ApOut) va =>
    match acc with
    | .fault v c t => .fault v c t
    | .hits l t =>
      let lk := t.look none 0 va need
      match lk.1 with
      | .refused => .fault va 2 lk.2
      | .miss => .fault va 1 (lk.2.aperturePend va (BitVec.ofNat 3 need))
      | .hit pa =>
        (match lk.2.region pa with
         | .regs | .unmapped => .fault va 4 lk.2
         | _ => .hits (l ++ [pa]) lk.2)) (.hits [] s)

/-- APERTURE_ACCESS: translated in space 0; a miss, a refusal, a closed aperture or an address without memory faults at once, LR and SC
always (R29–R31). -/
def execApertureAccess (core : Nat) (a : NodeAccess) (s : State) : Host.Outcome State Fault Refusal :=
  when_ (s.coreRuns core && decide (a.addr / 2 ^ 52 = 8) && a.kind != .evict && a.kind != .fence && s.coreMay core a && !(s.coreBusy core))
    (fun s =>
      let va := a.addr % 2 ^ 52
      if !(alGet {} s.cores core).apEn then s.apertureFault core va 3
      else
        match NodeKind.uncached a.kind with
        | none => s.accessFault core
        | some k =>
          let ps := NodeAccess.parts a
          match s.apertureXlat k.need (ps.map (fun p => p.2.addr % 2 ^ 52)) with
          | .fault v c t => t.apertureFault core v c
          | .hits l t =>
            let t0 := if 1 < ps.length ∧ nodeReads a.kind then t.coreValue core 0 else t
            ((ps.zip l).foldl (fun (u : State) p => u.coreAccess core 0 (p.1.2.addr % 2 ^ 52) p.2 k p.1.1 p.1.2) t0).afterAq core a) s

/-- DEVICE_REGISTER_ACCESS_FAULT (R29, R30). -/
def execDeviceRegisterAccessFault (core : Nat) (a : NodeAccess) (s : State) : Host.Outcome State Fault Refusal :=
  when_ (s.coreRuns core && s.faultsAt a) (fun s => s.accessFault core) s

end Sys2Proof.Machine
end

