-- ==== Sys2Proof/Machine/ResumeCmds.lean ====
section
/-! DEFINITION. The end of RESUME (R401–R403, R435; Table 16.9). -/

namespace Sys2Proof.Machine

/-- An access that the host-line cache has accepted or is to take. -/
def State.hostBound (s : State) (r : Req) : Bool := s.region r.pa == .hostMem

/-- Suspended activities go on; one accepted in Halt begins (R403, R435). -/
def State.actsResume (s : State) : State :=
  (s.acts.filter (fun a => a.state == 2)).foldl (fun (t : State) a => if a.begun then t.setAct { a with state := 0 } else t.actBegin a) s

/-- Hints that were pending and whose T has passed are dropped (R403). -/
def State.lateHints (s : State) : State :=
  { s with fb := s.fb.map (fun e => (e.1, { e.2 with hints := e.2.hints.filter (fun h => h.inForce || decide (s.now ≤ h.t)) })) }

/-- The links retrain, and what their replay buffers held is failed over (R314, R401). -/
def State.ridgeResume (s : State) : State :=
  let held := (List.range 64).flatMap (fun l => (s.link l).replay.map (fun e => (l, e)))
  held.foldl (fun (t : State) x => t.failoverOne x.1 x.2) { s with links := s.links.map (fun e => (e.1, e.2.fresh)) }

/-- Leaving Halt: held host requests fail, held Ridge requests fail over, a waiting PACKAGE_PARK ends, activities go on, and CODE 0x0010 is
logged (R401, R403, R435). -/
def State.leaveHalt (s : State) : State :=
  let s1 := s.answerAll (fun r => s.hostBound r) .host
  (s1.ridgeResume.endPark.actsResume).logEv 0x0010 255 0 [s.power.lasth]

/-- RESUME_COMPLETE: the tile islands run at OP0, the package is in Run, streams start records, and RESUME is answered (R399, R402,
Table 16.9). From Halt it goes to Run as well. -/
def execResumeComplete (s : State) : Host.Outcome State Fault Refusal :=
  when_ (s.up && s.power.resuming.isSome) (fun s =>
    match s.power.resuming with
    | none => s
    | some p =>
      let halted := decide (s.power.pstate = 3)
      let s1 : State := { s with power := { s.power with pstate := 0, resuming := none } }
      let s2 := (List.range 4).foldl (fun (t : State) n => t.setOp n 0) s1
      (((if halted then s2.leaveHalt else s2).lateHints).finish p 0 [])) s

end Sys2Proof.Machine
end

