-- ==== Sys2Proof/Machine/TimeCmds.lean ====
section
/-! DEFINITION. Beacons, link delays and the telemetry ring (R336, R426–R430; Tables 18.3, 18.4). -/

namespace Sys2Proof.Machine

/-- The packages of TIME_MASTER in order (R336, R365). -/
def State.timeMasters (s : State) : List Nat := s.cfg.timeMaster.getD [s.myAddr]

/-- The package's current master. -/
def State.masterNow (s : State) : Nat := nth s.myAddr s.timeMasters s.time.master

/-- BEACON_SEND: a package whose time descends from a master sends its domain time at departure on TIM (R336, R428). The message carries the
master as its source and the time as its number. -/
def execBeaconSend (link : Nat) (s : State) : Host.Outcome State Fault Refusal :=
  when_ (s.serves && decide (link < 64) && (s.link link).up && s.time.sync != 0) (fun s =>
    ({ s with time := { s.time with sent := alMod 0 s.time.sent link (· + 1) } }).ridgeSend link
      { dest := (s.link link).peer, src := s.masterNow, vc := 1, hops := 6, req := s.now, acc := none, ans := none }) s

/-- The link on which beacons of a master reach this package: the first usable alternate of its route (R336). -/
def State.parentLink (s : State) (m : Nat) : Option Nat := s.egress (m / 1024) none

/-- Keeps an integer within ±b. -/
def within (b v : Int) : Int := max (-b) (min b v)

/-- Steering by an offset in ns (R429): up to 100 µs the rate moves within ±1,000 ppm; beyond it a step forward, counted, or a slew back. -/
def State.steer (s : State) (e : Int) : State :=
  if 100000 < e then ({ s with time := { s.time with fine := s.time.fine + e.toNat * 100000, slew := 0 } }).count 5
  else if e < -100000 then { s with time := { s.time with slew := (-e).toNat * 100000 } }
  else { s with time := { s.time with rate := within 1000 (Free.steer e s.time.rate), slew := 0 } }

/-- The synchronisation state after a beacon at offset e (Table 18.4). -/
def Time.sync1 (t : Time) (e : Int) : Time :=
  let near_ := decide (e.natAbs ≤ 200)
  let far_ := decide (500 < e.natAbs)
  if t.sync = 3 then
    if far_ then (if 3 ≤ t.bad then { t with sync := 2, good := 0, bad := 0 } else { t with bad := t.bad + 1 }) else { t with bad := 0 }
  else if near_ then (if 15 ≤ t.good then { t with sync := 3, good := 0, bad := 0 } else { t with sync := 2, good := t.good + 1 })
  else { t with sync := 2, good := 0 }

/-- A beacon of the current master through the parent link. -/
def State.takeBeacon (s : State) (b : Beacon) : State :=
  let e : Int := ((b.time + alGet 0 s.time.delay b.link : Nat) : Int) - (s.now : Int)
  let s1 := s.steer e
  ({ s1 with time := { s1.time.sync1 e with heard := s1.now } }).level 7 e

/-- BEACON_RECEIVE: a beacon that descends from the current master, or from one named before it, steers; the second also ends MASTER
(R428, R429). -/
def execBeaconReceive (b : Beacon) (s : State) : Host.Outcome State Fault Refusal :=
  when_ (s.serves && decide (b.link < 64) && (s.link b.link).up && s.parentLink b.master == some b.link) (fun s =>
    match indexWhere (· == b.master) s.timeMasters with
    | none => s
    | some i =>
      if i < s.time.master then
        ({ s with time := { s.time with master := i, sync := 2, good := 0, bad := 0 } }).takeBeacon b
      else if i = s.time.master ∧ s.time.sync ≠ 1 then s.takeBeacon b
      else s) s

/-- DELAY_EXCHANGE: the link's delay as the two ends' stamps give it (R336). -/
def execDelayExchange (link delay : Nat) (s : State) : Host.Outcome State Fault Refusal :=
  when_ (s.serves && decide (link < 64) && (s.link link).up) (fun s =>
    { s with time := { s.time with delay := alPut s.time.delay link delay } }) s

/-- The first package named after the current master that this one can reach, or is (R336, R428). -/
def State.nextMaster (s : State) : Option Nat :=
  (List.range s.timeMasters.length).find? (fun i =>
    decide (s.time.master < i) && (nth 0 s.timeMasters i == s.myAddr || (s.parentLink (nth 0 s.timeMasters i)).isSome))

/-- BEACON_LOSS: no beacon for 1 ms of domain time. The next reachable backup becomes the current master; this package itself as MASTER, without a step;
otherwise one that was synchronised runs on in HOLDOVER (R336, R428, Table 18.4). -/
def execBeaconLoss (s : State) : Host.Outcome State Fault Refusal :=
  when_ (s.serves && s.time.sync != 1 && decide (s.time.heard + 1000000 ≤ s.now)) (fun s =>
    let t := { s.time with heard := s.now, good := 0, bad := 0, master := s.nextMaster.getD s.time.master }
    let mine := s.nextMaster.isSome && nth 0 s.timeMasters t.master == s.myAddr
    { s with time := { t with sync := (if mine then 1 else if t.sync = 0 then 0 else 4) } }) s

/-- Increment of a counter since the last telemetry record. -/
def Tally.since (t : Tally) (k : Nat) : Nat := (alGet 0 t.live k).toNat - (alGet 0 t.last k).toNat

/-- Sum of increments over the four dies. -/
def Tally.sinceDies (t : Tally) (k : Nat → Nat) : Nat := ((List.range 4).map (fun n => t.since (k n))).foldl (· + ·) 0

/-- A 32-bit increment, saturating. -/
def inc4 (n : Nat) : List Byte := leBytes 4 (min (2 ^ 32 - 1) n)

/-- Highest temperature of the period at a byte of the record (Table 18.3), the present reading included. -/
def Tally.high (t : Tally) (byte now : Nat) : List Byte := leBytes 1 (min 255 (max (alGet 0 t.tmax byte) now))

/-- The 256 bytes of a telemetry record (Table 18.3). -/
def State.telemetryRecord (s : State) : List Byte :=
  let t := s.tally
  let p := s.power
  let avg := fun (x : Nat) => leBytes 2 (x / max 1 t.pcnt)
  let dies := List.range 4
  leBytes 8 s.now ++ leBytes 4 ((t.seq + 1) % 2 ^ 32) ++ leBytes 2 (min 65535 t.skip)
    ++ leBytes 1 (p.pstate + b2n (t.episodeSeen || p.warn) * 8 + b2n p.snet * 16) ++ leBytes 1 0
    ++ avg t.psum ++ leBytes 2 p.limit ++ dies.flatMap (fun n => avg (alGet 0 t.dsum n))
    ++ dies.flatMap (fun n =>
      let d := s.die n
      leBytes 1 (d.op + s.ceiling n * 8 + b2n (!d.hints.isEmpty) * 64 + b2n (d.gated != 0 || t.since (dieAct n 18) != 0) * 128))
    ++ dies.flatMap (fun n => t.high (32 + n) (s.die n).tj)
    ++ (List.range 12).flatMap (fun k => t.high (36 + k) (alGet {} s.hbm k : Stack).temp)
    ++ t.high 48 p.hubT ++ leBytes 15 0
    ++ dies.flatMap (fun n =>
      leBytes 8 (alGet 0 t.sigs n).toNat ++ inc4 (t.since (dieAct n 0)) ++ inc4 (t.since (dieAct n 1)) ++ inc4 (t.since (dieAct n 2))
        ++ inc4 (t.since (dieAct n 15)) ++ inc4 (t.since (dieAct n 12)) ++ inc4 (t.since (dieAct n 13)))
    ++ leBytes 8 (t.sinceDies (fun n => dieAct n 8)) ++ leBytes 8 (t.sinceDies (fun n => dieAct n 9)) ++ leBytes 8 (t.sinceDies (fun n => dieAct n 11))
    ++ inc4 t.realCe ++ inc4 t.realUe
    ++ inc4 (((List.range 64).map (fun l => t.since (1536 + 4 * l))).foldl (· + ·) 0) ++ inc4 (t.since (svc 3)) ++ leBytes 24 0

/-- What a period's end clears. -/
def Tally.newPeriod (t : Tally) : Tally :=
  { t with seq := (t.seq + 1) % 2 ^ 32, psum := 0, pcnt := 0, dsum := [], episodeSeen := false, tmax := [] }

/-- A period that writes no record (R426). -/
def State.skipPeriod (s : State) : State :=
  ({ s with tally := { s.tally.newPeriod with skip := satAdd 65535 s.tally.skip 1 } }).count (svc 15)

/-- The record has landed: TAIL advances, and source 69 fires when the difference reaches the threshold (R426). -/
def State.telemetryLanded (s : State) (used thr : Nat) : State :=
  let fire := s.tally.notify && decide (thr ≤ used + 1)
  let s1 : State := { s with tally := { s.tally with tail := (s.tally.tail + 1) % 2 ^ 32, notify := s.tally.notify && !fire } }
  if fire then s1.raise 69 else s1

/-- TELEMETRY_PERIOD_END: the period's record goes to the ring, visible before TAIL advances, and source 69 fires at the threshold; a full
ring, or Halt, skips the period (R426). While the record is on its way the command takes it up again (log entry 57). -/
def execTelemetryPeriodEnd (s : State) : Host.Outcome State Fault Refusal :=
  when_ (s.up && decide (2 ≤ s.plat.stage)) (fun s =>
    match s.cfg.telemetry with
    | none => s
    | some (base, log2, _, thr) =>
      let used := (s.tally.tail + 2 ^ 32 - s.tally.head) % 2 ^ 32
      if s.power.pstate = 3 ∨ 2 ^ log2 ≤ used then s.skipPeriod
      else
        let s1 : State := if s.reqs.any (fun e => e.2.who == .unit .hub 2) then s
          else { s with tally := { s.tally.newPeriod with skip := 0, last := s.tally.live, realCe := 0, realUe := 0 } }
        let w := s1.ringWrite .hub 2 (base + s.tally.tail % 2 ^ log2 * 256) s.telemetryRecord
        if w.1 then w.2.telemetryLanded used thr else w.2) s

end Sys2Proof.Machine
end

