-- ==== Sys2Proof/Machine/Dispatch.lean ====
section
/-! DEFINITION. One arm per command: its meaning, or its rejection by name. -/

namespace Sys2Proof.Machine

/-- The effect of a command on everything but the queue. -/
def exec (i : Instr) (s : State) : Host.Outcome State Fault Refusal :=
  match i with
  | .pwrGoodAssert straps => Sys2Proof.Machine.execPwrGoodAssert straps s
  | .pwrGoodLoss ns => Sys2Proof.Machine.execPwrGoodLoss ns s
  | .vddCairnLoss => Sys2Proof.Machine.execVddCairnLoss s
  | .refclkCoreLoss => Sys2Proof.Machine.execRefclkCoreLoss s
  | .refclkRidgeLoss => Sys2Proof.Machine.execRefclkRidgeLoss s
  | .refclkPcieLoss => Sys2Proof.Machine.execRefclkPcieLoss s
  | .portLinkBringup offers => Sys2Proof.Machine.execPortLinkBringup offers s
  | .portLinkRetrain ok => Sys2Proof.Machine.execPortLinkRetrain ok s
  | .perstNAssert => Sys2Proof.Machine.execPerstNAssert s
  | .perstNDeassert => Sys2Proof.Machine.execPerstNDeassert s
  | .functionLevelReset => Sys2Proof.Machine.execFunctionLevelReset s
  | .cacheEnableClear => Sys2Proof.Machine.execCacheEnableClear s
  | .cacheEnableSet => Sys2Proof.Machine.execCacheEnableSet s
  | .imageBegin p k => Sys2Proof.Machine.execImageBegin p k s
  | .imageData p k => Sys2Proof.Machine.execImageData p k s
  | .imageEnd p k => Sys2Proof.Machine.execImageEnd p k s
  | .memoryBringupEnd outcomes => Sys2Proof.Machine.execMemoryBringupEnd outcomes s
  | .configWrite p k => Sys2Proof.Machine.execConfigWrite p k s
  | .configRead p k => Sys2Proof.Machine.execConfigRead p k s
  | .configCommit p k badWays => Sys2Proof.Machine.execConfigCommit p k badWays s
  | .safetyProfile p k => Sys2Proof.Machine.execSafetyProfile p k s
  | .safetyArm p k => Sys2Proof.Machine.execSafetyArm p k s
  | .queryIdentity p k => Sys2Proof.Machine.execQueryIdentity p k s
  | .attest p k => Sys2Proof.Machine.execAttest p k s
  | .timeSet p k => Sys2Proof.Machine.execTimeSet p k s
  | .timeRead p k => Sys2Proof.Machine.execTimeRead p k s
  | .telemetryRead p k => Sys2Proof.Machine.execTelemetryRead p k s
  | .eventLogRead p k => Sys2Proof.Machine.execEventLogRead p k s
  | .maintStatus p k => Sys2Proof.Machine.execMaintStatus p k s
  | .maintAbort p k => Sys2Proof.Machine.execMaintAbort p k s
  | .scrub q => Sys2Proof.Machine.execScrub q s
  | .hbmRetrain q => Sys2Proof.Machine.execHbmRetrain q s
  | .lpRetrain q => Sys2Proof.Machine.execLpRetrain q s
  | .ridgeRetrain q => Sys2Proof.Machine.execRidgeRetrain q s
  | .chanEvac q => Sys2Proof.Machine.execChanEvac q s
  | .chanEvacBlockWritten die group => Sys2Proof.Machine.execChanEvacBlockWritten die group s
  | .wayTest q => Sys2Proof.Machine.execWayTest q s
  | .tileRetire q => Sys2Proof.Machine.execTileRetire q s
  | .tileRetireDeadline die tile => Sys2Proof.Machine.execTileRetireDeadline die tile s
  | .sensorCal q => Sys2Proof.Machine.execSensorCal q s
  | .dieReset q => Sys2Proof.Machine.execDieReset q s
  | .dieResetDrainEnd die => Sys2Proof.Machine.execDieResetDrainEnd die s
  | .activityEnd num passed result => Sys2Proof.Machine.execActivityEnd num passed result s
  | .waitingActivityStart num => Sys2Proof.Machine.execWaitingActivityStart num s
  | .packagePark p k => Sys2Proof.Machine.execPackagePark p k s
  | .parkEntry => Sys2Proof.Machine.execParkEntry s
  | .parkTimeout => Sys2Proof.Machine.execParkTimeout s
  | .resume p k => Sys2Proof.Machine.execResume p k s
  | .resumeComplete => Sys2Proof.Machine.execResumeComplete s
  | .streamOpen p k => Sys2Proof.Machine.execStreamOpen p k s
  | .streamClose p k => Sys2Proof.Machine.execStreamClose p k s
  | .streamCloseDrained n => Sys2Proof.Machine.execStreamCloseDrained n s
  | .streamMigrate p k => Sys2Proof.Machine.execStreamMigrate p k s
  | .migrateDrained n => Sys2Proof.Machine.execMigrateDrained n s
  | .streamDrainTimeout n => Sys2Proof.Machine.execStreamDrainTimeout n s
  | .debugUnlockChallenge p k rand => Sys2Proof.Machine.execDebugUnlockChallenge p k rand s
  | .debugUnlockKey p k => Sys2Proof.Machine.execDebugUnlockKey p k s
  | .debugUnlockSignature p k => Sys2Proof.Machine.execDebugUnlockSignature p k s
  | .challengeExpiry => Sys2Proof.Machine.execChallengeExpiry s
  | .debugLock p k => Sys2Proof.Machine.execDebugLock p k s
  | .powerLimitSet p k => Sys2Proof.Machine.execPowerLimitSet p k s
  | .portBMessage opcode vendorOk k => Sys2Proof.Machine.execPortBMessage opcode vendorOk k s
  | .registerWrite by_ addr v => Sys2Proof.Machine.execRegisterWrite by_ addr v s
  | .routeEntryWrite n v => Sys2Proof.Machine.execRouteEntryWrite n v s
  | .interruptEvent src => Sys2Proof.Machine.execInterruptEvent src s
  | .apertureAccess core a => Sys2Proof.Machine.execApertureAccess core a s
  | .deviceRegisterAccessFault core a => Sys2Proof.Machine.execDeviceRegisterAccessFault core a s
  | .trapAnswerReplay die trapId => Sys2Proof.Machine.execTrapAnswerReplay die trapId s
  | .trapAnswerSkip die trapId => Sys2Proof.Machine.execTrapAnswerSkip die trapId s
  | .trapAnswerKill die trapId => Sys2Proof.Machine.execTrapAnswerKill die trapId s
  | .trapHeadWrite die v => Sys2Proof.Machine.execTrapHeadWrite die v s
  | .trapRecordWrite die => Sys2Proof.Machine.execTrapRecordWrite die s
  | .xltReplyWalk pid => Sys2Proof.Machine.execXltReplyWalk pid s
  | .xltReplyError pid code => Sys2Proof.Machine.execXltReplyError pid code s
  | .xltRingHeadWrite v => Sys2Proof.Machine.execXltRingHeadWrite v s
  | .xltInvalPage space page => Sys2Proof.Machine.execXltInvalPage space page s
  | .xltInvalSpace space => Sys2Proof.Machine.execXltInvalSpace space s
  | .xltInvalAll => Sys2Proof.Machine.execXltInvalAll s
  | .invalidationComplete => Sys2Proof.Machine.execInvalidationComplete s
  | .streamEheadWrite n v => Sys2Proof.Machine.execStreamEheadWrite n v s
  | .streamCont n => Sys2Proof.Machine.execStreamCont n s
  | .talTelHeadWrite v => Sys2Proof.Machine.execTalTelHeadWrite v s
  | .memL2WayRead die k => Sys2Proof.Machine.execMemL2WayRead die k s
  | .memStackTempRead die => Sys2Proof.Machine.execMemStackTempRead die s
  | .colSatRead die l => Sys2Proof.Machine.execColSatRead die l s
  | .dbgRead q => Sys2Proof.Machine.execDbgRead q s
  | .dbgWrite q => Sys2Proof.Machine.execDbgWrite q s
  | .dbgHalt q => Sys2Proof.Machine.execDbgHalt q s
  | .dbgRun q => Sys2Proof.Machine.execDbgRun q s
  | .dbgStep q => Sys2Proof.Machine.execDbgStep q s
  | .bkset q => Sys2Proof.Machine.execBkset q s
  | .bkclr q => Sys2Proof.Machine.execBkclr q s
  | .inject q => Sys2Proof.Machine.execInject q s
  | .sample q => Sys2Proof.Machine.execSample q s
  | .extest => Sys2Proof.Machine.execExtest s
  | .idcode => Sys2Proof.Machine.execIdcode s
  | .samplePreload => Sys2Proof.Machine.execSamplePreload s
  | .clamp => Sys2Proof.Machine.execClamp s
  | .highz => Sys2Proof.Machine.execHighz s
  | .bypass code => Sys2Proof.Machine.execBypass code s
  | .launch n => Sys2Proof.Machine.execLaunch n s
  | .standPlace launch die tile => Sys2Proof.Machine.execStandPlace launch die tile s
  | .standEnd die tile slot => Sys2Proof.Machine.execStandEnd die tile slot s
  | .copy n => Sys2Proof.Machine.execCopy n s
  | .signal n => Sys2Proof.Machine.execSignal n s
  | .wait n => Sys2Proof.Machine.execWait n s
  | .waitTimeout n => Sys2Proof.Machine.execWaitTimeout n s
  | .phaseHint n => Sys2Proof.Machine.execPhaseHint n s
  | .opRequest n => Sys2Proof.Machine.execOpRequest n s
  | .flushRange n => Sys2Proof.Machine.execFlushRange n s
  | .collective n => Sys2Proof.Machine.execCollective n s
  | .epoch n => Sys2Proof.Machine.execEpoch n s
  | .link n => Sys2Proof.Machine.execLink n s
  | .empty n => Sys2Proof.Machine.execEmpty n s
  | .streamWake n => Sys2Proof.Machine.execStreamWake n s
  | .recordComplete n addr => Sys2Proof.Machine.execRecordComplete n addr s
  | .mov c w => Sys2Proof.Machine.execMov c w s
  | .sel c w => Sys2Proof.Machine.execSel c w s
  | .sread c w => Sys2Proof.Machine.execSread c w s
  | .iadd c w => Sys2Proof.Machine.execIadd c w s
  | .isub c w => Sys2Proof.Machine.execIsub c w s
  | .imul c w => Sys2Proof.Machine.execImul c w s
  | .imulhi c w => Sys2Proof.Machine.execImulhi c w s
  | .imulhu c w => Sys2Proof.Machine.execImulhu c w s
  | .imad c w => Sys2Proof.Machine.execImad c w s
  | .imin c w => Sys2Proof.Machine.execImin c w s
  | .imax c w => Sys2Proof.Machine.execImax c w s
  | .umin c w => Sys2Proof.Machine.execUmin c w s
  | .umax c w => Sys2Proof.Machine.execUmax c w s
  | .and c w => Sys2Proof.Machine.execAnd c w s
  | .or c w => Sys2Proof.Machine.execOr c w s
  | .xor c w => Sys2Proof.Machine.execXor c w s
  | .not c w => Sys2Proof.Machine.execNot c w s
  | .shl c w => Sys2Proof.Machine.execShl c w s
  | .shr c w => Sys2Proof.Machine.execShr c w s
  | .sar c w => Sys2Proof.Machine.execSar c w s
  | .popc c w => Sys2Proof.Machine.execPopc c w s
  | .clz c w => Sys2Proof.Machine.execClz c w s
  | .bfx c w => Sys2Proof.Machine.execBfx c w s
  | .isetp c w => Sys2Proof.Machine.execIsetp c w s
  | .fadd c w => Sys2Proof.Machine.execFadd c w s
  | .fsub c w => Sys2Proof.Machine.execFsub c w s
  | .fmul c w => Sys2Proof.Machine.execFmul c w s
  | .ffma c w => Sys2Proof.Machine.execFfma c w s
  | .fmin c w => Sys2Proof.Machine.execFmin c w s
  | .fmax c w => Sys2Proof.Machine.execFmax c w s
  | .fsetp c w => Sys2Proof.Machine.execFsetp c w s
  | .cvt c w => Sys2Proof.Machine.execCvt c w s
  | .ld c w lost => Sys2Proof.Machine.execLd c w lost s
  | .st c w => Sys2Proof.Machine.execSt c w s
  | .bcopy c w => Sys2Proof.Machine.execBcopy c w s
  | .nop c w => Sys2Proof.Machine.execNop c w s
  | .bra c w => Sys2Proof.Machine.execBra c w s
  | .brx c w => Sys2Proof.Machine.execBrx c w s
  | .call c w => Sys2Proof.Machine.execCall c w s
  | .ret c w => Sys2Proof.Machine.execRet c w s
  | .exit c w => Sys2Proof.Machine.execExit c w s
  | .trap c w => Sys2Proof.Machine.execTrap c w s
  | .brk c w => Sys2Proof.Machine.execBrk c w s
  | .bar c w => Sys2Proof.Machine.execBar c w s
  | .fenceAcq c w => Sys2Proof.Machine.execFenceAcq c w s
  | .fenceRel c w => Sys2Proof.Machine.execFenceRel c w s
  | .fenceAr c w => Sys2Proof.Machine.execFenceAr c w s
  | .atom c w => Sys2Proof.Machine.execAtom c w s
  | .red c w => Sys2Proof.Machine.execRed c w s
  | .redl c w => Sys2Proof.Machine.execRedl c w s
  | .shfl c w => Sys2Proof.Machine.execShfl c w s
  | .vote c w => Sys2Proof.Machine.execVote c w s
  | .bwait c w => Sys2Proof.Machine.execBwait c w s
  | .waitf c w => Sys2Proof.Machine.execWaitf c w s
  | .pause c w => Sys2Proof.Machine.execPause c w s
  | .waitConditionMet c => Sys2Proof.Machine.execWaitConditionMet c s
  | .mma c w => Sys2Proof.Machine.execMma c w s
  | .mmap c w => Sys2Proof.Machine.execMmap c w s
  | .accld c w => Sys2Proof.Machine.execAccld c w s
  | .accst c w => Sys2Proof.Machine.execAccst c w s
  | .mwait c w => Sys2Proof.Machine.execMwait c w s
  | .matrixStart die tile transfer => Sys2Proof.Machine.execMatrixStart die tile transfer s
  | .matrixComplete die tile transfer => Sys2Proof.Machine.execMatrixComplete die tile transfer s
  | .eprun c w => Sys2Proof.Machine.execEprun c w s
  | .vget c w => Sys2Proof.Machine.execVget c w s
  | .vput c w => Sys2Proof.Machine.execVput c w s
  | .vflags c w => Sys2Proof.Machine.execVflags c w s
  | .vwait c w => Sys2Proof.Machine.execVwait c w s
  | .elementStart die tile => Sys2Proof.Machine.execElementStart die tile s
  | .elementComplete die tile bad => Sys2Proof.Machine.execElementComplete die tile bad s
  | .buckerTurn b count => Sys2Proof.Machine.execBuckerTurn b count s
  | .heavyBuckerTake die b n addr => Sys2Proof.Machine.execHeavyBuckerTake die b n addr s
  | .indexListRead b => Sys2Proof.Machine.execIndexListRead b s
  | .flaggedFinalWrite b serial => Sys2Proof.Machine.execFlaggedFinalWrite b serial s
  | .descriptorComplete b serial => Sys2Proof.Machine.execDescriptorComplete b serial s
  | .copyDataPathError b serial cause addr => Sys2Proof.Machine.execCopyDataPathError b serial cause addr s
  | .homeAccess id errs => Sys2Proof.Machine.execHomeAccess id errs s
  | .l2FillReturn line crc => Sys2Proof.Machine.execL2FillReturn line crc s
  | .l1FillReturn id => Sys2Proof.Machine.execL1FillReturn id s
  | .evictionWriteIssue line crc => Sys2Proof.Machine.execEvictionWriteIssue line crc s
  | .evictionWriteAck line => Sys2Proof.Machine.execEvictionWriteAck line s
  | .cleanVictimOffer cluster line data => Sys2Proof.Machine.execCleanVictimOffer cluster line data s
  | .wayDisable die k way => Sys2Proof.Machine.execWayDisable die k way s
  | .hourBucketAdvance => Sys2Proof.Machine.execHourBucketAdvance s
  | .nodeCoreAccess core a => Sys2Proof.Machine.execNodeCoreAccess core a s
  | .rds m errs => Sys2Proof.Machine.execRds m errs s
  | .rdw m errs => Sys2Proof.Machine.execRdw m errs s
  | .rdu m errs => Sys2Proof.Machine.execRdu m errs s
  | .upg m errs => Sys2Proof.Machine.execUpg m errs s
  | .vicd m => Sys2Proof.Machine.execVicd m s
  | .vicc m => Sys2Proof.Machine.execVicc m s
  | .rdc id => Sys2Proof.Machine.execRdc id s
  | .wrReq id => Sys2Proof.Machine.execWrReq id s
  | .atReq id => Sys2Proof.Machine.execAtReq id s
  | .fwds m => Sys2Proof.Machine.execFwds m s
  | .fwdu m => Sys2Proof.Machine.execFwdu m s
  | .inv m => Sys2Proof.Machine.execInv m s
  | .cur m => Sys2Proof.Machine.execCur m s
  | .rcl m => Sys2Proof.Machine.execRcl m s
  | .dataReceive m => Sys2Proof.Machine.execDataReceive m s
  | .cmp m => Sys2Proof.Machine.execCmp m s
  | .invack m => Sys2Proof.Machine.execInvack m s
  | .vcmp m => Sys2Proof.Machine.execVcmp m s
  | .fwddone m => Sys2Proof.Machine.execFwddone m s
  | .wbd m => Sys2Proof.Machine.execWbd m s
  | .rspi m => Sys2Proof.Machine.execRspi m s
  | .cack m => Sys2Proof.Machine.execCack m s
  | .clusterHeartbeatTimeout k => Sys2Proof.Machine.execClusterHeartbeatTimeout k s
  | .packageHeartbeatTimeout slot => Sys2Proof.Machine.execPackageHeartbeatTimeout slot s
  | .clusterReset k => Sys2Proof.Machine.execClusterReset k s
  | .deadNotice agent dst => Sys2Proof.Machine.execDeadNotice agent dst s
  | .reclamationComplete agent => Sys2Proof.Machine.execReclamationComplete agent s
  | .snpinv half => Sys2Proof.Machine.execSnpinv half s
  | .snpdata half => Sys2Proof.Machine.execSnpdata half s
  | .snpcur half => Sys2Proof.Machine.execSnpcur half s
  | .goReceive half g => Sys2Proof.Machine.execGoReceive half g s
  | .hostDataReceive half data poisoned => Sys2Proof.Machine.execHostDataReceive half data poisoned s
  | .hostLineEvict line => Sys2Proof.Machine.execHostLineEvict line s
  | .translationMiss id => Sys2Proof.Machine.execTranslationMiss id s
  | .walkComplete index => Sys2Proof.Machine.execWalkComplete index s
  | .requestRecordWrite index => Sys2Proof.Machine.execRequestRecordWrite index s
  | .fillComplete index => Sys2Proof.Machine.execFillComplete index s
  | .tokenGrant src l count => Sys2Proof.Machine.execTokenGrant src l count s
  | .tokenIdleReturn src l count => Sys2Proof.Machine.execTokenIdleReturn src l count s
  | .tokenReturn id l => Sys2Proof.Machine.execTokenReturn id l s
  | .retryBackoffExpiry id => Sys2Proof.Machine.execRetryBackoffExpiry id s
  | .colModuleRetire port retries => Sys2Proof.Machine.execColModuleRetire port retries s
  | .portSevered port => Sys2Proof.Machine.execPortSevered port s
  | .serviceClockStop die => Sys2Proof.Machine.execServiceClockStop die s
  | .computeDieLost die => Sys2Proof.Machine.execComputeDieLost die s
  | .tileLost die tile => Sys2Proof.Machine.execTileLost die tile s
  | .foundationLost die => Sys2Proof.Machine.execFoundationLost die s
  | .flitReceive link bytes fecC fecU => Sys2Proof.Machine.execFlitReceive link bytes fecC fecU s
  | .nakReceive link last => Sys2Proof.Machine.execNakReceive link last s
  | .linkTrainingStart link => Sys2Proof.Machine.execLinkTrainingStart link s
  | .linkTrainingEnd link lanes peer => Sys2Proof.Machine.execLinkTrainingEnd link lanes peer s
  | .linkRetrainEnd link lanes => Sys2Proof.Machine.execLinkRetrainEnd link lanes s
  | .lanePermanentFault link lane => Sys2Proof.Machine.execLanePermanentFault link lane s
  | .linkFailover link => Sys2Proof.Machine.execLinkFailover link s
  | .ridgeMessageArrive link m => Sys2Proof.Machine.execRidgeMessageArrive link m s
  | .chunkReceive die bytes => Sys2Proof.Machine.execChunkReceive die bytes s
  | .chunkHoldExpiry die cid chunk => Sys2Proof.Machine.execChunkHoldExpiry die cid chunk s
  | .chunkAnswer die cid step chunk a => Sys2Proof.Machine.execChunkAnswer die cid step chunk a s
  | .chunkTimeout die cid step chunk => Sys2Proof.Machine.execChunkTimeout die cid step chunk s
  | .stepTimeout die cid step => Sys2Proof.Machine.execStepTimeout die cid step s
  | .planComplete die cid => Sys2Proof.Machine.execPlanComplete die cid s
  | .startMsg m => Sys2Proof.Machine.execStartMsg m s
  | .startAck bid child => Sys2Proof.Machine.execStartAck bid child s
  | .doneMsg bid child => Sys2Proof.Machine.execDoneMsg bid child s
  | .unreached bid member => Sys2Proof.Machine.execUnreached bid member s
  | .refeed m => Sys2Proof.Machine.execRefeed m s
  | .refeedDone bid alt member => Sys2Proof.Machine.execRefeedDone bid alt member s
  | .tackTimeout bid child => Sys2Proof.Machine.execTackTimeout bid child s
  | .tdoneTimeout bid child => Sys2Proof.Machine.execTdoneTimeout bid child s
  | .beaconSend link => Sys2Proof.Machine.execBeaconSend link s
  | .beaconReceive b => Sys2Proof.Machine.execBeaconReceive b s
  | .delayExchange link delay => Sys2Proof.Machine.execDelayExchange link delay s
  | .beaconLoss => Sys2Proof.Machine.execBeaconLoss s
  | .stackTempSample die stack temp => Sys2Proof.Machine.execStackTempSample die stack temp s
  | .stackLevelExit die stack => Sys2Proof.Machine.execStackLevelExit die stack s
  | .lpddrTempSample die k temp => Sys2Proof.Machine.execLpddrTempSample die k temp s
  | .patrolScrubVisit die chan unit crc => Sys2Proof.Machine.execPatrolScrubVisit die chan unit crc s
  | .thresholdCrossed row die obj count => Sys2Proof.Machine.execThresholdCrossed row die obj count s
  | .signatureSample die x => Sys2Proof.Machine.execSignatureSample die x s
  | .voltageStep die => Sys2Proof.Machine.execVoltageStep die s
  | .voltageReported die mv => Sys2Proof.Machine.execVoltageReported die mv s
  | .budgetExchange => Sys2Proof.Machine.execBudgetExchange s
  | .grantReceive die => Sys2Proof.Machine.execGrantReceive die s
  | .grantRaiseEffect die => Sys2Proof.Machine.execGrantRaiseEffect die s
  | .grantTimeout die => Sys2Proof.Machine.execGrantTimeout die s
  | .hintPrepare die n voltage => Sys2Proof.Machine.execHintPrepare die n voltage s
  | .hintStart die n => Sys2Proof.Machine.execHintStart die n s
  | .hintEnd die n => Sys2Proof.Machine.execHintEnd die n s
  | .explorationSample die => Sys2Proof.Machine.execExplorationSample die s
  | .marginLow die tile covered => Sys2Proof.Machine.execMarginLow die tile covered s
  | .stretchEnd die tile => Sys2Proof.Machine.execStretchEnd die tile s
  | .stretchInterval die stretched total => Sys2Proof.Machine.execStretchInterval die stretched total s
  | .supplyWarnAssert => Sys2Proof.Machine.execSupplyWarnAssert s
  | .supplyWarnDeassert => Sys2Proof.Machine.execSupplyWarnDeassert s
  | .supplyEpisodeEnd => Sys2Proof.Machine.execSupplyEpisodeEnd s
  | .junctionSample pairs hub => Sys2Proof.Machine.execJunctionSample pairs hub s
  | .junctionLevelExit die => Sys2Proof.Machine.execJunctionLevelExit die s
  | .thermTrip => Sys2Proof.Machine.execThermTrip s
  | .coolantOkDeassert => Sys2Proof.Machine.execCoolantOkDeassert s
  | .coolantHalt => Sys2Proof.Machine.execCoolantHalt s
  | .coolantOkAssert => Sys2Proof.Machine.execCoolantOkAssert s
  | .idleEntry => Sys2Proof.Machine.execIdleEntry s
  | .idleExit => Sys2Proof.Machine.execIdleExit s
  | .powerSafetyNet => Sys2Proof.Machine.execPowerSafetyNet s
  | .lockstepMismatch => Sys2Proof.Machine.execLockstepMismatch s
  | .cairnRestartComplete => Sys2Proof.Machine.execCairnRestartComplete s
  | .tallySample levels => Sys2Proof.Machine.execTallySample levels s
  | .telemetryPeriodEnd => Sys2Proof.Machine.execTelemetryPeriodEnd s
  | .avsbusSample rail f => Sys2Proof.Machine.execAvsbusSample rail f s
  | .avsbusFrameTimeout rail => Sys2Proof.Machine.execAvsbusFrameTimeout rail s
  | .heartbeat b => Sys2Proof.Machine.execHeartbeat b s
  | .accessCompletionReceive id => Sys2Proof.Machine.execAccessCompletionReceive id s
  | .ridgeRequestBoundExpiry q => Sys2Proof.Machine.execRidgeRequestBoundExpiry q s
  | .refclkRidgeReturn => Sys2Proof.Machine.execRefclkRidgeReturn s
  | .refclkPcieReturn => Sys2Proof.Machine.execRefclkPcieReturn s
  | .channelRetrainComplete die chan lrep => Sys2Proof.Machine.execChannelRetrainComplete die chan lrep s

end Sys2Proof.Machine
end

