-- ==== Sys2Proof/Safety.lean ====
section
/-! DEFINITION. The terms in which claims are stated: what only a few events may change, and the canonical form of every store. -/

namespace Sys2Proof.Machine

/-- The six sealed safety registers (R406). -/
structure Sealed where
  tjTrip  : Nat
  hbmTrip : Nat
  ceil    : Nat
  cool    : Nat
  supply  : Nat
  armed   : Bool
  deriving DecidableEq, Repr

/-- The sealed registers as Cairn holds them. -/
def Cairn.safety (c : Cairn) : Sealed :=
  { tjTrip := c.tjTrip, hbmTrip := c.hbmTrip, ceil := c.powerCeil, cool := c.coolantAction, supply := c.supplyAction, armed := c.armed }

/-- What a command leaves alone unless it is one of the few that may change it: the queue, the fuses, the sealed registers. -/
structure Vault where
  queue  : List Instr
  fuses  : Fuses
  safety : Sealed
  deriving DecidableEq, Repr

/-- The vault of a state. -/
def State.vault (s : State) : Vault := { queue := s.pending, fuses := s.fuses, safety := s.cairn.safety }

/-- A packet that a port takes and whose checks 1 to 5 of R342 pass. -/
def State.accepts (s : State) (op : Nat) (p : Port) (k : Packet) : Bool :=
  s.reach p && !(s.port p).busy && !s.cairn.restarting && (ebCheck op p k s.plat.stage).isNone

/-- The state in which a command's own part runs: its port busy, the request held. -/
def State.began (s : State) (op : Nat) (p : Port) (k : Packet) : State :=
  s.setPort p { s.port p with busy := true, seq := k.seq, reply := none, request := pktHeader k op k.crc.toNat ++ pktData k,
                               eid := k.eid, tag := k.tag }

/-- The words of a stream's next record and the state in which its own part runs, when the stream takes it now as a record of the type
(R352–R356). -/
def State.recordFor (s : State) (n typ : Nat) : Option (List W64 × State) :=
  if s.takes n ∧ (s.watchOpen n).isNone then
    match s.readKeep (.stream n (s.stream n).next) (s.stream n).space (s.stream n).next 8 with
    | .ok ws u =>
      if wfld (nth 0 ws 0) 0 8 = typ ∧ typ ≤ 10
          ∧ (parks ws = true ∨ ((bitOf (nth 0 ws 0).toNat 8 || alwaysOrd typ) = false ∨ (s.stream n).flights = []))
          ∧ (fld (s.stream n).next 6 6 ≠ 63 ∨ typ = 0 ∨ typ = 10) then
        some (ws, if parks ws then u else u.dropWatch n)
      else none
    | _ => none
  else none

/-- The record of a type that a command works on now, and the state in which it does: the one in flight whose work is not done, else the
stream's next one, which starts (R354). -/
def State.worksOn (s : State) (n typ : Nat) (ok : List W64 → Bool) : Option (Flight × State) :=
  match s.openFlight n typ with
  | some f => if s.serves && decide (n < 64) then some (f, s) else none
  | none =>
    match s.recordFor n typ with
    | some (ws, u) => if ok ws then some (u.newFlight (u.stream n).next ws, u.start n (u.newFlight (u.stream n).next ws)) else none
    | none => none

/-- The checks of an instruction with a participating lane pass: listed and legal, its registers within the launch's and at hand, its
unit allotted (R66, R72, R77). The state is the one in which its effect takes place. -/
def State.passes (s : State) (i : Issue) (l : Launch) : Option (Issue × State) :=
  if illegalOp i.w || (wfld i.w 0 3 == 2 && l.acc == 0) || (wfld i.w 0 3 == 3 && l.ee == 0) || (regTrap l.nreg (namesOf i.w)).isSome
      || (namesOf i.w).any (fun e => s.pendingReg i.c e.1 e.2.1 e.2.2) then none
  else some (i, s.stepped i.c)

/-- A crew issues an instruction now, for at least one participating lane, and it passes every check: the instruction as it issues, newly
fetched or replayed, and the state in which its effect takes place (R73, R75–R77, R83, R93). -/
def State.issues (s : State) (c : CrewId) (w : W64) (key : Nat) : Option (Issue × State) :=
  if opKey w = key ∧ listed key then
    match s.issuable c with
    | none => none
    | some (v, l) =>
      match v.subLeft, v.replay with
      | some _, _ => none
      | none, some (lanes, instr, at_) =>
        if w = instr then
          s.passes { c := c, w := w, pc := at_.getD v.pc, active := v.active,
                     part := (if at_.isSome then lanes else lanes &&& v.part w), late := at_.isSome, v := { v with replay := none } } l
        else none
      | none, none =>
        match s.fetch c l.space v.pc l.id w with
        | .ok s1 =>
          if v.part w = 0 ∨ (s1.breakAt c.die v.pc).isSome then none
          else s1.passes { c := c, w := w, pc := v.pc, active := v.active, part := v.part w, late := false, v := v } l
        | _ => none
  else none

/-- A crew instruction that issues has this effect and nothing else happens in its step. -/
def Effect (cmd : CrewId → W64 → Instr) (key : Nat) (eff : State → Issue → State) : Prop :=
  ∀ (s u : State) (c : CrewId) (w : W64) (i : Issue), s.issues c w key = some (i, u) → exec (cmd c w) s = .next (eff u i)

/-- A format A instruction that issues writes, for each lane it is performed for, this function of its type and its sources A, B and C,
and its path moves on (R78). -/
def EffectA (cmd : CrewId → W64 → Instr) (key : Nat) (f : Nat → Nat → Nat → Nat → Nat) : Prop :=
  Effect cmd key (fun u i => u.done i (i.each (wfld i.w 16 8) (regsOf (typeOf i.w)) (fun l => f (typeOf i.w)
    (i.read l (wfld i.w 24 8) (regsOf (typeOf i.w))) (i.srcB l) (i.read l (wfld i.w 40 8) (regsOf (typeOf i.w))))))

/-- A request starts this activity now: its port accepts it, or firmware asks, its target is one the part has and is there, and nothing held
conflicts with it. The state is the one in which it is listed as running (R433, R437). -/
def State.opens (s : State) (q : ActReq) (a : Act) (u : State) : Prop :=
  (match q with
   | .port p k =>
     s.accepts 0x0701 p k = true ∧ s.power.pstate ≤ 1 ∧ s.power.parking = none ∧ s.acts.length < 16 ∧ a.origin = originOf p ∧ 1 ≤ a.code
       ∧ a.code ≤ 9 ∧ byteFld (pktData k) 0 1 = a.code ∧ byteFld (pktData k) 1 1 = a.die ∧ byteFld (pktData k) 4 1 = a.t4
       ∧ byteFld (pktData k) 5 1 = a.t5 ∧ u = { s.began 0x0701 p k with acts := s.acts ++ [a], actNum := a.num }
   | .firmware die t4 t5 =>
     s.serves = true ∧ a.origin = 3 ∧ die = a.die ∧ t4 = a.t4 ∧ t5 = a.t5 ∧ u = { s with acts := s.acts ++ [a], actNum := a.num })
  ∧ targetOk a.code a.die a.t4 a.t5 = true ∧ (s.acts.any fun x => x.clashes a.code a.die a.t4 a.t5) = false
  ∧ s.splitForbids a.code a.die a.t4 a.t5 = false ∧ s.targetLost a = false ∧ (a.code = 9 → s.plat.lostC.contains a.die = false)
  ∧ (∀ x ∈ s.acts, x.num ≠ a.num)
  ∧ a = { num := s.actNum + 1, code := a.code, die := a.die, t4 := a.t4, t5 := a.t5, state := 0, origin := a.origin, time := s.now,
          aborting := false, result := [], bare := false, begun := true }

/-- Every store the block has: DRAM, the landing stores, local store and accumulator memory. -/
def State.memories (s : State) : List Store :=
  s.dram :: s.landing.map (·.2) ++ s.tiles.map (·.2.ls) ++ s.tiles.map (·.2.acc)

/-- The invariant of the block: every store in its canonical form, both logs within their sizes, STAGE and the power state legal. -/
abbrev State.Inv (s : State) : Prop :=
  (∀ st ∈ s.memories, Memory.wf st.cells = true) ∧ s.log.length ≤ 1024 ∧ s.cairn.log.length ≤ 64 ∧ s.plat.stage ≤ 3 ∧ s.power.pstate ≤ 3

end Sys2Proof.Machine
end

