-- ==== Sys2Proof/Certificates/Slice0/Obligations.lean ====
section
/-! DEFINITION. Statements about the block, for the provers. -/

open Sys2Proof Sys2Proof.Machine

/-- PWR_GOOD rising starts the ROM at STAGE 0 with the straps sampled and the lifecycle read from the fuses; PWR_GOOD low for 200 ns
and VDD_CAIRN loss are cold resets that keep the fuses; THERM_TRIP_N, the loss of REFCLK_CORE, the loss and return of
REFCLK_PCIE, PERST_N and a function level reset have exactly the stated effect and leave all else alone. That a cold reset keeps
the levels the board drives is the model's reading (log entry 5). -/
def Obligations.PinsAndClocksComplete : Prop :=
  (∀ (s : State) (straps : BitVec 8), s.plat.on = false → s.plat.thermTrip = false →
    ∃ t, exec (.pwrGoodAssert straps) s = .next t ∧ t.plat.on = true ∧ t.plat.stage = 0 ∧ t.plat.straps = straps
      ∧ t.cairn.lc = s.fuses.lc ∧ t.fuses = s.fuses ∧ t.pending = s.pending ∧ t.cairn.log.length = 1 ∧ t.dram = {} ∧ t.tiles = [])
  ∧ (∀ (s : State) (ns : Nat), s.plat.on = true → 200 ≤ ns → exec (.pwrGoodLoss ns) s = .next s.coldReset)
  ∧ (∀ (s : State) (ns : Nat), ns < 200 → exec (.pwrGoodLoss ns) s = .next s)
  ∧ (∀ s : State, s.coldReset.fuses = s.fuses ∧ s.coldReset.pending = s.pending ∧ s.coldReset.plat.on = false
      ∧ s.coldReset.plat.thermTrip = s.plat.thermTrip ∧ s.coldReset.cairn = {} ∧ s.coldReset.dram = {} ∧ s.coldReset.cfg = {})
  ∧ (∀ s : State, ∃ t, exec .vddCairnLoss s = .next t ∧ t.plat.on = false ∧ t.plat.thermTrip = false ∧ t.fuses = s.fuses)
  ∧ (∀ s : State, s.on = true → exec .thermTrip s = .next { s with plat := { s.plat with thermTrip := true } })
  ∧ (∀ s : State, s.up = true →
      exec .refclkCoreLoss s
        = .next (({ s with plat := { s.plat with coreLost := true } }).logEv 0x0015 255 3 [0, Free.refclkReason]))
  ∧ (∀ s : State, s.on = true → s.plat.pcieClk = true →
      exec .refclkPcieLoss s = .next { s with plat := { s.plat with pcieClk := false } })
  ∧ (∀ s : State, s.on = true → s.plat.pcieClk = false →
      exec .refclkPcieReturn s = .next { s with plat := { s.plat with pcieClk := true } })
  ∧ (∀ s : State, s.on = true → s.plat.perst = false → s.cairn.session = none → s.cairn.cfgSession = none →
      exec .perstNAssert s = .next { s with
        portH := { busy := s.portH.busy, discard := s.portH.busy, ign := s.portH.ign, seq := s.portH.seq }
        plat := { s.plat with perst := true, pcieUp := false } })
  ∧ (∀ s : State, s.on = true → s.plat.perst = true →
      exec .perstNDeassert s
        = .next { s with plat := { s.plat with perst := false, pcieUp := decide (s.plat.hpState = 1) || !s.plat.hpFails.isEmpty } })
  ∧ (∀ s : State, s.reach .h = true → s.cairn.session = none → s.cairn.cfgSession = none →
      exec .functionLevelReset s = .next { s with
        portH := { busy := s.portH.busy, discard := s.portH.busy, ign := s.portH.ign, seq := s.portH.seq } })

/-- The first of up to three attempts that R291 accepts brings the H–P link up and is measured; a retrain that succeeds leaves it
up; a third failed retrain within 10 ms severs it and answers what waits for host memory; setting Cache_Enable opens the host
path; clearing it empties the host-line cache, lets the snoops that waited be answered and logs CODE 0x0016; the end of memory
bring-up leaves memory holding zeros; a lockstep mismatch restarts the pair and is logged; the restart ends; a challenge expires
once its time has come (before the commit, where domain time stands still, the model lets it expire at any moment: log entry
42). -/
def Obligations.LinksAndCairnComplete : Prop :=
  (∀ (s : State) (o : LinkOffer) (rest : List LinkOffer), s.up = true → s.plat.stage = 0 → s.plat.hpState = 0 → LinkOfferOk o = true →
    ∃ t, exec (.portLinkBringup (o :: rest)) s = .next t ∧ t.plat.hpState = 1 ∧ t.plat.hpHalf = (o.rate == 16)
      ∧ t = { s with plat := t.plat, cairn := s.cairn.measure s.now 3 o.rate (leBytes 8 o.ident.toNat ++ Free.linkParams o.rate) })
  ∧ (∀ s : State, s.up = true → s.plat.hpState = 1 ∨ s.hpTrains = true →
      exec (.portLinkRetrain true) s = .next { s with plat := { s.plat with hpState := 1 } })
  ∧ (∀ (s : State) (a b : Nat), s.up = true → s.plat.hpState = 1 ∨ s.hpTrains = true → s.plat.hpFails = [a, b] → s.now < a + 10000000 → s.now < b + 10000000 →
      exec (.portLinkRetrain false) s
        = .next ((({ s with plat := { s.plat with hpState := 3, hpFails := [], pcieUp := false } }).answerAll
            (fun r => decide (0x10000000000 ≤ r.pa / 128)) .host).logEv 0x000B 4 3 [16, 0]))
  ∧ (∀ s : State, s.reach .h = true → s.plat.cacheEn = false → s.plat.cacheOff = false →
      exec .cacheEnableSet s = .next { s with plat := { s.plat with cacheEn := true } })
  ∧ (∀ s : State, s.runs = true → s.plat.cacheEn = true →
      exec .cacheEnableClear s = .next (({ s.emptyHost.goSnoops with plat := { s.emptyHost.goSnoops.plat with cacheEn := false, cacheOff := true } }).logEv
        0x0016 4 1 [0, s.dirtyHost]))
  ∧ (∀ (s : State) (os : List ChanOutcome), s.up = true → s.plat.stage = 1 → s.plat.memUp = false → s.cairn.commitWait = none →
      ∃ t, exec (.memoryBringupEnd os) s = .next t ∧ t.dram = {} ∧ t.plat.memUp = true)
  ∧ (∀ s : State, s.on = true → s.cairn.mismTimes = [] → ∃ t, exec .lockstepMismatch s = .next t
      ∧ t = ({ s with cairn := { s.cairn with restarting := true, mism := satAdd 15 s.cairn.mism 1, mismTimes := [s.now] } }).logEv
        0x0012 4 1 [satAdd 15 s.cairn.mism 1])
  ∧ (∀ s : State, s.on = true → s.cairn.restarting = true → s.cairn.waiting = none →
      exec .cairnRestartComplete s = .next { s with cairn := { s.cairn with restarting := false } })
  ∧ (∀ (s : State) (c : Challenge), s.on = true → s.cairn.challenge = some c → s.plat.stage < 2 ∨ c.until_ ≤ s.now →
      exec .challengeExpiry s = .next { s with cairn := { s.cairn with challenge := none } })

/-- IDCODE, SAMPLE/PRELOAD, EXTEST, CLAMP, HIGHZ and BYPASS select their instruction; IDCODE's value or the pins come into the data
register; the pins sampled are values the spec leaves to the board, and BYPASS changes nothing but the instruction; where R423
does not allow a pin-driving instruction, BYPASS is loaded and service counter 14 counts. -/
def Obligations.BoundaryScanComplete : Prop :=
  (∀ s : State, s.plat.on = true → exec .idcode s = .next { s with jtag := { instr := 1, dr := idcodeValue } })
  ∧ (∀ s : State, s.plat.on = true → exec .samplePreload s = .next { s with jtag := { instr := 2, dr := s.pins }, fresh := s.fresh + 1 })
  ∧ (∀ s : State, s.plat.on = true → s.scanAllowed = true →
      exec .extest s = .next { s with jtag := { instr := 0, dr := s.pins }, fresh := s.fresh + 1 }
        ∧ exec .clamp s = .next { s with jtag := { s.jtag with instr := 3 } } ∧ exec .highz s = .next { s with jtag := { s.jtag with instr := 4 } })
  ∧ (∀ s : State, s.plat.on = true → s.scanAllowed = false →
      exec .extest s = .next (({ s with jtag := { s.jtag with instr := 0xFF } }).count (svc 14)).drawn
        ∧ exec .clamp s = .next (({ s with jtag := { s.jtag with instr := 0xFF } }).count (svc 14))
        ∧ exec .highz s = .next (({ s with jtag := { s.jtag with instr := 0xFF } }).count (svc 14)))
  ∧ (∀ (s : State) (code : Byte), s.plat.on = true → 5 ≤ code.toNat →
      exec (.bypass code) s = .next { s with jtag := { s.jtag with instr := 0xFF } })

/-- On a reachable port that is free, with Cairn not restarting, a packet whose checks 1 to 5 pass runs its own part on the state
with the port busy and SEQ taken; the first check that fails is the reply's status and nothing else happens; a packet on a busy
port has no effect but to be counted in IGN (H, N) or service counter 12 (B); while Cairn restarts, ports H and B stay busy and
a command on N waits. -/
def Obligations.CommandPacketChecked : Prop :=
  (∀ (s : State) (op : Nat) (p : Port) (k : Packet) (own : State → EbOut), s.accepts op p k = true →
    s.ebior op p k own = (match own (s.began op p k) with | .reply st res t => t.finish p st res | .hold t => t))
  ∧ (∀ (s : State) (op : Nat) (p : Port) (k : Packet) (own : State → EbOut) (st : Nat), s.reach p = true → (s.port p).busy = false →
      s.cairn.restarting = false → ebCheck op p k s.plat.stage = some st → s.ebior op p k own = (s.began op p k).finish p st [])
  ∧ (∀ (s : State) (op : Nat) (k : Packet) (own : State → EbOut), s.reach .h = true → s.portH.busy = true →
      s.ebior op .h k own = { s with portH := { s.portH with ign := satAdd (2 ^ 32 - 1) s.portH.ign 1 } })
  ∧ (∀ (s : State) (op : Nat) (k : Packet) (own : State → EbOut), s.reach .n = true → s.portN.busy = true →
      s.ebior op .n k own = { s with portN := { s.portN with ign := satAdd (2 ^ 32 - 1) s.portN.ign 1 } })
  ∧ (∀ (s : State) (op : Nat) (k : Packet) (own : State → EbOut), s.reach .b = true → s.portB.busy = true →
      s.ebior op .b k own = s.count (svc 12))
  ∧ (∀ (s : State) (op : Nat) (k : Packet) (own : State → EbOut), s.cairn.restarting = true →
      (s.reach .h = true → s.ebior op .h k own = { s with portH := { s.portH with ign := satAdd (2 ^ 32 - 1) s.portH.ign 1 } })
      ∧ (s.reach .b = true → s.ebior op .b k own = s.count (svc 12))
      ∧ (s.reach .n = true → s.portN.busy = false →
          s.ebior op .n k own = { s.began op .n k with cairn := { s.cairn with waiting := some (op, k) } }))
  ∧ (∀ (s : State) (op : Nat) (p : Port) (k : Packet) (own : State → EbOut), s.reach p = false → s.ebior op p k own = s)
  ∧ (∀ (op : Nat) (p : Port) (k : Packet) (stage : Nat), ebCheck op p k stage = some 1 ↔ k.crc.toNat ≠ pktCrc k op)

/-- Ending a command on a port whose window was not reset sets DONE, clears BUSY and writes the reply with the command's SEQ and
results; on H with IEN 1 and an unmasked entry one MSI-X message is sent, with a masked entry it is left pending; on N source 71
fires; a reply whose window was reset is discarded. -/
def Obligations.CommandEndsWithReply : Prop :=
  (∀ (s : State) (st : Nat) (res : List Byte), s.portH.discard = false → s.portH.ien = true → bitOf s.portH.msixTable 96 = false →
    s.finish .h st res = { s with portH := { s.portH with
      busy := false, done := true, msixSent := s.portH.msixSent + 1, reply := some { status := st, seq := s.portH.seq, results := res } } })
  ∧ (∀ (s : State) (st : Nat) (res : List Byte), s.portH.discard = false → s.portH.ien = true → bitOf s.portH.msixTable 96 = true →
      s.finish .h st res = { s with portH := { s.portH with
      busy := false, done := true, msixPending := true, reply := some { status := st, seq := s.portH.seq, results := res } } })
  ∧ (∀ (s : State) (st : Nat) (res : List Byte), s.portH.discard = false → s.portH.ien = false →
      s.finish .h st res = { s with portH := { s.portH with
        busy := false, done := true, reply := some { status := st, seq := s.portH.seq, results := res } } })
  ∧ (∀ (s : State) (st : Nat) (res : List Byte), s.portB.discard = false →
      s.finish .b st res = { s with portB := { s.portB with
      busy := false, done := true, reply := some { status := st, seq := s.portB.seq, results := res } } })
  ∧ (∀ (s : State) (st : Nat) (res : List Byte), s.portN.discard = false →
      s.finish .n st res = ({ s with portN := { s.portN with
      busy := false, done := true, reply := some { status := st, seq := s.portN.seq, results := res } } }).raise 71)
  ∧ (∀ (s : State) (st : Nat) (res : List Byte), s.portH.discard = true →
      s.finish .h st res = { s with portH := { s.portH with busy := false, discard := false } })

/-- IMAGE_BEGIN opens a session of LENGTH bytes; IMAGE_DATA at the offset received so far stores its bytes; IMAGE_END with a whole
image in order, whose slot is not revoked and whose key hash is fused, starts the firmware at STAGE 1 and blows the revocation
fuses it names when the signature verifies, and else answers 0x0101 and drops the bytes; CONFIG_WRITE applies its entries;
CONFIG_READ answers the value in force; CONFIG_COMMIT of a consistent configuration commits it. Signature verification is an
opaque constant (log entry 6). -/
def Obligations.ImageAndConfigurationComplete : Prop :=
  (∀ (s : State) (p : Port) (k : Packet), s.accepts 0x0101 p k = true → s.plat.stage = 0 → s.cairn.session = none →
    byteFld (pktData k) 0 4 ≤ 67108864 → 4096 ≤ byteFld (pktData k) 0 4 → byteFld (pktData k) 0 4 % 16 = 0 →
    exec (.imageBegin p k) s = .next (({ (s.began 0x0101 p k).dropImage with
      cairn := { s.cairn with session := some (p, byteFld (pktData k) 0 4, 0) } }).finish p 0 []))
  ∧ (∀ (s : State) (p : Port) (k : Packet) (len got : Nat), s.accepts 0x0102 p k = true → s.cairn.session = some (p, len, got) →
      byteFld (pktData k) 0 4 = got → got + ((pktData k).drop 4).length ≤ len →
      exec (.imageData p k) s = .next (({ s.began 0x0102 p k with
        cairn := { s.cairn with session := some (p, len, got + ((pktData k).drop 4).length) }
        landing := alMod {} s.landing 0 (fun st => st.writeBytes (imageBase + got) ((pktData k).drop 4)) }).finish p 0 []))
  ∧ (∀ (s : State) (p : Port) (k : Packet) (len got : Nat) (img : List Byte), s.accepts 0x0103 p k = true →
      s.cairn.session = some (p, len, got) → len ≤ got → img = (alGet {} s.landing 0).readBytes imageBase len → imgOk img len = true →
      bitOf s.fuses.revoked.toNat (byteFld img 7 1) = false →
      nth none s.fuses.keyHash (byteFld img 7 1) = some (shake 32 ((img.drop 256).take 1952)) →
      exec (.imageEnd p k) s = .next (
        if Free.mldsaVerify ((img.drop 256).take 1952) (imgDigest img) ((img.drop (byteFld img 20 4)).take 3309) then
          (({ s.began 0x0103 p k with
              fuses := { s.fuses with revoked := s.fuses.revoked ||| BitVec.ofNat 4 (imgRevoke img) }
              cairn := { s.cairn with session := none, keyslot := byteFld img 7 1, fwVersion := byteFld img 8 8 }
              plat := { s.plat with stage := 1 }
              jtag := {} }).measure 2 (byteFld img 7 1) (imgDigest img)).finish p 0 (leBytes 1 (byteFld img 7 1))
        else (s.began 0x0103 p k).dropImage.finish p 0x0101 []))
  ∧ (∀ (s : State) (p : Port) (k : Packet) (c : Config) (rt : Sparse W64) (m : Nat), s.accepts 0x0201 p k = true →
      s.cairn.cfgSession.getD p = p → applyEntries k.plen (pktData k) s.cfg s.rdgRoute s.powerCeil 0 = .ok (c, rt, m) →
      exec (.configWrite p k) s = .next (({ s.began 0x0201 p k with
        cfg := c, rdgRoute := rt, cairn := { s.cairn with cfgSession := some p } }).finish p 0 (leBytes 2 m)))
  ∧ (∀ (s : State) (p : Port) (k : Packet) (v : List Byte), s.accepts 0x0202 p k = true → byteFld (pktData k) 0 2 ≠ 3 →
      s.keyVal (byteFld (pktData k) 0 2) = some v → exec (.configRead p k) s = .next ((s.began 0x0202 p k).finish p 0 v))
  ∧ (∀ (s : State) (p : Port) (k : Packet) (bad : List (Nat × Nat × Nat)), s.accepts 0x0203 p k = true →
      s.cairn.cfgSession.getD p = p → requiredKeys.all (fun key => !((s.keyVal key).getD []).isEmpty) = true → s.plat.memUp = true →
      (List.range 16).all (fun i => decide (s.failedChans (i / 4) (i % 4) < 2)) = true → s.inconsistent = none → s.plat.cacheEn = true →
      exec (.configCommit p k bad) s = .next (((s.began 0x0203 p k).commit bad).finish p 0 [])
        ∧ ((s.began 0x0203 p k).commit bad).plat.stage = 2 ∧ ((s.began 0x0203 p k).commit bad).landing = []
        ∧ ((s.began 0x0203 p k).commit bad).acts = [])

/-- SAFETY_PROFILE with every field in range is held pending; SAFETY_ARM seals the pending profile, and STAGE becomes 3;
QUERY_IDENTITY and ATTEST answer; DEBUG_UNLOCK's three phases give a challenge, take the key whose hash is fused, and grant the
level when the signature verifies; DEBUG_LOCK closes the level and releases halts and breakpoints; POWER_LIMIT_SET in range
waits for the budget exchange. ML-DSA, the stepping's identity and the bytes of DEBUG_LOCK's measurement are opaque constants
(log entries 6 and 7). -/
def Obligations.SafetyAndDebugCommandsComplete : Prop :=
  (∀ (s : State) (p : Port) (k : Packet), s.accepts 0x0301 p k = true →
    106 ≤ byteFld (pktData k) 0 1 → byteFld (pktData k) 0 1 ≤ 118 → 96 ≤ byteFld (pktData k) 1 1 → byteFld (pktData k) 1 1 ≤ 100 →
    600 ≤ byteFld (pktData k) 2 2 → byteFld (pktData k) 2 2 ≤ 2800 → byteFld (pktData k) 4 1 ≤ 1 → byteFld (pktData k) 5 1 ≤ 1 →
    exec (.safetyProfile p k) s = .next (({ s.began 0x0301 p k with cairn := { s.cairn with pending := some {
      tj := byteFld (pktData k) 0 1, hbm := byteFld (pktData k) 1 1, ceil := byteFld (pktData k) 2 2, cool := byteFld (pktData k) 4 1,
      supply := byteFld (pktData k) 5 1, bytes := pktData k } } }).finish p 0 []))
  ∧ (∀ (s : State) (p : Port) (k : Packet) (q : Profile), s.accepts 0x0302 p k = true → s.cairn.pending = some q →
      exec (.safetyArm p k) s = .next (((s.began 0x0302 p k).seal q).finish p 0 (leBytes 8 ((s.began 0x0302 p k).seal q).safeStatus))
        ∧ ((s.began 0x0302 p k).seal q).cairn.safety
            = { tjTrip := q.tj, hbmTrip := q.hbm, ceil := q.ceil, cool := q.cool, supply := q.supply, armed := true }
        ∧ ((s.began 0x0302 p k).seal q).plat.stage = 3)
  ∧ (∀ (s : State) (p : Port) (k : Packet), s.accepts 0x0401 p k = true →
      exec (.queryIdentity p k) s = .next ((s.began 0x0401 p k).finish p 0 (leBytes 2 0x4000 ++ leBytes 1 0 ++ leBytes 1 s.plat.stage
        ++ leBytes 4 Free.enterprise ++ dieSetId ++ leBytes 8 (if s.plat.stage = 0 then 0 else s.cairn.fwVersion))))
  ∧ (∀ (s : State) (p : Port) (k : Packet), s.accepts 0x0402 p k = true → s.cairn.lc = 1 → s.cairn.idErased = false →
      byteFld (pktData k) 32 4 = 0 →
      exec (.attest p k) s = .next (({ s.began 0x0402 p k with
        cairn := { s.cairn with report := some (s.attestReport ((pktData k).take 32)) } }).finish p 0
          (reportPart (s.attestReport ((pktData k).take 32)) 0)))
  ∧ (∀ (s : State) (p : Port) (k : Packet) (rand : List Byte) (level key : Nat), s.accepts 0x0A01 p k = true →
      byteFld (pktData k) 0 1 = 0 → byteFld (pktData k) 1 1 = level → byteFld (pktData k) 2 1 = key → s.cairn.refc < 16 →
      level ∈ [1, 2, 0x10, 0x11, 0x12] → key ≤ 4 → s.levelPermitted level key = true → (s.fuses.keyFor key).isSome = true →
      exec (.debugUnlockChallenge p k rand) s = .next (({ s.began 0x0A01 p k with cairn := { s.cairn with challenge := some {
        port := p, level := level, key := key, value := padTo 32 rand, pk := none, until_ := s.now + 10000000000 } } }).finish p 0 (padTo 32 rand)))
  ∧ (∀ (s : State) (p : Port) (k : Packet) (c : Challenge), s.accepts 0x0A01 p k = true → byteFld (pktData k) 0 1 = 1 →
      s.cairn.challenge = some c → c.port = p → c.level = byteFld (pktData k) 1 1 → c.key = byteFld (pktData k) 2 1 → c.level ∈ [1, 2, 0x10, 0x11, 0x12] → c.key ≤ 4 →
      c.pk = none →
      s.fuses.keyFor c.key = some (shake 32 (((pktData k).drop 4).take 1952)) →
      exec (.debugUnlockKey p k) s = .next (({ s.began 0x0A01 p k with cairn := { s.cairn with challenge := some { c with
        pk := some (((pktData k).drop 4).take 1952) } } }).finish p 0 []))
  ∧ (∀ (s : State) (p : Port) (k : Packet) (c : Challenge) (pk : List Byte), s.accepts 0x0A01 p k = true → byteFld (pktData k) 0 1 = 2 →
      s.cairn.challenge = some c → c.port = p → c.level = byteFld (pktData k) 1 1 → c.key = byteFld (pktData k) 2 1 → c.level ∈ [1, 2, 0x10, 0x11, 0x12] → c.key ≤ 4 →
      c.pk = some pk →
      byteFld (pktData k) 3313 3 = 0 →
      exec (.debugUnlockSignature p k) s = .next (
        if Free.mldsaVerify pk (unlockMessage s.cairn.lc c) (((pktData k).drop 4).take 3309) then
          ((s.began 0x0A01 p k).grantDebug c).finish p 0 []
        else (s.began 0x0A01 p k).refuseUnlock.finish p 0x0A01 []))
  ∧ (∀ (s : State) (p : Port) (k : Packet), s.accepts 0x0A02 p k = true →
      ∃ u : State, exec (.debugLock p k) s = .next (u.finish p 0 []) ∧ u.cairn.dbg = 0 ∧ u.cairn.dkey = 7 ∧ u.dbgUnit.bk = []
        ∧ (∀ e ∈ u.tiles, e.2.halted = false ∧ e.2.stepping = none))
  ∧ (∀ (s : State) (p : Port) (k : Packet), s.accepts 0x0B01 p k = true → 600 ≤ byteFld (pktData k) 0 2 →
      byteFld (pktData k) 0 2 ≤ s.powerCeil → s.power.pstate ≤ 1 →
      exec (.powerLimitSet p k) s = .next { s.began 0x0B01 p k with power := { s.power with
        newLimit := some (byteFld (pktData k) 0 2), supl := false, limitPorts := s.power.limitPorts ++ [p] } })

/-- TIME_SET in FREE or MASTER steps to a value ahead and slews to one behind; TIME_READ answers domain time and its state;
TELEMETRY_READ answers the last sample's time and counters; EVENT_LOG_READ answers up to 16 entries, with 0x0602 when older ones
were overwritten; MAINT_STATUS lists the activities; MAINT_ABORT of a running abortable activity is accepted. That one which has
not begun ends at once is the model's reading. -/
def Obligations.TimeLogAndMaintenanceCommandsComplete : Prop :=
  (∀ (s : State) (p : Port) (k : Packet), s.accepts 0x0501 p k = true → s.time.sync ≤ 1 → s.now < byteFld (pktData k) 0 8 →
    exec (.timeSet p k) s = .next ((({ s.began 0x0501 p k with
      time := { s.time with fine := byteFld (pktData k) 0 8 * 100000, slew := 0 } }).count 5).finish p 0 []))
  ∧ (∀ (s : State) (p : Port) (k : Packet), s.accepts 0x0501 p k = true → s.time.sync ≤ 1 → byteFld (pktData k) 0 8 < s.now →
      exec (.timeSet p k) s = .next (({ s.began 0x0501 p k with
        time := { s.time with slew := s.time.fine - byteFld (pktData k) 0 8 * 100000 } }).finish p 0 []))
  ∧ (∀ (s : State) (p : Port) (k : Packet), s.accepts 0x0502 p k = true →
      exec (.timeRead p k) s = .next ((s.began 0x0502 p k).finish p 0 (leBytes 8 s.now ++ leBytes 1 s.time.sync)))
  ∧ (∀ (s : State) (p : Port) (k : Packet) (first n : Nat), s.accepts 0x0601 p k = true → byteFld (pktData k) 0 2 = first →
      byteFld (pktData k) 2 2 = n → 1 ≤ n → n ≤ 127 → first + n ≤ 2048 →
      exec (.telemetryRead p k) s = .next ((s.began 0x0601 p k).finish p 0
        (leBytes 8 s.tally.stamp ++ ((List.range n).map (fun j => leBytes 8 (s.tally.read (first + j)).toNat)).flatten)))
  ∧ (∀ (s : State) (p : Port) (k : Packet), s.accepts 0x0602 p k = true → s.logSeq - s.log.length ≤ byteFld (pktData k) 0 8 →
      exec (.eventLogRead p k) s = .next ((s.began 0x0602 p k).finish p 0
        ((((s.log.drop (byteFld (pktData k) 0 8 - (s.logSeq - s.log.length))).take 16).map LogEntry.bytes).flatten)))
  ∧ (∀ (s : State) (p : Port) (k : Packet), s.accepts 0x0602 p k = true → byteFld (pktData k) 0 8 < s.logSeq - s.log.length →
      exec (.eventLogRead p k) s = .next ((s.began 0x0602 p k).finish p 0x0602 (((s.log.take 16).map LogEntry.bytes).flatten)))
  ∧ (∀ (s : State) (p : Port) (k : Packet), s.accepts 0x0702 p k = true →
      exec (.maintStatus p k) s = .next ((s.began 0x0702 p k).finish p 0 (s.acts.flatMap Act.bytes)))
  ∧ (∀ (s : State) (p : Port) (k : Packet) (a : Act), s.accepts 0x0703 p k = true → s.actOf (byteFld (pktData k) 0 2) = some a →
      abortable a.code = true → a.begun = true →
      exec (.maintAbort p k) s = .next (((s.began 0x0703 p k).setAct { a with aborting := true }).finish p 0 []))

/-- STREAM_OPEN with a valid placement and windows opens a closed stream at its first record; STREAM_CLOSE and STREAM_MIGRATE with a
valid placement and windows hold an open stream for its drain; PACKAGE_PARK with no activity held waits; RESUME from Park, and
from Halt once R402 allows it, is accepted; a message on port B runs the command of its opcode as that command would on port B,
but for the free values drawn for what the message does not carry (log entry 44), an unlisted opcode with its CRC is answered
UNSUPPORTED, a message without the enterprise number does nothing, and one that comes while the port is busy is only counted. -/
def Obligations.StreamAndParkCommandsComplete : Prop :=
  (∀ (s : State) (p : Port) (k : Packet) (n cls space srsz first sring : Nat), s.accepts 0x0901 p k = true →
    byteFld (pktData k) 0 1 = n → n ≤ 63 → byteFld (pktData k) 1 1 = cls → cls ≤ 1 → byteFld (pktData k) 2 1 = space → space ≤ 15 →
    byteFld (pktData k) 3 1 = srsz → 4 ≤ srsz → srsz ≤ 12 → byteFld (pktData k) 4 8 = first → first % 64 = 0 → first < 2 ^ 52 →
    byteFld (pktData k) 12 8 = sring → sring % 32 = 0 → sring < 2 ^ 52 → (s.stream n).state = 0 → (s.stream n).heldBy p = false →
    s.placementOk (parseSlots (pktData k) 24).1 (parseSlots (pktData k) 24).2 = true → winsOk (parseWins (pktData k) 60) = true →
    exec (.streamOpen p k) s = .next (((s.began 0x0901 p k).setStream n {
      state := 1, cls := cls, space := space, srsz := srsz, sring := sring, next := first, slots := (parseSlots (pktData k) 24).1,
      masks := (parseSlots (pktData k) 24).2, wins := parseWins (pktData k) 60 }).finish p 0 []))
  ∧ (∀ (s : State) (p : Port) (k : Packet) (n : Nat), s.accepts 0x0902 p k = true → byteFld (pktData k) 0 1 = n → n ≤ 63 →
      (s.stream n).state ≠ 0 → (s.stream n).heldBy p = false →
      exec (.streamClose p k) s = .next ((s.began 0x0902 p k).setStream n { s.stream n with state := 5, drain := some {
        migrate := false, port := p, stopped := (s.stream n).err, slots := (s.stream n).slots, masks := (s.stream n).masks, wins := none,
        until_ := s.now + 1000000 * byteFld (pktData k) 4 4 } }))
  ∧ (∀ (s : State) (p : Port) (k : Packet) (n : Nat), s.accepts 0x0903 p k = true → byteFld (pktData k) 0 1 = n → n ≤ 63 →
      (s.stream n).state ≠ 0 → (s.stream n).heldBy p = false → s.placementOk (parseSlots (pktData k) 8).1 (parseSlots (pktData k) 8).2 = true →
      winsOk (if bitOf (byteFld (pktData k) 1 1) 0 then parseWins (pktData k) 44 else []) = true →
      exec (.streamMigrate p k) s = .next ((s.began 0x0903 p k).setStream n { s.stream n with state := 5, drain := some {
        migrate := true, port := p, stopped := (s.stream n).err, slots := (parseSlots (pktData k) 8).1, masks := (parseSlots (pktData k) 8).2,
        wins := if bitOf (byteFld (pktData k) 1 1) 0 then some (parseWins (pktData k) 44) else none
        until_ := s.now + 1000000 * byteFld (pktData k) 4 4 } }))
  ∧ (∀ (s : State) (p : Port) (k : Packet), s.accepts 0x0802 p k = true → s.power.pstate ≤ 1 → s.power.parking = none →
      1 ≤ byteFld (pktData k) 0 4 → byteFld (pktData k) 0 4 ≤ 10000 → s.acts = [] →
      exec (.packagePark p k) s = .next { s.began 0x0802 p k with power := { s.power with
        parking := some p, parkUntil := s.now + 1000000 * byteFld (pktData k) 0 4 } })
  ∧ (∀ (s : State) (p : Port) (k : Packet), s.accepts 0x0803 p k = true → s.power.resuming = none → s.power.pstate = 2 →
      exec (.resume p k) s = .next { s.began 0x0803 p k with power := { s.power with resuming := some p } })
  ∧ (∀ (s : State) (p : Port) (k : Packet), s.accepts 0x0803 p k = true → s.power.resuming = none → s.power.pstate = 3 →
      s.power.mismHalt = false → ¬ (s.power.lasth = 1 ∧ s.cairn.coolantAction = 1) → s.plat.coolant = true →
      s.power.coolSince + 2000000000 ≤ s.now → (s.power.lasth = 2 ∨ s.power.lasth = 3 → s.cooled = true) →
      exec (.resume p k) s = .next { s.began 0x0803 p k with power := { s.power with resuming := some p } })
  ∧ (∀ (s : State) (k : Packet), s.on = true → s.portB.busy = false → s.cairn.restarting = false →
      exec (.portBMessage 0x0101 true k) s = exec (.imageBegin .b k) s.drawn
      ∧ exec (.portBMessage 0x0102 true k) s = exec (.imageData .b k) s.drawn
      ∧ exec (.portBMessage 0x0103 true k) s = exec (.imageEnd .b k) s.drawn
      ∧ exec (.portBMessage 0x0201 true k) s = exec (.configWrite .b k) s.drawn
      ∧ exec (.portBMessage 0x0202 true k) s = exec (.configRead .b k) s.drawn
      ∧ exec (.portBMessage 0x0203 true k) s = exec (.configCommit .b k (Free.badWays s.fresh)) s.drawn
      ∧ exec (.portBMessage 0x0301 true k) s = exec (.safetyProfile .b k) s.drawn
      ∧ exec (.portBMessage 0x0302 true k) s = exec (.safetyArm .b k) s.drawn
      ∧ exec (.portBMessage 0x0401 true k) s = exec (.queryIdentity .b k) s.drawn
      ∧ exec (.portBMessage 0x0402 true k) s = exec (.attest .b k) s.drawn
      ∧ exec (.portBMessage 0x0501 true k) s = exec (.timeSet .b k) s.drawn
      ∧ exec (.portBMessage 0x0502 true k) s = exec (.timeRead .b k) s.drawn
      ∧ exec (.portBMessage 0x0601 true k) s = exec (.telemetryRead .b k) s.drawn
      ∧ exec (.portBMessage 0x0602 true k) s = exec (.eventLogRead .b k) s.drawn
      ∧ (byteFld (pktData k) 0 1 = 1 → exec (.portBMessage 0x0701 true k) s = exec (.scrub (.port .b k)) s.drawn)
      ∧ (byteFld (pktData k) 0 1 = 2 → exec (.portBMessage 0x0701 true k) s = exec (.hbmRetrain (.port .b k)) s.drawn)
      ∧ (byteFld (pktData k) 0 1 = 3 → exec (.portBMessage 0x0701 true k) s = exec (.lpRetrain (.port .b k)) s.drawn)
      ∧ (byteFld (pktData k) 0 1 = 4 → exec (.portBMessage 0x0701 true k) s = exec (.ridgeRetrain (.port .b k)) s.drawn)
      ∧ (byteFld (pktData k) 0 1 = 5 → exec (.portBMessage 0x0701 true k) s = exec (.chanEvac (.port .b k)) s.drawn)
      ∧ (byteFld (pktData k) 0 1 = 6 → exec (.portBMessage 0x0701 true k) s = exec (.wayTest (.port .b k)) s.drawn)
      ∧ (byteFld (pktData k) 0 1 = 7 → exec (.portBMessage 0x0701 true k) s = exec (.tileRetire (.port .b k)) s.drawn)
      ∧ (byteFld (pktData k) 0 1 = 8 → exec (.portBMessage 0x0701 true k) s = exec (.sensorCal (.port .b k)) s.drawn)
      ∧ (byteFld (pktData k) 0 1 = 9 → exec (.portBMessage 0x0701 true k) s = exec (.dieReset (.maint .b k)) s.drawn)
      ∧ exec (.portBMessage 0x0702 true k) s = exec (.maintStatus .b k) s.drawn
      ∧ exec (.portBMessage 0x0703 true k) s = exec (.maintAbort .b k) s.drawn
      ∧ exec (.portBMessage 0x0801 true k) s = exec (.dieReset (.command .b k)) s.drawn
      ∧ exec (.portBMessage 0x0802 true k) s = exec (.packagePark .b k) s.drawn
      ∧ exec (.portBMessage 0x0803 true k) s = exec (.resume .b k) s.drawn
      ∧ exec (.portBMessage 0x0901 true k) s = exec (.streamOpen .b k) s.drawn
      ∧ exec (.portBMessage 0x0902 true k) s = exec (.streamClose .b k) s.drawn
      ∧ exec (.portBMessage 0x0903 true k) s = exec (.streamMigrate .b k) s.drawn
      ∧ exec (.portBMessage 0x0A01 true k) s = exec (.debugUnlockChallenge .b k (Free.challenge s.fresh)) s.drawn
      ∧ exec (.portBMessage 0x0A02 true k) s = exec (.debugLock .b k) s.drawn
      ∧ exec (.portBMessage 0x0B01 true k) s = exec (.powerLimitSet .b k) s.drawn
      ∧ (∀ op, s.reach .b = true → k.crc.toNat = pktCrc k op → ebPorts op = none →
          exec (.portBMessage op true k) s = .next ((s.drawn.began op .b k).finish .b 2 []))
      ∧ (∀ op, exec (.portBMessage op false k) s = .next s))
  ∧ (∀ (s : State) (op : Nat) (v : Bool) (k : Packet), s.on = true → s.portB.busy = true ∨ s.cairn.restarting = true →
      exec (.portBMessage op v k) s = .next (s.count (svc 12)))

/-- When the controller of a die decides, its target is the one of R374 step 1 (with R384 and R392), the point it moves towards is
the highest point up to the target whose predicted power fits the budget, lowered to the lowest ceiling in force: never above
the target or the ceiling, and fitting the budget, or OP0, where no ceiling lowers it. The clock goes down at once, and goes up
only where the voltage target and the board's report have reached it. -/
def Obligations.DecisionObeysBudgetAndCeilings : Prop :=
  ∀ (s : State) (n : Nat), s.decides n = true →
    ((s.decideOp n).die n).goal ≤ s.ceiling n
    ∧ ((s.decideOp n).die n).tgt = (s.die n).target s.now (some (s.die n).budget) (s.ceiling n)
    ∧ ((s.decideOp n).die n).goal ≤ ((s.decideOp n).die n).tgt
    ∧ ((s.die n).fit ((s.decideOp n).die n).tgt ≤ s.ceiling n →
        ((s.decideOp n).die n).goal = 0 ∨ (s.die n).pw ((s.decideOp n).die n).goal ≤ (s.die n).budget)
    ∧ ((∀ k, k ≤ ((s.decideOp n).die n).tgt → k ≤ s.ceiling n → (k = 0 ∨ (s.die n).pw k ≤ (s.die n).budget) →
        k ≤ ((s.decideOp n).die n).goal))
    ∧ (((s.decideOp n).die n).goal ≤ (s.die n).op → ((s.decideOp n).die n).op = ((s.decideOp n).die n).goal)
    ∧ ((s.die n).op < ((s.decideOp n).die n).op → opMv ((s.decideOp n).die n).op ≤ (s.die n).mv ∧ opMv ((s.decideOp n).die n).op ≤ (s.die n).rep)

/-- A signature sample records power, signature and boost, learns, regates and decides; an exploration runs one point below; a
voltage step moves the target 5 mV; a report is recorded, and a raise that waited for it may be made; a budget exchange puts an
accepted limit in force, answers the port that waits for it and sends each live die its grant from R377's list; a lower grant
acts at once, a higher one waits until 50 µs after its exchange, and after 200 µs without one the die takes its floor. -/
def Obligations.SamplesAndBudgetsComplete : Prop :=
  (∀ (s : State) (die : Nat) (x : SigSample), s.serves = true → s.dieLive die = true → 
    ∃ u : State, exec (.signatureSample die x) s = .next (u.decideOp die) ∧ u = { s with fb := u.fb, tally := u.tally }
      ∧ u.die die = { ((s.die die).learn (signature x.counts) (s.tally.diePower die) (workRate x.counts)).regate (s.tally.diePower die) with
          pwr := s.tally.diePower die, boost := decide (x.requests * 5 < x.refusals * 100), explore := false }
      ∧ alGet 0 u.tally.sigs die = signature x.counts)
  ∧ (∀ (s : State) (die k : Nat) (e : Phase), s.decides die = true → (s.die die).entry = some k → alFind (s.die die).phase k = some e →
      0 < (s.die die).choice (some (s.die die).budget) (s.ceiling die) →
      nth 0 e.obs ((s.die die).choice (some (s.die die).budget) (s.ceiling die) - 1) = 0 → (s.die die).explored + 10000000 ≤ s.now →
      max (s.die die).request (s.die die).hintMin < (s.die die).choice (some (s.die die).budget) (s.ceiling die) → (s.die die).boost = false →
      exec (.explorationSample die) s = .next ((s.setDie die { s.die die with explore := true, explored := s.now }).decideOp die))
  ∧ (∀ (s : State) (die : Nat), s.serves = true → s.dieLive die = true → s.power.warn = false → (s.die die).mv < s.wantMv die →
      s.tally.railMax.contains die = false → exec (.voltageStep die) s = .next (s.setDie die { s.die die with mv := (s.die die).mv + 5 }))
  ∧ (∀ (s : State) (die : Nat), s.serves = true → s.dieLive die = true → s.power.warn = false → s.wantMv die < (s.die die).mv →
      opMv (s.die die).op < (s.die die).mv → exec (.voltageStep die) s = .next (s.setDie die { s.die die with mv := (s.die die).mv - 5 }))
  ∧ (∀ (s : State) (die mv : Nat), s.serves = true → s.dieLive die = true → s.power.warn = false → s.power.pstate = 0 →
      exec (.voltageReported die mv) s = .next ((s.setDie die { s.die die with rep := mv }).moveClock die))
  ∧ (∀ s : State, s.serves = true → s.power.pstate ≤ 2 →
      ∃ t : State, exec .budgetExchange s = .next t ∧ t.tiles = s.tiles ∧ t.dram = s.dram
        ∧ (s.power.newLimit = none → t.power = { s.power with exchanged := s.now })
        ∧ (∀ l, s.power.newLimit = some l → s.power.pstate ≤ 1 →
            t.power = { s.power with limit := l, newLimit := none, limitPorts := [], exchanged := s.now }
            ∧ (∀ p, s.power.limitPorts = [p] → (s.port p).discard = false →
                (t.port p).reply = some { status := 0, seq := (s.port p).seq, results := leBytes 2 l }))
        ∧ (∀ n, n < 4 → s.dieLive n = true → (t.die n).grant.isSome = true)
        ∧ (∀ n g, s.takeLimit.markHints.grantList.find? (fun e => e.1 == n) = some (n, g) → (t.die n).grant = some g.toNat))
  ∧ (∀ (s : State) (die g : Nat), s.serves = true → s.dieLive die = true → (s.die die).grant = some g → g ≤ (s.die die).budget →
      exec (.grantReceive die) s = .next
        ((s.setDie die { s.die die with budget := g, grant := none, raise := none, lastGrant := s.now }).decideOp die))
  ∧ (∀ (s : State) (die g : Nat), s.serves = true → s.dieLive die = true → (s.die die).grant = some g → (s.die die).budget < g →
      exec (.grantReceive die) s = .next (s.setDie die { s.die die with grant := none, raise := some g, raiseAt := s.power.exchanged + 50000, lastGrant := s.now }))
  ∧ (∀ (s : State) (die g : Nat), s.serves = true → s.dieLive die = true → (s.die die).raise = some g →
      s.plat.stage < 2 ∨ (s.die die).raiseAt ≤ s.now →
      exec (.grantRaiseEffect die) s = .next ((s.setDie die { s.die die with budget := g, raise := none }).decideOp die))
  ∧ (∀ (s : State) (die : Nat), s.serves = true → s.dieLive die = true → (s.die die).lastGrant + 200000 ≤ s.now →
      exec (.grantTimeout die) s = .next (s.setDie die { s.die die with budget := (s.die die).floor, raise := none }))

/-- A hint is marked 200 µs and raised 40 µs before its T, is in force from T with a decision, and leaves at T + DUR with a
decision; a margin alarm that the stretch covers stretches the tile and counts once per episode, and the stretch ends; a die
stretched for more than a tenth of 1 ms has its target lowered for 10 ms; SUPPLY_WARN_N begins one episode in which no point is
decided and the tiles take OP0, its deassertion starts the hold, and 50 µs later its end is logged with its length, raises
source 78 and decides. -/
def Obligations.HintsDroopAndSupplyComplete : Prop :=
  (∀ (s : State) (die i : Nat) (h : Hint), s.serves = true → s.dieLive die = true → (s.die die).hints[i]? = some h → h.t ≤ s.now + 200000 →
    exec (.hintPrepare die i false) s
      = .next (s.setDie die { s.die die with hints := updNth (s.die die).hints i (fun h => { h with marked := true }) }))
  ∧ (∀ (s : State) (die i : Nat) (h : Hint), s.serves = true → s.dieLive die = true → (s.die die).hints[i]? = some h → h.t ≤ s.now + 40000 →
      exec (.hintPrepare die i true) s
        = .next (s.setDie die { s.die die with hints := updNth (s.die die).hints i (fun h => { h with raised := true }) }))
  ∧ (∀ (s : State) (die i : Nat) (h : Hint), s.serves = true → s.dieLive die = true → (s.die die).hints[i]? = some h → h.inForce = false →
      h.t ≤ s.now → s.power.pstate ≤ 1 → s.power.warn = false →
      exec (.hintStart die i) s = .next ((s.setDie die { s.die die with
        hints := updNth (s.die die).hints i (fun h => { h with inForce := true, marked := true, raised := true, unmet := false }) }).decideOp die))
  ∧ (∀ (s : State) (die i : Nat) (h : Hint), s.serves = true → s.dieLive die = true → (s.die die).hints[i]? = some h → h.inForce = true →
      h.t + h.dur * 1000 ≤ s.now →
      exec (.hintEnd die i) s = .next ((s.setDie die { s.die die with hints := (s.die die).hints.eraseIdx i }).decideOp die))
  ∧ (∀ (s : State) (die tile : Nat), s.serves = true → s.dieLive die = true → tile < 68 →
      exec (.marginLow die tile true) s
        = .next ((s.setTile die tile { s.tile die tile with stretched := true }).count (dieAct die 16) (if (s.tile die tile).stretched then 0 else 1)))
  ∧ (∀ (s : State) (die tile : Nat), s.serves = true → s.dieLive die = true → (s.tile die tile).stretched = true →
      exec (.stretchEnd die tile) s = .next (s.setTile die tile { s.tile die tile with stretched := false }))
  ∧ (∀ (s : State) (die stretched total : Nat), s.serves = true → s.dieLive die = true → total < stretched * 10 →
      exec (.stretchInterval die stretched total) s
        = .next ((s.setDie die { s.die die with lowered := some (s.now + 10000000) }).count (dieAct die 17)))
  ∧ (∀ s : State, s.on = true → s.power.pstate ≠ 3 → s.power.warn = false → s.cairn.supplyAction = 0 →
      ∃ t : State, exec .supplyWarnAssert s = .next t ∧ t.power.warn = true ∧ t.power.warnPin = true ∧ t.power.warnAt = s.now
        ∧ t.power.cluster ≤ 1000 ∧ t.power.epis = satAdd 65535 s.power.epis 1 ∧ (∀ n, t.decides n = false)
        ∧ (1 ≤ s.plat.stage → ∀ n, n < 4 → (t.die n).op = 0 ∧ (t.die n).mv = (s.die n).mv))
  ∧ (∀ s : State, s.on = true → s.power.warnPin = true →
      exec .supplyWarnDeassert s = .next { s with power := { s.power with warnPin := false, warnOff := s.now } })
  ∧ (∀ s : State, s.on = true → s.power.warn = true → s.power.warnPin = false →
      s.plat.stage < 2 ∨ s.power.warnOff + 50000 ≤ s.now →
      exec .supplyEpisodeEnd s = .next ((((({ s with power := ({ s.power with warn := false }).capped }).logEv 0x000F 255 1
        [s.now - s.power.warnAt]).raise 78).decideAll)))

/-- Junction samples raise levels at once, a level is left once its samples stayed 2 °C below its entry for 1 ms, a third sample in
a row at SAFE_TJ_TRIP on any die or the hub and one stack reading at SAFE_HBM_TRIP halt the package; LPDDR packages double
refresh at 85 °C and are capped from 95 °C; a deassertion of COOLANT_OK halts after its 10 µs filter, a shorter one is counted;
Idle is entered after 1 ms without work at the OP0 clock and left when work comes; the safety net caps every die at OP0 and is
logged. The exact thresholds are those of Tables 11.4 and 16.6. -/
def Obligations.HeatCoolantAndIdleComplete : Prop :=
  (∀ (s : State) (pairs : List Nat) (hub : Nat), s.up = true → s.power.pstate ≠ 3 → s.power.tjRun < 2 →
    ∃ t : State, exec (.junctionSample pairs hub) s = .next t ∧ t.power.hubT = hub ∧ heatLevel junctionThr hub ≤ t.power.hubLvl
      ∧ (∀ n, n < 4 → (t.die n).tj = nth 0 pairs n ∧ heatLevel junctionThr (nth 0 pairs n) ≤ (t.die n).jlvl) ∧ t.power.pstate = s.power.pstate)
  ∧ (∀ (s : State) (pairs : List Nat) (hub : Nat), s.up = true → s.power.pstate ≠ 3 → 2 ≤ s.power.tjRun →
      s.cairn.tjTrip ≤ hub ∨ (∃ x ∈ pairs, s.cairn.tjTrip ≤ x) →
      ∃ t : State, exec (.junctionSample pairs hub) s = .next t ∧ t.power.pstate = 3 ∧ t.power.lasth = 2)
  ∧ (∀ (s : State) (die : Nat), s.up = true → die < 4 →
      exec (.junctionLevelExit die) s = .next (s.setDie die { s.die die with jlvl := heatExit (s.die die).hot (s.die die).jlvl s.now }))
  ∧ (∀ s : State, s.up = true →
      exec (.junctionLevelExit 4) s
        = .next { s with power := ({ s.power with hubLvl := heatExit s.power.hubHot s.power.hubLvl s.now }).capped })
  ∧ (∀ (s : State) (die stack temp : Nat), s.up = true → 1 ≤ s.plat.stage → s.plat.lostF.contains die = false → die < 4 → stack < 3 →
      ∃ t : State, exec (.stackTempSample die stack temp) s = .next t ∧ (alGet {} t.hbm (die * 3 + stack)).temp = temp
        ∧ heatLevel stackThr temp ≤ (alGet {} t.hbm (die * 3 + stack)).lvl ∧ temp ≤ alGet 0 t.tmax die
        ∧ (s.cairn.hbmTrip ≤ temp → s.power.pstate ≠ 3 → t.power.pstate = 3 ∧ t.power.lasth = 3))
  ∧ (∀ (s : State) (die stack : Nat), s.up = true → die < 4 → stack < 3 → exec (.stackLevelExit die stack) s = .next { s with
      hbm := alUpd s.hbm (die * 3 + stack) (fun k => { k with lvl := heatExit k.hot k.lvl s.now }) })
  ∧ (∀ (s : State) (die k temp : Nat), s.serves = true → die < 4 → k < 4 → s.plat.lostF.contains die = false →
      ∃ t : State, exec (.lpddrTempSample die k temp) s = .next t ∧ t = { s with chans := t.chans } ∧ ∀ j, j < 4 →
        (t.chan die (96 + 4 * k + j)).heat = (if 95 ≤ temp then 2 else if 85 ≤ temp then 1 else 0))
  ∧ (∀ s : State, s.on = true → s.plat.coolant = true → exec .coolantOkDeassert s
      = .next { s with plat := { s.plat with coolant := false }, power := { s.power with
        coolLow := s.power.pstate != 3, coolOff := s.now } })
  ∧ (∀ s : State, s.on = true → s.plat.coolant = false → s.power.coolLow = true →
      s.plat.stage < 2 ∨ s.power.coolOff + 10000 ≤ s.now → exec .coolantHalt s = .next (s.halt 1))
  ∧ (∀ s : State, s.on = true → s.plat.coolant = false → s.power.coolLow = true → exec .coolantOkAssert s
      = .next (({ s with plat := { s.plat with coolant := true }, power := { s.power with coolLow := false, coolSince := s.now } }).count 4))
  ∧ (∀ s : State, s.serves = true → s.power.pstate = 0 → s.noWork = true →
      s.power.busyAt + 1000000 ≤ s.now → ∃ t : State, exec .idleEntry s = .next t ∧ t.power = { s.power with pstate := 1 } ∧ ∀ n, n < 4 → (t.die n).op = 0)
  ∧ (∀ s : State, s.serves = true → s.power.pstate = 1 → s.noWork = false →
      exec .idleExit s = .next { s with power := { s.power with pstate := 0 } })
  ∧ (∀ s : State, s.runs = true → 1 ≤ s.plat.stage → s.power.snet = false → 10000 < s.tally.excess →
      ∃ u : State, exec .powerSafetyNet s = .next (u.logEv 0x0011 255 2 [1]) ∧ u.power = { s.power with snet := true }
        ∧ ∀ n, n < 4 → (u.logEv 0x0011 255 2 [1]).ceiling n = 0)
  ∧ (∀ (s : State) (cause : Nat), s.power.pstate ≠ 3 → (s.halt cause).power.pstate = 3 ∧ (s.halt cause).power.lasth = cause
      ∧ (s.halt cause).power.before = s.power.pstate)

/-- A sample holds the levels for readers with their domain time, package power as the sum of its rails among them, and gives
FBK_PKG.PWR the mean of the last 100 µs; a good AVSBus frame gives the rail, a bad one is counted, and 1 ms without one puts the
rail at its maximum; a write of HEAD that stays within TAIL consumes records and one beyond it is ignored and counted; the hours
entered since start empty; heartbeats are stamped, and this package's own goes to every package of the set; beacons leave on TIM
with domain time, steer a follower, take MASTER from a later-named package, and 1 ms without one moves to the next reachable
backup, or holds over; at a period's end its record goes to the ring, the command is taken up again while it is on its way (log
entry 57), and TAIL advances once it has landed, or the period is skipped and counted. -/
def Obligations.TimeAndTallyEventsComplete : Prop :=
  (∀ (s : State) (levels : List (Nat × W64)), s.runs = true → 1 ≤ s.plat.stage →
    ∃ t : State, exec (.tallySample levels) s = .next t ∧ t = { s with tally := t.tally, power := { s.power with pwr := t.power.pwr } }
      ∧ t.tally.sample = t.tally.live ∧ t.tally.stamp = s.now ∧ t.tally.pcnt = s.tally.pcnt + 1
      ∧ t.tally.fbPower = (railSum s.fbRail :: s.tally.fbPower).take 10
      ∧ t.power.pwr = t.tally.fbPower.foldl (· + ·) 0 / t.tally.fbPower.length / 1000
      ∧ t.tally.live = (levels.filter (fun e => sensorLevel e.1) ++ (0, BitVec.ofNat 64 (railSum s.tally.railMw)) :: s.ownLevels).foldl
          (fun m e => alPut m e.1 e.2) s.tally.live)
  ∧ (∀ (s : State) (rail mv ma : Nat), s.on = true → rail < 16 →
      ∃ t : State, exec (.avsbusSample rail (.ok mv ma)) s = .next t ∧ t = { s with tally := t.tally }
        ∧ alFind t.tally.rails rail = some (mv, ma) ∧ rail ∉ t.tally.railMax ∧ alGet 0 t.tally.railAt rail = s.now
        ∧ alGet 0 t.tally.live (64 + 3 * rail) = BitVec.ofNat 64 mv ∧ alGet 0 t.tally.live (65 + 3 * rail) = BitVec.ofNat 64 ma
        ∧ alGet 0 t.tally.live (66 + 3 * rail) = BitVec.ofNat 64 (mv * ma / 1000))
  ∧ (∀ (s : State) (rail : Nat), s.on = true → rail < 16 → exec (.avsbusSample rail .bad) s = .next (s.count (svc 19)))
  ∧ (∀ (s : State) (rail : Nat), s.on = true → rail < 16 → rail ∉ s.tally.railMax →
      s.plat.stage < 2 ∨ alGet 0 s.tally.railAt rail + 1000000 ≤ s.now →
      exec (.avsbusFrameTimeout rail) s = .next { s with tally := { s.tally with railMax := rail :: s.tally.railMax } })
  ∧ (∀ (s : State) (v : W64), s.serves = true →
      (wfld v 0 32 + 2 ^ 32 - s.tally.head) % 2 ^ 32 ≤ (s.tally.tail + 2 ^ 32 - s.tally.head) % 2 ^ 32 →
      ∃ t : State, exec (.talTelHeadWrite v) s = .next t ∧ t = { s with tally := { s.tally with head := wfld v 0 32, notify := t.tally.notify } })
  ∧ (∀ (s : State) (v : W64), s.serves = true →
      (s.tally.tail + 2 ^ 32 - s.tally.head) % 2 ^ 32 < (wfld v 0 32 + 2 ^ 32 - s.tally.head) % 2 ^ 32 →
      exec (.talTelHeadWrite v) s = .next (s.count (svc 18)))
  ∧ (∀ s : State, s.serves = true → s.tally.hour < s.now / 3600000000000 →
      ∃ t : State, exec .hourBucketAdvance s = .next t ∧ t.tally.hour = s.now / 3600000000000
        ∧ t = { s with tally := t.tally, slices := t.slices, chans := t.chans }
        ∧ (∀ e ∈ t.tally.windows, e ∈ s.tally.windows ∧ e.1 % 32 ≠ s.now / 3600000000000 % 24))
  ∧ (∀ (s : State) (k : Nat), s.serves = true →
      exec (.heartbeat (.cluster k)) s = .next { s with beats := alPut s.beats k s.now }
      ∧ (k ≠ s.mySlot → exec (.heartbeat (.package k)) s = .next { s with beats := alPut s.beats (16 + k) s.now })
      ∧ exec (.heartbeat (.package s.mySlot)) s
          = .next (s.peers.foldl (fun (t : State) p => t.sendMgt p none) { s with beats := alPut s.beats (16 + s.mySlot) s.now })
      ∧ exec (.heartbeat (.foundation k)) s = .next { s with beats := alPut s.beats (32 + k) s.now })
  ∧ (∀ (s : State) (link : Nat), s.serves = true → link < 64 → (s.link link).up = true → s.time.sync ≠ 0 →
      exec (.beaconSend link) s = .next (({ s with time := { s.time with sent := alMod 0 s.time.sent link (· + 1) } }).ridgeSend link
        { dest := (s.link link).peer, src := s.masterNow, vc := 1, hops := 6, req := s.now, acc := none, ans := none }))
  ∧ (∀ (s : State) (b : Beacon) (i : Nat), s.serves = true → b.link < 64 → (s.link b.link).up = true →
      s.parentLink b.master = some b.link → indexWhere (· == b.master) s.timeMasters = some i →
      (i < s.time.master → exec (.beaconReceive b) s
        = .next (({ s with time := { s.time with master := i, sync := 2, good := 0, bad := 0 } }).takeBeacon b))
      ∧ (i = s.time.master → s.time.sync ≠ 1 → exec (.beaconReceive b) s = .next (s.takeBeacon b)))
  ∧ (∀ (s : State) (link delay : Nat), s.serves = true → link < 64 → (s.link link).up = true →
      exec (.delayExchange link delay) s = .next { s with time := { s.time with delay := alPut s.time.delay link delay } })
  ∧ (∀ (s : State) (m : Nat), s.serves = true → s.time.sync ≠ 1 → s.time.heard + 1000000 ≤ s.now → s.nextMaster = some m →
      exec .beaconLoss s = .next { s with time := { s.time with
        heard := s.now, good := 0, bad := 0, master := m
        sync := (if nth 0 s.timeMasters m = s.myAddr then 1 else if s.time.sync = 0 then 0 else 4) } })
  ∧ (∀ s : State, s.serves = true → s.time.sync ≠ 1 → s.time.heard + 1000000 ≤ s.now → s.nextMaster = none →
      exec .beaconLoss s = .next { s with time := { s.time with
        heard := s.now, good := 0, bad := 0, sync := (if s.time.sync = 0 then 0 else 4) } })
  ∧ (∀ (s w : State) (base log2 per thr : Nat) (done : Bool), s.up = true → 2 ≤ s.plat.stage →
      s.cfg.telemetry = some (base, log2, per, thr) → s.power.pstate ≠ 3 →
      (s.tally.tail + 2 ^ 32 - s.tally.head) % 2 ^ 32 < 2 ^ log2 →
      (s.reqs.any (fun e => e.2.who == .unit .hub 2) = true →
        s.ringWrite .hub 2 (base + s.tally.tail % 2 ^ log2 * 256) s.telemetryRecord = (done, w) →
        ∃ t : State, exec .telemetryPeriodEnd s = .next t
          ∧ (done = true → t.tally.tail = (w.tally.tail + 1) % 2 ^ 32 ∧ t.reqs = w.reqs) ∧ (done = false → t = w))
      ∧ (s.reqs.any (fun e => e.2.who == .unit .hub 2) = false →
          ({ s with tally := { s.tally.newPeriod with skip := 0, last := s.tally.live, realCe := 0, realUe := 0 } }).ringWrite .hub 2
            (base + s.tally.tail % 2 ^ log2 * 256) s.telemetryRecord = (done, w) →
          ∃ t : State, exec .telemetryPeriodEnd s = .next t
            ∧ (done = true → t.tally.tail = (w.tally.tail + 1) % 2 ^ 32 ∧ t.reqs = w.reqs) ∧ (done = false → t = w)))
  ∧ (∀ (s : State) (c : Nat × Nat × Nat × Nat), s.up = true → 2 ≤ s.plat.stage → s.cfg.telemetry = some c →
      2 ^ c.2.1 ≤ (s.tally.tail + 2 ^ 32 - s.tally.head) % 2 ^ 32 → exec .telemetryPeriodEnd s = .next s.skipPeriod)

/-- A drained stream is closed, its watch, hints and requests dropped, with reply OK; a drained migration takes its new placement
and windows, advances the epoch and restarts the stream unless it was stopped; TMO leaves the stream stopped and answers
STREAM_BUSY; the package enters Park when every started record is complete, or PARK_TIMEOUT answers; RESUME completes in Run at
OP0 and drops the pending hints whose T has passed; a wake returns a parked stream; one that finds nothing to wake sends again
the releases of watches that were refused; EHEAD within the ring is taken and CONT restarts a stream that an error stopped, and
only such a one. -/
def Obligations.StreamEndsAndWakesComplete : Prop :=
  (∀ (s : State) (n : Nat) (d : Drain), s.serves = true → (s.stream n).drain = some d → d.migrate = false → (s.stream n).flights = [] →
    exec (.streamCloseDrained n) s = .next (((((s.unitQuit (ofStream n)).dropWatch n).setStream n {}).dropHints n).finish d.port 0 []))
  ∧ (∀ (s : State) (n : Nat) (d : Drain), s.serves = true → (s.stream n).drain = some d → d.migrate = true → (s.stream n).flights = [] →
      exec (.migrateDrained n) s = .next (((((s.unitQuit (ofStream n)).dropWatch n).setStream n { s.stream n with
        state := (if d.stopped then 4 else 1), epoch := ((s.stream n).epoch + 1) % 65536, slots := d.slots, masks := d.masks,
        wins := d.wins.getD (s.stream n).wins, watch := none, woken := false, err := d.stopped, drain := none }).dropHints n).finish
        d.port 0 (leBytes 2 (((s.stream n).epoch + 1) % 65536))))
  ∧ (∀ (s : State) (n : Nat) (d : Drain), s.serves = true → (s.stream n).drain = some d →
      s.plat.stage < 2 ∨ d.until_ ≤ s.now → exec (.streamDrainTimeout n) s = .next ((s.setStream n { s.stream n with state := 4, err := d.stopped, drain := none }).finish
        d.port 0x0905 []))
  ∧ (∀ (s : State) (p : Port), s.serves = true → s.power.pstate ≤ 1 → s.power.parking = some p → (∀ e ∈ s.streams, e.2.flights = []) →
      (∀ a ∈ s.acts, Act.code a ≠ 9) → s.plat.resetting = [] →
      ∃ u : State, exec .parkEntry s = .next (u.finish p 0 []) ∧ u.power = { s.power with pstate := 2, parking := none, limitPorts := [] }
        ∧ ∀ n, n < 4 → (u.die n).op = 0)
  ∧ (∀ (s : State) (p : Port), s.up = true → s.power.parking = some p →
      s.plat.stage < 2 ∨ s.power.parkUntil ≤ s.now → exec .parkTimeout s = .next (({ s with power := { s.power with parking := none } }).finish p 0x0802 []))
  ∧ (∀ (s : State) (p : Port), s.up = true → s.power.resuming = some p → s.power.pstate ≠ 3 →
      ∃ u : State, exec .resumeComplete s = .next (u.finish p 0 []) ∧ u.power = { s.power with pstate := 0, resuming := none }
        ∧ ∀ n, n < 4 → (u.die n).op = 0 ∧ ∀ h ∈ (u.die n).hints, h.inForce = true ∨ s.now ≤ h.t)
  ∧ (∀ (s : State) (n : Nat), s.serves = true → n < 64 → (s.stream n).state = 2 → (s.stream n).woken = true ∨ (s.stream n).watch = none →
      exec (.streamWake n) s = .next (s.setStream n { s.stream n with state := 1, watch := none, woken := false }))
  ∧ (∀ (s : State) (n : Nat), s.serves = true → n < 64 → (s.stream n).state ≠ 2 → (s.stream n).woken = true →
      exec (.streamWake n) s = .next (s.setStream n { s.stream n with watch := none, woken := false }))
  ∧ (∀ (s : State) (n : Nat), s.serves = true → n < 64 → (s.stream n).woken = false → (s.stream n).state ≠ 2 ∨ (s.stream n).watch ≠ none →
      exec (.streamWake n) s = .next s.releaseWatches)
  ∧ (∀ (s : State) (n : Nat) (v : W64), s.serves = true → n < 64 →
      ((s.stream n).etail + 2 ^ 32 - wfld v 0 32) % 2 ^ 32 ≤ 2 ^ (s.stream n).srsz →
      exec (.streamEheadWrite n v) s = .next (s.setStream n { s.stream n with ehead := wfld v 0 32 }))
  ∧ (∀ (s : State) (n : Nat), s.serves = true → n < 64 → (s.stream n).state = 4 → (s.stream n).err = true →
      exec (.streamCont n) s = .next (s.setStream n { s.stream n with
        state := (if (s.stream n).flights.any (fun f => f.typ == 4) then 3 else 1), err := false }))
  ∧ (∀ (s : State) (n : Nat), s.serves = true → n < 64 → (s.stream n).state ≠ 4 ∨ (s.stream n).err = false →
      exec (.streamCont n) s = .next s)

/-- A LAUNCH whose fields are in range and whose images pass starts once some of its tiles takes its stands: its tiles that hold no
stand are made ready, the L1s of the others are emptied, and the launch is recorded with its grid, shape and tiles; STAND_PLACE
puts the next stand in linear order into the first free slot of a tile that takes stands of the launch; STAND_END frees the
slots of a stand whose crews are over; COPY goes in flight with the foundation die of its slot. FLUSH_RANGE: a record of no
bytes completes OK at once; one in flight whose page is mapped notes the lines of it that are to be flushed, one whose page is
not mapped ends with status 8 and its address; when the flushes of a page have been answered and none failed it moves to the
next page, and completes OK at its end; one that failed ends it with status 8. -/
def Obligations.LaunchesAndStandsComplete : Prop :=
  (∀ (s u u' : State) (n : Nat) (ws tab : List W64) (l : Launch), s.recordFor n 1 = some (ws, u) →
    u.launchOfRec n ws u.launchNum = .ok l →
    u.readKeep (.stream n (u.stream n).next) l.space (wfld (nth 0 ws 4) 0 52) (48 * wfld (nth 0 ws 4) 52 7) = .ok tab u' →
    (images (wfld (nth 0 ws 4) 52 7) tab).all programOk = true → (∃ e ∈ l.tiles, u'.tileOpen l.id l.paced e = true) →
    ∃ w : State, w = l.tiles.foldl (fun t e => if (t.tile e.1 e.2).stands.isEmpty then t.readyTile l.id (images (wfld (nth 0 ws 4) 52 7) tab) e
        else t.flushL1 e.1 e.2) u'
      ∧ exec (.launch n) s = .next (({ w with
          launches := alPut w.launches l.id { l with progs := images (wfld (nth 0 ws 4) 52 7) tab },
          launchNum := w.launchNum + 1 }).start n (u'.newFlight l.addr ws)))
  ∧ (∀ (s : State) (launch die tile slot : Nat) (l : Launch), s.serves = true → s.power.pstate = 0 → alFind s.launches launch = some l →
      l.closed = false → l.next < l.total → (die, tile) ∈ l.tiles → s.tileOpen launch l.paced (die, tile) = true →
      (List.range l.per).find? (fun k => (alFind (s.tile die tile).stands k).isNone) = some slot →
      exec (.standPlace launch die tile) s = .next (s.placeStand launch l die tile slot)
        ∧ alFind ((s.placeStand launch l die tile slot).tile die tile).stands slot
            = some { launch := launch, index := l.next, killed := false, lost := false }
        ∧ alFind (s.placeStand launch l die tile slot).launches launch = some { l with next := l.next + 1 })
  ∧ (∀ (s : State) (die tile slot : Nat) (x : Stand), s.serves = true → die ∉ s.plat.resetting →
      (∀ e ∈ (s.tile die tile).crews, e.2.stand = slot → s.crewOver { die := die, tile := tile, slot := e.1 } e.2 = true) →
      alFind (s.tile die tile).stands slot = some x →
      exec (.standEnd die tile slot) s = .next (s.freeStand die tile slot)
        ∧ (s.freeStand die tile slot).tile die tile = { s.tile die tile with
            stands := alDel (s.tile die tile).stands slot, crews := (s.tile die tile).crews.filter (fun e => e.2.stand != slot) })
  ∧ (∀ (s u : State) (n d : Nat) (ws : List W64), s.recordFor n 2 = some (ws, u) →
      1 ≤ wfld (nth 0 ws 2) 0 13 → wfld (nth 0 ws 2) 0 13 ≤ 4096 → wfld (nth 0 ws 1) 0 6 = 0 → wfld (nth 0 ws 2) 16 8 ≠ 0 →
      nth none (u.stream n).slots (wfld (nth 0 ws 2) 13 2) = some d →
      exec (.copy n) s = .next (u.start n { u.newFlight (u.stream n).next ws with die := d }))
  ∧ (∀ (s u : State) (n : Nat) (ws : List W64), s.openFlight n 7 = none → s.recordFor n 7 = some (ws, u) →
      (nth 0 ws 2).toNat = 0 → exec (.flushRange n) s = .next ((u.start n (u.newFlight (u.stream n).next ws)).finFlight n (u.stream n).next 0 0))
  ∧ (∀ (s : State) (n : Nat) (f : Flight) (stop past : Nat), s.serves = true → n < 64 → s.openFlight n 7 = some f →
      stop = wfld (nth 0 f.words 1) 0 52 + (nth 0 f.words 2).toNat → past = min stop ((f.pos / 2 ^ 25 + 1) * 2 ^ 25) → f.pos < stop → f.pos < 2 ^ 52 →
      (∀ (u t : State) (pa : Nat), f.lines = none → s.unitXlat (.stream n f.addr) .flush (s.stream n).space f.pos = .hit pa u →
        u.region pa ≠ .unmapped → u.region pa ≠ .regs →
        t = u.onFlush n f (fun x => { x with lines := some ((if (u.remoteOf (u.region pa)).isSome then
              (List.range ((pa + (past - f.pos) + 127) / 128 - pa / 128)).map (fun k => pa / 128 + k)
            else u.dirtyLines (pa / 128) ((pa + (past - f.pos) + 127) / 128)).map (fun l => f.pos / 2 ^ 25 * 2 ^ 25 + l * 128 % 2 ^ 25)) }) →
        t.takes n = false → exec (.flushRange n) s = .next t)
      ∧ (∀ (u t : State), f.lines = none → s.unitXlat (.stream n f.addr) .flush (s.stream n).space f.pos = .fail u →
          t = u.finFlight n f.addr 8 (BitVec.ofNat 64 f.pos) → t.takes n = false → exec (.flushRange n) s = .next t)
      ∧ (∀ (u t : State) (vas : List Nat) (l : List (Req × AccResult)), f.lines = some vas →
          s.unitAll (flushReqs n f (s.stream n).space vas) = .done l u → firstFail l = none →
          t = (if stop ≤ past then ((u.unitEnd (flushReqs n f (s.stream n).space vas)).onFlush n f (fun x =>
              { x with pos := past, lines := none })).finFlight n f.addr 0 0
            else (u.unitEnd (flushReqs n f (s.stream n).space vas)).onFlush n f (fun x => { x with pos := past, lines := none })) →
          t.takes n = false → exec (.flushRange n) s = .next t)
      ∧ (∀ (u t : State) (vas : List Nat) (l : List (Req × AccResult)) (k a : Nat), f.lines = some vas →
          s.unitAll (flushReqs n f (s.stream n).space vas) = .done l u → firstFail l = some (k, a) →
          t = (u.unitEnd (flushReqs n f (s.stream n).space vas)).finFlight n f.addr 8 (BitVec.ofNat 64 a) →
          t.takes n = false → exec (.flushRange n) s = .next t))

/-- A SIGNAL or EPOCH at its first attempt or a later one: its write, once answered, completes it OK, a failure ends it with status
10 and the cause, and an access still out leaves it in flight. A WAIT that holds its watch, or whose line nobody can watch,
reads its word: it completes OK when its condition holds and the snoops received have been applied, else it notes the value;
without the watch it asks for it. A WAIT whose timeout expires ends with status 9 and the last value. PHASE_HINT and OP_REQUEST
of a stream of the other class are passed over and counted, and otherwise act on the dies of their slots. LINK moves the stream
to NEXT; a LINK with NEXT zero and an EMPTY park the stream once it watches the record, and ask for the watch before that.
RECORD_COMPLETE: a record with status OK leaves its stream and raises its source when IRQ says so; with any other status it
waits while the status ring is full, else leaves when its status record has landed, advances ETAIL and raises its source, and
stops the stream when STOP says so; a status record that cannot be written is logged and stops the stream. -/
def Obligations.RecordsComplete : Prop :=
  (∀ (s w : State) (n : Nat) (sg : Bool) (f : Flight), s.worksOn n (if sg then 3 else 9) (fun ws => wfld (nth 0 ws 1) 0 3 == 0) = some (f, w) →
    ∀ x : Req, x = recWr n f.addr (w.stream n).space (wfld (nth 0 f.words 1) 0 52)
        (if sg then nth 0 f.words 2 else BitVec.ofNat 64 (w.stream n).epoch) (sg && bitOf (nth 0 f.words 3).toNat 0) →
    (∀ (old : W64) (t : State), w.recAccess x = .done old t → s.openFlight n (if sg then 3 else 9) = none ∨ (t.finFlight n f.addr 0 0).takes n = false →
      exec (if sg then .signal n else .epoch n) s = .next (t.finFlight n f.addr 0 0))
    ∧ (∀ (k : Nat) (t r : State), w.recAccess x = .fail k t → r = t.finFlight n f.addr 10 (accessDetail (wfld (nth 0 f.words 1) 0 52) k) →
        s.openFlight n (if sg then 3 else 9) = none ∨ r.takes n = false → exec (if sg then .signal n else .epoch n) s = .next r)
    ∧ (∀ t : State, w.recAccess x = .wait t → s.openFlight n (if sg then 3 else 9) = none ∨ t.takes n = false →
        exec (if sg then .signal n else .epoch n) s = .next t))
  ∧ (∀ (s w v : State) (n pa : Nat) (f : Flight),
      s.worksOn n 4 (fun ws => wfld (nth 0 ws 1) 0 3 == 0 && wfld (nth 0 ws 3) 0 2 != 3) = some (f, w) → f.due = none →
      w.unitXlat (.stream n f.addr) .bread (w.stream n).space (wfld (nth 0 f.words 1) 0 52) = .hit pa v →
      (∀ (x : W64) (t : State), v.watchable pa = none ∨ (∃ line, v.watchable pa = some line ∧ (v.stream n).watch = some line ∧ v.ast (v.agentId 8) line = .s) →
        v.recAccess (unitReq (.stream n f.addr) .bread (v.stream n).space (wfld (nth 0 f.words 1) 0 52) 8) = .done x t →
        (condMet f.words x = true → t.snoopIn ≤ t.snoopOut → s.openFlight n 4 = none ∨ (t.finFlight n f.addr 0 0).takes n = false →
          exec (.wait n) s = .next (t.finFlight n f.addr 0 0))
        ∧ (∀ r : State, condMet f.words x = false → r = t.setStream n { t.stream n with
            flights := (t.stream n).flights.map (fun g => if g.addr = f.addr then { g with last := x } else g) } →
            s.openFlight n 4 = none ∨ r.takes n = false → exec (.wait n) s = .next r))
      ∧ (∀ (line : Nat) (l : List Level), v.watchable pa = some line → (v.stream n).watch ≠ some line → v.route .hub pa = .go l →
          s.openFlight n 4 = none ∨ (v.setWatch n line).takes n = false → exec (.wait n) s = .next (v.setWatch n line)))
  ∧ (∀ (s : State) (n : Nat) (f : Flight), s.serves = true → n < 64 → s.openFlight n 4 = some f → wfld (nth 0 f.words 3) 32 32 ≠ 0 →
      f.since + 1000 * wfld (nth 0 f.words 3) 32 32 ≤ s.now → exec (.waitTimeout n) s = .next (s.finFlight n f.addr 9 f.last))
  ∧ (∀ (s u : State) (n : Nat) (ws : List W64), s.recordFor n 5 = some (ws, u) → (u.stream n).cls ≠ 0 →
      exec (.phaseHint n) s = .next ((u.pass n ((u.stream n).next + 64) false).count (svc 0)))
  ∧ (∀ (s u : State) (n : Nat) (ws : List W64), s.recordFor n 5 = some (ws, u) → (u.stream n).cls = 0 →
      wfld (nth 0 ws 1) 16 16 ≠ 0 → (nth 0 ws 2).toNat ≤ u.now + 2000000 → (u.stream n).smaskBad (wfld (nth 0 ws 1) 0 4) = none →
      exec (.phaseHint n) s = .next (((u.stream n).diesOf (wfld (nth 0 ws 1) 0 4)).foldl
        (fun (x : State) d => x.takeHint {
          stream := n, t := (nth 0 ws 2).toNat, dur := wfld (nth 0 ws 1) 16 16, opmin := wfld (nth 0 ws 1) 4 3,
          pwr := wfld (nth 0 ws 3) 0 12, inForce := false, marked := false, raised := false } d)
        (u.pass n ((u.stream n).next + 64) (bitOf (nth 0 ws 0).toNat 10))))
  ∧ (∀ (s u : State) (n : Nat) (ws : List W64), s.recordFor n 6 = some (ws, u) → (u.stream n).cls = 1 →
      (u.stream n).smaskBad (wfld (nth 0 ws 1) 0 4) = none →
      exec (.opRequest n) s = .next (((u.stream n).diesOf (wfld (nth 0 ws 1) 0 4)).foldl
        (fun (x : State) d => x.setDie d { x.die d with
          reqs := if wfld (nth 0 ws 1) 7 1 = 1 then alDel (x.die d).reqs n else alPut (x.die d).reqs n (wfld (nth 0 ws 1) 4 3 + 1) })
        (u.pass n ((u.stream n).next + 64) (bitOf (nth 0 ws 0).toNat 10))))
  ∧ (∀ (s u : State) (n : Nat) (ws : List W64), s.recordFor n 6 = some (ws, u) → (u.stream n).cls ≠ 1 →
      exec (.opRequest n) s = .next ((u.pass n ((u.stream n).next + 64) false).count (svc 0)))
  ∧ (∀ (s u : State) (n : Nat) (ws : List W64), s.recordFor n 10 = some (ws, u) → wfld (nth 0 ws 1) 0 52 ≠ 0 →
      wfld (nth 0 ws 1) 0 52 % 64 = 0 →
      exec (.link n) s = .next (u.pass n (wfld (nth 0 ws 1) 0 52) (bitOf (nth 0 ws 0).toNat 10)))
  ∧ (∀ (s u v : State) (n pa : Nat) (ws : List W64) (lk : Bool), s.recordFor n (if lk then 10 else 0) = some (ws, u) →
      (lk = true → wfld (nth 0 ws 1) 0 52 = 0) →
      u.unitXlat (.stream n (u.stream n).next) .bread (u.stream n).space (u.stream n).next = .hit pa v →
      (v.watchable pa = none → exec (if lk then .link n else .empty n) s
        = .next ((v.nextRead n).setStream n { v.stream n with state := 2, watch := none, woken := false }))
      ∧ (∀ line : Nat, v.watchable pa = some line →
          ((v.stream n).watch = some line → v.ast (v.agentId 8) line = .s → exec (if lk then .link n else .empty n) s
            = .next ((v.nextRead n).setStream n { v.stream n with state := 2, woken := false }))
          ∧ ((v.stream n).watch ≠ some line → exec (if lk then .link n else .empty n) s = .next ((v.nextRead n).setWatch n line))))
  ∧ (∀ (s : State) (n addr : Nat) (f : Flight) (st : Nat) (d : W64) (leave : State → Bool → State), s.serves = true → n < 64 →
      (s.stream n).flights.find? (fun f => f.addr == addr && f.fin.isSome) = some f → f.fin = some (st, d) →
      leave = (fun t stop => (((t.worked.dropWatchIf n (f.typ == 4)).setStream n
        (((t.worked.dropWatchIf n (f.typ == 4)).stream n).completed addr stop)).forgetLaunch n addr)) →
      (st = 0 → exec (.recordComplete n addr) s = .next (if f.irq then (leave s false).raise n else leave s false))
      ∧ (st ≠ 0 → 2 ^ (s.stream n).srsz ≤ (s.stream n).ringUsed → exec (.recordComplete n addr) s = .next s)
      ∧ (∀ xs : List Req, st ≠ 0 → (s.stream n).ringUsed < 2 ^ (s.stream n).srsz →
          xs = writeReqs (.stream n f.addr) .store (s.stream n).space ((s.stream n).sring + (s.stream n).etail % 2 ^ (s.stream n).srsz * 32)
            ((statusWords f st d s.now).flatMap (leBytes 8)) false →
          (∀ (t : State) (b : List Byte) (p : List Nat) (ys : List Req), s.unitWrites xs = .ok b p ys t → exec (.recordComplete n addr) s
            = .next (((leave t f.stop).setStream n { (leave t f.stop).stream n with etail := ((s.stream n).etail + 1) % 2 ^ 32 }).raise n))
          ∧ (∀ (t : State) (k a : Nat), k = 6 ∨ k = 7 → s.unitWrites xs = .fail k a t → exec (.recordComplete n addr) s
              = .next (if f.irq then ((leave t true).logEv 0x0017 4 1 [n, f.addr, st, k]).raise n
                else (leave t true).logEv 0x0017 4 1 [n, f.addr, st, k]))))

/-- COLLECTIVE lets the plans of its records in flight go on, and a valid plan that the stream takes starts on the engine of its
placement slot. A chunk whose CRC or length is wrong is answered NACK; one without a plan is held, or answered BUSY with 256
held, and NACK after 100 ms; a duplicate is answered ACK; one of a RECV-copy step whose chunk is ready is written to DBUF, noted
as landed and answered ACK. ACK retires a chunk and gives its tokens back; after BUSY it goes out again unchanged, after NACK or
50 us without an answer with TRY one higher: sent, or kept until there are tokens, or the peer being unreachable the plan ends;
refused at TRY 3 the plan ends in an error. A step without progress for TMO ends its plan in an error. A plan in error gives up
its tokens and accesses, leaves DBUF unspecified, completes its record with status 5, and is logged with source 77. A plan whose
chunks are all done completes OK, or POISONED_DATA. -/
def Obligations.CollectivesComplete : Prop :=
  (∀ (s u v t : State) (n d : Nat) (ws w all : List W64), s.serves = true → n < 64 →
    (s.collectiveGo n).recordFor n 8 = some (ws, u) → wfld (nth 0 ws 1) 0 52 % 64 = 0 →
    u.readKeep (.stream n (u.stream n).next) (u.stream n).space (wfld (nth 0 ws 1) 0 52) 8 = .ok w v → planOp w ≠ 5 →
    v.readKeep (.stream n (u.stream n).next) (u.stream n).space (wfld (nth 0 ws 1) 0 52) (8 + 2 * planNstep w) = .ok all t →
    headerValid all = true →
    ((List.range (planNstep all)).map (fun i => planStep (nth 0 all (8 + 2 * i)) (nth 0 all (9 + 2 * i)))).all
      (stepValid (planOp all) (wfld (nth 0 all 3) 0 40)) = true →
    nth none (t.stream n).slots (wfld (nth 0 ws 2) 0 2) = some d → t.dieLive d = true → (alGet [] t.plans d).length < 16 →
    ∃ x : State, x = t.start n (t.newFlight (t.stream n).next ws)
      ∧ exec (.collective n) s = .next (({ x with plans := alMod [] x.plans d (fun l => l ++ [t.newPlan n (t.stream n).next
          (t.stream n).space all ((List.range (planNstep all)).map (fun i => planStep (nth 0 all (8 + 2 * i)) (nth 0 all (9 + 2 * i))))]) }).planGo
          d (planCid all)))
  ∧ (∀ (s : State) (n : Nat), s.serves = true → n < 64 → (s.collectiveGo n).takes n = false → exec (.collective n) s = .next (s.collectiveGo n))
  ∧ (∀ (s : State) (die : Nat) (b : List Byte), s.engineRuns die = true → chunkGood b = false →
      exec (.chunkReceive die b) s = .next (s.answerChunk die (chunkAt b) .nack))
  ∧ (∀ (s : State) (die : Nat) (b : List Byte), s.engineRuns die = true → chunkGood b = true → s.planOf die (chunkAt b).cid = none →
      ((alGet [] s.holds die).length < 256 →
        exec (.chunkReceive die b) s = .next { s with holds := alMod [] s.holds die (fun l => l ++ [(s.now, chunkAt b)]) })
      ∧ (256 ≤ (alGet [] s.holds die).length → exec (.chunkReceive die b) s = .next (s.answerChunk die (chunkAt b) .busy)))
  ∧ (∀ (s : State) (die : Nat) (b : List Byte) (k : Chunk) (p : Plan), s.engineRuns die = true → chunkGood b = true → chunkAt b = k →
      s.planOf die k.cid = some p →
      (p.stepsFor k ≠ [] → (∀ i ∈ p.stepsFor k, (i, k.chunk) ∈ p.landed) →
        exec (.chunkReceive die b) s = .next ((s.answerChunk die k .ack).planGo die k.cid))
      ∧ (∀ (i : Nat) (t : PStep) (u : State) (x : List Byte) (q : List Nat) (ys : List Req),
          (p.stepsFor k).find? (fun i => !(p.landed.contains (i, k.chunk))) = some i → p.ready i k.chunk = true → p.steps[i]? = some t → t.kind = 2 →
          s.unitWrites (writeReqs (.engine die k.cid i) .bwrite p.space (p.dbuf + 4096 * k.chunk) k.payload k.psn) = .ok x q ys u →
          exec (.chunkReceive die b) s = .next (((u.setPlan die { p with
            landed := p.landed ++ [(i, k.chunk)], poisoned := p.poisoned || k.psn, prog := alPut p.prog i u.now }).answerChunk die k .ack).planGo
              die k.cid)))
  ∧ (∀ (s : State) (die cid chunk : Nat) (e : Nat × Chunk), s.engineRuns die = true → s.planOf die cid = none →
      (alGet [] s.holds die).find? (fun e => e.2.cid == cid && e.2.chunk == chunk && decide (e.1 + 100000000 ≤ s.now)) = some e →
      exec (.chunkHoldExpiry die cid chunk) s
        = .next (({ s with holds := alMod [] s.holds die (fun l => l.erase e) }).answerChunk die e.2 .nack))
  ∧ (∀ (s : State) (die cid step chunk : Nat) (p : Plan) (o : OutChunk), s.engineRuns die = true → s.planOf die cid = some p →
      p.out.find? (fun o => o.step == step && o.chunk == chunk) = some o →
      exec (.chunkAnswer die cid step chunk .ack) s = .next (((s.chunkBack o).setPlan die { p with
        out := p.out.filter (fun o => !(o.step == step && o.chunk == chunk)), acked := p.acked ++ [(step, chunk)],
        prog := alPut p.prog step s.now }).planGo die cid)
      ∧ ∀ (i : Instr) (busy : Bool), (i = .chunkAnswer die cid step chunk .busy ∧ busy = true) ∨ (i = .chunkAnswer die cid step chunk .nack ∧ busy = false)
          ∨ (i = .chunkTimeout die cid step chunk ∧ busy = false ∧ o.owed = false ∧ o.sent + 50000 ≤ s.now) →
        (busy = false → 3 ≤ o.try_ → exec i s = .next (s.planError die cid 0))
        ∧ (∀ (t : PStep) (o1 : OutChunk), busy = true ∨ o.try_ < 3 → p.steps[step]? = some t →
            o1 = { o with try_ := if busy then o.try_ else o.try_ + 1, levels := none } →
            (∀ (lv : Option (Nat × Nat)) (u : State),
              (s.chunkBack o).sendChunk die t.peer ((s.chunkBack o).chunkOf die cid o1) = .sent lv u → exec i s = .next (u.setPlan die { p with
                out := p.out.map (fun y => if y.step = step ∧ y.chunk = chunk then { o1 with owed := false, levels := lv, sent := (s.chunkBack o).now } else y) }))
            ∧ (∀ u : State, (s.chunkBack o).sendChunk die t.peer ((s.chunkBack o).chunkOf die cid o1) = .refused u →
                exec i s = .next (u.setPlan die { p with
                  out := p.out.map (fun y => if y.step = step ∧ y.chunk = chunk then { o1 with owed := true, levels := none } else y) }))
            ∧ ((s.chunkBack o).sendChunk die t.peer ((s.chunkBack o).chunkOf die cid o1) = .unreachable →
                exec i s = .next ((s.chunkBack o).planError die cid 2))))
  ∧ (∀ (s : State) (die cid step : Nat) (p : Plan) (t : PStep), s.engineRuns die = true → s.planOf die cid = some p →
      p.steps[step]? = some t → p.stepDone step t = false →
      alGet p.since p.prog step + (if p.tmo = 0 then 10000000000 else 1000 * p.tmo) ≤ s.now →
      exec (.stepTimeout die cid step) s = .next (s.planError die cid 1))
  ∧ (∀ (s u : State) (die cid cause : Nat) (p : Plan), s.planOf die cid = some p →
      u = (p.out.foldl State.chunkBack s).unitQuit (fun w => match w with | .engine d c _ => d == die && c == cid | _ => false) →
      s.planError die cid cause
        = ((((u.ruin die p.space p.dbuf p.nbytes).dropPlan die cid).finFlight p.stream p.addr 5 (BitVec.ofNat 64 cid)).logEv 0x000D die 2 [cid, cause]).raise 77)
  ∧ (∀ (s : State) (die cid : Nat) (p : Plan), s.engineRuns die = true → s.planOf die cid = some p →
      (∀ k t, p.steps[k]? = some t → p.stepDone k t = true) →
      exec (.planComplete die cid) s = .next ((s.dropPlan die cid).finFlight p.stream p.addr (if p.poisoned then 6 else 0)
        (if p.poisoned then BitVec.ofNat 64 cid else 0)))

/-- Each format A integer instruction that issues writes, for every lane it is performed for, the result of Table 3.8 on its sources
at the width of its TYPE, and its path moves on: MOV, SEL, SREAD, sums, differences, products (low half, signed and unsigned
high half, with an addend), signed and unsigned minimum and maximum, the four bitwise operations, shifts by B modulo the width,
population and leading-zero counts, bit-field extraction, and ISETP into a predicate. -/
def Obligations.IntegerInstructionsComplete : Prop :=
  EffectA .mov 0x00 (fun _ _ b _ => b)
  ∧ Effect .sel 0x01 (fun u i => u.done i (i.each (wfld i.w 16 8) (regsOf (typeOf i.w)) (fun l =>
      if i.v.getP l (wfld i.w 40 3) then i.read l (wfld i.w 24 8) (regsOf (typeOf i.w)) else i.srcB l)))
  ∧ Effect .sread 0x02 (fun u i => u.done i (if wfld i.w 32 4 = 13
      then { i.each (wfld i.w 16 8) 1 (fun l => u.special i.c i.v l 13) with dtimeHi := BitVec.ofNat 32 (u.now / 2 ^ 32) }
      else i.each (wfld i.w 16 8) 1 (fun l => u.special i.c i.v l (wfld i.w 32 4))))
  ∧ EffectA .iadd 0x08 (fun _ a b _ => a + b)
  ∧ EffectA .isub 0x09 (fun ty a b _ => (((a : Int) - b) % (2 ^ bitsA ty : Nat)).toNat)
  ∧ EffectA .imul 0x0A (fun _ a b _ => a * b)
  ∧ EffectA .imulhi 0x0B (fun _ a b _ => (signed 32 a * signed 32 b / (2 ^ 32 : Nat) % (2 ^ 32 : Nat)).toNat)
  ∧ EffectA .imulhu 0x0C (fun _ a b _ => a * b / 2 ^ 32)
  ∧ EffectA .imad 0x0D (fun _ a b x => a * b + x)
  ∧ EffectA .imin 0x0E (fun ty a b _ => if signed (bitsA ty) a ≤ signed (bitsA ty) b then a else b)
  ∧ EffectA .imax 0x0F (fun ty a b _ => if signed (bitsA ty) a ≤ signed (bitsA ty) b then b else a)
  ∧ EffectA .umin 0x10 (fun _ a b _ => if a ≤ b then a else b)
  ∧ EffectA .umax 0x11 (fun _ a b _ => if a ≤ b then b else a)
  ∧ EffectA .and 0x12 (fun _ a b _ => a &&& b)
  ∧ EffectA .or 0x13 (fun _ a b _ => a ||| b)
  ∧ EffectA .xor 0x14 (fun _ a b _ => a ^^^ b)
  ∧ EffectA .not 0x15 (fun ty a _ _ => 2 ^ bitsA ty - 1 - a)
  ∧ EffectA .shl 0x16 (fun ty a b _ => a * 2 ^ (b % bitsA ty))
  ∧ EffectA .shr 0x17 (fun ty a b _ => a / 2 ^ (b % bitsA ty))
  ∧ EffectA .sar 0x18 (fun ty a b _ => (signed (bitsA ty) a / (2 ^ (b % bitsA ty) : Nat) % (2 ^ bitsA ty : Nat)).toNat)
  ∧ EffectA .popc 0x19 (fun _ a _ _ => popCount 32 a)
  ∧ EffectA .clz 0x1A (fun _ a _ _ => 32 - bitLen a)
  ∧ EffectA .bfx 0x1B (fun _ a b _ => a / 2 ^ (b % 32) % 2 ^ (if b / 256 % 32 = 0 then 32 else b / 256 % 32))
  ∧ Effect .isetp 0x1C (fun u i => u.done i (i.eachP (wfld i.w 16 3) (fun l => icmp (codeC i.w) (32 * regsOf (typeOf i.w))
      (i.read l (wfld i.w 24 8) (regsOf (typeOf i.w))) (i.srcB l))))
  ∧ (∀ n a b : Nat, icmp 0 n a b = decide (signed n a = signed n b) ∧ icmp 1 n a b = decide (signed n a ≠ signed n b)
      ∧ icmp 2 n a b = decide (signed n a < signed n b) ∧ icmp 3 n a b = decide (signed n a ≤ signed n b)
      ∧ icmp 4 n a b = decide (signed n b < signed n a) ∧ icmp 5 n a b = decide (signed n b ≤ signed n a)
      ∧ icmp 6 n a b = decide (a < b) ∧ icmp 7 n a b = decide (a ≤ b) ∧ icmp 8 n a b = decide (b < a) ∧ icmp 9 n a b = decide (b ≤ a))

/-- FADD, FSUB, FMUL and FFMA write the FP32 rounding, once, of the exact result; FMIN and FMAX the lesser and greater; FSETP a
predicate, UNORD included; CVT converts from format C to TYPE under RND and SAT, each stochastically rounded element with a draw
of its own (a free value, log entry 16). No flags are recorded. -/
def Obligations.FloatingPointInstructionsComplete : Prop :=
  EffectA .fadd 0x20 (fun _ a b _ => (fFP32.arith (vadd (fFP32.decode a) (fFP32.decode b))).1)
  ∧ EffectA .fsub 0x21 (fun _ a b _ => (fFP32.arith (vadd (fFP32.decode a) (fFP32.decode b).negate)).1)
  ∧ EffectA .fmul 0x22 (fun _ a b _ => (fFP32.arith (vmul (fFP32.decode a) (fFP32.decode b))).1)
  ∧ EffectA .ffma 0x23 (fun _ a b x => (fFP32.arith (vfma (fFP32.decode a) (fFP32.decode b) (fFP32.decode x))).1)
  ∧ EffectA .fmin 0x24 (fun _ a b _ => (fFP32.minMax false a b).1)
  ∧ EffectA .fmax 0x25 (fun _ a b _ => (fFP32.minMax true a b).1)
  ∧ Effect .fsetp 0x26 (fun u i => u.done i (i.eachP (wfld i.w 16 3) (fun l =>
      if codeC i.w = 6 then
        (fFP32.decode (i.read l (wfld i.w 24 8) (regsOf (typeOf i.w)))).isNan || (fFP32.decode (i.srcB l)).isNan
      else (fcmp (codeC i.w) (fFP32.decode (i.read l (wfld i.w 24 8) (regsOf (typeOf i.w)))) (fFP32.decode (i.srcB l))).1)))
  ∧ (∀ (s u : State) (c : CrewId) (w : W64) (i : Issue) (m : Rm), s.issues c w 0x28 = some (i, u) → wfld w 52 2 ≠ 2 →
      (∀ x, rmOf (wfld w 52 2) x = some m) →
      exec (.cvt c w) s = .next (u.done i (i.each (wfld w 16 8) (regsOf (typeOf w)) (fun l =>
        (cvt (codeC w) (typeOf w) m (wfld w 54 1 == 1) (fld (i.read l (wfld w 24 8) (regsOf (codeC w))) 0 (fmtBits (codeC w)))).1))))
  ∧ (∀ (s u : State) (c : CrewId) (w : W64) (i : Issue), s.issues c w 0x28 = some (i, u) → wfld w 52 2 = 2 →
      exec (.cvt c w) s = .next (({ u with fresh := u.fresh + i.lanes.length } : State).done i (i.lanes.foldl (fun (a : Crew × Nat) l =>
        (a.1.setN (uniOf w) l (wfld w 16 8) (regsOf (typeOf w)) (cvt (codeC w) (typeOf w) ((rmOf 2 (Free.rand a.2).toNat).getD .rne)
          (wfld w 54 1 == 1) (fld (i.read l (wfld w 24 8) (regsOf (codeC w))) 0 (fmtBits (codeC w)))).1, a.2 + 1)) (i.v, u.fresh)).1))

/-- A branch sends its participating lanes to their targets and the rest on; lanes that stay together go on as one path, and lanes
that part share the reconvergence point the branch names, or run on as paths of their own where it names none. CALL pushes a
call frame with reconvergence point PC + 8, RET sends its lanes to the point of the innermost call frame, EXIT ends its lanes,
and the crew when they were its last; TRAP and BRK park the crew with causes 0x0D and 0x0E. A full frame stack and a RET without
a call frame trap with cause 0x0A. -/
def Obligations.ControlInstructionsComplete : Prop :=
  Effect .nop 0x400 (fun u i => u.done i i.v)
  ∧ Effect .bra 0x401 (fun u i => u.branch i (fun _ => addOff i.pc (8 * off24 i.w 16)))
  ∧ Effect .brx 0x402 (fun u i => u.branch i (fun l => i.v.getN false l (wfld i.w 16 8) 2))
  ∧ (∀ (u : State) (i : Issue) (t : Nat), i.part = i.active → i.active ≠ 0 →
      u.branch i (fun _ => t) = u.setCrew i.c (i.v.split [(t, i.v.frame, i.active)] (decide (t ≤ i.pc))))
  ∧ (∀ (s u : State) (c : CrewId) (w : W64) (i : Issue), s.issues c w 0x403 = some (i, u) → i.v.frames.length < 32 →
      exec (.call c w) s = .next (u.setCrew c (({ i.v with
        frames := i.v.frames ++ [({ id := i.v.nextFrame, rcv := i.pc + 8, call := true, parent := i.v.frame } : Frame)]
        nextFrame := i.v.nextFrame + 1 }).split (groupLanes (fun l => if (lanesOf i.part).contains l then
          (addOff i.pc (8 * off24 w 16), i.v.nextFrame) else (i.pc + 8, i.v.frame)) (lanesOf i.active))
        (decide (addOff i.pc (8 * off24 w 16) ≤ i.pc)))))
  ∧ (∀ (s u : State) (c : CrewId) (w : W64) (i : Issue), s.issues c w 0x403 = some (i, u) → 32 ≤ i.v.frames.length →
      exec (.call c w) s = .next (u.trap i i.active 0x0A 0))
  ∧ (∀ (s u : State) (c : CrewId) (w : W64) (i : Issue) (f : Frame), s.issues c w 0x404 = some (i, u) →
      i.v.frames.find? (fun f => f.id == i.v.frame && f.call) = some f →
      exec (.ret c w) s = .next (u.setCrew c (i.v.split (groupLanes (fun l =>
        (if (lanesOf i.part).contains l then f.rcv else i.pc + 8, i.v.frame)) (lanesOf i.active)) false)))
  ∧ (∀ (s u : State) (c : CrewId) (w : W64) (i : Issue), s.issues c w 0x404 = some (i, u) →
      i.v.frames.find? (fun f => f.id == i.v.frame && f.call) = none → exec (.ret c w) s = .next (u.trap i i.part 0x0A 1))
  ∧ (∀ (s u : State) (c : CrewId) (w : W64) (i : Issue), s.issues c w 0x405 = some (i, u) → i.active &&& ~~~i.part ≠ 0 →
      exec (.exit c w) s = .next (u.setCrew c (({ i.v with
        paths := updNth i.v.paths i.v.cur (fun p => { p with lanes := i.active &&& ~~~i.part }) }).advance false)))
  ∧ (∀ (s u : State) (c : CrewId) (w : W64) (i : Issue), s.issues c w 0x405 = some (i, u) → i.active &&& ~~~i.part = 0 →
      exec (.exit c w) s = .next ((u.setCrew c (({ i.v with
        paths := i.v.paths.eraseIdx i.v.cur
        cur := if i.v.cur = 0 then (i.v.paths.eraseIdx i.v.cur).length - 1 else i.v.cur - 1 }).after true)).crewGone c))
  ∧ Effect .trap 0x406 (fun u i => u.trap i i.part 0x0D (BitVec.ofNat 64 (wfld i.w 16 16)))
  ∧ Effect .brk 0x407 (fun u i => u.trap i i.part 0x0E 0)
  ∧ (∀ (u : State) (i : Issue) (m : LaneMask) (k : Nat) (d : W64), (u.trap i m k d).crew i.c = some { i.v with parked := some {
      cause := k, instr := i.w, pc := i.pc, active := i.active, fault := m, first := lowest m, detail := d, late := i.late, time := u.now,
      recorded := false } } ∧ alGet [] (u.trap i m k d).trapWait i.c.die = alGet [] u.trapWait i.c.die ++ [i.c])

/-- An access whose lanes pass the address-range, alignment and bound checks: a local load writes each lane's register, a local
store writes local store, a local atomic or reduction replaces the word by the result of its sub-operation, and the path moves
on; a global access starts one request per lane, which waits for its translation, and the path moves on while they are
outstanding; a global load carries the L1 sectors that it will find uncorrectable; REDL starts one request of a whole line;
BCOPY submits a descriptor per participating lane, counted in the crew's outstanding copies. -/
def Obligations.CrewAccessesComplete : Prop :=
  (∀ (s u u' : State) (c : CrewId) (w : W64) (lost : List Nat) (i : Issue) (v : Crew), s.issues c w 0x100 = some (i, u) → wfld w 59 1 = 0 →
    laneFaults false (u.windowOf c i.v) (sizeOf_ w) (i.ldst (sizeOf_ w)) = [] →
    (i.ldst (sizeOf_ w)).foldl (localLoad i (sizeOf_ w)) (u, i.v, []) = (u', v, []) → exec (.ld c w lost) s = .next (u'.done i v))
  ∧ (∀ (s u : State) (c : CrewId) (w : W64) (i : Issue), s.issues c w 0x101 = some (i, u) → wfld w 59 1 = 0 →
      laneFaults false (u.windowOf c i.v) (sizeOf_ w) (u.laneOrder (i.ldst (sizeOf_ w))) = [] →
      exec (.st c w) s = .next (((u.laneOrder (i.ldst (sizeOf_ w))).foldl
        (fun (t : State) a => t.writeLs c.die c.tile a.addr (leBytes (sizeOf_ w) a.data)) (u.ordered (i.ldst (sizeOf_ w)))).done i i.v))
  ∧ (∀ (s u u' : State) (c : CrewId) (w : W64) (i : Issue) (v : Crew), s.issues c w 0x502 = some (i, u) → wfld w 56 1 = 0 →
      laneFaults false (u.windowOf c i.v) (atomicSize (typeOf w)) (u.laneOrder i.atoms) = [] →
      (u.laneOrder i.atoms).foldl (localAtom i true) (u.ordered i.atoms, i.v, []) = (u', v, []) → exec (.atom c w) s = .next (u'.done i v))
  ∧ (∀ (s u u' : State) (c : CrewId) (w : W64) (i : Issue) (v : Crew), s.issues c w 0x503 = some (i, u) → wfld w 56 1 = 0 →
      laneFaults false (u.windowOf c i.v) (atomicSize (typeOf w)) (u.laneOrder i.atoms) = [] →
      (u.laneOrder i.atoms).foldl (localAtom i false) (u.ordered i.atoms, i.v, []) = (u', v, []) → exec (.red c w) s = .next (u'.done i v))
  ∧ (∀ (s u : State) (c : CrewId) (w : W64) (lost : List Nat) (i : Issue), s.issues c w 0x100 = some (i, u) → wfld w 59 1 = 1 →
      laneFaults true (0, 0) (sizeOf_ w) (i.ldst (sizeOf_ w)) = [] →
      exec (.ld c w lost) s = .next (((i.ldst (sizeOf_ w)).foldl (fun (t : State) a => (t.startReq
          { laneReq c i.v.nextGrp .load (u.spaceOf c) (sizeOf_ w) a with dst := wfld w 16 8, uni := uniOf w, sx := wfld w 60 1 == 1, lost := lost }).1)
        (u.done i { i.v with groups := i.v.groups ++ [i.group i.whole []], nextGrp := i.v.nextGrp + 1 })).raiseGroup c))
  ∧ (∀ (s u : State) (c : CrewId) (w : W64) (i : Issue), s.issues c w 0x101 = some (i, u) → wfld w 59 1 = 1 →
      laneFaults true (0, 0) (sizeOf_ w) (u.laneOrder (i.ldst (sizeOf_ w))) = [] →
      exec (.st c w) s = .next (((u.laneOrder (i.ldst (sizeOf_ w))).foldl (fun (t : State) a => (t.startReq
          (laneReq c i.v.nextGrp .store (u.spaceOf c) (sizeOf_ w) a)).1)
        ((u.ordered (i.ldst (sizeOf_ w))).done i { i.v with groups := i.v.groups ++ [i.group i.whole []], nextGrp := i.v.nextGrp + 1 })).raiseGroup c))
  ∧ (∀ (s u : State) (c : CrewId) (w : W64) (i : Issue) (returns : Bool),
      s.issues c w (if returns then 0x502 else 0x503) = some (i, u) → wfld w 56 1 = 1 →
      laneFaults true (0, 0) (atomicSize (typeOf w)) (u.laneOrder i.atoms) = [] →
      exec (if returns then .atom c w else .red c w) s = .next (((u.laneOrder i.atoms).foldl (fun (t : State) a => (t.startReq
          { laneReq c i.v.nextGrp (if returns then .atomic else .red) (u.spaceOf c) (atomicSize (typeOf w)) a with
            sub := wfld w 52 4, ty := typeOf w, dst := (if returns then wfld w 16 8 else 255), uni := uniOf w }).1)
        ((u.ordered i.atoms).done i { i.v with groups := i.v.groups ++ [i.group i.whole []], nextGrp := i.v.nextGrp + 1 })).raiseGroup c))
  ∧ (∀ (s u : State) (c : CrewId) (w : W64) (i : Issue), s.issues c w 0x504 = some (i, u) →
      i.v.getN true 0 (wfld w 24 8) 2 < 2 ^ 52 → i.v.getN true 0 (wfld w 24 8) 2 % 128 = 0 →
      exec (.redl c w) s = .next (((u.done i { i.v with groups := i.v.groups ++ [i.group i.part []], nextGrp := i.v.nextGrp + 1 }).startReq
        { laneReq c i.v.nextGrp .redl (u.spaceOf c) 128 {
            lane := lowest i.part, addr := i.v.getN true 0 (wfld w 24 8) 2, cmp := 0,
            data := (lanesOf i.part).foldl (fun x l => x + (i.immB l 1 % 2 ^ 32) * 2 ^ (32 * l)) 0 } with
          mask := i.part.zeroExtend 128, ty := typeOf w }).1.raiseGroup c))
  ∧ (∀ (s u u' : State) (c : CrewId) (w : W64) (i : Issue) (n : Nat), s.issues c w 0x102 = some (i, u) →
      u.submitLanes i (wfld w 16 4) i.lanes [] i.v.copies = (u', [], [], n) →
      exec (.bcopy c w) s = .next (u'.done { i with v := { i.v with copies := n, subLeft := none } } { i.v with copies := n, subLeft := none }))

/-- BAR makes the path wait at its barrier, which releases when every crew of the stand has arrived; the fences note their kind and
scope, an acquire of system scope also how many host snoops have been received; an acquire completes once its loads and atomics
have returned and those snoops have been applied, a release wider than the crew once its writes are performed and its loads
done, and an acquire wider than the crew invalidates the L1 of its tile; SHFL takes the source lane's A, or the lane's own where
that lane is none or does not participate; VOTE gives ALL, ANY, BALLOT and MATCH over the participating lanes; BWAIT reports a
copy error once or waits on the count, WAITF on words of local store, PAUSE on clocks; a path whose condition holds goes on past
its wait; a crew held at a fence tries it again. -/
def Obligations.SynchronisationInstructionsComplete : Prop :=
  Effect .bar 0x500 (fun u i => (u.setCrew i.c (i.v.waitOn (.bar (wfld i.w 32 3) false))).tryBar i.c i.v.stand (wfld i.w 32 3))
  ∧ Effect .fenceAcq 0x1501 (fun u i => (u.done i { i.v with fence := some (1, wfld i.w 52 2), snoops := (if wfld i.w 52 2 = 3 then u.snoopIn else 0) }).tryFence i.c)
  ∧ Effect .fenceRel 0x2501 (fun u i => (u.done i { i.v with fence := some (2, wfld i.w 52 2), snoops := 0 }).tryFence i.c)
  ∧ Effect .fenceAr 0x3501 (fun u i => (u.done i { i.v with fence := some (3, wfld i.w 52 2), snoops := (if wfld i.w 52 2 = 3 then u.snoopIn else 0) }).tryFence i.c)
  ∧ Effect .shfl 0x505 (fun u i => u.done i (i.each (wfld i.w 16 8) 1 (fun l =>
      match shflSrc (wfld i.w 52 4) l (i.immB l 1) with
      | some k => i.read (if k ∈ lanesOf i.part then k else l) (wfld i.w 24 8) 1
      | none => i.read l (wfld i.w 24 8) 1)))
  ∧ Effect .vote 0x506 (fun u i =>
      if wfld i.w 52 4 = 0 then
        u.done i ((lanesOf i.part).foldl (fun (v : Crew) l => v.setP l (wfld i.w 16 3)
          (decide (∀ k ∈ lanesOf i.part, i.v.getP k (wfld i.w 24 3) = true))) i.v)
      else if wfld i.w 52 4 = 1 then
        u.done i ((lanesOf i.part).foldl (fun (v : Crew) l => v.setP l (wfld i.w 16 3)
          (decide (∃ k ∈ lanesOf i.part, i.v.getP k (wfld i.w 24 3) = true))) i.v)
      else if wfld i.w 52 4 = 2 then
        u.done i (i.each (wfld i.w 16 8) 1 (fun _ => (maskOf ((lanesOf i.part).filter (fun l => i.v.getP l (wfld i.w 24 3)))).toNat))
      else
        u.done i (i.each (wfld i.w 16 8) 1 (fun l => (maskOf ((lanesOf i.part).filter (fun k =>
          i.read k (wfld i.w 24 8) (if typeOf i.w = 13 then 2 else 1) == i.read l (wfld i.w 24 8) (if typeOf i.w = 13 then 2 else 1)))).toNat)))
  ∧ (∀ (s u : State) (c : CrewId) (w : W64) (i : Issue), s.issues c w 0x507 = some (i, u) → i.v.copyErr = [] →
      exec (.bwait c w) s = .next (u.setCrew c (i.v.waitOn (.copies (wfld w 32 8)))))
  ∧ (∀ (s u : State) (c : CrewId) (w : W64) (i : Issue) (k : Nat) (x : Nat × Nat) (d : W64) (rest : List (Nat × W64 × Nat × Nat)),
      s.issues c w 0x507 = some (i, u) → i.v.copyErr = (k, d, x) :: rest →
      exec (.bwait c w) s = .next (u.trap { i with v := { i.v with copyErr := rest } } i.part k d))
  ∧ (∀ (s u : State) (c : CrewId) (w : W64) (i : Issue), s.issues c w 0x508 = some (i, u) →
      (∀ k ∈ i.lanes, laneCheck false (u.windowOf c i.v) 4 (i.read k (wfld w 24 8) 1) = none) →
      exec (.waitf c w) s = .next (u.setCrew c (i.v.waitOn (.word
        (i.lanes.map (fun k => (i.read k (wfld w 24 8) 1, BitVec.ofNat 32 (i.immB k 1))))))))
  ∧ Effect .pause 0x509 (fun u i => u.setCrew i.c (i.v.waitOn (.clocks (wfld i.w 32 16))))
  ∧ (∀ (s : State) (c : CrewId) (v : Crew) (k : Nat), s.crew c = some v → s.serves = true → v.parked = none → v.fence = none →
      indexWhere ((s.accstStep c.die c.tile).waitMet c v) v.paths = some k →
      ∃ x : Crew, x = ({ v with paths := updNth v.paths k (fun p => v.park? { p with pc := p.pc + 8, wait := .none }) }).settle
          (v.frames.length + 1)
        ∧ exec (.waitConditionMet c) s = .next ((s.accstStep c.die c.tile).setCrew c
            (if (v.paths[v.cur]?).any (fun p => p.wait == .none) then x else x.select)))
  ∧ (∀ (s : State) (c : CrewId) (v : Crew), s.crew c = some v → s.serves = true → v.parked = none → v.fence.isSome = true →
      exec (.waitConditionMet c) s = .next (s.tryFence c))
  ∧ (∀ (s : State) (c : CrewId) (v : Crew) (k sc : Nat), s.serves = true → s.crew c = some v → v.fence = some (k, sc) →
      ((∀ r ∈ s.crewReqs c, (k = 2 ∧ sc = 0) ∨ (r.kind ≠ .load ∧ r.kind ≠ .atomic) ∨ (k = 2 ∧ r.readDone = true)) →
        (k = 1 ∨ sc = 0 ∨ ∀ r ∈ s.crewReqs c, r.kind.writes = false) → v.snoops ≤ s.snoopOut →
        s.tryFence c = (if k ≠ 2 ∧ 1 ≤ sc then (s.onCrew c (fun v => { v with fence := none, snoops := 0 })).flushL1 c.die c.tile
          else s.onCrew c (fun v => { v with fence := none, snoops := 0 })))
      ∧ (s.snoopOut < v.snoops → s.tryFence c = s)
      ∧ (k ≠ 1 → 1 ≤ sc → (∃ r ∈ s.crewReqs c, r.kind.writes = true) → s.tryFence c = s)
      ∧ (k ≠ 2 → (∃ r ∈ s.crewReqs c, r.kind = .load ∨ r.kind = .atomic) → s.tryFence c = s))

/-- MMA, MMAP, ACCLD and ACCST of a whole crew, with their accumulators and regions in bounds and a free queue entry, enter the
queue with the u registers they read at issue, and the crew has one more outstanding; MWAIT goes on when at most CNT are;
MATRIX_START moves the first instruction of a free path that no earlier one holds back out of the queue; MATRIX_COMPLETE
performs it on the memories of the tile, with its operands as they were read, once the MMA or MMAP that an ACCST follows has
ended, and the crew has one fewer outstanding. -/
def Obligations.MatrixInstructionsComplete : Prop :=
  (∀ (s u : State) (c : CrewId) (w : W64) (i : Issue) (l : Launch) (m : MInstr), u.launchOf c = some l → i.part = 0xFFFFFFFF →
    i.active = 0xFFFFFFFF → (s.tile c.die c.tile).mq.length < 16 → (∀ k ∈ accsOf w, k < l.acc / 2) →
    m = { slot := c.slot, w := w, ua := i.v.getU (wfld w 28 6), ub := i.v.getU (wfld w 34 6), up := i.v.getU (wfld w 40 6)
          us := i.v.getU (wfld w 46 6), us1 := i.v.getU (wfld w 46 6 + 1), base := (i.v.stand * l.crews + i.v.index) * l.acc } →
    regionTrap m.regions (u.windowOf c i.v) = none →
    ∃ t : State, t = (u.setTile c.die c.tile { u.tile c.die c.tile with mq := (u.tile c.die c.tile).mq ++ [m] }).done i
        { i.v with matrix := i.v.matrix + 1 }
      ∧ (s.issues c w 0x200 = some (i, u) → exec (.mma c w) s = .next t) ∧ (s.issues c w 0x201 = some (i, u) → exec (.mmap c w) s = .next t)
      ∧ (s.issues c w 0x202 = some (i, u) → exec (.accld c w) s = .next t) ∧ (s.issues c w 0x203 = some (i, u) → exec (.accst c w) s = .next t))
  ∧ (∀ (s u : State) (c : CrewId) (w : W64) (i : Issue), s.issues c w 0x204 = some (i, u) →
      (∀ v, s.crew c = some v → v.matrix ≤ wfld w 16 4) → exec (.mwait c w) s = .next (u.done i i.v))
  ∧ (∀ (s : State) (die tile n : Nat) (transfer : Bool) (m : MInstr) (t : Tile), s.tileRuns die = true → s.tile die tile = t →
      indexWhere (fun (i : MInstr) => i.transfer == transfer) t.mq = some n → t.mq[n]? = some m →
      (if transfer then t.xfer else t.arr) = none → t.mayStart (t.mq.take n) m = true →
      exec (.matrixStart die tile transfer) s = .next (s.drawn.setTile die tile (if transfer then { t with
          mq := t.mq.eraseIdx n, xfer := some m, xferSaw := some [], xferDraw := s.fresh, xferDone := [] }
        else { t with mq := t.mq.eraseIdx n, arr := some m, arrSaw := some [] })))
  ∧ (∀ (s v : State) (die tile : Nat) (transfer : Bool) (m : MInstr) (t : Tile) (ls : Store), s.tileEnds die = true →
      v = (if transfer then s else s.accstStep die tile) → t = v.tile die tile → (if transfer then t.xfer else t.arr) = some m →
      (∀ j, transfer = true → t.arr = some j → j.shares m = false) → ls = t.seen (if transfer then t.xferSaw else t.arrSaw) v.fresh →
      ∃ x : Tile, x = (if transfer then { m.perform t ls with xfer := none, xferSaw := none } else { m.perform t ls with arr := none, arrSaw := none })
        ∧ exec (.matrixComplete die tile transfer) s = .next ((v.drawn.setTile die tile { x with
          crews := alUpd x.crews m.slot (fun v => { v with matrix := v.matrix - 1 }) }).countSram die (m.errs { t with ls := ls })))
  ∧ (∀ (m : MInstr) (t : Tile) (ls : Store), (m.op = 2 → m.perform t ls = { m.load { t with ls := ls } with ls := t.ls })
      ∧ (m.op = 3 → m.perform t ls = t.accst (fun _ => true)) ∧ (m.op ≤ 1 → m.perform t ls = { m.product { t with ls := ls } with ls := t.ls }))

/-- EPRUN whose image and streams pass, VGET, VPUT and VFLAGS enter the element queue with the registers they read at issue, and the
crew has one more outstanding; VWAIT goes on when at most CNT are; ELEMENT_START takes the head of the strict queue;
ELEMENT_COMPLETE runs the program on local store and the context of the stand, gathers its flags there and counts it under its
PID, gives the flags and clears them when told to, or moves the words of the lanes between the context and their registers, a
word of an uncorrectable sector being a free value (log entry 14). -/
def Obligations.ElementInstructionsComplete : Prop :=
  (∀ (s u : State) (c : CrewId) (w : W64) (i : Issue) (e : EInstr), (s.tile c.die c.tile).eq.length < 16 →
    e = { slot := c.slot, ctx := i.v.stand, w := w, block := (List.range 16).map (fun k => i.v.getU (16 * wfld w 24 2 + k))
          q0 := i.v.getU (wfld w 26 6), q1 := i.v.getU (wfld w 26 6 + 1), lanes := i.part
          put := (List.range 32).map (fun l => i.v.getG l (wfld w 32 8)) } →
    ∃ t : State, t = (u.setTile c.die c.tile { u.tile c.die c.tile with eq := (u.tile c.die c.tile).eq ++ [e] }).done i
        { i.v with element := i.v.element + 1 }
      ∧ (s.issues c w 0x300 = some (i, u) → eprunTrap (u.imageOf c (wfld w 16 6)) (wfld w 16 6) e.block (u.windowOf c i.v) = none →
          exec (.eprun c w) s = .next t)
      ∧ (s.issues c w 0x301 = some (i, u) → exec (.vget c w) s = .next t) ∧ (s.issues c w 0x302 = some (i, u) → exec (.vput c w) s = .next t)
      ∧ (s.issues c w 0x303 = some (i, u) → exec (.vflags c w) s = .next t))
  ∧ (∀ (s u : State) (c : CrewId) (w : W64) (i : Issue), s.issues c w 0x304 = some (i, u) →
      (∀ v, s.crew c = some v → v.element ≤ wfld w 41 4) → exec (.vwait c w) s = .next (u.done i i.v))
  ∧ (∀ (s : State) (die tile : Nat) (e : EInstr) (r : List EInstr), s.tileRuns die = true → (s.tile die tile).ex = none →
      (s.tile die tile).eq = e :: r →
      exec (.elementStart die tile) s = .next (s.setTile die tile { s.tile die tile with ex := some e, exSaw := some [], eq := r }))
  ∧ (∀ (s v : State) (die tile : Nat) (e : EInstr) (bad : Bool) (t : Tile) (img : List W64) (seen : Store), s.tileEnds die = true →
      (s.tile die tile).ex = some e → wfld e.w 8 8 = 0 → v = s.accstStep die tile → t = v.tile die tile → img = alGet [] t.progs (wfld e.w 16 6) →
      seen = t.seen t.exSaw v.fresh →
      ∃ (r : Store × Store × Nat) (x : Tile), r = eprun img bad e seen t.ls (t.ectx e.ctx).w v.fresh
        ∧ x.ctx = alPut t.ctx e.ctx { w := r.2.1, flags := (t.ectx e.ctx).flags ||| BitVec.ofNat 5 r.2.2 } ∧ x.ls = (t.putLs r.1).ls
        ∧ exec (.elementComplete die tile bad) s = .next ((((v.countProgram (imgPid img)).drawn.setTile die tile x).countSram die
            ((eprunErrs img e seen (t.ectx e.ctx).w).1, ((eprunErrs img e seen (t.ectx e.ctx).w).2.1,
              (eprunErrs img e seen (t.ectx e.ctx).w).2.2 + b2n bad))).elementDone die tile e))
  ∧ (∀ (s : State) (die tile : Nat) (e : EInstr) (bad : Bool) (w : Store) (at_ : Nat → Nat), s.tileEnds die = true → (s.tile die tile).ex = some e →
      wfld e.w 8 8 = 1 → w = ((s.tile die tile).ectx e.ctx).w → at_ = (fun l => 512 * wfld e.w 16 6 + 4 * (32 * wfld e.w 22 2 + l)) →
      exec (.elementComplete die tile bad) s = .next (((if (lanesOf e.lanes).any (fun l => w.poisoned (at_ l) 4) then { s with fresh := s.fresh + 32 }
          else s).onCrew { die := die, tile := tile, slot := e.slot } (fun v => (lanesOf e.lanes).foldl (fun (v : Crew) l =>
        v.set false l (wfld e.w 32 8) (if w.poisoned (at_ l) 4 then (Free.poisonLoad (s.fresh + l)).toNat % 2 ^ 32 else w.readNat (at_ l) 4)) v)).elementDone
          die tile e))
  ∧ (∀ (s : State) (die tile : Nat) (e : EInstr) (bad : Bool), s.tileEnds die = true → (s.tile die tile).ex = some e → wfld e.w 8 8 = 2 →
      exec (.elementComplete die tile bad) s = .next ((s.setTile die tile { s.tile die tile with
        ctx := alPut (s.tile die tile).ctx e.ctx { (s.tile die tile).ectx e.ctx with
          w := (lanesOf e.lanes).foldl (fun (w : Store) l =>
            w.writeNat (512 * wfld e.w 16 6 + 4 * (32 * wfld e.w 22 2 + l)) 4 (nth 0 e.put l).toNat) ((s.tile die tile).ectx e.ctx).w } }).elementDone
        die tile e))
  ∧ (∀ (s u : State) (die tile : Nat) (e : EInstr) (bad : Bool), s.tileEnds die = true → (s.tile die tile).ex = some e → wfld e.w 8 8 = 3 →
      u = s.onCrew { die := die, tile := tile, slot := e.slot } (fun v =>
        v.set true 0 (wfld e.w 32 6) ((s.tile die tile).ectx e.ctx).flags.toNat) →
      exec (.elementComplete die tile bad) s = .next ((if wfld e.w 40 1 = 1 then u.setTile die tile { u.tile die tile with
        ctx := alPut (u.tile die tile).ctx e.ctx { (s.tile die tile).ectx e.ctx with flags := 0 } } else u).elementDone die tile e))

/-- A turn of the descriptor that may move waits for its reads of global memory; with them it converts up to 1 KiB, writes the
sectors of local and landing store that are whole or that nothing later goes into, keeps the others back, issues the global
writes, and the next channel has the turn; for want of a token at a landing store it waits. A heavy Bucker takes the next
descriptor of its record and checks it. An index list that passes the late check is held, one that fails it ends the descriptor
with an error. The flag is written once what it waits for has landed. A descriptor whose last write has landed leaves, and its
crew has one copy fewer outstanding or its record is one nearer its end. A write that failed is discarded and noted. -/
def Obligations.CopyEnginesComplete : Prop :=
  (∀ (s t : State) (b : BuckerId) (count fin : Nat) (d : Desc) (got : List (Req × AccResult)), s.buckerRuns b = true → s.hasTurn b = true →
    s.movable b = some d → fin = min (d.turnEnd count) (cdTotal d.words) →
    (s.unitAll (d.reads b (d.turnOf fin)) = .wait t → exec (.buckerTurn b count) s = .next t)
    ∧ (∀ (m : Moving) (all out : List CopyW), s.unitAll (d.reads b (d.turnOf fin)) = .done got t → m = t.moves b d fin got → m.wait = false →
        all = d.part ++ (m.ws.filter (fun x => decide (x.sp ≤ 1))).flatMap CopyW.cut →
        out = all.filter (fun x => coversSector (all.filter (fun y => y.sector == x.sector)) x.sector.2.2 || !(d.writesLater fin x.sector)) →
        (∀ g : State, m.s.landEnter b out = (false, g) → exec (.buckerTurn b count) s = .next g)
        ∧ (∀ g : State, m.s.landEnter b out = (true, g) → m.err = none → m.bad = [] → m.rows = 0 → cdRnd d.words ≠ 2 →
            ∃ (d1 : Desc) (u : State), d1 = { d with pos := fin, part := all.filter (fun x =>
                !(coversSector (all.filter (fun y => y.sector == x.sector)) x.sector.2.2 || !(d.writesLater fin x.sector))) }
              ∧ u = (((g.readsOver b d.serial).putDesc b d1).putSectors b out).putWrites b d1 (m.ws.filter (fun x => decide (1 < x.sp)))
              ∧ exec (.buckerTurn b count) s = .next (match b with
                | .tile die n ch => u.setTile die n { u.tile die n with turn := (ch + 1) % 16 }
                | .heavy _ _ => u))))
  ∧ (∀ (s : State) (die b n addr : Nat) (f : Flight) (u : State) (ws : List W64), b < 8 →
      s.buckerRuns (.heavy die b) = true → s.evacHolds die b = false →
      (s.stream n).flights.find? (fun f => f.addr == addr && f.typ == 2 && f.fin.isNone) = some f → f.die = die →
      bitOf (wfld (nth 0 f.words 2) 16 8) b = true → f.handed < wfld (nth 0 f.words 2) 0 13 →
      (∀ x ∈ (s.stream n).flights.takeWhile (fun x => x.addr != addr), x.typ ≠ 2) → (s.descs (.heavy die b)).all Desc.moved = true →
      s.descRead n (s.stream n) f = .ok ws u → cdCheck ws none (s.stream n).wins = none →
      exec (.heavyBuckerTake die b n addr) s = .next (({ u.setDescs (.heavy die b) (u.descs (.heavy die b) ++
          [{ newDesc u.serial ws with stream := n, recAddr := addr, index := f.handed, wins := (s.stream n).wins, space := (s.stream n).space }]) with
        serial := u.serial + 1 }).onCopy n addr (fun x => { x with handed := x.handed + 1 })))
  ∧ (∀ (s u : State) (b : BuckerId) (d : Desc) (l : List (Option W32)) (r : Option (Nat × Nat)), s.buckerRuns b = true → s.activeDesc b = some d →
      cdIndexed d.words = true → d.idx = none → s.idxRead b d = (some l, r, u) →
      (r = none → cdLateBad d.words l (d.lsBase, d.lsSize) d.wins = false → none ∉ l →
        exec (.indexListRead b) s = .next (u.putDesc b { d with idx := some l }))
      ∧ (cdLateBad d.words l (d.lsBase, d.lsSize) d.wins = true → exec (.indexListRead b) s
          = .next ((u.putDesc b { d with idx := some l, pos := cdTotal d.words }).copyErrAt b { d with idx := some l, pos := cdTotal d.words } 5 d.where_)))
  ∧ (∀ (s g : State) (b : BuckerId) (serial : Nat) (d : Desc) (x : CopyW), s.buckerRuns b = true → s.descOf b serial = some d → cdFlag d.words = true →
      d.flagIssued = false → s.flagLost b d = false → s.flagReady b d = true →
      x = { sp := cdFsp d.words, die := (cdLoc (cdFsp d.words) (cdFaddr d.words)).1, off := (cdLoc (cdFsp d.words) (cdFaddr d.words)).2, n := 4,
            val := cdFval d.words, poisoned := false } → s.landEnter b [x] = (true, g) →
      exec (.flaggedFinalWrite b serial) s = .next (if x.sp ≤ 1 then (g.putDesc b { d with flagIssued := true }).putSectors b [x]
        else (g.putDesc b { d with flagIssued := true }).putRun b { d with flagIssued := true } x))
  ∧ (∀ (s : State) (die tile ch serial : Nat) (d : Desc) (c : CrewId), s.serves = true → s.descOf (.tile die tile ch) serial = some d →
      d.crew = some c → s.dataLanded (.tile die tile ch) d = true →
      cdFlag d.words = false ∨ d.flagIssued = true ∨ s.flagLost (.tile die tile ch) d = true →
      exec (.descriptorComplete (.tile die tile ch) serial) s = .next ((s.setDescs (.tile die tile ch)
        ((s.descs (.tile die tile ch)).filter (fun x => x.serial != serial))).onCrew c (fun v => { v with copies := v.copies - 1 })))
  ∧ (∀ (s : State) (die b serial : Nat) (d : Desc), s.serves = true → s.descOf (.heavy die b) serial = some d →
      s.dataLanded (.heavy die b) d = true → cdFlag d.words = false ∨ d.flagIssued = true ∨ s.flagLost (.heavy die b) d = true →
      exec (.descriptorComplete (.heavy die b) serial) s = .next ((s.setDescs (.heavy die b)
        ((s.descs (.heavy die b)).filter (fun x => x.serial != serial))).onCopy d.stream d.recAddr (fun f => { f with finished := f.finished + 1 })))
  ∧ (∀ (s : State) (b : BuckerId) (serial cause addr : Nat) (d : Desc) (r : Req) (x : AccResult), s.serves = true →
      s.copyOut b serial = [r] → s.descOf b serial = some d → r.va = addr → r.stage = .replied x → x.fails = true → copyCause x = cause →
      exec (.copyDataPathError b serial cause addr) s = .next ((s.dropReq r.id).copyErrAt b d cause addr))

/-- The oldest parked crew's record goes to a ring with room, and once it has landed TAIL advances and the die's source fires; the
answer of a parked crew is matched by its identity; REPLAY makes the crew execute the instruction again for the FAULT lanes,
SKIP goes on past it, KILL ends every crew of its stand; HEAD is taken when it stands within the ring, and otherwise counted. -/
def Obligations.TrapAnswersComplete : Prop :=
  (∀ (s : State) (die : Nat) (id : BitVec 17) (c : CrewId) (v : Crew) (t : Trap), s.serves = true → c = trapCrew die id →
      s.crew c = some v → v.parked = some t → fld id.toNat 13 4 = s.genOf c →
      exec (.trapAnswerReplay die id) s = .next (s.resumed c { v with
          parked := none, replay := if t.cause = 9 then none else some (t.fault, t.instr, if t.late then some t.pc else none) })
        ∧ exec (.trapAnswerSkip die id) s = .next (s.resumed c (if t.late then { v with parked := none } else ({ v with parked := none }).advance false))
        ∧ exec (.trapAnswerKill die id) s = .next ((s.setTile c.die c.tile { s.tile c.die c.tile with
            stands := alUpd (s.tile c.die c.tile).stands v.stand (fun x => { x with killed := true }) }).killStand c.die c.tile v.stand))
  ∧ (∀ (s : State) (die : Nat) (id : BitVec 17), s.serves = true →
      (∀ v t, s.crew (trapCrew die id) = some v → v.parked = some t → fld id.toNat 13 4 ≠ s.genOf (trapCrew die id)) →
      exec (.trapAnswerReplay die id) s = .next (s.count (svc 1)) ∧ exec (.trapAnswerSkip die id) s = .next (s.count (svc 1))
        ∧ exec (.trapAnswerKill die id) s = .next (s.count (svc 1)))
  ∧ (∀ (s : State) (die : Nat) (v : W64), s.serves = true → (alGet 0 s.trapTail die + 2 ^ 32 - wfld v 0 32) % 2 ^ 32 ≤ s.trapSize die →
      exec (.trapHeadWrite die v) s = .next { s with trapHead := alPut s.trapHead die (wfld v 0 32) })
  ∧ (∀ (s : State) (die : Nat) (v : W64), s.serves = true → s.trapSize die < (alGet 0 s.trapTail die + 2 ^ 32 - wfld v 0 32) % 2 ^ 32 →
      exec (.trapHeadWrite die v) s = .next (s.count (svc 2)))
  ∧ (∀ (s u : State) (die base log2 : Nat) (c : CrewId) (rest : List CrewId) (v : Crew) (t : Trap) (b : Bool), s.serves = true →
      alGet [] s.trapWait die = c :: rest → s.crew c = some v → v.parked = some t → s.trapUsed die < s.trapSize die →
      alFind s.cfg.trapRing die = some (base, log2) →
      s.ringWrite (.service die) 0 (base + alGet 0 s.trapTail die % s.trapSize die * 64) ((s.trapWords c v t).flatMap (leBytes 8)) = (b, u) →
      exec (.trapRecordWrite die) s = .next (if b then (({ u with
          trapWait := alPut u.trapWait die rest, trapTail := alPut u.trapTail die ((alGet 0 s.trapTail die + 1) % 2 ^ 32) } : State).onCrew c
        (fun x => { x with parked := x.parked.map (fun y => { y with recorded := true }) })).raise (64 + die) else u))
  ∧ (∀ (s : State) (die : Nat) (c : CrewId) (rest : List CrewId) (v : Crew) (t : Trap), s.serves = true →
      alGet [] s.trapWait die = c :: rest → s.crew c = some v → v.parked = some t → s.trapSize die ≤ s.trapUsed die →
      exec (.trapRecordWrite die) s = .next s)

/-- A miss merges into its page's entry, takes a free one, or is counted. A walk goes on entry by entry as its reads return; one
that was restarted begins again; of a space whose EN is clear its waiters fail and are counted; one that stops goes to the ring;
one whose leaf permits every waiter fills the translation cache and the micro-caches of the pairs that hold one, wakes them, and
is about to be freed; one whose leaf permits none goes to the ring with cause 2. The head record is written and source 68 fires.
A reply that matches its entry walks again, or fails the waiters, records the kinds as refused and is logged; a stale one is
counted. A completed fill frees the entry, advances its generation and lets requests that merged meanwhile translate again. HEAD
is taken within the ring. Invalidations are accepted in order, 16 at most, the head one taking effect; once the accesses
translated with what it removed have landed it ends, DONE advancing. -/
def Obligations.TranslationCommandsComplete : Prop :=
  (∀ (s : State) (id k : Nat) (r : Req) (x : State) (e : PEntry), s.serves = true → s.req id = some r → r.stage = .xlat →
    s.look r.who.pair r.space r.va r.kind.need = (.miss, x) → s.xlt.pend.find? (fun e => e.2.space == r.space && e.2.page == r.page) = some (k, e) →
    exec (.translationMiss id) s = .next (({ s with xlt := { s.xlt with pend := alPut s.xlt.pend k { e with
      waiters := e.waiters ++ [id], need := e.need ||| BitVec.ofNat 3 r.kind.need, src := e.src ||| r.who.srcBit } } }).setReq
        { r with stage := .pended k }))
  ∧ (∀ (s : State) (id k : Nat) (r : Req) (x : State), s.serves = true → s.req id = some r → r.stage = .xlat →
      s.look r.who.pair r.space r.va r.kind.need = (.miss, x) → s.xlt.pend.find? (fun e => e.2.space == r.space && e.2.page == r.page) = none →
      (alFree s.xlt.pend 512 = some k → exec (.translationMiss id) s = .next (({ s with xlt := { s.xlt with pend := alPut s.xlt.pend k {
          st := .walk, space := r.space, page := r.page, need := BitVec.ofNat 3 r.kind.need, aperture := 0, waiters := [id],
          src := r.who.srcBit, cause := 0, level := 0, entry := 0, restart := false } } }).setReq { r with stage := .pended k }))
      ∧ (alFree s.xlt.pend 512 = none → exec (.translationMiss id) s = .next (s.count (svc 3))))
  ∧ (∀ (s v : State) (index : Nat) (e : PEntry) (root : W64), s.serves = true → alFind s.xlt.pend index = some e → e.st = .walk →
      v = s.walkEnd_ index → root = alGet 0 s.xlt.root e.space →
      (e.restart = true → exec (.walkComplete index) s = .next { v with xlt := { v.xlt with pend := alPut v.xlt.pend index { e with restart := false } } })
      ∧ (e.restart = false → s.xlt.on e.space = false → exec (.walkComplete index) s = .next ((v.failEntry index e).count (svc 4) e.waiters.length))
      ∧ (∀ w u : State, e.restart = false → s.xlt.on e.space = true → u = w.walkEnd_ index →
          (s.walkGo index root e.page 3 [] = (none, w) → exec (.walkComplete index) s = .next w)
          ∧ (∀ (reads : List (Option W64)) (cause level : Nat) (entry : W64), s.walkGo index root e.page 3 [] = (some reads, w) →
              walkEnd root reads = .stop cause level entry →
              exec (.walkComplete index) s = .next { u with xlt := u.xlt.toRing index e cause level entry })
          ∧ (∀ (reads : List (Option W64)) (l : W64) (big : Bool) (level : Nat) (rs : List Req) (te : TcEntry),
              s.walkGo index root e.page 3 [] = (some reads, w) → walkEnd root reads = .leaf l big level → rs = e.waiters.filterMap u.req →
              te = { space := e.space, page := (if big then e.page / 32 else e.page), big := big, leaf := some l, refused := 0 } →
              ((∀ r ∈ rs, leafPermits l r.kind.need = true) → e.aperture &&& ~~~(BitVec.ofNat 3 (wfld l 2 3)) = 0 →
                ∃ x : Xlt, x = rs.foldl (fun (y : Xlt) r => match r.who.pair with | some n => y.putMc n te | none => y) (u.xlt.fill te)
                  ∧ exec (.walkComplete index) s = .next (rs.foldl (fun (t : State) r => t.wake r.id (leafPa l big r.va))
                    { u with xlt := { x with pend := alPut x.pend index { e with st := .fill, waiters := [], aperture := 0, need := 0, src := 0 } } }))
              ∧ (rs ≠ [] → (∀ r ∈ rs, leafPermits l r.kind.need = false) →
                  exec (.walkComplete index) s = .next { u with xlt := u.xlt.toRing index (e.keep rs (e.aperture &&& ~~~(BitVec.ofNat 3 (wfld l 2 3)))) 2 level l }))))
  ∧ (∀ (s u : State) (index : Nat) (e : PEntry) (b : Bool), s.serves = true → alFind s.xlt.pend index = some e → e.st = .ringWait →
      s.xlt.order.head? = some index → s.xlt.used < 4096 →
      s.ringWrite .hub 1 (s.cfg.reqRing.getD 0 + s.xlt.tail % 4096 * 32) ((s.requestWords index e).flatMap (leBytes 8)) = (b, u) →
      exec (.requestRecordWrite index) s = .next (if b then ({ u with xlt := { u.xlt with
        order := u.xlt.order.tail, tail := (u.xlt.tail + 1) % 2 ^ 32, pend := alPut u.xlt.pend index { e with st := .posted } } }).raise 68 else u))
  ∧ (∀ (s : State) (index : Nat) (e : PEntry), s.serves = true → alFind s.xlt.pend index = some e → e.st = .fill →
      exec (.fillComplete index) s = .next (e.waiters.foldl (fun (t : State) w => match t.req w with | some r => t.setReq { r with stage := .xlat } | none => t)
        { s with xlt := ({ s.xlt with pend := alDel s.xlt.pend index }).nextGen index }))
  ∧ (∀ (s : State) (pid : BitVec 16) (code : Byte) (e : PEntry) (k : Nat) (x : Xlt), s.serves = true → k = pid.toNat % 512 →
      alFind s.xlt.pend k = some e → e.st = .posted → s.xlt.pid k = pid.toNat → x = s.xlt.nextGen k →
      exec (.xltReplyWalk pid) s = .next { s with xlt := { x with pend := alPut x.pend k { e with st := .walk, restart := false } } }
      ∧ exec (.xltReplyError pid code) s = .next ((e.waiters.foldl (fun (t : State) w => t.reply w .xlatError)
          { s with xlt := { x.refuse e.space e.page e.need with pend := alPut (x.refuse e.space e.page e.need).pend k { e with st := .fill, waiters := [] } } }).logEv
            0x0006 4 1 [e.space, e.page, code.toNat]))
  ∧ (∀ (s : State) (pid : BitVec 16) (code : Byte), s.serves = true →
      (∀ e, alFind s.xlt.pend (pid.toNat % 512) = some e → e.st ≠ .posted ∨ s.xlt.pid (pid.toNat % 512) ≠ pid.toNat) →
      exec (.xltReplyWalk pid) s = .next (s.count (svc 5)) ∧ exec (.xltReplyError pid code) s = .next (s.count (svc 5)))
  ∧ (∀ (s : State) (v : W64), s.serves = true →
      exec (.xltRingHeadWrite v) s = .next (if (s.xlt.tail + 2 ^ 32 - wfld v 0 32) % 2 ^ 32 ≤ 4096 then
        { s with xlt := { s.xlt with head := wfld v 0 32 } } else s.count (svc 6)))
  ∧ (∀ (s t : State) (i : Nat × Nat × Nat) (c : Instr), s.serves = true →
      (∃ space page, c = .xltInvalPage space page ∧ i = (1, space % 16, page % 2 ^ 27)) ∨ (∃ space, c = .xltInvalSpace space ∧ i = (2, space % 16, 0))
        ∨ (c = .xltInvalAll ∧ i = (3, 0, 0)) → t = (if s.xlt.inval = [] then s.invalNow i else s) →
      exec c s = .next (if s.xlt.inval.length < 16 then { t with xlt := { t.xlt with inval := t.xlt.inval ++ [i], issued := (t.xlt.issued + 1) % 2 ^ 32 } }
        else { s with xlt := { s.xlt with invalWait := s.xlt.invalWait ++ [i] } }))
  ∧ (∀ (s : State) (i : Nat × Nat × Nat) (rest : List (Nat × Nat × Nat)), s.serves = true → s.xlt.inval = i :: rest →
      (∀ k ∈ s.xlt.invalIds, s.landed k = true) → exec .invalidationComplete s = .next s.invalRetire)

/-- A grant of 1 to 16 tokens within a level's pool, to a source whose turn it is, is issued and held and lets the accesses that
lacked it retry; tokens unused for 1 microsecond go back; a completed request gives back its token level by level. A backoff
that ends retries admission: without a token of some level the access is refused, else it takes one of each and goes to its
home, onto its link or is answered. Fill data reaches its lane and L1, unless invalidated; other completions reach their lane,
package, copy, node core or instruction buffer, and what a unit has given up is dropped. A retired module degrades its port,
severed below 8; severing answers what was sent through it with poison. A request whose Ridge bound expires, an access or a line
of an agent, is answered unreachable. -/
def Obligations.AdmissionCommandsComplete : Prop :=
  (∀ (s : State) (q : Source) (l : Level) (count : Nat), s.serves = true → 1 ≤ count → count ≤ 16 → s.issued l + count ≤ s.pool l →
    s.sourceLive q = true → s.inTurn q l = true →
    exec (.tokenGrant q l count) s = .next ((((s.granted q l).setIssued l (s.issued l + count)).addHeld q l count).retryNow q l))
  ∧ (∀ (s : State) (q : Source) (l : Level) (count : Nat), s.serves = true → 1 ≤ count →
      count ≤ ((s.heldSince q l).filter (fun t => decide (t + 1000 ≤ s.now))).length →
      exec (.tokenIdleReturn q l count) s = .next ((s.setHeld q l ((s.heldSince q l).drop count)).setIssued l (s.issued l - count)))
  ∧ (∀ (s u : State) (id : Nat) (l : Level) (r : Req) (x : AccResult), s.serves = true → s.req id = some r → r.stage = .replied x → l ∈ r.levels →
      u = s.setReq { r with levels := r.levels.erase l } → exec (.tokenReturn id l) s = .next (u.setIssued l (u.issued l - 1)))
  ∧ (∀ (s : State) (id n : Nat) (r : Req) (q : Source) (ls : List Level), s.serves = true → s.req id = some r → r.stage = .backoff n → q = r.who.source →
      (ridgeOf ls = none ∨ s.unsent r = false) →
      (∀ l, s.route q r.pa = .go ls → ls.find? (fun l => s.holds_ q l == 0) = some l → exec (.retryBackoffExpiry id) s = .next (s.refuse r l))
      ∧ (s.route q r.pa = .go ls → (∀ l ∈ ls, s.holds_ q l ≠ 0) → ridgeOf ls = none →
        exec (.retryBackoffExpiry id) s = .next ((s.takeTokens q ls).setReq { r with levels := ls, stage := .sent }))
      ∧ (∀ k u, s.route q r.pa = .go ls → (∀ l ∈ ls, s.holds_ q l ≠ 0) → ridgeOf ls = some k →
        u = (s.takeTokens q ls).setReq { r with levels := ls, stage := .sent } →
        exec (.retryBackoffExpiry id) s = .next (u.ridgeSend k (u.ridgeMsg r)))
      ∧ (∀ x, s.route q r.pa = .answer ls x → (∀ l ∈ ls, s.holds_ q l ≠ 0) →
        exec (.retryBackoffExpiry id) s = .next (((s.takeTokens q ls).answered { r with levels := ls } x).countDecode q x)))
  ∧ (∀ (s t : State) (id lane grp : Nat) (c : CrewId) (r : Req) (l : Line), s.serves = true → s.req id = some r → r.who = .lane c lane grp →
      r.kind = .load → r.stage = .replied (.line l) →
      t = s.setTile c.die c.tile ((s.tile c.die c.tile).l1Put (s.l1Sets c.die c.tile) (r.pa / 128) l) →
      exec (.l1FillReturn id) s = .next ((if r.noInstall then s
        else t.noInstall c.die c.tile (fun q => q.readDone && decide (q.pa / 128 = r.pa / 128) && decide (q.seq < r.seq))).deliverLane c lane grp r (.line l)))
  ∧ (∀ (s : State) (id : Nat) (r : Req) (x : AccResult), s.serves = true → s.req id = some r → r.stage = .replied x →
      (∀ c lane grp, r.who = .lane c lane grp → (r.kind ≠ .load ∨ ∀ l, x ≠ .line l) →
        exec (.accessCompletionReceive id) s = .next (s.deliverLane c lane grp r x))
      ∧ (∀ src q link, r.who = .remote src q link → exec (.accessCompletionReceive id) s = .next ((s.respond src q (r.pa / 128) x.cross).dropReq id))
      ∧ (∀ core, r.who = .aperture core → exec (.accessCompletionReceive id) s = .next (s.deliverCore core r x))
      ∧ (∀ b serial, r.who = .bucker b serial → r.kind.writes = true → x.fails = false → exec (.accessCompletionReceive id) s = .next (s.dropReq id))
      ∧ (∀ c g l, r.who = .fetch c g → r.noInstall = false → x = .line l → l.pmask = 0 →
        exec (.accessCompletionReceive id) s = .next (((if (s.tile c.die c.tile).launch = some r.cmp.toNat then
          s.setTile c.die c.tile ((s.tile c.die c.tile).buffer r.va l) else s)).dropReq r.id))
      ∧ (r.noInstall = true → (∃ q k, r.who = .unit q k) ∨ (∃ a b, r.who = .stream a b) ∨ (∃ a b g, r.who = .engine a b g) ∨ (∃ c g, r.who = .fetch c g) →
        exec (.accessCompletionReceive id) s = .next (s.dropReq id)))
  ∧ (∀ (s u v : State) (port n : Nat), s.up = true → s.colUp port = true →
      u = s.setPorts port (fun c => { c with
        mods := c.mods - 1, mret := min 15 (c.mret + 1), state := 2, crcr := satAdd 65535 c.crcr n }) →
      v = (if (s.colPort port).mods - 1 < 8 then u.sever port else u) →
      exec (.colModuleRetire port n) s = .next ((if port < 12 ∧ 0 < n then v.count (pairErr (port / 3) 19) n else v).logEv
        0x000B (if 12 ≤ port then 4 else 8 + port / 3) 2 [port, (s.colPort port).mods - 1]))
  ∧ (∀ (s : State) (port : Nat), s.up = true → (s.colPort port).state ≠ 3 →
      exec (.portSevered port) s = .next ((s.setPorts port (fun c => { c with state := 3 })).answerAll
        (fun r => r.levels.contains (portLevel port) || r.levels.contains (portLevel (portMate port))) .poison))
  ∧ (∀ (s : State) (id link : Nat) (r : Req), s.serves = true → s.req id = some r → r.stage = .sent → ridgeOf r.levels = some link →
      exec (.ridgeRequestBoundExpiry (.access id)) s = .next (s.answered r .unreachable))
  ∧ (∀ (s : State) (a line : Nat), s.serves = true → s.homeHere line = false →
      exec (.ridgeRequestBoundExpiry (.line a line)) s = .next (s.unreached a line))

/-- A request message at the home of its line from an agent that may take part and is not dead, the first of its flow, is taken and
acted on by the home, which queues it behind a busy line or an earlier request for its line, and else acts on it; a snoop for
which the forward queue has room, data, CMP, VCMP or INVACK at an agent of this package that is not dead is taken and acted on
by that agent; INVACK, FWDDONE, WBD, RSPI and CACK at the home of a busy line bring it nearer its end. -/
def Obligations.CoherenceMessagesComplete : Prop :=
  (∀ (s u : State) (m : CMsg) (x : AccErrs), s.msgs.find? (sameFlow m) = some m → u = { s with msgs := s.msgs.erase m } → s.serves = true →
    m.dst = 0x7F → s.homeHere m.line = true → s.partOf m.line m.src = true → m.src ∉ s.dead →
    (m.op = .rds → exec (.rds m x) s = .next (u.homeStep (.msg { m with errs := x })))
    ∧ (m.op = .rdw → exec (.rdw m x) s = .next (u.homeStep (.msg { m with errs := x })))
    ∧ (m.op = .rdu → exec (.rdu m x) s = .next (u.homeStep (.msg { m with errs := x })))
    ∧ (m.op = .upg → exec (.upg m x) s = .next (u.homeStep (.msg { m with errs := x })))
    ∧ (m.op = .vicd → exec (.vicd m) s = .next (u.homeStep (.msg { m with errs := {} })))
    ∧ (m.op = .vicc → exec (.vicc m) s = .next (u.homeStep (.msg { m with errs := {} }))))
  ∧ (∀ (s u : State) (m : CMsg), s.msgs.find? (sameFlow m) = some m → u = { s with msgs := s.msgs.erase m } → s.serves = true →
      s.ownAgent m.dst = true → m.dst ∉ s.dead → m.dst ≠ 0x7F → s.partOf m.line m.src = true → s.fqFull m.dst m = false →
      (m.op = .fwds → exec (.fwds m) s = .next (u.agentSnoop m.dst m)) ∧ (m.op = .fwdu → exec (.fwdu m) s = .next (u.agentSnoop m.dst m))
      ∧ (m.op = .inv → exec (.inv m) s = .next (u.agentSnoop m.dst m)) ∧ (m.op = .cur → exec (.cur m) s = .next (u.agentSnoop m.dst m))
      ∧ (m.op = .rcl → exec (.rcl m) s = .next (u.agentSnoop m.dst m))
      ∧ (m.op = .datas ∨ m.op = .datae ∨ m.op = .datau → exec (.dataReceive m) s = .next (u.agentRecv m.dst m))
      ∧ (m.op = .cmp → exec (.cmp m) s = .next (u.agentRecv m.dst m)) ∧ (m.op = .vcmp → exec (.vcmp m) s = .next (u.agentRecv m.dst m))
      ∧ (m.op = .invack → exec (.invack m) s = .next (u.agentRecv m.dst m)))
  ∧ (∀ (s u : State) (m : CMsg), s.msgs.find? (sameFlow m) = some m → u = { s with msgs := s.msgs.erase m } → s.serves = true →
      m.dst = 0x7F → s.homeHere m.line = true → s.partOf m.line m.src = true →
      (m.op = .invack → exec (.invack m) s = .next (u.homeAck m.line m.src))
      ∧ (∀ b, m.op = .fwddone → u.busyRec m.line = some b → b.due = some m.src →
          exec (.fwddone m) s = .next ((u.setBusyRec m.line (some { b with due := none })).busyDone m.line))
      ∧ (∀ t, m.op = .wbd → u.homeData? m.line m.src (some m.line') = some t → exec (.wbd m) s = .next t)
      ∧ (∀ t, m.op = .rspi → u.homeData? m.line m.src none = some t → exec (.rspi m) s = .next t)
      ∧ (∀ b q x, m.op = .cack → u.busyRec m.line = some b → b.why = .coherent q x → q.src = m.src →
          exec (.cack m) s = .next ((u.setBusyRec m.line (some { b with cack := false })).busyDone m.line)))
  ∧ (∀ (u t : State) (m : CMsg), u.busyRec m.line = none → hostLine m.line = false →
      (∀ x ∈ u.waitOf m.line, u.lineOf x ≠ m.line) → (∀ f ∈ (u.lineSlice m.line).fills, f.addr ≠ m.line) → t = u.coherentAct m →
      u.homeStep (.msg m) = (if (t.busyOf m.line).length ≤ 64 then t else u.bounce m))
  ∧ (∀ (u : State) (m : CMsg) (b : Busy), u.busyRec m.line = some b →
      u.homeStep (.msg m) = (if 256 ≤ (u.waitOf m.line).length then u.bounce m else u.setWaitOf m.line (u.waitOf m.line ++ [.msg m])))

/-- Silence of 8 µs of a cluster, or of 200 µs of a package of the set, makes its agents dead, and a notice of each goes to every
home and agent of the package and to the packages of the set; a cluster reset empties its caches, restarts its cores and makes
its agent dead, or, once its reclamation has been logged, ends that; a home that takes a dead notice reclaims what the agent
held, and an agent completes its transactions with it; a complete reclamation is logged with its count; host snoops are applied
in the order received; GO and data give a half its state and let what waited go on; an eviction's GO ends it, the data of a
modified half going out; a host line that nothing uses is recalled and evicted. -/
def Obligations.DeadAgentsAndHostComplete : Prop :=
  (∀ (s : State) (k : Nat), s.serves = true → k < 8 → alGet 0 s.beats k + 8000 ≤ s.now →
    exec (.clusterHeartbeatTimeout k) s = .next (s.declareDead [s.agentId k]))
  ∧ (∀ (s : State) (slot : Nat), s.serves = true → s.coherentSet = true → bitOf (s.cfg.cohSet.getD 0) slot = true → slot ≠ s.mySlot →
      alGet 0 s.beats (16 + slot) + 200000 ≤ s.now →
      exec (.packageHeartbeatTimeout slot) s = .next (s.declareDead ((List.range 9).map (fun k => slot * 16 + k))))
  ∧ (∀ (s : State) (a : Nat), a ∉ s.dead → s.coherentSet = false → s.declareDead [a] = { s with
      dead := a :: s.dead, notices := s.notices ++ ((a, 0x7F) :: (List.range 9).map (fun k => (a, s.agentId k))) })
  ∧ (∀ (s u : State) (k a : Nat), s.serves = true → k < 8 → a = s.agentId k → u = { s with
      agents := alPut s.agents a ({} : Agent), cores := s.cores.map (fun (e : Nat × NCore) => (e.1, if e.1 / 8 = k then ({} : NCore) else e.2)) } →
      (a ∉ s.dead → exec (.clusterReset k) s = .next (({ u with rejoin := if u.rejoin.contains a then u.rejoin else u.rejoin ++ [a] } : State).declareDead [a]))
      ∧ (a ∈ s.dead → alFind s.reclaimed a = none → (a, 0x7F) ∉ s.notices → exec (.clusterReset k) s = .next { u with dead := u.dead.filter (· != a) }))
  ∧ (∀ (s u : State) (agent dst : Nat), s.serves = true → (agent, dst) ∈ s.notices → u = { s with notices := s.notices.erase (agent, dst) } →
      exec (.deadNotice agent dst) s = .next (if dst = 0x7F then u.reclaim agent
        else ((alGet ({} : Agent) u.agents dst).lines.map (·.1)).foldl (fun (t : State) l => t.tryFinish dst l) u))
  ∧ (∀ (s : State) (agent n : Nat), s.serves = true → alFind s.reclaimed agent = some n →
      exec (.reclamationComplete agent) s = .next (({ s with
        reclaimed := alDel s.reclaimed agent,
        rejoin := s.rejoin.filter (· != agent),
        dead := if agent ∈ s.rejoin then s.dead.filter (· != agent) else s.dead }).logEv 0x0009 4 1 [agent, n]))
  ∧ (∀ (s : State) (half op : Nat) (c : Instr), s.runs = true → s.plat.hpState = 1 → half < 2 ^ 41 →
      (c, op) ∈ [(.snpinv half, 0), (.snpdata half, 1), (.snpcur half, 2)] →
      exec c s = .next ({ s with snoopQ := s.snoopQ ++ [(op, half)], snoopIn := s.snoopIn + 1 } : State).goSnoops
      ∧ (s.snoopQ = [] → s.snoopReady half = true →
          (({ s with snoopQ := [(op, half)], snoopIn := s.snoopIn + 1 } : State).snoopAct op half).snoopQ = [] →
          exec c s = .next (({ s with snoopQ := [(op, half)], snoopIn := s.snoopIn + 1 } : State).snoopAct op half)))
  ∧ (∀ (s : State) (half : Nat) (g : Go) (h : HostLine) (d : D2H), s.runs = true → alFind s.host (devLine half) = some h →
      h.d2h (half % 2) = some d →
      (d.op ≤ 1 → g ≠ .err → exec (.goReceive half g) s = .next { s with
        host := alPut s.host (devLine half) (h.setHalf (half % 2) (h.half (half % 2)) (some { d with go := some g })) })
      ∧ (d.op = 2 → g ≠ .err → exec (.goReceive half g) s = .next (s.halfDone half (h.setHalf (half % 2) (goSt g) none)))
      ∧ (d.op ≤ 2 → g = .err → exec (.goReceive half g) s = .next (s.halfDone half
          { h.setHalf (half % 2) (if d.op = 0 then .s else .e) none with line := markHalf h.line (half % 2) }))
      ∧ (4 ≤ d.op → exec (.goReceive half g) s = .next (s.evictGo half h d)))
  ∧ (∀ (s : State) (half : Nat) (data : BitVec 512) (p : Bool) (h : HostLine) (d : D2H), s.runs = true →
      alFind s.host (devLine half) = some h → h.d2h (half % 2) = some d →
      (∀ g, d.op ≤ 1 → d.go = some g → exec (.hostDataReceive half data p) s = .next (s.halfDone half
        ({ h with line := putHalf h.line (half % 2) data.toNat p }.setHalf (half % 2) (goSt g) none)))
      ∧ (d.op = 3 → exec (.hostDataReceive half data p) s = .next (s.halfDone half
        ({ h with line := putHalf h.line (half % 2) data.toNat p }.setHalf (half % 2) (h.half (half % 2)) (some { d with go := some .grantS })))))
  ∧ (∀ (s : State) (line : Nat) (h : HostLine), s.serves = true → alFind s.host line = some h → h.d0 = none → h.d1 = none → h.waiters = [] →
      s.busyRec line = none → exec (.hostLineEvict line) s = .next (s.snoopAct 3 (hostHalf line 0)))

/-- An accepted access that no earlier one of its source precedes is taken by the home of its line, which queues it behind a busy
line, an earlier request or a fill of the line; a fill whose way can be had installs its line and applies the waiting accesses
in order; an eviction write is issued to memory and, acknowledged, frees its entry and lets what waited go on; a clean victim is
offered to its home slice and is declined there or installed; a way at 16 corrected errors in 24 hours is taken out of service
and one below stays; reading MEM_L2_WAY, MEM_STACK_TEMP and COL_SAT resets the high-water marks and counts as the rules say. -/
def Obligations.HomesAndCachesComplete : Prop :=
  (∀ (s : State) (id : Nat) (r : Req), s.req id = some r → s.serves = true → r.stage = .sent → s.homeHere (r.pa / 128) = true →
    s.earlier r = false →
    (hostLine (r.pa / 128) = false → ∀ x : AccErrs, exec (.homeAccess id x) s = .next ((s.setReq { r with errs := x }).homeStep (.acc id)))
    ∧ (r.kind.writes = false → exec (.rdc id) s = .next (s.homeStep (.acc id)))
    ∧ (r.kind = .store ∨ r.kind = .bwrite → exec (.wrReq id) s = .next (s.homeStep (.acc id)))
    ∧ (r.kind = .atomic ∨ r.kind = .red ∨ r.kind = .redl → exec (.atReq id) s = .next (s.homeStep (.acc id))))
  ∧ (∀ (u t : State) (id line : Nat) (r : Req), u.req id = some r → line = r.pa / 128 → hostLine line = false →
      ((u.busyRec line).isSome = true → u.homeStep (.acc id) = u.waitAt line r)
      ∧ (u.busyRec line = none → (∀ x ∈ u.waitOf line, u.lineOf x ≠ line) → (∀ f ∈ (u.lineSlice line).fills, f.addr ≠ line) → t = u.uncachedAct r →
        (t.busyOf line).length ≤ 64 → u.homeStep (.acc id) = t))
  ∧ (∀ (s : State) (line w : Nat) (crc : List Nat) (f : Fill) (v x : Slice), s.serves = true → hostLine line = false → v = s.lineSlice line →
      v.fills.find? (fun f => f.addr == line) = some f → v.evIndex line = none →
      ({ v with fills := v.fills.filter (fun g => g.addr != line) }).fillWay f = some (x, w) →
      exec (.l2FillReturn line crc) s = .next (f.waiters.foldl State.homeStep
            (((s.setLineSlice line (x.install w line ((s.memLine line).lose (crcLost crc)) false)).countRead line).linkRead line crc)))
  ∧ (∀ (v : Slice) (f : Fill), v.enabled f.way = true → v.fillWay f = some (v, f.way))
  ∧ (∀ (s : State) (line : Nat) (crc : List Nat) (e : EvEntry) (v : Slice), s.serves = true → hostLine line = false → v = s.lineSlice line →
      v.evb.find? (fun e => e.addr == line && !e.issued) = some e → s.memBlocked line = false →
      exec (.evictionWriteIssue line crc) s = .next (((s.setLineSlice line { v with
        evb := v.evb.map (fun x => if x.addr = line then { x with issued := true } else x) }).linkWrite line crc).putMem line (e.line.lose (crcLost crc))))
  ∧ (∀ (s : State) (line : Nat) (e : EvEntry) (v : Slice), s.serves = true → hostLine line = false → v = s.lineSlice line → e ∈ v.evb →
      e.addr = line → e.issued = true →
      exec (.evictionWriteAck line) s = .next (((s.setLineSlice line { v with
        evb := v.evb.eraseP (fun e => e.addr == line && e.issued) }).drainWays (s.homeOf line).1 (s.homeOf line).2).drainHome line))
  ∧ (∀ (s : State) (cluster line set : Nat) (v : Slice), s.serves = true → cluster < 8 → hostLine line = false → s.isMem (line * 128) = true →
      s.busyRec line = none → v = s.lineSlice line → (∀ f ∈ v.fills, f.addr ≠ line) → s.dirOf line = none → set = setOf line →
      (((v.way line).isSome = true ∨ (v.evIndex line).isSome = true ∨ 24 ≤ v.evb.length ∨ v.choose set = none) →
        exec (.cleanVictimOffer cluster line (s.homeData line)) s = .next s)
      ∧ (∀ w, v.way line = none → v.evIndex line = none → v.evb.length < 24 → v.choose set = some w → alFind v.lines (set * 16 + w) = none →
        exec (.cleanVictimOffer cluster line (s.homeData line)) s = .next (s.setLineSlice line (v.install w line (s.homeData line) false))))
  ∧ (∀ (s : State) (die k way : Nat), s.serves = true → die < 4 → k < 32 → way < 16 →
      (16 ≤ (s.slice die k).errors way → exec (.wayDisable die k way) s = .next (s.disableWay die k way))
      ∧ ((s.slice die k).errors way < 16 → exec (.wayDisable die k way) s = .next s))
  ∧ (∀ (s : State) (die k : Nat), s.serves = true → die < 4 → k < 32 →
      exec (.memL2WayRead die k) s = .next (s.setSlice die k { s.slice die k with evhi := (s.slice die k).evb.length }))
  ∧ (∀ (s : State) (die n : Nat), s.serves = true → die < 4 →
      (∀ k, k < 3 → (alGet ({} : Stack) s.hbm (die * 3 + k)).temp ≤ n) → (n = 0 ∨ ∃ k, k < 3 ∧ (alGet ({} : Stack) s.hbm (die * 3 + k)).temp = n) →
      exec (.memStackTempRead die) s = .next { s with tmax := alPut s.tmax die n })
  ∧ (∀ (s : State) (die l : Nat), s.serves = true → die < 4 → l < 10 →
      exec (.colSatRead die l) s
        = .next { s with colSat := alPut s.colSat (die * 10 + l) (0, 0, (alGet (0, 0, 0) s.colSat (die * 10 + l)).2.2) })

/-- Training starts on a DOWN link and ends UP4, UP3 or DOWN by its good lanes. A flit whose 256 bytes are in error or out of
sequence is discarded and owes a NAK; a good one returns credit and acknowledges; a data flit advances the sequence; a NAK
replays what follows the last good flit, and the fourth replay of one retrains the link. A retrain ends in UP with the lanes
that remain or retires the link. A permanent fault takes its lane, or retires the link. Loss of REFCLK_RIDGE takes every link
down and its return lets them train; a link that is not up fails its replay buffer over. A message for this package reaches its
unit, home or agent, or is counted; another is forwarded, the link it crosses lowering its limit (how the limit stands in an
arriving message is log entry 40), or counted at hop limit 0. -/
def Obligations.RidgeLinksComplete : Prop :=
  (∀ (s : State) (link : Nat), s.trains link = true → (s.link link).state = 0 →
    exec (.linkTrainingStart link) s = .next (s.linkState link ({ s.link link with state := 1, lanes := 0 }).fresh))
  ∧ (∀ (s : State) (link peer : Nat) (lanes m : BitVec 4), s.trains link = true → (s.link link).state = 1 → m = lanes &&& ~~~(s.link link).faulty →
      (∀ st, upState m = some st →
        exec (.linkTrainingEnd link lanes peer) s = .next (s.linkState link ({ s.link link with state := st, lanes := m, peer := peer % 2 ^ 20 }).fresh))
      ∧ (upState m = none → exec (.linkTrainingEnd link lanes peer) s = .next (s.linkState link ({ s.link link with state := 0, lanes := 0 }).fresh)))
  ∧ (∀ (s : State) (link : Nat) (lanes m new : BitVec 4) (v : Link), s.trains link = true → v = s.link link → v.state = 4 → v.replay = [] →
      m = lanes &&& ~~~v.faulty → new = ~~~lanes &&& ~~~v.faulty →
      (∀ st u, upState m = some st →
        u = s.linkState link ({ v with faulty := v.faulty ||| new, revive := false, state := st, lanes := m }).fresh →
        exec (.linkRetrainEnd link lanes) s = .next (if new = 0 ∧ ¬ v.revive then u else u.laneEvent link (laneCount m)))
      ∧ (upState m = none → exec (.linkRetrainEnd link lanes) s = .next ((s.linkState link { v with
          faulty := v.faulty ||| new, revive := false, state := 5, lanes := 0 }).laneEvent link (laneCount m))))
  ∧ (∀ (s u : State) (link fecC fecU : Nat) (bytes : List Byte) (f : Flit) (v w : Link), s.serves = true → link < 64 → (s.link link).up = true →
      f = flitOf bytes → u = (s.count (1536 + 4 * link + 2) fecC).count (1536 + 4 * link + 3) fecU → v = u.link link →
      w = (if f.ccnt = 0 then v else { v with credit := alMod 0 v.credit f.cvc (· + f.ccnt) }) →
      (f.crcOk = false ∨ (f.typ = 0 ∧ f.seq ≠ v.rx) ∨ (v.nak ≠ none ∧ f.typ ≠ 0) →
        exec (.flitReceive link bytes fecC fecU) s = .next (u.setLink link { v with nak := some ((v.rx + 4095) % 4096) }))
      ∧ (f.crcOk = true → f.typ = 0 → f.seq = v.rx → exec (.flitReceive link bytes fecC fecU) s = .next (u.setLink link { w with
          rx := (w.rx + 1) % 4096, nak := none, replay := if f.ackv then released f.ack w.replay else w.replay }))
      ∧ (f.crcOk = true → f.typ = 1 → v.nak = none → exec (.flitReceive link bytes fecC fecU) s = .next (u.setLink link { w with
          replay := if f.ackv then released f.ack w.replay else w.replay }))
      ∧ (f.crcOk = true → f.typ = 2 → v.nak = none → exec (.flitReceive link bytes fecC fecU) s = .next ((u.setLink link w).nakOn link f.ack)))
  ∧ (∀ (s u : State) (link last : Nat) (sent again : List (Nat × Nat × RMsg)), s.serves = true → link < 64 → (s.link link).up = true →
      sent = (released last (s.link link).replay).take 512 →
      again = sent.map (fun e => (e.1, e.2.1 + 1, e.2.2)) ++ (released last (s.link link).replay).drop 512 →
      u = ((s.setLink link { s.link link with replay := again, retry := satAdd 65535 (s.link link).retry sent.length }).count
        (1536 + 4 * link) sent.length).count (svc 9) (sent.filter (fun e => e.2.1 == 0)).length →
      exec (.nakReceive link last) s = .next (if again.any (fun e => decide (4 ≤ e.2.1)) then u.linkRetrain link else u))
  ∧ (∀ (s u : State) (link lane : Nat) (f : BitVec 4), s.serves = true → link < 64 → lane < 4 → (s.link link).state ≠ 5 →
      f = (s.link link).faulty ||| (1#4 <<< lane) → u = s.setLink link { s.link link with faulty := f } →
      exec (.lanePermanentFault link lane) s = .next (if f = (s.link link).faulty then s else if 2 ≤ laneCount f then u.linkRetire link
        else if (s.link link).up then (u.laneEvent link 3).linkRetrain link else u.laneEvent link 3))
  ∧ (∀ s : State, s.on = true → s.plat.ridgeClk = true →
      exec .refclkRidgeLoss s = .next ((List.range 64).foldl (fun (t : State) l => t.linkDown l) { s with plat := { s.plat with ridgeClk := false } }))
  ∧ (∀ s : State, s.on = true → s.plat.ridgeClk = false →
      exec .refclkRidgeReturn s = .next { s with plat := { s.plat with ridgeClk := true } })
  ∧ (∀ (s : State) (link : Nat), s.serves = true → link < 64 → (s.link link).up = false →
      exec (.linkFailover link) s = .next ((s.link link).replay.foldl (fun (t : State) e => t.failoverOne link e) (s.setLink link { s.link link with replay := [] })))
  ∧ (∀ (s : State) (link : Nat) (m : RMsg), s.serves = true → link < 64 → (s.link link).up = true → m.dest / 1024 = s.myAddr / 1024 →
      (unitListed (m.dest / 128 % 8) (m.dest % 128) = false → exec (.ridgeMessageArrive link m) s = .next (s.count (svc 11)))
      ∧ (unitListed (m.dest / 128 % 8) (m.dest % 128) = true →
        (∀ a, m.acc = some a → exec (.ridgeMessageArrive link m) s = .next (s.remoteStart link m a))
        ∧ (∀ x q, m.acc = none → m.ans = some x → m.coh = none → s.req m.req = some q → q.stage = .sent → (ridgeOf q.levels).isSome = true →
          exec (.ridgeMessageArrive link m) s = .next (s.reply q.id (accResultOf x)))
        ∧ (∀ c, m.acc = none → m.ans = none → m.coh = some c →
          exec (.ridgeMessageArrive link m) s = .next { s with msgs := s.msgs ++ [{ c with line := s.lineHere c.hpkg c.line }] })
        ∧ (∀ a, m.acc = none → m.ans = none → m.coh = none → m.dead = some a → exec (.ridgeMessageArrive link m) s = .next (s.noticesHere [a]))
        ∧ (m.acc = none → m.ans = none → m.coh = none → m.dead = none →
          exec (.ridgeMessageArrive link m) s = .next { s with rdgIn := s.rdgIn ++ [m] })))
  ∧ (∀ (s : State) (link k : Nat) (m : RMsg), s.serves = true → link < 64 → (s.link link).up = true → m.dest / 1024 ≠ s.myAddr / 1024 →
      (m.hops ≠ 0 → s.egress (m.dest / 1024) (msgHash m) = some k → (link / 16 = k / 16 ∨ (s.colRoute (link / 16) (k / 16) 0).isSome = true) →
          exec (.ridgeMessageArrive link m) s = .next (s.ridgeSend k m))
      ∧ (m.hops = 0 → exec (.ridgeMessageArrive link m) s = .next ((s.count (svc 10)).goesNoFurther m)))

/-- A START of a new identifier writes its payload to the start ring, is logged and acknowledged, and goes on to the children; a
repeated one is acknowledged, and answered DONE once the subtree is; ACK and DONE advance the child, or its re-feed; a member
reported unreached is re-fed by the root; an alternate parent answers ACK and starts the re-fed subtree, or reports at once one
that has ended; REFEED_DONE ends its re-feed; silent for TACK without an ACK, a child gets START once more, then it is lost, as
it is when silent for TDONE without DONE; an alternate parent is lost at once. -/
def Obligations.JobStartsComplete : Prop :=
  (∀ (s u : State) (m : StartMsg) (base log2 : Nat) (b : Bcast), s.serves = true → s.bcastOf m.bid = none →
    s.cfg.startRing = some (base, log2) → s.ringWrite .hub 3 (base + 4096 * (s.starts % 2 ^ log2)) m.payload = (true, u) →
    b = { bid := m.bid, root := none, parents := [m.sender], index := m.index, n := m.n, f := m.f, members := m.members, payload := m.payload
          children := firstChildren m.f m.n m.index u.now, refeeds := [], acked := [], unreached := [], refed := [], doneSent := false, dbuf := 0, space := 0 } →
    exec (.startMsg m) s = .next ((b.children.foldl (fun (t : State) c => t.sendStart b c.index)
      (((({ u with starts := u.starts + 1 }).logEv 0x000E 4 0 [m.bid, s.starts % 2 ^ log2, m.payload.length, m.sender]).addBcast b).bcSend
        m.bid 1 m.sender m.index)).settle m.bid))
  ∧ (∀ (s u : State) (m : StartMsg) (base log2 : Nat), s.serves = true → s.bcastOf m.bid = none → s.cfg.startRing = some (base, log2) →
      s.ringWrite .hub 3 (base + 4096 * (s.starts % 2 ^ log2)) m.payload = (false, u) → exec (.startMsg m) s = .next u)
  ∧ (∀ (s u : State) (m : StartMsg) (b : Bcast), s.serves = true → s.bcastOf m.bid = some b →
      u = (s.setBcast { b with parents := if b.parents.contains m.sender then b.parents else b.parents ++ [m.sender] }).bcSend m.bid 1 m.sender b.index →
      exec (.startMsg m) s = .next (if b.doneSent then u.bcSend m.bid 2 m.sender b.index else u))
  ∧ (∀ (s : State) (bid child : Nat) (b : Bcast) (a : List Nat), s.serves = true → s.bcastOf bid = some b →
      a = (if child ∈ b.acked then b.acked else b.acked ++ [child]) →
      (b.childState child = some 0 ∨ b.childState child = some 1 →
        exec (.startAck bid child) s = .next (s.setBcast ({ b with acked := a }.setChild child 2 s.now)))
      ∧ (∀ k, b.childState child = none → indexWhere (fun (r : Refeed) => r.alt == child && r.state == 0) b.refeeds = some k →
        exec (.startAck bid child) s = .next (s.setBcast { b with
          acked := a, refeeds := updNth b.refeeds k (fun r => { r with state := 1, since := s.now }) })))
  ∧ (∀ (s : State) (bid child st : Nat) (b : Bcast), s.serves = true → s.bcastOf bid = some b → b.childState child = some st → st < 3 →
      exec (.doneMsg bid child) s = .next ((s.childEnd b child 3).settle bid))
  ∧ (∀ (s : State) (bid member : Nat) (b : Bcast), s.serves = true → s.bcastOf bid = some b → b.root ≠ none → member ≠ 0 → member < b.n →
      exec (.unreached bid member) s = .next ((s.rootUnreached bid member).settle bid))
  ∧ (∀ (s u : State) (m : StartMsg) (b : Bcast), s.serves = true → s.bcastOf m.bid = some b → u = s.bcSend m.bid 1 m.sender b.index →
      (b.childState m.index = none → exec (.refeed m) s = .next ((u.setBcast { b with
        children := b.children ++ [({ index := m.index, state := 0, since := s.now } : Child)], refed := b.refed ++ [m.index] }).sendStart b m.index))
      ∧ (∀ st, b.childState m.index = some st → exec (.refeed m) s = .next (if 3 ≤ st then u.bcSend m.bid 5 m.sender m.index
          else u.setBcast { b with refed := if m.index ∈ b.refed then b.refed else b.refed ++ [m.index] })))
  ∧ (∀ (s : State) (bid alt member : Nat) (b : Bcast), s.serves = true → s.bcastOf bid = some b →
      exec (.refeedDone bid alt member) s = .next ((s.setBcast { b with refeeds := b.refeeds.map (fun r =>
        if r.alt = alt ∧ r.sub = member ∧ r.state < 2 then { r with state := 2 } else r) }).settle bid))
  ∧ (∀ (s : State) (bid child : Nat) (b : Bcast), s.serves = true → s.bcastOf bid = some b →
      (b.silent child s.now b.tack 0 = true →
        (b.childState child = some 0 → exec (.tackTimeout bid child) s = .next ((s.setBcast (b.setChild child 1 s.now)).sendStart b child))
        ∧ (b.childState child = some 1 → exec (.tackTimeout bid child) s = .next (s.lose b child))
        ∧ (∀ r, b.childState child = none → r ∈ b.refeeds → r.alt = child → r.state = 0 → exec (.tackTimeout bid child) s = .next (s.lose b child)))
      ∧ (b.silent child s.now b.tdone 1 = true →
        (b.childState child = some 2 → exec (.tdoneTimeout bid child) s = .next (s.lose b child))
        ∧ (∀ r, r ∈ b.refeeds → r.alt = child → r.state = 1 → exec (.tdoneTimeout bid child) s = .next (s.lose b child))))

/-- With its request taken, its target there and nothing conflicting: SCRUB and SENSOR_CAL run; HBM_RETRAIN and LP_RETRAIN take the
first channel of their group out of service; RIDGE_RETRAIN trains its link again; CHAN_EVAC copies a channel in service to the
idle spare, or resumes the split one; WAY_TEST names and drains its way; TILE_RETIRE makes its tile ineligible, or ends at once
for a retired one; DIE_RESET, in both its forms, resets its die, and in Halt is held suspended. -/
def Obligations.MaintenanceStartsComplete : Prop :=
  (∀ (s u : State) (q : ActReq) (a : Act), s.opens q a u →
    (a.code = 1 → (∃ p k, q = .port p k) → exec (.scrub q) s = .next u)
    ∧ (a.code = 2 → exec (.hbmRetrain q) s = .next (u.setChan a.die (chanIx a.t4 0) { s.chan a.die (chanIx a.t4 0) with retrain := true }))
    ∧ (a.code = 3 → exec (.lpRetrain q) s = .next (u.setChan a.die 96 { s.chan a.die 96 with retrain := true }))
    ∧ (a.code = 4 → (∃ p k, q = .port p k) → exec (.ridgeRetrain q) s = .next (u.ridgeAgain (16 * a.die + a.t4)))
    ∧ (a.code = 5 → (s.remapOf a.die a.t4).split = false → (s.remapOf a.die a.t4).evac = false → (s.chan a.die (chanIx a.t4 (spareOf a.t4))).state = 1 →
        (s.chan a.die (chanIx a.t4 a.t5)).state = 0 →
        exec (.chanEvac q) s = .next (({ u with remap := alPut s.remap (a.die * 4 + a.t4) {
          target := a.t5, evac := true, split := false, wmark := 0, poisoned := 0 } }).chanState a.die (chanIx a.t4 a.t5) 2 a.t5))
    ∧ (a.code = 5 → (s.remapOf a.die a.t4).split = true → (s.remapOf a.die a.t4).target = a.t5 →
        exec (.chanEvac q) s = .next { u with remap := alPut s.remap (a.die * 4 + a.t4) {
          s.remapOf a.die a.t4 with evac := true, split := false } })
    ∧ (a.code = 6 → (∃ p k, q = .port p k) → exec (.wayTest q) s = .next ((u.setSlice a.die a.t4 {
        s.slice a.die a.t4 with test := some a.t5 }).drainWays a.die a.t4))
    ∧ (a.code = 7 → (s.tile a.die a.t4).retired = false → exec (.tileRetire q) s = .next ((u.setTile a.die a.t4 {
        s.tile a.die a.t4 with retiring := true }).launchesCheck))
    ∧ (a.code = 7 → (s.tile a.die a.t4).retired = true → exec (.tileRetire q) s = .next (u.endAct a 0 (leBytes 4 0)))
    ∧ (a.code = 8 → exec (.sensorCal q) s = .next u)
    ∧ (a.code = 9 → ∀ p k, q = .port p k → exec (.dieReset (.maint p k)) s = .next (u.resetDie a.die)))
  ∧ (∀ (s : State) (p : Port) (k : Packet) (die : Nat) (a : Act), s.accepts 0x0801 p k = true → byteFld (pktData k) 0 1 = die → die < 4 →
      s.plat.lostC.contains die = false → s.acts.length < 16 → (s.acts.any fun x => x.clashes 9 die 0 0) = false →
      (∀ x ∈ s.acts, x.num ≠ s.actNum + 1) →
      a = { num := s.actNum + 1, code := 9, die := die, t4 := 0, t5 := 0, state := 0, origin := originOf p, time := s.now,
            aborting := false, result := [], bare := true, begun := true } →
      (s.power.pstate ≠ 3 → exec (.dieReset (.command p k)) s =
        .next (({ s.began 0x0801 p k with acts := s.acts ++ [a], actNum := a.num }).resetDie die))
      ∧ (s.power.pstate = 3 → exec (.dieReset (.command p k)) s =
        .next { s.began 0x0801 p k with acts := s.acts ++ [{ a with state := 2, begun := false }], actNum := a.num }))

/-- A finished SCRUB corrects and marks its group's sectors and reports both counts; a retrain whose channels are back reports their
repairs; a RIDGE_RETRAIN reports the state its link reached; a wholly written CHAN_EVAC reports its counts; a passed WAY_TEST
enables its way; a TILE_RETIRE with no stand left retires its tile; SENSOR_CAL reports the sensors that stay excluded. A waiting
activity with nothing before it begins. A retrained channel comes back; an evacuated block advances WMARK, and splits the
channel there when the activity is aborting; the 100 ms end reports stands still on a retiring tile lost; a drained DIE_RESET
completes. -/
def Obligations.MaintenanceEndsComplete : Prop :=
  (∀ (s : State) (num : Nat) (passed : Bool) (result : List Byte) (a : Act), s.serves = true → s.actOf num = some a → a.begun = true →
    a.state = 0 →
    (a.code = 1 → a.aborting = false → ∀ x, x = s.scrubWhere (fun q => decide (q.die = a.die) && decide (q.group = a.t4)) →
      exec (.activityEnd num passed result) s = .next (x.1.endAct a 0 (leBytes 8 x.2.1 ++ leBytes 8 x.2.2)))
    ∧ (a.code = 2 ∨ a.code = 3 → (∀ k < a.channels, (s.chan a.die (chanIx (actGroup a.code a.t4) k)).retrain = false) →
        a.channels ≤ a.result.length → exec (.activityEnd num passed result) s = .next (s.endAct a 0 a.result))
    ∧ (a.code = 4 → (s.link (16 * a.die + a.t4)).state ≠ 1 → (s.link (16 * a.die + a.t4)).state ≠ 4 →
        exec (.activityEnd num passed result) s = .next (s.endAct a 0 (leBytes 1 (s.link (16 * a.die + a.t4)).state)))
    ∧ (a.code = 5 → ∀ r, s.remapOf a.die a.t4 = r → chanUnits a.t4 ≤ r.wmark →
        exec (.activityEnd num passed result) s = .next (s.endAct a 0 (leBytes 8 r.poisoned ++ leBytes 4 r.wmark)))
    ∧ (a.code = 6 → ∀ v, s.slice a.die a.t4 = v → (∀ e ∈ v.lines, e.1 % 16 ≠ a.t5) →
        exec (.activityEnd num true result) s = .next ((s.setSlice a.die a.t4 { v with
          test := none, dis := v.dis &&& ~~~(1#16 <<< a.t5),
          ce := if bitOf v.dis.toNat a.t5 then v.ce.filter (fun e => decide (e.1 / 24 ≠ a.t5)) else v.ce }).endAct a 0 (leBytes 1 0)))
    ∧ (a.code = 7 → (s.tile a.die a.t4).stands = [] → ∀ lost, lost = byteFld a.result 0 4 →
        exec (.activityEnd num passed result) s = .next (((s.tileGone a.die a.t4).logEv 0x0005 a.die 2 [a.t4, lost]).endAct a 0 (leBytes 4 lost)))
    ∧ (a.code = 8 → ∀ mine now, mine = (fun k => (List.range (if a.die = 4 then 36 else 208)).any (fun j => sensorNum a.die j == k)) →
        now = (result.map (fun b => sensorNum a.die b.toNat)).eraseDups.filter mine →
        exec (.activityEnd num passed result) s = .next (({ s with tally := { s.tally with
          excluded := s.tally.excluded.filter (fun k => !(mine k)) ++ now } }).endAct a 0 (leBytes 2 now.length))))
  ∧ (∀ (s : State) (num : Nat) (a : Act), s.serves = true → s.actOf num = some a → a.state = 1 →
      (∀ x ∈ s.acts, x.num < num → x.clashes a.code a.die a.t4 a.t5 = false) →
      exec (.waitingActivityStart num) s = .next (s.actBegin a))
  ∧ (∀ (s u : State) (die chan lrep l : Nat) (a b : Act), s.serves = true → die < 4 → (s.chan die chan).retrain = true →
      s.chanBusy die chan = false → l = max (s.chan die chan).lrep (min 15 (min (repairLanes (if 96 ≤ chan then 3 else 0)) lrep)) →
      s.acts.find? (fun a => (a.code == 2 || a.code == 3) && a.die == die && a.begun
        && actGroup a.code a.t4 == (if 96 ≤ chan then 3 else chan / 32)) = some a →
      b = { a with result := a.result ++ leBytes 1 (l - (s.chan die chan).lrep) } →
      u = (s.setChan die chan { s.chan die chan with retrain := false, lrep := l }).setAct b →
      exec (.channelRetrainComplete die chan lrep) s = .next (if b.aborting = true ∨ b.channels ≤ b.result.length then u
        else u.setChan die (chan + 1) { u.chan die (chan + 1) with retrain := true }))
  ∧ (∀ (s : State) (die group : Nat) (a : Act) (r : Remap) (x : State × Nat × Nat) (stop : Bool), s.serves = true → s.remapOf die group = r → r.evac = true →
      a ∈ s.acts → a.code = 5 → a.die = die → a.t4 = group → a.begun = true → a.state = 0 → r.wmark + 16 < chanUnits group →
      x = s.scrubWhere (fun q => decide (q.die = die) && decide (q.group = group) && decide (q.logical = r.target)
        && decide (r.wmark ≤ q.unit) && decide (q.unit < r.wmark + 16)) →
      stop = x.1.acts.any (fun (a : Act) => a.code == 5 && a.die == die && a.t4 == group && a.begun && a.aborting) →
      exec (.chanEvacBlockWritten die group) s = .next { x.1 with remap := alPut x.1.remap (die * 4 + group) {
        r with wmark := r.wmark + 16, poisoned := r.poisoned + x.2.2, evac := !stop, split := stop } })
  ∧ (∀ (s : State) (die tile : Nat) (a : Act), s.serves = true → (s.tile die tile).retiring = true →
      s.acts.find? (fun a => a.code == 7 && a.die == die && a.t4 == tile && a.begun && a.state == 0 && a.result.isEmpty
        && s.due (a.time + 100000000)) = some a →
      exec (.tileRetireDeadline die tile) s =
        .next ((s.setAct { a with result := leBytes 4 (s.tile die tile).stands.length }).loseStands die tile))
  ∧ (∀ (s : State) (die : Nat), s.serves = true → s.plat.resetting.contains die = true → s.drainedDie die = true →
      ((∀ a ∈ (s.resetDone die 0).acts, a.code = 9 → a.die = die → a.begun = false) →
        exec (.dieResetDrainEnd die) s = .next (s.resetDone die 0))
      ∧ (∀ a, (s.resetDone die 0).acts.find? (fun a => a.code == 9 && a.die == die && a.begun) = some a →
        exec (.dieResetDrainEnd die) s = .next ((s.resetDone die 0).endAct a 0 [])))

/-- A stopped service clock resets its compute die; a compute die whose clock does not return is lost, with its report; a tile
without credit loses its stands and is retired; a lost foundation die is isolated, its compute die lost with it. A patrol scrub
visit takes the early list first, then the next unit, and corrects or marks its sectors. A threshold crossing at its count logs
event 0x0004 after its permanent action: a channel evacuated to the idle spare or flagged, a group retrained, a way disabled, a
die flagged, a tile retired, a lane dropped, a link retired, a sensor excluded and calibrated, or only the log entry. -/
def Obligations.DieLossAndThresholdsComplete : Prop :=
  (∀ (s : State) (die : Nat), s.serves = true → die < 4 → s.plat.lostC.contains die = false →
    ∃ l : List Nat, (die ∈ l ∧ ∀ x ∈ l, x = die ∨ x ∈ s.plat.stopped)
      ∧ exec (.serviceClockStop die) s = .next (({ s with plat := { s.plat with stopped := l } }).resetDie die))
  ∧ (∀ (s : State) (die : Nat), s.serves = true → s.plat.stopped.contains die = true → s.plat.resetting.contains die = false →
      s.plat.lostC.contains die = false →
      exec (.computeDieLost die) s = .next (s.dieGone die 1) ∧ die ∈ (s.dieGone die 1).plat.lostC)
  ∧ (∀ (s : State) (die tile : Nat), s.serves = true → s.dieLive die = true → tile < 68 → (s.tile die tile).retired = false →
      exec (.tileLost die tile) s = .next (((s.tileGone die tile).logEv 0x0005 die 3 [tile, (s.tile die tile).stands.length]).failActs
        (fun a => a.code == 7 && a.die == die && a.t4 == tile && a.begun)))
  ∧ (∀ (s : State) (die : Nat), s.serves = true → die < 4 → s.plat.lostF.contains die = false →
      ∃ t : State, exec (.foundationLost die) s = .next t ∧ die ∈ t.plat.lostF ∧ die ∈ t.plat.lostC)
  ∧ (∀ (s u : State) (die chan unit : Nat) (crc : List (Nat × Nat)) (c d : Chan) (p : Place → Bool), s.serves = true → s.plat.memUp = true → die < 4 → chan < 112 →
      s.plat.lostF.contains die = false → s.inFlight die chan unit = false → s.chan die chan = c → c.retrain = false → u = s.setChan die chan d →
      p = (fun q => decide (q.die = die) && decide (u.chanOf q = chan) && decide (q.unit = unit)) →
      (∀ rest, c.early = unit :: rest → d = { c with early := rest } →
        exec (.patrolScrubVisit die chan unit crc) s = .next ((u.visitCrc p crc).scrubWhere p).1)
      ∧ (c.early = [] → unit = c.scrub → d = { c with scrub := (c.scrub + 1) % chanUnits (if 96 ≤ chan then 3 else chan / 32) } →
        exec (.patrolScrubVisit die chan unit crc) s = .next ((u.visitCrc p crc).scrubWhere p).1))
  ∧ (∀ (s u : State) (row die obj count k : Nat), s.serves = true → objectOk row die obj = true → rowLeast row ≤ count → k = sensorNum die obj →
      (row ∈ [6, 10] ∧ u = s)
        ∨ (row ∈ [0, 1] ∧ (s.chan die obj).state = 3 ∧ u = (s.chanState die obj 6 (s.chan die obj).logical).flagF die)
        ∨ (row ∈ [0, 1] ∧ (s.chan die obj).state = 0 ∧ s.spareIdle die (if 96 ≤ obj then 3 else obj / 32) = true
            ∧ u = s.firmAct 5 die (if 96 ≤ obj then 3 else obj / 32) (s.chan die obj).logical)
        ∨ (row = 2 ∧ 96 ≤ obj ∧ u = (s.window 2 (die * 4 + 3)).firmAct 3 die 0 0 ∧ u.tally.window24 2 (die * 4 + 3) < 3)
        ∨ (row = 2 ∧ obj < 96 ∧ u = (s.window 2 (die * 4 + obj / 32)).firmAct 2 die (obj / 32) 0 ∧ u.tally.window24 2 (die * 4 + obj / 32) < 3)
        ∨ (row = 3 ∧ 16 ≤ (s.slice die (obj / 16)).errors (obj % 16) ∧ u = s.disableWay die (obj / 16) (obj % 16))
        ∨ (row = 4 ∧ u = s.flagF die)
        ∨ (row = 5 ∧ (s.tile die obj).retired = false ∧ (s.tile die obj).retiring = false ∧ u = s.firmAct 7 die obj 0)
        ∨ (row = 7 ∧ u = s.laneFault (obj / 4) (obj % 4))
        ∨ (row = 8 ∧ (s.link obj).state ≠ 5 ∧ u = s.linkRetire obj)
        ∨ (row = 9 ∧ u = ({ s with tally := { s.tally with
            excluded := if k ∈ s.tally.excluded then s.tally.excluded else s.tally.excluded ++ [k] } } : State).firmAct 8 die 0 0) →
      exec (.thresholdCrossed row die obj count) s = .next (u.logEv 0x0004 (if row ≤ 4 then 8 + die else if row = 10 then 4 else die) 2
        [row, obj, count, if u.actNum = s.actNum then 0 else s.actNum + 1]))

/-- A node core's write sets lysapctl.EN, clears lysapflt.V, sets XLT_ROOT, whose cleared EN removes what was cached of the space,
RDG_ROUTE, RDG_WIN and, from machine mode, DBG_DATA within their fields; a write to a SAFE register changes nothing and is
counted. In a service window DONE is cleared by a 1, IEN written, and the request buffer written unless the port is busy, which
counts in IGN. A route write sets its fields and keeps PEND, or sends exactly one message when EN becomes 1 over PEND. An
interrupt event sets PEND of a disabled route with a file, and sends for an enabled one. -/
def Obligations.RegistersAndInterruptsComplete : Prop :=
  (∀ (s : State) (m : Bool) (core : Nat) (v : W64), s.coreRuns core = true →
    exec (.registerWrite (.node m core) 0x5C0 v) s = .next (s.onCore core (fun c => { c with apEn := bitOf v.toNat 0 }))
    ∧ (bitOf v.toNat 63 = true → exec (.registerWrite (.node m core) 0x5C1 v) s = .next (s.onCore core (fun c => { c with valid := false })))
    ∧ (∀ i < 16, exec (.registerWrite (.node m core) (0x0F0800300000 + 8 * i) v) s =
        .next { s with xlt := if ({ s.xlt with root := alPut s.xlt.root i (v &&& 0x00007FFFFFFFE007#64) } : Xlt).on i then
            { s.xlt with root := alPut s.xlt.root i (v &&& 0x00007FFFFFFFE007#64) }
          else ({ s.xlt with root := alPut s.xlt.root i (v &&& 0x00007FFFFFFFE007#64) } : Xlt).purge i })
    ∧ (∀ i < 1024, exec (.registerWrite (.node m core) (0x0F0800500000 + 8 * i) v) s =
        .next { s with rdgRoute := alPut s.rdgRoute i (v &&& 0x000003FFFFFFFFFF#64) })
    ∧ (∀ i < 64, exec (.registerWrite (.node m core) (0x0F0800502000 + 8 * i) v) s =
        .next { s with rdgWin := alPut s.rdgWin i (v &&& 0x0000000003FF07FF#64) })
    ∧ (∀ k < 7, exec (.registerWrite (.node m core) (0x0F0800900000 + 8 * k) v) s = .next (s.count (svc 13)))
    ∧ exec (.registerWrite (.node true core) 0x0F0800910008 v) s = .next { s with dbgUnit := { s.dbgUnit with data := v } }
    ∧ exec (.registerWrite (.node m core) 0x0F0800600010 v) s = .next { s with portN := {
        s.portN with done := s.portN.done && !(bitOf v.toNat 1), ien := bitOf v.toNat 2 } }
    ∧ (∀ o < 512, s.portN.busy = false → exec (.registerWrite (.node m core) (0x0F0800601000 + 8 * o) v) s = .next { s with portN := {
        s.portN with request := putRequest s.portN.request (8 * o) v } })
    ∧ (∀ o < 512, s.portN.busy = true → exec (.registerWrite (.node m core) (0x0F0800601000 + 8 * o) v) s = .next { s with portN := {
        s.portN with ign := satAdd (2 ^ 32 - 1) s.portN.ign 1 } }))
  ∧ (∀ (s : State) (v : W64), s.reach .h = true →
      exec (.registerWrite .host 0x10 v) s = .next { s with portH := {
        s.portH with done := s.portH.done && !(bitOf v.toNat 1), ien := bitOf v.toNat 2 } }
      ∧ (∀ o < 512, s.portH.busy = false → s.cairn.restarting = false → exec (.registerWrite .host (0x1000 + 8 * o) v) s = .next { s with portH := {
          s.portH with request := putRequest s.portH.request (8 * o) v } })
      ∧ (s.portH.msixPending = true → bitOf (setFld s.portH.msixTable 64 64 v.toNat) 96 = false →
          exec (.registerWrite .host 0x3008 v) s = .next { s with portH := { s.portH with
            msixTable := setFld s.portH.msixTable 64 64 v.toNat, msixPending := false, msixSent := s.portH.msixSent + 1 } }))
  ∧ (∀ (s : State) (i : Nat) (v e : W64), s.serves = true → i < 128 → e = v &&& 0x00000000807FF73F#64 →
      (bitOf (alGet 0 s.routes i).toNat 32 = false → exec (.routeEntryWrite i v) s = .next { s with routes := alPut s.routes i e })
      ∧ (bitOf (alGet 0 s.routes i).toNat 32 = true → bitOf e.toNat 31 = false →
          exec (.routeEntryWrite i v) s = .next { s with routes := alPut s.routes i (e ||| (1#64 <<< 32)) })
      ∧ (bitOf (alGet 0 s.routes i).toNat 32 = true → bitOf e.toNat 31 = true → wfld e 12 11 ≠ 0 →
          exec (.routeEntryWrite i v) s = .next (({ s with routes := alPut s.routes i e }).sendRoute e)))
  ∧ (∀ (s : State) (src : Nat), s.serves = true → src < 80 → wfld (alGet 0 s.routes src) 12 11 ≠ 0 →
      (bitOf (alGet 0 s.routes src).toNat 31 = true → exec (.interruptEvent src) s = .next (s.sendRoute (alGet 0 s.routes src)))
      ∧ (bitOf (alGet 0 s.routes src).toNat 31 = false →
          exec (.interruptEvent src) s = .next { s with routes := alPut s.routes src (alGet 0 s.routes src ||| (1#64 <<< 32)) }))

/-- A node core loads a device register of either size with what the read resets, and stores one. A coherent access to a line its
cluster holds as needed completes at once; one it does not hold sends the request of Table 9.7, or waits for a token. One that
crosses a line is made in two parts, both or neither. An access to a Ridge window goes out uncached. A FENCE notes what it waits
for. An aperture access that hits in space 0 goes out uncached; a miss leaves a walk pending and faults with cause 1, a refusal
with cause 2, a closed aperture with cause 3, a page on no memory with cause 4. A faulting access counts its access fault. -/
def Obligations.NodeAccessesComplete : Prop :=
  (∀ (s : State) (core : Nat) (a : NodeAccess), s.coreRuns core = true → a.addr < 2 ^ 48 → s.coreMay core a = true →
    (s.region a.addr = .regs → a.kind = .load → (a.size = 8 ∨ a.size = 4) → a.addr % a.size = 0 →
      exec (.nodeCoreAccess core a) s = .next ((s.regReadEffect (a.addr / 8 * 8)).coreValue core
        (if a.size = 8 then s.regRead (a.addr / 8 * 8) else BitVec.ofNat 64 (wfld (s.regRead (a.addr / 8 * 8)) (8 * (a.addr % 8)) 32))))
    ∧ (s.region a.addr = .regs → a.kind = .store → (a.size = 8 ∨ a.size = 4) → a.addr % a.size = 0 →
      exec (.nodeCoreAccess core a) s = .next (if a.size = 8 then s.regWrite a.machine a.addr a.data
        else if a.addr % 2 ^ 32 = 0x910004 then s else s.regWrite a.machine (a.addr / 8 * 8) (s.regHalf a.addr a.data)))
    ∧ (∀ n ag line, s.region a.addr = .near n ∨ s.region a.addr = .capacity n → a.addr % 128 + a.size ≤ 128 → a.aq = false → a.kind ≠ .fence →
        n ∉ s.plat.lostF → s.homeDie a.addr ∉ s.plat.lostF → ag = s.agentId (core / 8) → line = a.addr / 128 → ag ∉ s.dead →
        (s.ast ag line).stable = true →
        (nodeRequest a.kind (s.ast ag line) = none → a.kind ≠ .evict → exec (.nodeCoreAccess core a) s = .next (s.coreOn ag line core none a))
        ∧ (∀ op st, nodeRequest a.kind (s.ast ag line) = some (op, st) → core < 64 → (alGet {} s.agents ag).open_ < 48 →
          (alGet {} s.agents ag).lines.length < 65536 →
          (∀ t, s.gate .hub (line * 128) = .go t →
            exec (.nodeCoreAccess core a) s = .next (t.sendReq ag line op st (if a.kind = .evict then none else some (core, none, a))))
          ∧ (∀ t, s.gate .hub (line * 128) = .refused t → exec (.nodeCoreAccess core a) s = .next (s.refusedAs t))))
    ∧ (∀ n m p q u v, s.region a.addr = .near n ∨ s.region a.addr = .capacity n → a.kind = .load ∨ a.kind = .store → a.aq = false →
        s.faultsAt a = false → NodeAccess.parts a = [(some 0, p), (some m, q)] →
        (if a.kind = .load then s.coreValue core 0 else s).cachedPart core (some 0) p = (true, u) →
        (u.cachedPart core (some m) q = (true, v) → exec (.nodeCoreAccess core a) s = .next v)
        ∧ (u.cachedPart core (some m) q = (false, v) → exec (.nodeCoreAccess core a) s = .next (s.refusedAs v)))
    ∧ (∀ w k, s.region a.addr = .window w → NodeKind.uncached a.kind = some k → a.addr % 128 + a.size ≤ 128 → a.aq = false → s.coreBusy core = false →
        exec (.nodeCoreAccess core a) s = .next (s.coreAccess core noSpace a.addr a.addr k none a)))
  ∧ (∀ (s : State) (core : Nat) (a : NodeAccess), s.coreRuns core = true → a.kind = .fence →
      exec (.nodeCoreAccess core a) s = .next (s.fenceOn core ⟨a.sub / 16 % 16, bitOf a.sub 0,
        (s.coreOut core (a.sub % 4)).1, (s.coreOut core (a.sub % 4)).2⟩))
  ∧ (∀ (s u : State) (core va : Nat) (a : NodeAccess) (k : AccKind), s.coreRuns core = true → a.addr / 2 ^ 52 = 8 → va = a.addr % 2 ^ 52 →
      NodeKind.uncached a.kind = some k → s.coreMay core a = true → s.coreBusy core = false → a.addr % 128 + a.size ≤ 128 → a.aq = false →
      ((alGet {} s.cores core).apEn = false → exec (.apertureAccess core a) s = .next (s.apertureFault core va 3))
      ∧ ((alGet {} s.cores core).apEn = true →
        (∀ pa, s.look none 0 va k.need = (.hit pa, u) →
          (u.region pa ≠ .regs → u.region pa ≠ .unmapped → exec (.apertureAccess core a) s = .next (u.coreAccess core 0 va pa k none a))
          ∧ (u.region pa = .regs ∨ u.region pa = .unmapped → exec (.apertureAccess core a) s = .next (u.apertureFault core va 4)))
        ∧ (s.look none 0 va k.need = (.miss, u) →
          exec (.apertureAccess core a) s = .next ((u.aperturePend va (BitVec.ofNat 3 k.need)).apertureFault core va 1))
        ∧ (s.look none 0 va k.need = (.refused, u) → exec (.apertureAccess core a) s = .next (u.apertureFault core va 2))))
  ∧ (∀ (s : State) (core : Nat) (a : NodeAccess), s.coreRuns core = true → a.addr / 2 ^ 52 ≠ 8 → a.kind ≠ .evict → a.kind ≠ .fence →
      (2 ^ 48 ≤ a.addr ∨ (a.addr % 128 + a.size ≤ 128 ∧ s.region a.addr = .unmapped)
        ∨ (s.region a.addr = .regs ∧ (NodeAccess.regShape a = false ∨ a.kind = .amo ∨ a.kind = .lr ∨ a.kind = .sc))
        ∨ (∃ w, a.addr % 128 + a.size ≤ 128 ∧ s.region a.addr = .window w ∧ (a.kind = .lr ∨ a.kind = .sc))) →
      exec (.deviceRegisterAccessFault core a) s = .next { s with
        cores := alMod {} s.cores core (fun (c : NCore) => { c with faults := c.faults + 1 }) })

/-- Below the level a request needs, each debug request only sets ERR to 1. At its level, on a fit target: READ returns a crew's
register or eight bytes of storage; WRITE writes them; a cluster's debug module is another core's, its values free; HALT stops
and RUN releases the tiles named; STEP lets one crew issue once; BKSET takes the lowest free breakpoint and returns its index;
BKCLR clears the address; INJECT corrupts one or two symbols and is counted as injected; SAMPLE reads a PC or the active lanes. -/
def Obligations.DebugRequestsComplete : Prop :=
  (∀ (s : State) (q : DbgReq), s.serves = true →
    (s.cairn.dbg = 0 → ∀ c ∈ [Instr.dbgRead q, .dbgWrite q, .dbgHalt q, .dbgRun q, .dbgStep q, .bkset q, .bkclr q, .inject q, .sample q],
      exec c s = .next { s with dbgUnit := { s.dbgUnit with err := 1 } })
    ∧ (s.cairn.dbg = 1 → ∀ c ∈ [Instr.dbgWrite q, .dbgHalt q, .dbgRun q, .dbgStep q, .bkset q, .bkclr q, .inject q],
      exec c s = .next { s with dbgUnit := { s.dbgUnit with err := 1 } })
    ∧ (s.cairn.dbg = 1 → (dbgFile q ≠ 3 ∧ dbgFile q ≠ 4) ∨ q.space ≠ 0 ∨ q.die = 4 →
      exec (.dbgRead q) s = .next { s with dbgUnit := { s.dbgUnit with err := 1 } }))
  ∧ (∀ (s : State) (q : DbgReq), s.serves = true → 2 ≤ s.cairn.dbg → s.dbgTarget q = none →
      (q.space = 0 → dbgOnCluster q = false → dbgRegOk q 4 = true → exec (.dbgRead q) s = .next (s.dbgData (s.dbgReg q)))
      ∧ (dbgOnCluster q = true → exec (.dbgRead q) s = .next (s.drawn.dbgData (Free.debugModule s.fresh))
          ∧ exec (.dbgWrite q) s = .next (({ s with dbgUnit := { s.dbgUnit with
            cluster := alPut s.dbgUnit.cluster (q.unit * 2 ^ 48 + q.addr) s.dbgUnit.data } }).dbgEnd 0))
      ∧ (q.space ≠ 0 → s.dbgStore q = true → exec (.dbgRead q) s = .next (s.dbgLoad q))
      ∧ (q.space = 0 → dbgOnCluster q = false → dbgRegOk q 2 = true → exec (.dbgWrite q) s = .next ((s.dbgSetReg q s.dbgUnit.data).dbgEnd 0))
      ∧ (q.space = 1 → s.dbgStore q = true →
          exec (.dbgWrite q) s = .next ((s.writeLs q.die q.unit q.addr (leBytes 8 s.dbgUnit.data.toNat)).dbgEnd 0))
      ∧ (q.space = 2 → s.dbgStore q = true → exec (.dbgWrite q) s = .next (({ s with landing := alMod {} s.landing q.die (fun t =>
          t.writeBytes q.addr (leBytes 8 s.dbgUnit.data.toNat)) }).dbgEnd 0))
      ∧ (q.space = 3 → s.dbgStore q = true → exec (.dbgWrite q) s = .next (({
          s with dram := s.dram.writeBytes q.addr (leBytes 8 s.dbgUnit.data.toNat) }).dbgEnd 0))
      ∧ (q.space = 0 → dbgOnTile q true = true →
          exec (.dbgHalt q) s = .next (s.dbgTiles q (fun t => { t with halted := true, stepping := none }))
          ∧ exec (.dbgRun q) s = .next (s.dbgTiles q (fun t => { t with halted := false, stepping := none })))
      ∧ (q.space = 0 → dbgOnTile q false = true → dbgSlot q < 48 → (s.tile q.die q.unit).halted = true → exec (.dbgStep q) s =
          .next ((s.setTile q.die q.unit { s.tile q.die q.unit with stepping := some (dbgSlot q) }).dbgEnd 0))
      ∧ (q.die < 4 → ∀ i < 8, alFind s.dbgUnit.bk (q.die * 8 + i) = none → (∀ j < i, alFind s.dbgUnit.bk (q.die * 8 + j) ≠ none) →
          exec (.bkset q) s = .next (({ s with dbgUnit := { s.dbgUnit with bk := alPut s.dbgUnit.bk (q.die * 8 + i) q.addr } }).dbgData
            (BitVec.ofNat 64 i)))
      ∧ (q.die < 4 → exec (.bkclr q) s = .next (({ s with dbgUnit := { s.dbgUnit with
          bk := s.dbgUnit.bk.filter (fun e => !(e.1 / 8 == q.die && e.2 == q.addr)) } }).dbgEnd 0))
      ∧ (∀ n, n = wfld s.dbgUnit.data 0 2 → n = 1 ∨ n = 2 → s.dbgStore q = true →
          (q.space = 1 → exec (.inject q) s = .next (((s.setTile q.die q.unit ((s.tile q.die q.unit).putLs
            ((s.tile q.die q.unit).ls.inject q.addr n))).count (pairErr q.die 15)).dbgEnd 0))
          ∧ (q.space = 2 → exec (.inject q) s = .next ((({ s with landing := alMod {} s.landing q.die (fun t => t.inject q.addr n) }).count
            (pairErr q.die 15)).dbgEnd 0))
          ∧ (q.space = 3 → exec (.inject q) s = .next ((({ s with dram := s.dram.inject q.addr n }).count (pairErr (s.homeDie q.addr) 15)).dbgEnd 0))))
  ∧ (∀ (s : State) (q : DbgReq), s.serves = true → 1 ≤ s.cairn.dbg → q.space = 0 → s.dbgTarget q = none → dbgRegOk q 4 = true → 3 ≤ dbgFile q →
      exec (.sample q) s = .next (s.dbgData (s.dbgReg q)))

/-- For every command and state, a step of the state with that command put at the front of its queue is exec of the command on the
state with the rest of the queue waiting. -/
def Obligations.StepRunsFrontCommand : Prop :=
  (∀ (s : State) (c : Instr), step { s with pending := c :: s.pending } = exec c s)
  ∧ (∀ (s : State) (c : Instr) (rest : List Instr), s.pending = c :: rest → step s = exec c { s with pending := rest })

/-- With an empty queue a step is never a stop. Once CONFIG_COMMIT has set domain time and REFCLK_CORE runs, it adds 10 ns with the
steering in force, 9.99 ns while a slew remains; otherwise the state stays. That a tick stands for an empty queue is the model's
choice (log entry 3). -/
def Obligations.IdleStepTicks : Prop :=
  ∀ s : State, s.pending = [] →
    (s.up = false ∨ s.plat.stage < 2 → step s = .next s)
    ∧ (s.up = true → 2 ≤ s.plat.stage → s.time.slew = 0 → s.time.rate = 0 →
        step s = .next { s with time := { s.time with fine := s.time.fine + 1000000 } })
    ∧ (s.up = true → 2 ≤ s.plat.stage → 0 < s.time.slew →
        step s = .next { s with time := { s.time with fine := s.time.fine + 999000, slew := s.time.slew - min s.time.slew 1000 } })

/-- State.reset has an empty queue, power off, STAGE 0, empty memory and logs. Read as its register map lays it out, every device
register holds its Reset column: zero, but for FBK_DIE.CEIL 7, MEM_REMAP.TARGET 31, SAFE_TJ_TRIP 110, SAFE_HBM_TRIP 98,
SAFE_PKG_POWER_CEIL 2,800, SAFE_STATUS.DKEY 7 and CW_ID.LAYOUT 1; the node cores' CSRs likewise, lysid telling the core. -/
def Obligations.ResetState : Prop :=
  State.reset.pending = [] ∧ State.reset.plat.on = false ∧ State.reset.plat.stage = 0 ∧ State.reset.dram = {} ∧ State.reset.log = []
  ∧ (∀ n < 4,
      (∀ o ∈ [0x1000, 0x1008, 0x1010, 0x1018], State.reset.regRead (0x0F0000000000 + n * 2 ^ 32 + o) = 0)
      ∧ (∀ k < 16, State.reset.regRead (0x0F0000000000 + n * 2 ^ 32 + 0x50000 + 8 * k) = 0)
      ∧ State.reset.regRead (0x0F0000000000 + n * 2 ^ 32 + 0x60000) = 0x1C0
      ∧ (∀ k < 112, State.reset.regRead (0x0F0000000000 + (4 + n) * 2 ^ 32 + 0x10000 + 8 * k) = 0)
      ∧ (∀ g < 4, State.reset.regRead (0x0F0000000000 + (4 + n) * 2 ^ 32 + 0x10400 + 8 * g) = 31)
      ∧ State.reset.regRead (0x0F0000000000 + (4 + n) * 2 ^ 32 + 0x10500) = 0
      ∧ (∀ k < 32, State.reset.regRead (0x0F0000000000 + (4 + n) * 2 ^ 32 + 0x20000 + 8 * k) = 0)
      ∧ (∀ k < 3, State.reset.regRead (0x0F0000000000 + (4 + n) * 2 ^ 32 + 0x30000 + 8 * k) = 0)
      ∧ (∀ l < 10, State.reset.regRead (0x0F0000000000 + (4 + n) * 2 ^ 32 + 0x30100 + 8 * l) = 0))
  ∧ (∀ i < 128, State.reset.regRead (0x0F0800100000 + 8 * i) = 0)
  ∧ (∀ i < 16, State.reset.regRead (0x0F0800300000 + 8 * i) = 0)
  ∧ (∀ o ∈ [0x300108, 0x300110, 0x300118, 0x300128, 0x400000, 0x400008, 0x400010, 0x400018, 0x400020, 0x600010, 0x800000, 0x900018,
      0x900020, 0x900028, 0x910008, 0x910010, 0xA00000, 0xA00008], State.reset.regRead (0x0F0800000000 + o) = 0)
  ∧ (∀ i < 1024, State.reset.regRead (0x0F0800500000 + 8 * i) = 0)
  ∧ (∀ w < 64, State.reset.regRead (0x0F0800502000 + 8 * w) = 0)
  ∧ (∀ n < 64, ∀ o ∈ [0, 8, 16], State.reset.regRead (0x0F0800700000 + 32 * n + o) = 0)
  ∧ (∀ k < 2048, State.reset.regRead (0x0F0800A10000 + 8 * k) = 0)
  ∧ State.reset.regRead 0x0F0800600000 = 1 ∧ State.reset.regRead 0x0F0800900000 = 110 ∧ State.reset.regRead 0x0F0800900008 = 98
  ∧ State.reset.regRead 0x0F0800900010 = 2800 ∧ State.reset.regRead 0x0F0800900030 = 0x1C0
  ∧ (∀ core < 64, State.reset.csr core 0xFC0 = BitVec.ofNat 64 core ∧ State.reset.csr core 0xCC0 = 0 ∧ State.reset.csr core 0x5C0 = 0
      ∧ State.reset.csr core 0x5C1 = 0)

/-- Reset memory is canonical, the event log and the measurement log are within their sizes, and STAGE and the power state are legal
ones. -/
def Obligations.InvariantAtReset : Prop :=
  State.reset.Inv

/-- From every state that has the invariant, not only those a run reaches, a step that answers a next state keeps it: DRAM, the
landing stores, local store and accumulator memory stay in their one canonical form (addresses rising, no zero byte listed), the
event log holds at most 1,024 entries and the measurement log at most 64, STAGE is 0 to 3 and the power state 0 to 3. -/
def Obligations.StepKeepsInvariant : Prop :=
  ∀ s t : State, s.Inv → step s = .next t → t.Inv

/-- No command is refused. Every command on every state answers a next state, except a MARGIN_LOW on a running tile whose droop the
stretch does not cover: R390 says that it is not detected and the logic may fail, and gives no effect. A command whose event
cannot happen in the state leaves it unchanged (log entry 2). -/
def Obligations.EveryCommandAnswers : Prop :=
  (∀ (s : State) (c : Instr) (r : Refusal), exec c s ≠ .refused r)
  ∧ (∀ (s : State) (c : Instr), (∀ die tile, c ≠ .marginLow die tile false) → ∃ t, exec c s = .next t)
  ∧ (∀ (s : State) (die tile : Nat) (covered : Bool) (f : Fault), exec (.marginLow die tile covered) s = .fault f ↔
      f = .marginExceeded ∧ covered = false ∧ s.serves = true ∧ s.dieLive die = true ∧ tile < 68)

/-- Whatever a command does, the commands that wait behind it are the same afterwards: the block sends itself no command, and even a
cold reset leaves the queue, which is not the block's own state. -/
def Obligations.ExecLeavesTheQueue : Prop :=
  ∀ (s t : State) (c : Instr), exec c s = .next t → t.pending = s.pending

/-- Hashes, the identity seed and the enabled tiles are never changed. A revocation or lifecycle fuse that is blown stays blown
through every command, cold resets included. Only IMAGE_END and the phases of DEBUG_UNLOCK, or a port B message that carries one
of them, may blow one. -/
def Obligations.FusesOnlyBurn : Prop :=
  ∀ (s t : State) (c : Instr), exec c s = .next t →
    t.fuses.keyHash = s.fuses.keyHash ∧ t.fuses.debugHash = s.fuses.debugHash ∧ t.fuses.identity = s.fuses.identity
    ∧ t.fuses.enabled = s.fuses.enabled ∧ t.fuses.revoked &&& s.fuses.revoked = s.fuses.revoked
    ∧ (s.fuses.dev = true → t.fuses.dev = true) ∧ (s.fuses.fld = true → t.fuses.fld = true) ∧ (s.fuses.scr = true → t.fuses.scr = true)
    ∧ (t.fuses ≠ s.fuses →
        (∃ p k, c = .imageEnd p k) ∨ (∃ p k r, c = .debugUnlockChallenge p k r) ∨ (∃ p k, c = .debugUnlockKey p k)
        ∨ (∃ p k, c = .debugUnlockSignature p k) ∨ (∃ op v k, c = .portBMessage op v k ∧ (op = 0x0103 ∨ op = 0x0A01)))

/-- Over all commands: SAFE_TJ_TRIP to SAFE_ARM after a command are as before it, unless the command is SAFETY_ARM, on a port or as
a port B message, when they are as before or the pending profile sealed, or a cold reset, when they are at their reset values.
Register writes, debug requests and JTAG instructions never change them. -/
def Obligations.SealHolds : Prop :=
  (∀ (s t : State) (c : Instr), exec c s = .next t →
    t.cairn.safety = s.cairn.safety
    ∨ (((∃ p k, c = .safetyArm p k) ∨ (∃ v k, c = .portBMessage 0x0302 v k))
        ∧ ∃ q, s.cairn.pending = some q ∧ t.cairn.safety = { tjTrip := q.tj, hbmTrip := q.hbm, ceil := q.ceil, cool := q.cool, supply := q.supply, armed := true })
    ∨ (((∃ n, c = .pwrGoodLoss n) ∨ c = .vddCairnLoss ∨ (∃ x, c = .pwrGoodAssert x)) ∧ t.cairn.safety = State.reset.cairn.safety))

/-- While Cairn is off or THERM_TRIP_N is asserted, every command but PWR_GOOD's two edges, the loss of VDD_CAIRN and the six JTAG
instructions leaves the state exactly as it was, and so does a step with no command waiting. -/
def Obligations.UnpoweredBlockIsStill : Prop :=
  (∀ (s : State) (c : Instr), s.on = false → (∀ x, c ≠ .pwrGoodAssert x) → (∀ n, c ≠ .pwrGoodLoss n) → c ≠ .vddCairnLoss → c ≠ .extest →
    c ≠ .idcode → c ≠ .samplePreload → c ≠ .clamp → c ≠ .highz → (∀ x, c ≠ .bypass x) → exec c s = .next s)
  ∧ (∀ s : State, s.on = false → s.pending = [] → step s = .next s)

/-- For every one of the 65 crew instructions: when the block is not in Run, or the crew's die is lost or in reset, or debug has
halted its tile without a step for it, or the crew is parked, or its path waits and no instruction of it is to be replayed, or a
fence of it is not complete, or its slot is empty, the command that would issue the instruction leaves the state exactly as it
was. When nothing of this holds, the word at the path's PC is in the instruction buffer, some active lane meets its guard, the
word is listed and legal, its unit is allotted, its registers exist and are at hand and no breakpoint stands there, the
instruction issues. -/
def Obligations.CrewsThatMayNotIssueDoNothing : Prop :=
  (∀ (s : State) (c : CrewId) (w : W64) (lost : List Nat), ∀ op ∈ [Instr.mov, .sel, .sread, .iadd, .isub, .imul, .imulhi, .imulhu, .imad, .imin, .imax, .umin, .umax, .and, .or, .xor, .not,
    .shl, .shr, .sar, .popc, .clz, .bfx, .isetp, .fadd, .fsub, .fmul, .ffma, .fmin, .fmax, .fsetp, .cvt,
    fun c w => .ld c w lost, .st, .bcopy, .nop, .bra, .brx, .call, .ret, .exit, .trap, .brk, .bar, .fenceAcq, .fenceRel,
    .fenceAr, .atom, .red, .redl, .shfl, .vote, .bwait, .waitf, .pause, .mma, .mmap, .accld, .accst, .mwait, .eprun, .vget,
    .vput, .vflags, .vwait],
    (∀ v k sc, s.crew c = some v → v.fence = some (k, sc) → s.fenceMet c k sc = false) →
    (s.serves = false ∨ s.power.pstate ≠ 0 ∨ s.dieLive c.die = false
      ∨ ((s.tile c.die c.tile).halted = true ∧ (s.tile c.die c.tile).stepping ≠ some c.slot) ∨ s.crew c = none
      ∨ (∃ v, s.crew c = some v ∧ (v.parked.isSome = true ∨ v.fence.isSome = true
          ∨ ((∀ p, v.paths[v.cur]? = some p → p.wait ≠ .none) ∧ v.replay = none)))) →
    exec (op c w) s = .next s)
  ∧ (∀ (s : State) (c : CrewId) (w : W64) (v : Crew) (l : Launch) (p : Path), s.serves = true → s.power.pstate = 0 → s.dieLive c.die = true →
      (s.tile c.die c.tile).halted = false → s.crew c = some v → s.launchOf c = some l → v.parked = none → v.fence = none →
      (∀ g ∈ v.groups, g.fault = 0) → v.subLeft = none → v.replay = none → v.paths[v.cur]? = some p → p.wait = .none →
      v.pc % 8 = 0 → v.pc < 2 ^ 52 → (s.tile c.die c.tile).ibuf.find? (fun e => e.1 == v.pc) = some (v.pc, w) → v.part w ≠ 0 →
      s.breakAt c.die v.pc = none → listed (opKey w) = true → illegalOp w = false → (wfld w 0 3 = 2 → l.acc ≠ 0) → (wfld w 0 3 = 3 → l.ee ≠ 0) →
      regTrap l.nreg (namesOf w) = none → (∀ e ∈ namesOf w, s.pendingReg c e.1 e.2.1 e.2.2 = false) →
      s.issues c w (opKey w) = some ({ c := c, w := w, pc := v.pc, active := v.active, part := v.part w, late := false, v := v }, s.stepped c))

/-- An entry is 64 bytes with SEQ, DTIME, CODE, DIE and SEV where Table 18.8 has them, and is appended with the next sequence
number. Below 1,024 entries the log grows; at 1,024 the oldest is overwritten and counted. Source 70 is raised each time.
EVENT_LOG_READ returns up to 16 entries from the number requested, or OVERWRITTEN with entries from the oldest held. A Cairn
restart keeps the log, before a command that waited on port N is served, and power-off loses it. -/
def Obligations.EventLogKeepsItsEntries : Prop :=
  (∀ e : LogEntry, e.bytes.length = 64 ∧ byteFld e.bytes 0 8 = e.seq % 2 ^ 64 ∧ byteFld e.bytes 8 8 = e.time % 2 ^ 64
    ∧ byteFld e.bytes 16 2 = e.code % 2 ^ 16 ∧ byteFld e.bytes 18 1 = e.die % 256 ∧ byteFld e.bytes 19 1 = e.sev % 256 ∧ byteFld e.bytes 20 4 = 0)
  ∧ (∀ (s : State) (code die sev : Nat) (data : List Nat) (e : LogEntry),
      e = { seq := s.logSeq, time := s.now, code := code, die := die, sev := sev, data := data } →
      (s.log.length < 1024 → s.logEv code die sev data = ({ s with log := s.log ++ [e], logSeq := s.logSeq + 1 } : State).raise 70)
      ∧ (s.log.length = 1024 → s.logEv code die sev data
          = (({ s with log := s.log.tail ++ [e], logSeq := s.logSeq + 1 } : State).count (svc 16)).raise 70)
      ∧ (s.logEv code die sev data).log.length = min 1024 (s.log.length + 1))
  ∧ (∀ (s : State) (p : Port) (k : Packet) (q : Nat), s.accepts 0x0602 p k = true → byteFld (pktData k) 0 8 = q →
      (s.logSeq - s.log.length ≤ q → exec (.eventLogRead p k) s = .next ((s.began 0x0602 p k).finish p 0
        ((((s.log.drop (q - (s.logSeq - s.log.length))).take 16).map LogEntry.bytes).flatten)))
      ∧ (q < s.logSeq - s.log.length → exec (.eventLogRead p k) s = .next ((s.began 0x0602 p k).finish p 0x0602
        (((s.log.take 16).map LogEntry.bytes).flatten))))
  ∧ (∀ s t : State, s.cairn.waiting = none → exec .cairnRestartComplete s = .next t → t.log = s.log)
  ∧ (∀ s t : State, s.log.length ≤ 1024 → exec .lockstepMismatch s = .next t → ∃ new, t.log = lastN 1024 (s.log ++ new))
  ∧ (∀ s : State, s.coldReset.log = [])

/-- Entries are 80 bytes in the layout of Table 15.5. Below 63 entries an event is appended as it occurs; from then on it is folded
into entry 64, of TYPE 7, whose VALUE becomes SHAKE256 to 512 bits of its previous VALUE and the event's entry, so that the log
never holds more than 64. The value that entry 64 starts from, when it is made, is left open here. -/
def Obligations.MeasurementLogFolds : Prop :=
  (∀ m : Meas, m.bytes.length = 80 ∧ byteFld m.bytes 0 2 = m.typ % 2 ^ 16 ∧ byteFld m.bytes 2 2 = m.arg % 2 ^ 16 ∧ byteFld m.bytes 4 4 = 0
    ∧ byteFld m.bytes 8 8 = m.dtime % 2 ^ 64 ∧ m.bytes.drop 16 = padTo 64 m.value)
  ∧ (∀ (c : Cairn) (now typ arg : Nat) (value : List Byte) (m : Meas), m = { typ := typ, arg := arg, dtime := now, value := padTo 64 value } →
      (c.log.length < 63 → c.measure now typ arg value = { c with log := c.log ++ [m] })
      ∧ (∀ old, c.log[63]? = some old → c.log.length = 64 → ∃ n, c.measure now typ arg value = { c with log := c.log.take 63 ++
          [{ typ := 7, arg := n, dtime := now, value := shake 64 (old.value ++ m.bytes) }] })
      ∧ (c.log.length = 63 → ∃ n prev, c.measure now typ arg value = { c with log := c.log ++
          [{ typ := 7, arg := n, dtime := now, value := shake 64 (prev ++ m.bytes) }] })
      ∧ (c.log.length ≤ 64 → (c.measure now typ arg value).log.length ≤ 64))

/-- Every crew of a stand that is placed starts with every g register of every lane, every u register and p0 to p6 reading zero,
whatever its slot held before; p7 reads one. -/
def Obligations.CrewsStartAtZero : Prop :=
  ∀ (s : State) (lid : Nat) (l : Launch) (die tile slot k : Nat), k < l.crews →
    ∃ v, (s.placeStand lid l die tile slot).crew { die := die, tile := tile, slot := slot * l.crews + k } = some v
      ∧ (∀ lane r, v.getG lane r = 0) ∧ (∀ r, v.getU r = 0) ∧ (∀ lane j, j < 7 → v.getP lane j = false) ∧ (∀ lane, v.getP lane 7 = true)

/-- For g and u registers and pairs of them: what is written to a group is read from it, low half in the first; no other register of
any lane, no other file and no predicate changes. Code 255 reads zero and discards. A predicate written is read back, the other
predicates and lanes are as before, and p7 reads one and discards. -/
def Obligations.RegisterFilesHoldWhatIsWritten : Prop :=
  (∀ (v : Crew) (uni : Bool) (lane r n x : Nat), n ≤ 2 → r + n ≤ 255 → lane < 32 → (v.setN uni lane r n x).getN uni lane r n = x % 2 ^ (32 * n))
  ∧ (∀ (v : Crew) (uni : Bool) (lane r n x lane' r' : Nat), r + n ≤ 255 → r' < 255 → lane < 32 → lane' < 32 →
      ((uni = true ∨ lane' ≠ lane ∨ r' < r ∨ r + n ≤ r') → (v.setN uni lane r n x).getG lane' r' = v.getG lane' r')
      ∧ ((uni = false ∨ r' < r ∨ r + n ≤ r') → (v.setN uni lane r n x).getU r' = v.getU r')
      ∧ (∀ j, (v.setN uni lane r n x).getP lane' j = v.getP lane' j))
  ∧ (∀ (v : Crew) (uni : Bool) (lane n x : Nat), v.setN uni lane 255 n x = v ∧ v.getN uni lane 255 n = 0)
  ∧ (∀ (v : Crew) (lane j lane' j' : Nat) (x : Bool), j < 7 → j' < 7 →
      (v.setP lane j x).getP lane j = x ∧ (lane' ≠ lane ∨ j' ≠ j → (v.setP lane j x).getP lane' j' = v.getP lane' j')
      ∧ (v.setP lane 7 x) = v ∧ v.getP lane 7 = true)
  ∧ (∀ (v : Crew) (lane j lane' r : Nat) (x : Bool), (v.setP lane j x).getG lane' r = v.getG lane' r ∧ (v.setP lane j x).getU r = v.getU r)

/-- In global and in die-local mode, two addresses with the same foundation die, group, logical channel, unit and byte within the
unit are equal; every place lies within its channel; and every location of every logical channel of the four dies is the place
of some address: R270's rule is a bijection between the regions and their channels. -/
def Obligations.PlacesAreDistinct : Prop :=
  (∀ (mode pa pb : Nat) (x y : Bool × Place), placeOf mode pa = some x → placeOf mode pb = some y → x.2 = y.2 → pa % 256 = pb % 256 → pa = pb)
  ∧ (∀ (mode pa : Nat) (x : Bool × Place), placeOf mode pa = some x →
      x.2.die < 4 ∧ x.2.group < 4 ∧ x.1 = decide (x.2.group < 3) ∧ x.2.logical < (if x.2.group = 3 then 15 else 31) ∧ x.2.unit < chanUnits x.2.group)
  ∧ (∀ (mode : Nat) (p : Place) (b : Nat), p.die < 4 → p.group < 4 → p.logical < (if p.group = 3 then 15 else 31) → p.unit < chanUnits p.group →
      b < 256 → ∃ pa, placeOf mode pa = some (decide (p.group < 3), p) ∧ pa % 256 = b)

/-- For every format A instruction, however it issues, waits or traps: no other crew changes; of its own crew only the destination
group, per lane or uniform, or for ISETP and FSETP the destination predicate, may change; local store, accumulators, element
contexts, program slots and stands of every tile are as before; and outside the tiles only translation, requests with their
tokens and places, the trap queue, the counter behind free values and counts can change, none of them memory. -/
def Obligations.ArithmeticFrame : Prop :=
  (∀ (s t : State) (c : CrewId) (w : W64), c.tile < 68 →
    ∀ op ∈ [Instr.mov, .sel, .sread, .iadd, .isub, .imul, .imulhi, .imulhu, .imad, .imin, .imax, .umin, .umax, .and, .or, .xor,
      .not,
    .shl, .shr, .sar, .popc, .clz, .bfx, .fadd, .fsub, .fmul, .ffma, .fmin, .fmax, .cvt, .shfl],
    exec (op c w) s = .next t →
      t = { s with
          ansNum := t.ansNum, asks := t.asks, colSat := t.colSat, fresh := t.fresh, held := t.held, links := t.links,
          rdgOut := t.rdgOut, reqNum := t.reqNum, reqs := t.reqs, tally := t.tally, tiles := t.tiles,
          tokens := t.tokens, trapWait := t.trapWait, xlt := t.xlt }
      ∧ (∀ c' : CrewId, c'.tile < 68 → c' ≠ c → t.crew c' = s.crew c')
      ∧ (∀ d k, (t.tile d k).ls = (s.tile d k).ls ∧ (t.tile d k).acc = (s.tile d k).acc ∧ (t.tile d k).ctx = (s.tile d k).ctx
          ∧ (t.tile d k).progs = (s.tile d k).progs ∧ (t.tile d k).stands = (s.tile d k).stands)
      ∧ (∀ v, s.crew c = some v → ∃ v', t.crew c = some v' ∧ (∀ lane j, v'.getP lane j = v.getP lane j)
          ∧ (∀ lane r, lane < 32 → r < 255 → (uniOf w = true ∨ r < wfld w 16 8 ∨ wfld w 16 8 + regsOf (typeOf w) ≤ r) →
              v'.getG lane r = v.getG lane r)
          ∧ (∀ r, r < 255 → (uniOf w = false ∨ r < wfld w 16 8 ∨ wfld w 16 8 + regsOf (typeOf w) ≤ r) → v'.getU r = v.getU r)))
  ∧ (∀ (s t : State) (c : CrewId) (w : W64), c.tile < 68 → ∀ op ∈ [Instr.isetp, .fsetp], exec (op c w) s = .next t →
      t = { s with
          ansNum := t.ansNum, asks := t.asks, colSat := t.colSat, held := t.held, links := t.links,
          rdgOut := t.rdgOut, reqNum := t.reqNum, reqs := t.reqs, tally := t.tally, tiles := t.tiles,
          tokens := t.tokens, trapWait := t.trapWait, xlt := t.xlt }
      ∧ (∀ c' : CrewId, c'.tile < 68 → c' ≠ c → t.crew c' = s.crew c')
      ∧ (∀ d k, (t.tile d k).ls = (s.tile d k).ls ∧ (t.tile d k).acc = (s.tile d k).acc)
      ∧ (∀ v, s.crew c = some v → ∃ v', t.crew c = some v' ∧ v'.g = v.g ∧ v'.u = v.u
          ∧ (∀ lane j, j ≠ wfld w 16 3 → j < 8 → v'.getP lane j = v.getP lane j)))
  ∧ (∀ (s t : State) (c : CrewId) (w : W64), c.tile < 68 → exec (.vote c w) s = .next t →
      t = { s with
          ansNum := t.ansNum, asks := t.asks, colSat := t.colSat, held := t.held, links := t.links,
          rdgOut := t.rdgOut, reqNum := t.reqNum, reqs := t.reqs, tally := t.tally, tiles := t.tiles,
          tokens := t.tokens, trapWait := t.trapWait, xlt := t.xlt }
      ∧ (∀ c' : CrewId, c'.tile < 68 → c' ≠ c → t.crew c' = s.crew c')
      ∧ (∀ d k, (t.tile d k).ls = (s.tile d k).ls ∧ (t.tile d k).acc = (s.tile d k).acc)
      ∧ (∀ v, s.crew c = some v → ∃ v', t.crew c = some v'
          ∧ (∀ lane j, j ≠ wfld w 16 3 → j < 8 → v'.getP lane j = v.getP lane j)
          ∧ (∀ lane r, lane < 32 → r < 255 → r ≠ wfld w 16 8 → v'.getG lane r = v.getG lane r)
          ∧ (∀ r, r < 255 → r ≠ wfld w 16 8 → v'.getU r = v.getU r)))

/-- No other tile and no other crew changes, and outside the tiles nothing but requests in flight with their tokens and links,
translation, traps, the counter behind free values and counts: DRAM and caches change only when the access reaches its home. Of
the crew itself LD and ATOM change only the destination group, ST, RED and REDL no register. Local store is unchanged by LD and
REDL and by every global form; by ST, ATOM and RED on local store every byte outside the lanes' computed addresses is unchanged. -/
def Obligations.MemoryInstructionFrame : Prop :=
  ∀ (s t : State) (c : CrewId) (w : W64), c.tile < 68 → (∀ v, s.crew c = some v → v.subLeft = none) →
    ∀ (lost : List Nat), ∀ op ∈ [fun c w => Instr.ld c w lost, .st, .atom, .red, .redl], exec (op c w) s = .next t →
      t = { s with
          ansNum := t.ansNum, asks := t.asks, colSat := t.colSat, fresh := t.fresh, held := t.held, links := t.links,
          rdgOut := t.rdgOut, reqNum := t.reqNum, reqs := t.reqs, tally := t.tally, tiles := t.tiles,
          tokens := t.tokens, trapWait := t.trapWait, xlt := t.xlt }
      ∧ (∀ d k, k < 68 → (d, k) ≠ (c.die, c.tile) → t.tile d k = s.tile d k)
      ∧ (t.tile c.die c.tile).acc = (s.tile c.die c.tile).acc
      ∧ (∀ c' : CrewId, c'.tile < 68 → c' ≠ c → t.crew c' = s.crew c')
      ∧ (∀ v, s.crew c = some v → ∃ v', t.crew c = some v' ∧ (∀ lane j, v'.getP lane j = v.getP lane j)
          ∧ (op c w ∈ [Instr.st c w, .red c w, .redl c w] → v'.g = v.g ∧ v'.u = v.u)
          ∧ (∀ n, (op c w = .ld c w lost ∧ n = max 1 (sizeOf_ w / 4)) ∨ (op c w = .atom c w ∧ n = regsOf (typeOf w)) →
              (∀ lane r, lane < 32 → r < 255 → (uniOf w = true ∨ r < wfld w 16 8 ∨ wfld w 16 8 + n ≤ r) → v'.getG lane r = v.getG
                lane r)
              ∧ (∀ r, r < 255 → (uniOf w = false ∨ r < wfld w 16 8 ∨ wfld w 16 8 + n ≤ r) → v'.getU r = v.getU r)))
      ∧ (op c w = .ld c w lost ∨ op c w = .redl c w ∨ (op c w = .st c w ∧ wfld w 59 1 = 1) ∨ ((op c w = .atom c w ∨ op c w = .red
        c w) ∧ wfld w 56 1 = 1) →
          ∀ a, (t.tile c.die c.tile).ls.read8 a = (s.tile c.die c.tile).ls.read8 a)
      ∧ (op c w = .st c w → ∀ a, (∀ i u, s.issues c w 0x101 = some (i, u) → ∀ x ∈ i.ldst (sizeOf_ w), a < x.addr ∨ x.addr +
        sizeOf_ w ≤ a) →
          (t.tile c.die c.tile).ls.read8 a = (s.tile c.die c.tile).ls.read8 a)
      ∧ (op c w = .atom c w → ∀ a, (∀ i u, s.issues c w 0x502 = some (i, u) → ∀ x ∈ i.atoms,
          a < x.addr ∨ x.addr + atomicSize (typeOf w) ≤ a) → (t.tile c.die c.tile).ls.read8 a = (s.tile c.die c.tile).ls.read8 a)
      ∧ (op c w = .red c w → ∀ a, (∀ i u, s.issues c w 0x503 = some (i, u) → ∀ x ∈ i.atoms,
          a < x.addr ∨ x.addr + atomicSize (typeOf w) ≤ a) → (t.tile c.die c.tile).ls.read8 a = (s.tile c.die c.tile).ls.read8 a)

/-- A branch, frame, barrier, fence, wait, trap, matrix or element instruction, a BCOPY included, changes no register, no local
store and no accumulator when it issues: matrix, element and copy results appear later. A message or access that a home takes
changes only the home side: slices, memory, the host-line cache, messages, snoops, requests with their tokens and links,
rejoined agents, log, interrupts and counts; a message that an agent takes changes only agents, cores, messages and links,
watching streams, log, interrupts and counts. Neither touches a tile, a register or a safety register. -/
def Obligations.ControlAndCoherenceFrame : Prop :=
  (∀ (s t : State) (c : CrewId) (w : W64), c.tile < 68 →
    ∀ op ∈ [Instr.nop, .bra, .brx, .call, .ret, .exit, .trap, .brk, .bar, .fenceAcq, .fenceRel, .fenceAr, .bwait, .waitf, .pause,
      .mma,
    .mmap, .accld, .accst, .mwait, .vget, .vput, .vflags, .vwait, .eprun],
    exec (op c w) s = .next t →
      t = { s with
          ansNum := t.ansNum, asks := t.asks, colSat := t.colSat, held := t.held, imsic := t.imsic, links := t.links,
          log := t.log, logSeq := t.logSeq, rdgOut := t.rdgOut, reqNum := t.reqNum, reqs := t.reqs,
          routes := t.routes, tally := t.tally, tiles := t.tiles, tokens := t.tokens, trapWait := t.trapWait,
          xlt := t.xlt }
      ∧ (∀ d k, (t.tile d k).ls = (s.tile d k).ls ∧ (t.tile d k).acc = (s.tile d k).acc)
      ∧ (∀ c' : CrewId, c'.tile < 68 → ∀ v, s.crew c' = some v → ∃ v', t.crew c' = some v' ∧ v'.g = v.g ∧ v'.u = v.u ∧ v'.p =
        v.p))
  ∧ (∀ (s t : State) (c : CrewId) (w : W64), c.tile < 68 → exec (.bcopy c w) s = .next t →
      t = { s with
          ansNum := t.ansNum, asks := t.asks, colSat := t.colSat, fresh := t.fresh, heavy := t.heavy, held := t.held,
          links := t.links, rdgOut := t.rdgOut, reqNum := t.reqNum, reqs := t.reqs, serial := t.serial,
          tally := t.tally, tiles := t.tiles, tokens := t.tokens, trapWait := t.trapWait, xlt := t.xlt }
      ∧ (∀ d k, (t.tile d k).ls = (s.tile d k).ls ∧ (t.tile d k).acc = (s.tile d k).acc)
      ∧ (∀ c' : CrewId, c'.tile < 68 → ∀ v, s.crew c' = some v → ∃ v', t.crew c' = some v' ∧ v'.g = v.g ∧ v'.u = v.u ∧ v'.p =
        v.p))
  ∧ (∀ (s t : State) (m : CMsg) (x : AccErrs), ∀ op ∈ [Instr.rds, .rdw, .rdu, .upg], exec (op m x) s = .next t →
      t = { s with
          ansNum := t.ansNum, asks := t.asks, chans := t.chans, colSat := t.colSat, dead := t.dead, dram := t.dram,
          held := t.held, host := t.host, hostBusy := t.hostBusy, hostOut := t.hostOut, hostQ := t.hostQ,
          imsic := t.imsic, links := t.links, log := t.log, logSeq := t.logSeq, msgs := t.msgs, rdgOut := t.rdgOut,
          reqs := t.reqs, routes := t.routes, slices := t.slices, tally := t.tally, tokens := t.tokens })
  ∧ (∀ (s t : State) (m : CMsg), ∀ op ∈ [Instr.vicd, .vicc, .invack, .fwddone, .wbd, .rspi, .cack], exec (op m) s = .next t →
      t = { s with
          agents := t.agents, ansNum := t.ansNum, asks := t.asks, chans := t.chans, colSat := t.colSat,
          cores := t.cores, dead := t.dead, dram := t.dram, fresh := t.fresh, held := t.held, host := t.host,
          hostBusy := t.hostBusy, hostOut := t.hostOut, hostQ := t.hostQ, imsic := t.imsic, links := t.links,
          log := t.log, logSeq := t.logSeq, msgs := t.msgs, rdgOut := t.rdgOut, reqs := t.reqs, routes := t.routes,
          slices := t.slices, snoopQ := t.snoopQ, streams := t.streams, tally := t.tally, tokens := t.tokens })
  ∧ (∀ (s t : State) (id : Nat) (x : AccErrs), ∀ op ∈ [fun n => Instr.homeAccess n x, .rdc, .wrReq, .atReq], exec (op id) s =
    .next t →
      t = { s with
          ansNum := t.ansNum, asks := t.asks, chans := t.chans, colSat := t.colSat, dram := t.dram, held := t.held,
          host := t.host, hostBusy := t.hostBusy, hostOut := t.hostOut, hostQ := t.hostQ, imsic := t.imsic,
          links := t.links, log := t.log, logSeq := t.logSeq, msgs := t.msgs, rdgOut := t.rdgOut, reqs := t.reqs,
          routes := t.routes, slices := t.slices, tally := t.tally, tokens := t.tokens })
  ∧ (∀ (s t : State) (m : CMsg), ∀ op ∈ [Instr.fwds, .fwdu, .inv, .cur, .rcl], exec (op m) s = .next t →
      t = { s with
          agents := t.agents, cores := t.cores, imsic := t.imsic, links := t.links, log := t.log, logSeq := t.logSeq,
          msgs := t.msgs, rdgOut := t.rdgOut, routes := t.routes, streams := t.streams, tally := t.tally })
  ∧ (∀ (s t : State) (m : CMsg), ∀ op ∈ [Instr.cmp, .dataReceive, .vcmp], exec (op m) s = .next t →
      t = { s with
          agents := t.agents, cores := t.cores, fresh := t.fresh, imsic := t.imsic, links := t.links, log := t.log,
          logSeq := t.logSeq, msgs := t.msgs, rdgOut := t.rdgOut, routes := t.routes, streams := t.streams,
          tally := t.tally })

/-- Each group of commands changes only the listed fields: queries only their port, interrupt routes and counts; stream commands
those and the streams; debug halts only tiles and the debug block; invalidations only the translation unit; hints, grants and
samples only the die controllers; beacons only the time unit; link events only links and the log; engine work only tiles, counts
and the counter behind free values; COPY, SIGNAL, WAIT, EPOCH, LINK and EMPTY records only their stream, messages, the requests
they send with tokens and links, translation, interrupts and counts; a Bucker's list and flag steps those, its queue, the log
and landing stores; JTAG instructions no functional state; a patrol scrub visit its channel and memory. So none but the scrub
writes memory directly, and none a safety register. -/
def Obligations.UnitsChangeOnlyTheirOwnState : Prop :=
  (∀ (s t : State) (p : Port) (k : Packet), ∀ cmd ∈ [Instr.configRead p k, .queryIdentity p k, .timeRead p k, .telemetryRead p k,
    .eventLogRead p k, .maintStatus p k], exec cmd s = .next t →
      t = { s with
          cairn := t.cairn, imsic := t.imsic, portB := t.portB, portH := t.portH, portN := t.portN,
          routes := t.routes, tally := t.tally })
  ∧ (∀ (s t : State) (p : Port) (k : Packet), ∀ cmd ∈ [Instr.streamOpen p k, .streamClose p k, .streamMigrate p k], exec cmd s =
    .next t →
      t = { s with
          cairn := t.cairn, imsic := t.imsic, portB := t.portB, portH := t.portH, portN := t.portN,
          routes := t.routes, streams := t.streams, tally := t.tally })
  ∧ (∀ (s t : State) (q : DbgReq), ∀ cmd ∈ [Instr.bkset q, .bkclr q, .sample q], exec cmd s = .next t →
      t = { s with dbgUnit := t.dbgUnit })
  ∧ (∀ (s t : State) (q : DbgReq), ∀ cmd ∈ [Instr.dbgHalt q, .dbgRun q, .dbgStep q], exec cmd s = .next t →
      t = { s with dbgUnit := t.dbgUnit, tiles := t.tiles })
  ∧ (∀ (s t : State) (i src : Nat) (v : W64), ∀ cmd ∈ [Instr.interruptEvent src, .routeEntryWrite i v], exec cmd s = .next t →
      t = { s with imsic := t.imsic, routes := t.routes })
  ∧ (∀ (s t : State) (space page : Nat), ∀ cmd ∈ [Instr.xltInvalAll, .xltInvalPage space page, .xltInvalSpace space,
    .invalidationComplete], exec cmd s = .next t →
      t = { s with xlt := t.xlt })
  ∧ (∀ (s t : State) (die i mv : Nat) (x : SigSample), ∀ cmd ∈ [Instr.explorationSample die, .grantReceive die, .hintStart die i,
    .hintEnd die i, .signatureSample die x, .voltageReported die mv], exec cmd s = .next t →
      t = { s with fb := t.fb, tally := t.tally })
  ∧ (∀ (s t : State) (b : Beacon) (link delay : Nat), ∀ cmd ∈ [Instr.beaconReceive b, .beaconLoss, .delayExchange link delay],
    exec cmd s = .next t →
      t = { s with tally := t.tally, time := t.time })
  ∧ (∀ (s t : State) (link lane last : Nat) (lanes : BitVec 4) (f : List Byte) (ec eu : Nat), ∀ cmd ∈ [Instr.flitReceive link f
    ec eu, .lanePermanentFault link lane, .linkRetrainEnd link lanes, .nakReceive link last, .linkTrainingStart link], exec cmd s
      = .next t →
      t = { s with
          imsic := t.imsic, links := t.links, log := t.log, logSeq := t.logSeq, routes := t.routes, tally := t.tally })
  ∧ (∀ (s t : State) (die tile : Nat) (transfer : Bool), ∀ cmd ∈ [Instr.matrixStart die tile transfer, .elementStart die tile,
    .stretchEnd die tile], exec cmd s = .next t →
      t = { s with fresh := t.fresh, tiles := t.tiles })
  ∧ (∀ (s t : State) (die tile : Nat) (transfer bad : Bool), ∀ cmd ∈ [Instr.matrixComplete die tile transfer, .elementComplete
    die tile bad], exec cmd s = .next t →
      t = { s with fresh := t.fresh, tally := t.tally, tiles := t.tiles })
  ∧ (∀ (s t : State) (n : Nat), ∀ cmd ∈ [Instr.copy n, .signal n, .wait n, .epoch n, .link n, .empty n], exec cmd s = .next t →
      t = { s with
          agents := t.agents, ansNum := t.ansNum, asks := t.asks, colSat := t.colSat, held := t.held,
          imsic := t.imsic, links := t.links, msgs := t.msgs, rdgOut := t.rdgOut, reqNum := t.reqNum, reqs := t.reqs,
          routes := t.routes, streams := t.streams, tally := t.tally, tiles := t.tiles, tokens := t.tokens,
          xlt := t.xlt })
  ∧ (∀ (s t : State) (b : BuckerId) (n : Nat), ∀ cmd ∈ [Instr.indexListRead b, .flaggedFinalWrite b n], exec cmd s = .next t →
      t = { s with
          ansNum := t.ansNum, asks := t.asks, colSat := t.colSat, fresh := t.fresh, heavy := t.heavy, held := t.held,
          imsic := t.imsic, landing := t.landing, links := t.links, log := t.log, logSeq := t.logSeq,
          rdgOut := t.rdgOut, reqNum := t.reqNum, reqs := t.reqs, routes := t.routes, streams := t.streams,
          tally := t.tally, tiles := t.tiles, tokens := t.tokens, xlt := t.xlt })
  ∧ (∀ (s t : State) (launch die tile : Nat), ∀ cmd ∈ [Instr.standPlace launch die tile], exec cmd s = .next t →
      t = { s with launches := t.launches, reqs := t.reqs, tiles := t.tiles })
  ∧ (∀ (s t : State) (b : BuckerId) (serial : Nat), ∀ cmd ∈ [Instr.descriptorComplete b serial], exec cmd s = .next t →
      t = { s with heavy := t.heavy, streams := t.streams, tiles := t.tiles })
  ∧ (∀ (s t : State) (code : Byte), ∀ cmd ∈ [Instr.extest, .samplePreload, .idcode, .bypass code, .clamp, .highz], exec cmd s =
    .next t →
      t = { s with fresh := t.fresh, jtag := t.jtag, tally := t.tally })
  ∧ (∀ (s t : State) (die chan unit : Nat) (crc : List (Nat × Nat)), ∀ cmd ∈ [Instr.patrolScrubVisit die chan unit crc], exec cmd
    s = .next t →
      t = { s with chans := t.chans, dram := t.dram, tally := t.tally })
end

