-- ==== Sys2Proof/Laws/Issue.lean ====
section
/-! SUPPORT. What an instruction that issues does. -/

namespace Sys2Proof.Machine

/-- A crew that may issue is there, with its launch. -/
theorem State.issuable_crew {s : State} {c : CrewId} {v : Crew} {l : Launch} (h : s.issuable c = some (v, l)) :
    s.crew c = some v ∧ s.launchOf c = some l := by
  unfold State.issuable at h
  cases hv : s.crew c with
  | none => simp [hv] at h
  | some a =>
    cases hl : s.launchOf c with
    | none => simp [hv, hl] at h
    | some b =>
      simp only [hv, hl] at h
      split at h <;> simp_all

/-- An instruction whose checks pass takes effect. -/
theorem State.checked_of_passes {s : State} {i j : Issue} {l : Launch} {u : State} (hk : listed (opKey i.w) = true)
    (h : s.passes i l = some (j, u)) (f : State → Issue → State) : s.checked i l f = f u j := by
  unfold State.passes at h
  split at h
  · cases h
  rename_i hc
  obtain ⟨rfl, rfl⟩ : i = j ∧ s.stepped i.c = u := by simpa using h
  simp only [Bool.or_eq_true, not_or, Bool.not_eq_true] at hc
  obtain ⟨⟨⟨⟨h1, h2⟩, h3⟩, h4⟩, h5⟩ := hc
  unfold State.checked
  have h4' : regTrap l.nreg (namesOf i.w) = none := by cases hr : regTrap l.nreg (namesOf i.w) <;> simp_all
  rw [if_neg (by simp only [hk, h1, h2, h3]; decide), h4']
  dsimp only
  rw [if_neg (by simp only [h5]; decide)]

/-- The instruction that issues is the command's. -/
theorem State.passes_issue {s : State} {i j : Issue} {l : Launch} {u : State} (h : s.passes i l = some (j, u)) :
    j = i ∧ u = s.stepped i.c := by
  unfold State.passes at h
  split at h
  · cases h
  · simp at h; exact ⟨h.1.symm, h.2.symm⟩

/-- An instruction that issues takes effect. -/
theorem State.issueIf_of_issues {s : State} {c : CrewId} {w : W64} {key : Nat} {i : Issue} {u : State}
    (h : s.issues c w key = some (i, u)) {ready : State → Crew → Bool} (hr : ∀ v l, s.issuable c = some (v, l) → ready s v = true)
    (f : State → Issue → State) : s.issueIf c w key ready f = f u i := by
  unfold State.issues at h
  split at h
  case isFalse => cases h
  rename_i hk
  obtain ⟨rfl, hl⟩ := hk
  unfold State.issueIf
  split at h
  case h_1 => cases h
  rename_i v l hi
  try rw [hi]
  have e1 : ¬ ((listed (opKey w) && opKey w != opKey w) = true) := by simp
  have e2 : ¬ ((listed (opKey w) && !ready s v) = true) := by simp [hr v l hi]
  rw [if_neg e1]
  dsimp only
  rw [if_neg e2]
  split at h
  · cases h
  · rename_i hs hrp
    rw [hs, hrp]
    split at h
    case isFalse => cases h
    rename_i hw
    dsimp only
    rw [if_pos hw, ← hs]
    refine State.checked_of_passes ?_ h f
    exact hl
  · rename_i hs hrp
    rw [hs, hrp]
    dsimp only
    split at h
    case h_2 => cases h
    rename_i s1 hf
    rw [hf]
    split at h
    case isTrue => cases h
    rename_i hb
    simp only [not_or] at hb
    dsimp only
    rw [if_neg hb.1]
    have hn : s1.breakAt c.die v.pc = none := by
      cases hx : s1.breakAt c.die v.pc with
      | none => rfl
      | some k => exact absurd (by rw [hx]; rfl) hb.2
    rw [hn]
    refine State.checked_of_passes ?_ h f
    exact hl

/-- An instruction that issues takes effect. -/
theorem State.issue_of_issues {s : State} {c : CrewId} {w : W64} {key : Nat} {i : Issue} {u : State}
    (h : s.issues c w key = some (i, u)) (f : State → Issue → State) : s.issue c w key f = f u i :=
  State.issueIf_of_issues h (fun _ _ _ => rfl) f

/-- What issues is the command's crew and word. -/
theorem State.issues_issue {s : State} {c : CrewId} {w : W64} {key : Nat} {i : Issue} {u : State}
    (h : s.issues c w key = some (i, u)) : i.c = c ∧ i.w = w := by
  unfold State.issues at h
  split at h
  case isFalse => cases h
  split at h
  case h_1 => cases h
  split at h
  · cases h
  · split at h
    case isFalse => cases h
    rw [(State.passes_issue h).1]
    exact ⟨rfl, rfl⟩
  · split at h
    case h_2 => cases h
    split at h
    · cases h
    · rw [(State.passes_issue h).1]
      exact ⟨rfl, rfl⟩

/-- An instruction that issues holds no half-submitted BCOPY. -/
theorem State.issues_fresh {s : State} {c : CrewId} {w : W64} {key : Nat} {i : Issue} {u : State}
    (h : s.issues c w key = some (i, u)) : i.v.subLeft = none := by
  unfold State.issues at h
  split at h
  case isFalse => cases h
  split at h
  case h_1 => cases h
  split at h
  · cases h
  · rename_i hs _
    split at h
    case isFalse => cases h
    rw [(State.passes_issue h).1]
    exact hs
  · rename_i hs _
    split at h
    case h_2 => cases h
    split at h
    · cases h
    · rw [(State.passes_issue h).1]
      exact hs

/-- Drawing an order changes nothing but the counter of free values. -/
@[simp] theorem State.ordered_windowOf (s : State) (l : List LaneAcc) (c : CrewId) (v : Crew) : (s.ordered l).windowOf c v = s.windowOf c v := by
  unfold State.ordered
  split <;> rfl

/-- Drawing an order leaves the launch's space. -/
@[simp] theorem State.ordered_spaceOf (s : State) (l : List LaneAcc) (c : CrewId) : (s.ordered l).spaceOf c = s.spaceOf c := by
  unfold State.ordered
  split <;> rfl

end Sys2Proof.Machine
end

