-- ==== Sys2Proof/Laws/State.lean ====
section
/-! SUPPORT. What each update of State leaves as it was, field by field. -/

namespace Sys2Proof.Machine

/-- A fold of steps each of which keeps a view of the state keeps it. -/
theorem foldl_keeps {α β : Type} (F : State → β) (f : State → α → State) (h : ∀ t x, F (f t x) = F t) (l : List α) (s : State) :
    F (l.foldl f s) = F s := by
  induction l generalizing s with
  | nil => rfl
  | cons a r ih => rw [List.foldl_cons, ih, h]

/-! Fields that `State.setPort` keeps. -/

@[simp] theorem State.setPort_pending (s : State) (p : Port) (v : PortSt) : (s.setPort p v).pending = s.pending := by cases p <;> rfl
@[simp] theorem State.setPort_plat (s : State) (p : Port) (v : PortSt) : (s.setPort p v).plat = s.plat := by cases p <;> rfl
@[simp] theorem State.setPort_fuses (s : State) (p : Port) (v : PortSt) : (s.setPort p v).fuses = s.fuses := by cases p <;> rfl
@[simp] theorem State.setPort_cfg (s : State) (p : Port) (v : PortSt) : (s.setPort p v).cfg = s.cfg := by cases p <;> rfl
@[simp] theorem State.setPort_cairn (s : State) (p : Port) (v : PortSt) : (s.setPort p v).cairn = s.cairn := by cases p <;> rfl
@[simp] theorem State.setPort_time (s : State) (p : Port) (v : PortSt) : (s.setPort p v).time = s.time := by cases p <;> rfl
@[simp] theorem State.setPort_tally (s : State) (p : Port) (v : PortSt) : (s.setPort p v).tally = s.tally := by cases p <;> rfl
@[simp] theorem State.setPort_log (s : State) (p : Port) (v : PortSt) : (s.setPort p v).log = s.log := by cases p <;> rfl
@[simp] theorem State.setPort_logSeq (s : State) (p : Port) (v : PortSt) : (s.setPort p v).logSeq = s.logSeq := by cases p <;> rfl
@[simp] theorem State.setPort_acts (s : State) (p : Port) (v : PortSt) : (s.setPort p v).acts = s.acts := by cases p <;> rfl
@[simp] theorem State.setPort_actNum (s : State) (p : Port) (v : PortSt) : (s.setPort p v).actNum = s.actNum := by cases p <;> rfl
@[simp] theorem State.setPort_routes (s : State) (p : Port) (v : PortSt) : (s.setPort p v).routes = s.routes := by cases p <;> rfl
@[simp] theorem State.setPort_imsic (s : State) (p : Port) (v : PortSt) : (s.setPort p v).imsic = s.imsic := by cases p <;> rfl
@[simp] theorem State.setPort_trapTail (s : State) (p : Port) (v : PortSt) : (s.setPort p v).trapTail = s.trapTail := by cases p <;> rfl
@[simp] theorem State.setPort_trapHead (s : State) (p : Port) (v : PortSt) : (s.setPort p v).trapHead = s.trapHead := by cases p <;> rfl
@[simp] theorem State.setPort_trapWait (s : State) (p : Port) (v : PortSt) : (s.setPort p v).trapWait = s.trapWait := by cases p <;> rfl
@[simp] theorem State.setPort_streams (s : State) (p : Port) (v : PortSt) : (s.setPort p v).streams = s.streams := by cases p <;> rfl
@[simp] theorem State.setPort_launches (s : State) (p : Port) (v : PortSt) : (s.setPort p v).launches = s.launches := by cases p <;> rfl
@[simp] theorem State.setPort_launchNum (s : State) (p : Port) (v : PortSt) : (s.setPort p v).launchNum = s.launchNum := by cases p <;> rfl
@[simp] theorem State.setPort_tiles (s : State) (p : Port) (v : PortSt) : (s.setPort p v).tiles = s.tiles := by cases p <;> rfl
@[simp] theorem State.setPort_heavy (s : State) (p : Port) (v : PortSt) : (s.setPort p v).heavy = s.heavy := by cases p <;> rfl
@[simp] theorem State.setPort_serial (s : State) (p : Port) (v : PortSt) : (s.setPort p v).serial = s.serial := by cases p <;> rfl
@[simp] theorem State.setPort_landing (s : State) (p : Port) (v : PortSt) : (s.setPort p v).landing = s.landing := by cases p <;> rfl
@[simp] theorem State.setPort_dram (s : State) (p : Port) (v : PortSt) : (s.setPort p v).dram = s.dram := by cases p <;> rfl
@[simp] theorem State.setPort_reqs (s : State) (p : Port) (v : PortSt) : (s.setPort p v).reqs = s.reqs := by cases p <;> rfl
@[simp] theorem State.setPort_reqNum (s : State) (p : Port) (v : PortSt) : (s.setPort p v).reqNum = s.reqNum := by cases p <;> rfl
@[simp] theorem State.setPort_ansNum (s : State) (p : Port) (v : PortSt) : (s.setPort p v).ansNum = s.ansNum := by cases p <;> rfl
@[simp] theorem State.setPort_slices (s : State) (p : Port) (v : PortSt) : (s.setPort p v).slices = s.slices := by cases p <;> rfl
@[simp] theorem State.setPort_msgs (s : State) (p : Port) (v : PortSt) : (s.setPort p v).msgs = s.msgs := by cases p <;> rfl
@[simp] theorem State.setPort_agents (s : State) (p : Port) (v : PortSt) : (s.setPort p v).agents = s.agents := by cases p <;> rfl
@[simp] theorem State.setPort_dead (s : State) (p : Port) (v : PortSt) : (s.setPort p v).dead = s.dead := by cases p <;> rfl
@[simp] theorem State.setPort_notices (s : State) (p : Port) (v : PortSt) : (s.setPort p v).notices = s.notices := by cases p <;> rfl
@[simp] theorem State.setPort_rejoin (s : State) (p : Port) (v : PortSt) : (s.setPort p v).rejoin = s.rejoin := by cases p <;> rfl
@[simp] theorem State.setPort_reclaimed (s : State) (p : Port) (v : PortSt) : (s.setPort p v).reclaimed = s.reclaimed := by cases p <;> rfl
@[simp] theorem State.setPort_beats (s : State) (p : Port) (v : PortSt) : (s.setPort p v).beats = s.beats := by cases p <;> rfl
@[simp] theorem State.setPort_host (s : State) (p : Port) (v : PortSt) : (s.setPort p v).host = s.host := by cases p <;> rfl
@[simp] theorem State.setPort_hostBusy (s : State) (p : Port) (v : PortSt) : (s.setPort p v).hostBusy = s.hostBusy := by cases p <;> rfl
@[simp] theorem State.setPort_hostQ (s : State) (p : Port) (v : PortSt) : (s.setPort p v).hostQ = s.hostQ := by cases p <;> rfl
@[simp] theorem State.setPort_snoopQ (s : State) (p : Port) (v : PortSt) : (s.setPort p v).snoopQ = s.snoopQ := by cases p <;> rfl
@[simp] theorem State.setPort_snoopIn (s : State) (p : Port) (v : PortSt) : (s.setPort p v).snoopIn = s.snoopIn := by cases p <;> rfl
@[simp] theorem State.setPort_hostOut (s : State) (p : Port) (v : PortSt) : (s.setPort p v).hostOut = s.hostOut := by cases p <;> rfl
@[simp] theorem State.setPort_xlt (s : State) (p : Port) (v : PortSt) : (s.setPort p v).xlt = s.xlt := by cases p <;> rfl
@[simp] theorem State.setPort_chans (s : State) (p : Port) (v : PortSt) : (s.setPort p v).chans = s.chans := by cases p <;> rfl
@[simp] theorem State.setPort_remap (s : State) (p : Port) (v : PortSt) : (s.setPort p v).remap = s.remap := by cases p <;> rfl
@[simp] theorem State.setPort_hbm (s : State) (p : Port) (v : PortSt) : (s.setPort p v).hbm = s.hbm := by cases p <;> rfl
@[simp] theorem State.setPort_tmax (s : State) (p : Port) (v : PortSt) : (s.setPort p v).tmax = s.tmax := by cases p <;> rfl
@[simp] theorem State.setPort_cols (s : State) (p : Port) (v : PortSt) : (s.setPort p v).cols = s.cols := by cases p <;> rfl
@[simp] theorem State.setPort_tokens (s : State) (p : Port) (v : PortSt) : (s.setPort p v).tokens = s.tokens := by cases p <;> rfl
@[simp] theorem State.setPort_held (s : State) (p : Port) (v : PortSt) : (s.setPort p v).held = s.held := by cases p <;> rfl
@[simp] theorem State.setPort_asks (s : State) (p : Port) (v : PortSt) : (s.setPort p v).asks = s.asks := by cases p <;> rfl
@[simp] theorem State.setPort_colSat (s : State) (p : Port) (v : PortSt) : (s.setPort p v).colSat = s.colSat := by cases p <;> rfl
@[simp] theorem State.setPort_links (s : State) (p : Port) (v : PortSt) : (s.setPort p v).links = s.links := by cases p <;> rfl
@[simp] theorem State.setPort_rdgRoute (s : State) (p : Port) (v : PortSt) : (s.setPort p v).rdgRoute = s.rdgRoute := by cases p <;> rfl
@[simp] theorem State.setPort_rdgWin (s : State) (p : Port) (v : PortSt) : (s.setPort p v).rdgWin = s.rdgWin := by cases p <;> rfl
@[simp] theorem State.setPort_plans (s : State) (p : Port) (v : PortSt) : (s.setPort p v).plans = s.plans := by cases p <;> rfl
@[simp] theorem State.setPort_holds (s : State) (p : Port) (v : PortSt) : (s.setPort p v).holds = s.holds := by cases p <;> rfl
@[simp] theorem State.setPort_chunkOut (s : State) (p : Port) (v : PortSt) : (s.setPort p v).chunkOut = s.chunkOut := by cases p <;> rfl
@[simp] theorem State.setPort_chunkRsp (s : State) (p : Port) (v : PortSt) : (s.setPort p v).chunkRsp = s.chunkRsp := by cases p <;> rfl
@[simp] theorem State.setPort_bcasts (s : State) (p : Port) (v : PortSt) : (s.setPort p v).bcasts = s.bcasts := by cases p <;> rfl
@[simp] theorem State.setPort_bcOut (s : State) (p : Port) (v : PortSt) : (s.setPort p v).bcOut = s.bcOut := by cases p <;> rfl
@[simp] theorem State.setPort_starts (s : State) (p : Port) (v : PortSt) : (s.setPort p v).starts = s.starts := by cases p <;> rfl
@[simp] theorem State.setPort_rdgIn (s : State) (p : Port) (v : PortSt) : (s.setPort p v).rdgIn = s.rdgIn := by cases p <;> rfl
@[simp] theorem State.setPort_rdgOut (s : State) (p : Port) (v : PortSt) : (s.setPort p v).rdgOut = s.rdgOut := by cases p <;> rfl
@[simp] theorem State.setPort_power (s : State) (p : Port) (v : PortSt) : (s.setPort p v).power = s.power := by cases p <;> rfl
@[simp] theorem State.setPort_fb (s : State) (p : Port) (v : PortSt) : (s.setPort p v).fb = s.fb := by cases p <;> rfl
@[simp] theorem State.setPort_cores (s : State) (p : Port) (v : PortSt) : (s.setPort p v).cores = s.cores := by cases p <;> rfl
@[simp] theorem State.setPort_dbgUnit (s : State) (p : Port) (v : PortSt) : (s.setPort p v).dbgUnit = s.dbgUnit := by cases p <;> rfl
@[simp] theorem State.setPort_jtag (s : State) (p : Port) (v : PortSt) : (s.setPort p v).jtag = s.jtag := by cases p <;> rfl
@[simp] theorem State.setPort_fresh (s : State) (p : Port) (v : PortSt) : (s.setPort p v).fresh = s.fresh := by cases p <;> rfl

/-! Fields that `State.began` keeps. -/

@[simp] theorem State.began_pending (s : State) (op : Nat) (p : Port) (k : Packet) : (s.began op p k).pending = s.pending := by cases p <;> rfl
@[simp] theorem State.began_plat (s : State) (op : Nat) (p : Port) (k : Packet) : (s.began op p k).plat = s.plat := by cases p <;> rfl
@[simp] theorem State.began_fuses (s : State) (op : Nat) (p : Port) (k : Packet) : (s.began op p k).fuses = s.fuses := by cases p <;> rfl
@[simp] theorem State.began_cfg (s : State) (op : Nat) (p : Port) (k : Packet) : (s.began op p k).cfg = s.cfg := by cases p <;> rfl
@[simp] theorem State.began_cairn (s : State) (op : Nat) (p : Port) (k : Packet) : (s.began op p k).cairn = s.cairn := by cases p <;> rfl
@[simp] theorem State.began_time (s : State) (op : Nat) (p : Port) (k : Packet) : (s.began op p k).time = s.time := by cases p <;> rfl
@[simp] theorem State.began_tally (s : State) (op : Nat) (p : Port) (k : Packet) : (s.began op p k).tally = s.tally := by cases p <;> rfl
@[simp] theorem State.began_log (s : State) (op : Nat) (p : Port) (k : Packet) : (s.began op p k).log = s.log := by cases p <;> rfl
@[simp] theorem State.began_logSeq (s : State) (op : Nat) (p : Port) (k : Packet) : (s.began op p k).logSeq = s.logSeq := by cases p <;> rfl
@[simp] theorem State.began_acts (s : State) (op : Nat) (p : Port) (k : Packet) : (s.began op p k).acts = s.acts := by cases p <;> rfl
@[simp] theorem State.began_actNum (s : State) (op : Nat) (p : Port) (k : Packet) : (s.began op p k).actNum = s.actNum := by cases p <;> rfl
@[simp] theorem State.began_routes (s : State) (op : Nat) (p : Port) (k : Packet) : (s.began op p k).routes = s.routes := by cases p <;> rfl
@[simp] theorem State.began_imsic (s : State) (op : Nat) (p : Port) (k : Packet) : (s.began op p k).imsic = s.imsic := by cases p <;> rfl
@[simp] theorem State.began_trapTail (s : State) (op : Nat) (p : Port) (k : Packet) : (s.began op p k).trapTail = s.trapTail := by cases p <;> rfl
@[simp] theorem State.began_trapHead (s : State) (op : Nat) (p : Port) (k : Packet) : (s.began op p k).trapHead = s.trapHead := by cases p <;> rfl
@[simp] theorem State.began_trapWait (s : State) (op : Nat) (p : Port) (k : Packet) : (s.began op p k).trapWait = s.trapWait := by cases p <;> rfl
@[simp] theorem State.began_streams (s : State) (op : Nat) (p : Port) (k : Packet) : (s.began op p k).streams = s.streams := by cases p <;> rfl
@[simp] theorem State.began_launches (s : State) (op : Nat) (p : Port) (k : Packet) : (s.began op p k).launches = s.launches := by cases p <;> rfl
@[simp] theorem State.began_launchNum (s : State) (op : Nat) (p : Port) (k : Packet) : (s.began op p k).launchNum = s.launchNum := by cases p <;> rfl
@[simp] theorem State.began_tiles (s : State) (op : Nat) (p : Port) (k : Packet) : (s.began op p k).tiles = s.tiles := by cases p <;> rfl
@[simp] theorem State.began_heavy (s : State) (op : Nat) (p : Port) (k : Packet) : (s.began op p k).heavy = s.heavy := by cases p <;> rfl
@[simp] theorem State.began_serial (s : State) (op : Nat) (p : Port) (k : Packet) : (s.began op p k).serial = s.serial := by cases p <;> rfl
@[simp] theorem State.began_landing (s : State) (op : Nat) (p : Port) (k : Packet) : (s.began op p k).landing = s.landing := by cases p <;> rfl
@[simp] theorem State.began_dram (s : State) (op : Nat) (p : Port) (k : Packet) : (s.began op p k).dram = s.dram := by cases p <;> rfl
@[simp] theorem State.began_reqs (s : State) (op : Nat) (p : Port) (k : Packet) : (s.began op p k).reqs = s.reqs := by cases p <;> rfl
@[simp] theorem State.began_reqNum (s : State) (op : Nat) (p : Port) (k : Packet) : (s.began op p k).reqNum = s.reqNum := by cases p <;> rfl
@[simp] theorem State.began_ansNum (s : State) (op : Nat) (p : Port) (k : Packet) : (s.began op p k).ansNum = s.ansNum := by cases p <;> rfl
@[simp] theorem State.began_slices (s : State) (op : Nat) (p : Port) (k : Packet) : (s.began op p k).slices = s.slices := by cases p <;> rfl
@[simp] theorem State.began_msgs (s : State) (op : Nat) (p : Port) (k : Packet) : (s.began op p k).msgs = s.msgs := by cases p <;> rfl
@[simp] theorem State.began_agents (s : State) (op : Nat) (p : Port) (k : Packet) : (s.began op p k).agents = s.agents := by cases p <;> rfl
@[simp] theorem State.began_dead (s : State) (op : Nat) (p : Port) (k : Packet) : (s.began op p k).dead = s.dead := by cases p <;> rfl
@[simp] theorem State.began_notices (s : State) (op : Nat) (p : Port) (k : Packet) : (s.began op p k).notices = s.notices := by cases p <;> rfl
@[simp] theorem State.began_rejoin (s : State) (op : Nat) (p : Port) (k : Packet) : (s.began op p k).rejoin = s.rejoin := by cases p <;> rfl
@[simp] theorem State.began_reclaimed (s : State) (op : Nat) (p : Port) (k : Packet) : (s.began op p k).reclaimed = s.reclaimed := by cases p <;> rfl
@[simp] theorem State.began_beats (s : State) (op : Nat) (p : Port) (k : Packet) : (s.began op p k).beats = s.beats := by cases p <;> rfl
@[simp] theorem State.began_host (s : State) (op : Nat) (p : Port) (k : Packet) : (s.began op p k).host = s.host := by cases p <;> rfl
@[simp] theorem State.began_hostBusy (s : State) (op : Nat) (p : Port) (k : Packet) : (s.began op p k).hostBusy = s.hostBusy := by cases p <;> rfl
@[simp] theorem State.began_hostQ (s : State) (op : Nat) (p : Port) (k : Packet) : (s.began op p k).hostQ = s.hostQ := by cases p <;> rfl
@[simp] theorem State.began_snoopQ (s : State) (op : Nat) (p : Port) (k : Packet) : (s.began op p k).snoopQ = s.snoopQ := by cases p <;> rfl
@[simp] theorem State.began_snoopIn (s : State) (op : Nat) (p : Port) (k : Packet) : (s.began op p k).snoopIn = s.snoopIn := by cases p <;> rfl
@[simp] theorem State.began_hostOut (s : State) (op : Nat) (p : Port) (k : Packet) : (s.began op p k).hostOut = s.hostOut := by cases p <;> rfl
@[simp] theorem State.began_xlt (s : State) (op : Nat) (p : Port) (k : Packet) : (s.began op p k).xlt = s.xlt := by cases p <;> rfl
@[simp] theorem State.began_chans (s : State) (op : Nat) (p : Port) (k : Packet) : (s.began op p k).chans = s.chans := by cases p <;> rfl
@[simp] theorem State.began_remap (s : State) (op : Nat) (p : Port) (k : Packet) : (s.began op p k).remap = s.remap := by cases p <;> rfl
@[simp] theorem State.began_hbm (s : State) (op : Nat) (p : Port) (k : Packet) : (s.began op p k).hbm = s.hbm := by cases p <;> rfl
@[simp] theorem State.began_tmax (s : State) (op : Nat) (p : Port) (k : Packet) : (s.began op p k).tmax = s.tmax := by cases p <;> rfl
@[simp] theorem State.began_cols (s : State) (op : Nat) (p : Port) (k : Packet) : (s.began op p k).cols = s.cols := by cases p <;> rfl
@[simp] theorem State.began_tokens (s : State) (op : Nat) (p : Port) (k : Packet) : (s.began op p k).tokens = s.tokens := by cases p <;> rfl
@[simp] theorem State.began_held (s : State) (op : Nat) (p : Port) (k : Packet) : (s.began op p k).held = s.held := by cases p <;> rfl
@[simp] theorem State.began_asks (s : State) (op : Nat) (p : Port) (k : Packet) : (s.began op p k).asks = s.asks := by cases p <;> rfl
@[simp] theorem State.began_colSat (s : State) (op : Nat) (p : Port) (k : Packet) : (s.began op p k).colSat = s.colSat := by cases p <;> rfl
@[simp] theorem State.began_links (s : State) (op : Nat) (p : Port) (k : Packet) : (s.began op p k).links = s.links := by cases p <;> rfl
@[simp] theorem State.began_rdgRoute (s : State) (op : Nat) (p : Port) (k : Packet) : (s.began op p k).rdgRoute = s.rdgRoute := by cases p <;> rfl
@[simp] theorem State.began_rdgWin (s : State) (op : Nat) (p : Port) (k : Packet) : (s.began op p k).rdgWin = s.rdgWin := by cases p <;> rfl
@[simp] theorem State.began_plans (s : State) (op : Nat) (p : Port) (k : Packet) : (s.began op p k).plans = s.plans := by cases p <;> rfl
@[simp] theorem State.began_holds (s : State) (op : Nat) (p : Port) (k : Packet) : (s.began op p k).holds = s.holds := by cases p <;> rfl
@[simp] theorem State.began_chunkOut (s : State) (op : Nat) (p : Port) (k : Packet) : (s.began op p k).chunkOut = s.chunkOut := by cases p <;> rfl
@[simp] theorem State.began_chunkRsp (s : State) (op : Nat) (p : Port) (k : Packet) : (s.began op p k).chunkRsp = s.chunkRsp := by cases p <;> rfl
@[simp] theorem State.began_bcasts (s : State) (op : Nat) (p : Port) (k : Packet) : (s.began op p k).bcasts = s.bcasts := by cases p <;> rfl
@[simp] theorem State.began_bcOut (s : State) (op : Nat) (p : Port) (k : Packet) : (s.began op p k).bcOut = s.bcOut := by cases p <;> rfl
@[simp] theorem State.began_starts (s : State) (op : Nat) (p : Port) (k : Packet) : (s.began op p k).starts = s.starts := by cases p <;> rfl
@[simp] theorem State.began_rdgIn (s : State) (op : Nat) (p : Port) (k : Packet) : (s.began op p k).rdgIn = s.rdgIn := by cases p <;> rfl
@[simp] theorem State.began_rdgOut (s : State) (op : Nat) (p : Port) (k : Packet) : (s.began op p k).rdgOut = s.rdgOut := by cases p <;> rfl
@[simp] theorem State.began_power (s : State) (op : Nat) (p : Port) (k : Packet) : (s.began op p k).power = s.power := by cases p <;> rfl
@[simp] theorem State.began_fb (s : State) (op : Nat) (p : Port) (k : Packet) : (s.began op p k).fb = s.fb := by cases p <;> rfl
@[simp] theorem State.began_cores (s : State) (op : Nat) (p : Port) (k : Packet) : (s.began op p k).cores = s.cores := by cases p <;> rfl
@[simp] theorem State.began_dbgUnit (s : State) (op : Nat) (p : Port) (k : Packet) : (s.began op p k).dbgUnit = s.dbgUnit := by cases p <;> rfl
@[simp] theorem State.began_jtag (s : State) (op : Nat) (p : Port) (k : Packet) : (s.began op p k).jtag = s.jtag := by cases p <;> rfl
@[simp] theorem State.began_fresh (s : State) (op : Nat) (p : Port) (k : Packet) : (s.began op p k).fresh = s.fresh := by cases p <;> rfl

/-! Fields that `State.setStream` keeps. -/

@[simp] theorem State.setStream_pending (s : State) (n : Nat) (v : Stream) : (s.setStream n v).pending = s.pending := rfl
@[simp] theorem State.setStream_plat (s : State) (n : Nat) (v : Stream) : (s.setStream n v).plat = s.plat := rfl
@[simp] theorem State.setStream_fuses (s : State) (n : Nat) (v : Stream) : (s.setStream n v).fuses = s.fuses := rfl
@[simp] theorem State.setStream_portH (s : State) (n : Nat) (v : Stream) : (s.setStream n v).portH = s.portH := rfl
@[simp] theorem State.setStream_portB (s : State) (n : Nat) (v : Stream) : (s.setStream n v).portB = s.portB := rfl
@[simp] theorem State.setStream_portN (s : State) (n : Nat) (v : Stream) : (s.setStream n v).portN = s.portN := rfl
@[simp] theorem State.setStream_cfg (s : State) (n : Nat) (v : Stream) : (s.setStream n v).cfg = s.cfg := rfl
@[simp] theorem State.setStream_cairn (s : State) (n : Nat) (v : Stream) : (s.setStream n v).cairn = s.cairn := rfl
@[simp] theorem State.setStream_time (s : State) (n : Nat) (v : Stream) : (s.setStream n v).time = s.time := rfl
@[simp] theorem State.setStream_tally (s : State) (n : Nat) (v : Stream) : (s.setStream n v).tally = s.tally := rfl
@[simp] theorem State.setStream_log (s : State) (n : Nat) (v : Stream) : (s.setStream n v).log = s.log := rfl
@[simp] theorem State.setStream_logSeq (s : State) (n : Nat) (v : Stream) : (s.setStream n v).logSeq = s.logSeq := rfl
@[simp] theorem State.setStream_acts (s : State) (n : Nat) (v : Stream) : (s.setStream n v).acts = s.acts := rfl
@[simp] theorem State.setStream_actNum (s : State) (n : Nat) (v : Stream) : (s.setStream n v).actNum = s.actNum := rfl
@[simp] theorem State.setStream_routes (s : State) (n : Nat) (v : Stream) : (s.setStream n v).routes = s.routes := rfl
@[simp] theorem State.setStream_imsic (s : State) (n : Nat) (v : Stream) : (s.setStream n v).imsic = s.imsic := rfl
@[simp] theorem State.setStream_trapTail (s : State) (n : Nat) (v : Stream) : (s.setStream n v).trapTail = s.trapTail := rfl
@[simp] theorem State.setStream_trapHead (s : State) (n : Nat) (v : Stream) : (s.setStream n v).trapHead = s.trapHead := rfl
@[simp] theorem State.setStream_trapWait (s : State) (n : Nat) (v : Stream) : (s.setStream n v).trapWait = s.trapWait := rfl
@[simp] theorem State.setStream_launches (s : State) (n : Nat) (v : Stream) : (s.setStream n v).launches = s.launches := rfl
@[simp] theorem State.setStream_launchNum (s : State) (n : Nat) (v : Stream) : (s.setStream n v).launchNum = s.launchNum := rfl
@[simp] theorem State.setStream_tiles (s : State) (n : Nat) (v : Stream) : (s.setStream n v).tiles = s.tiles := rfl
@[simp] theorem State.setStream_heavy (s : State) (n : Nat) (v : Stream) : (s.setStream n v).heavy = s.heavy := rfl
@[simp] theorem State.setStream_serial (s : State) (n : Nat) (v : Stream) : (s.setStream n v).serial = s.serial := rfl
@[simp] theorem State.setStream_landing (s : State) (n : Nat) (v : Stream) : (s.setStream n v).landing = s.landing := rfl
@[simp] theorem State.setStream_dram (s : State) (n : Nat) (v : Stream) : (s.setStream n v).dram = s.dram := rfl
@[simp] theorem State.setStream_reqs (s : State) (n : Nat) (v : Stream) : (s.setStream n v).reqs = s.reqs := rfl
@[simp] theorem State.setStream_reqNum (s : State) (n : Nat) (v : Stream) : (s.setStream n v).reqNum = s.reqNum := rfl
@[simp] theorem State.setStream_ansNum (s : State) (n : Nat) (v : Stream) : (s.setStream n v).ansNum = s.ansNum := rfl
@[simp] theorem State.setStream_slices (s : State) (n : Nat) (v : Stream) : (s.setStream n v).slices = s.slices := rfl
@[simp] theorem State.setStream_msgs (s : State) (n : Nat) (v : Stream) : (s.setStream n v).msgs = s.msgs := rfl
@[simp] theorem State.setStream_agents (s : State) (n : Nat) (v : Stream) : (s.setStream n v).agents = s.agents := rfl
@[simp] theorem State.setStream_dead (s : State) (n : Nat) (v : Stream) : (s.setStream n v).dead = s.dead := rfl
@[simp] theorem State.setStream_notices (s : State) (n : Nat) (v : Stream) : (s.setStream n v).notices = s.notices := rfl
@[simp] theorem State.setStream_rejoin (s : State) (n : Nat) (v : Stream) : (s.setStream n v).rejoin = s.rejoin := rfl
@[simp] theorem State.setStream_reclaimed (s : State) (n : Nat) (v : Stream) : (s.setStream n v).reclaimed = s.reclaimed := rfl
@[simp] theorem State.setStream_beats (s : State) (n : Nat) (v : Stream) : (s.setStream n v).beats = s.beats := rfl
@[simp] theorem State.setStream_host (s : State) (n : Nat) (v : Stream) : (s.setStream n v).host = s.host := rfl
@[simp] theorem State.setStream_hostBusy (s : State) (n : Nat) (v : Stream) : (s.setStream n v).hostBusy = s.hostBusy := rfl
@[simp] theorem State.setStream_hostQ (s : State) (n : Nat) (v : Stream) : (s.setStream n v).hostQ = s.hostQ := rfl
@[simp] theorem State.setStream_snoopQ (s : State) (n : Nat) (v : Stream) : (s.setStream n v).snoopQ = s.snoopQ := rfl
@[simp] theorem State.setStream_snoopIn (s : State) (n : Nat) (v : Stream) : (s.setStream n v).snoopIn = s.snoopIn := rfl
@[simp] theorem State.setStream_hostOut (s : State) (n : Nat) (v : Stream) : (s.setStream n v).hostOut = s.hostOut := rfl
@[simp] theorem State.setStream_xlt (s : State) (n : Nat) (v : Stream) : (s.setStream n v).xlt = s.xlt := rfl
@[simp] theorem State.setStream_chans (s : State) (n : Nat) (v : Stream) : (s.setStream n v).chans = s.chans := rfl
@[simp] theorem State.setStream_remap (s : State) (n : Nat) (v : Stream) : (s.setStream n v).remap = s.remap := rfl
@[simp] theorem State.setStream_hbm (s : State) (n : Nat) (v : Stream) : (s.setStream n v).hbm = s.hbm := rfl
@[simp] theorem State.setStream_tmax (s : State) (n : Nat) (v : Stream) : (s.setStream n v).tmax = s.tmax := rfl
@[simp] theorem State.setStream_cols (s : State) (n : Nat) (v : Stream) : (s.setStream n v).cols = s.cols := rfl
@[simp] theorem State.setStream_tokens (s : State) (n : Nat) (v : Stream) : (s.setStream n v).tokens = s.tokens := rfl
@[simp] theorem State.setStream_held (s : State) (n : Nat) (v : Stream) : (s.setStream n v).held = s.held := rfl
@[simp] theorem State.setStream_asks (s : State) (n : Nat) (v : Stream) : (s.setStream n v).asks = s.asks := rfl
@[simp] theorem State.setStream_colSat (s : State) (n : Nat) (v : Stream) : (s.setStream n v).colSat = s.colSat := rfl
@[simp] theorem State.setStream_links (s : State) (n : Nat) (v : Stream) : (s.setStream n v).links = s.links := rfl
@[simp] theorem State.setStream_rdgRoute (s : State) (n : Nat) (v : Stream) : (s.setStream n v).rdgRoute = s.rdgRoute := rfl
@[simp] theorem State.setStream_rdgWin (s : State) (n : Nat) (v : Stream) : (s.setStream n v).rdgWin = s.rdgWin := rfl
@[simp] theorem State.setStream_plans (s : State) (n : Nat) (v : Stream) : (s.setStream n v).plans = s.plans := rfl
@[simp] theorem State.setStream_holds (s : State) (n : Nat) (v : Stream) : (s.setStream n v).holds = s.holds := rfl
@[simp] theorem State.setStream_chunkOut (s : State) (n : Nat) (v : Stream) : (s.setStream n v).chunkOut = s.chunkOut := rfl
@[simp] theorem State.setStream_chunkRsp (s : State) (n : Nat) (v : Stream) : (s.setStream n v).chunkRsp = s.chunkRsp := rfl
@[simp] theorem State.setStream_bcasts (s : State) (n : Nat) (v : Stream) : (s.setStream n v).bcasts = s.bcasts := rfl
@[simp] theorem State.setStream_bcOut (s : State) (n : Nat) (v : Stream) : (s.setStream n v).bcOut = s.bcOut := rfl
@[simp] theorem State.setStream_starts (s : State) (n : Nat) (v : Stream) : (s.setStream n v).starts = s.starts := rfl
@[simp] theorem State.setStream_rdgIn (s : State) (n : Nat) (v : Stream) : (s.setStream n v).rdgIn = s.rdgIn := rfl
@[simp] theorem State.setStream_rdgOut (s : State) (n : Nat) (v : Stream) : (s.setStream n v).rdgOut = s.rdgOut := rfl
@[simp] theorem State.setStream_power (s : State) (n : Nat) (v : Stream) : (s.setStream n v).power = s.power := rfl
@[simp] theorem State.setStream_fb (s : State) (n : Nat) (v : Stream) : (s.setStream n v).fb = s.fb := rfl
@[simp] theorem State.setStream_cores (s : State) (n : Nat) (v : Stream) : (s.setStream n v).cores = s.cores := rfl
@[simp] theorem State.setStream_dbgUnit (s : State) (n : Nat) (v : Stream) : (s.setStream n v).dbgUnit = s.dbgUnit := rfl
@[simp] theorem State.setStream_jtag (s : State) (n : Nat) (v : Stream) : (s.setStream n v).jtag = s.jtag := rfl
@[simp] theorem State.setStream_fresh (s : State) (n : Nat) (v : Stream) : (s.setStream n v).fresh = s.fresh := rfl

/-! Fields that `State.setTile` keeps. -/

@[simp] theorem State.setTile_pending (s : State) (d k : Nat) (v : Tile) : (s.setTile d k v).pending = s.pending := rfl
@[simp] theorem State.setTile_plat (s : State) (d k : Nat) (v : Tile) : (s.setTile d k v).plat = s.plat := rfl
@[simp] theorem State.setTile_fuses (s : State) (d k : Nat) (v : Tile) : (s.setTile d k v).fuses = s.fuses := rfl
@[simp] theorem State.setTile_portH (s : State) (d k : Nat) (v : Tile) : (s.setTile d k v).portH = s.portH := rfl
@[simp] theorem State.setTile_portB (s : State) (d k : Nat) (v : Tile) : (s.setTile d k v).portB = s.portB := rfl
@[simp] theorem State.setTile_portN (s : State) (d k : Nat) (v : Tile) : (s.setTile d k v).portN = s.portN := rfl
@[simp] theorem State.setTile_cfg (s : State) (d k : Nat) (v : Tile) : (s.setTile d k v).cfg = s.cfg := rfl
@[simp] theorem State.setTile_cairn (s : State) (d k : Nat) (v : Tile) : (s.setTile d k v).cairn = s.cairn := rfl
@[simp] theorem State.setTile_time (s : State) (d k : Nat) (v : Tile) : (s.setTile d k v).time = s.time := rfl
@[simp] theorem State.setTile_tally (s : State) (d k : Nat) (v : Tile) : (s.setTile d k v).tally = s.tally := rfl
@[simp] theorem State.setTile_log (s : State) (d k : Nat) (v : Tile) : (s.setTile d k v).log = s.log := rfl
@[simp] theorem State.setTile_logSeq (s : State) (d k : Nat) (v : Tile) : (s.setTile d k v).logSeq = s.logSeq := rfl
@[simp] theorem State.setTile_acts (s : State) (d k : Nat) (v : Tile) : (s.setTile d k v).acts = s.acts := rfl
@[simp] theorem State.setTile_actNum (s : State) (d k : Nat) (v : Tile) : (s.setTile d k v).actNum = s.actNum := rfl
@[simp] theorem State.setTile_routes (s : State) (d k : Nat) (v : Tile) : (s.setTile d k v).routes = s.routes := rfl
@[simp] theorem State.setTile_imsic (s : State) (d k : Nat) (v : Tile) : (s.setTile d k v).imsic = s.imsic := rfl
@[simp] theorem State.setTile_trapTail (s : State) (d k : Nat) (v : Tile) : (s.setTile d k v).trapTail = s.trapTail := rfl
@[simp] theorem State.setTile_trapHead (s : State) (d k : Nat) (v : Tile) : (s.setTile d k v).trapHead = s.trapHead := rfl
@[simp] theorem State.setTile_trapWait (s : State) (d k : Nat) (v : Tile) : (s.setTile d k v).trapWait = s.trapWait := rfl
@[simp] theorem State.setTile_streams (s : State) (d k : Nat) (v : Tile) : (s.setTile d k v).streams = s.streams := rfl
@[simp] theorem State.setTile_launches (s : State) (d k : Nat) (v : Tile) : (s.setTile d k v).launches = s.launches := rfl
@[simp] theorem State.setTile_launchNum (s : State) (d k : Nat) (v : Tile) : (s.setTile d k v).launchNum = s.launchNum := rfl
@[simp] theorem State.setTile_heavy (s : State) (d k : Nat) (v : Tile) : (s.setTile d k v).heavy = s.heavy := rfl
@[simp] theorem State.setTile_serial (s : State) (d k : Nat) (v : Tile) : (s.setTile d k v).serial = s.serial := rfl
@[simp] theorem State.setTile_landing (s : State) (d k : Nat) (v : Tile) : (s.setTile d k v).landing = s.landing := rfl
@[simp] theorem State.setTile_dram (s : State) (d k : Nat) (v : Tile) : (s.setTile d k v).dram = s.dram := rfl
@[simp] theorem State.setTile_reqs (s : State) (d k : Nat) (v : Tile) : (s.setTile d k v).reqs = s.reqs := rfl
@[simp] theorem State.setTile_reqNum (s : State) (d k : Nat) (v : Tile) : (s.setTile d k v).reqNum = s.reqNum := rfl
@[simp] theorem State.setTile_ansNum (s : State) (d k : Nat) (v : Tile) : (s.setTile d k v).ansNum = s.ansNum := rfl
@[simp] theorem State.setTile_slices (s : State) (d k : Nat) (v : Tile) : (s.setTile d k v).slices = s.slices := rfl
@[simp] theorem State.setTile_msgs (s : State) (d k : Nat) (v : Tile) : (s.setTile d k v).msgs = s.msgs := rfl
@[simp] theorem State.setTile_agents (s : State) (d k : Nat) (v : Tile) : (s.setTile d k v).agents = s.agents := rfl
@[simp] theorem State.setTile_dead (s : State) (d k : Nat) (v : Tile) : (s.setTile d k v).dead = s.dead := rfl
@[simp] theorem State.setTile_notices (s : State) (d k : Nat) (v : Tile) : (s.setTile d k v).notices = s.notices := rfl
@[simp] theorem State.setTile_rejoin (s : State) (d k : Nat) (v : Tile) : (s.setTile d k v).rejoin = s.rejoin := rfl
@[simp] theorem State.setTile_reclaimed (s : State) (d k : Nat) (v : Tile) : (s.setTile d k v).reclaimed = s.reclaimed := rfl
@[simp] theorem State.setTile_beats (s : State) (d k : Nat) (v : Tile) : (s.setTile d k v).beats = s.beats := rfl
@[simp] theorem State.setTile_host (s : State) (d k : Nat) (v : Tile) : (s.setTile d k v).host = s.host := rfl
@[simp] theorem State.setTile_hostBusy (s : State) (d k : Nat) (v : Tile) : (s.setTile d k v).hostBusy = s.hostBusy := rfl
@[simp] theorem State.setTile_hostQ (s : State) (d k : Nat) (v : Tile) : (s.setTile d k v).hostQ = s.hostQ := rfl
@[simp] theorem State.setTile_snoopQ (s : State) (d k : Nat) (v : Tile) : (s.setTile d k v).snoopQ = s.snoopQ := rfl
@[simp] theorem State.setTile_snoopIn (s : State) (d k : Nat) (v : Tile) : (s.setTile d k v).snoopIn = s.snoopIn := rfl
@[simp] theorem State.setTile_hostOut (s : State) (d k : Nat) (v : Tile) : (s.setTile d k v).hostOut = s.hostOut := rfl
@[simp] theorem State.setTile_xlt (s : State) (d k : Nat) (v : Tile) : (s.setTile d k v).xlt = s.xlt := rfl
@[simp] theorem State.setTile_chans (s : State) (d k : Nat) (v : Tile) : (s.setTile d k v).chans = s.chans := rfl
@[simp] theorem State.setTile_remap (s : State) (d k : Nat) (v : Tile) : (s.setTile d k v).remap = s.remap := rfl
@[simp] theorem State.setTile_hbm (s : State) (d k : Nat) (v : Tile) : (s.setTile d k v).hbm = s.hbm := rfl
@[simp] theorem State.setTile_tmax (s : State) (d k : Nat) (v : Tile) : (s.setTile d k v).tmax = s.tmax := rfl
@[simp] theorem State.setTile_cols (s : State) (d k : Nat) (v : Tile) : (s.setTile d k v).cols = s.cols := rfl
@[simp] theorem State.setTile_tokens (s : State) (d k : Nat) (v : Tile) : (s.setTile d k v).tokens = s.tokens := rfl
@[simp] theorem State.setTile_held (s : State) (d k : Nat) (v : Tile) : (s.setTile d k v).held = s.held := rfl
@[simp] theorem State.setTile_asks (s : State) (d k : Nat) (v : Tile) : (s.setTile d k v).asks = s.asks := rfl
@[simp] theorem State.setTile_colSat (s : State) (d k : Nat) (v : Tile) : (s.setTile d k v).colSat = s.colSat := rfl
@[simp] theorem State.setTile_links (s : State) (d k : Nat) (v : Tile) : (s.setTile d k v).links = s.links := rfl
@[simp] theorem State.setTile_rdgRoute (s : State) (d k : Nat) (v : Tile) : (s.setTile d k v).rdgRoute = s.rdgRoute := rfl
@[simp] theorem State.setTile_rdgWin (s : State) (d k : Nat) (v : Tile) : (s.setTile d k v).rdgWin = s.rdgWin := rfl
@[simp] theorem State.setTile_plans (s : State) (d k : Nat) (v : Tile) : (s.setTile d k v).plans = s.plans := rfl
@[simp] theorem State.setTile_holds (s : State) (d k : Nat) (v : Tile) : (s.setTile d k v).holds = s.holds := rfl
@[simp] theorem State.setTile_chunkOut (s : State) (d k : Nat) (v : Tile) : (s.setTile d k v).chunkOut = s.chunkOut := rfl
@[simp] theorem State.setTile_chunkRsp (s : State) (d k : Nat) (v : Tile) : (s.setTile d k v).chunkRsp = s.chunkRsp := rfl
@[simp] theorem State.setTile_bcasts (s : State) (d k : Nat) (v : Tile) : (s.setTile d k v).bcasts = s.bcasts := rfl
@[simp] theorem State.setTile_bcOut (s : State) (d k : Nat) (v : Tile) : (s.setTile d k v).bcOut = s.bcOut := rfl
@[simp] theorem State.setTile_starts (s : State) (d k : Nat) (v : Tile) : (s.setTile d k v).starts = s.starts := rfl
@[simp] theorem State.setTile_rdgIn (s : State) (d k : Nat) (v : Tile) : (s.setTile d k v).rdgIn = s.rdgIn := rfl
@[simp] theorem State.setTile_rdgOut (s : State) (d k : Nat) (v : Tile) : (s.setTile d k v).rdgOut = s.rdgOut := rfl
@[simp] theorem State.setTile_power (s : State) (d k : Nat) (v : Tile) : (s.setTile d k v).power = s.power := rfl
@[simp] theorem State.setTile_fb (s : State) (d k : Nat) (v : Tile) : (s.setTile d k v).fb = s.fb := rfl
@[simp] theorem State.setTile_cores (s : State) (d k : Nat) (v : Tile) : (s.setTile d k v).cores = s.cores := rfl
@[simp] theorem State.setTile_dbgUnit (s : State) (d k : Nat) (v : Tile) : (s.setTile d k v).dbgUnit = s.dbgUnit := rfl
@[simp] theorem State.setTile_jtag (s : State) (d k : Nat) (v : Tile) : (s.setTile d k v).jtag = s.jtag := rfl
@[simp] theorem State.setTile_fresh (s : State) (d k : Nat) (v : Tile) : (s.setTile d k v).fresh = s.fresh := rfl

/-! Fields that `State.setDie` keeps. -/

@[simp] theorem State.setDie_pending (s : State) (n : Nat) (v : DieFb) : (s.setDie n v).pending = s.pending := rfl
@[simp] theorem State.setDie_plat (s : State) (n : Nat) (v : DieFb) : (s.setDie n v).plat = s.plat := rfl
@[simp] theorem State.setDie_fuses (s : State) (n : Nat) (v : DieFb) : (s.setDie n v).fuses = s.fuses := rfl
@[simp] theorem State.setDie_portH (s : State) (n : Nat) (v : DieFb) : (s.setDie n v).portH = s.portH := rfl
@[simp] theorem State.setDie_portB (s : State) (n : Nat) (v : DieFb) : (s.setDie n v).portB = s.portB := rfl
@[simp] theorem State.setDie_portN (s : State) (n : Nat) (v : DieFb) : (s.setDie n v).portN = s.portN := rfl
@[simp] theorem State.setDie_cfg (s : State) (n : Nat) (v : DieFb) : (s.setDie n v).cfg = s.cfg := rfl
@[simp] theorem State.setDie_cairn (s : State) (n : Nat) (v : DieFb) : (s.setDie n v).cairn = s.cairn := rfl
@[simp] theorem State.setDie_time (s : State) (n : Nat) (v : DieFb) : (s.setDie n v).time = s.time := rfl
@[simp] theorem State.setDie_tally (s : State) (n : Nat) (v : DieFb) : (s.setDie n v).tally = s.tally := rfl
@[simp] theorem State.setDie_log (s : State) (n : Nat) (v : DieFb) : (s.setDie n v).log = s.log := rfl
@[simp] theorem State.setDie_logSeq (s : State) (n : Nat) (v : DieFb) : (s.setDie n v).logSeq = s.logSeq := rfl
@[simp] theorem State.setDie_acts (s : State) (n : Nat) (v : DieFb) : (s.setDie n v).acts = s.acts := rfl
@[simp] theorem State.setDie_actNum (s : State) (n : Nat) (v : DieFb) : (s.setDie n v).actNum = s.actNum := rfl
@[simp] theorem State.setDie_routes (s : State) (n : Nat) (v : DieFb) : (s.setDie n v).routes = s.routes := rfl
@[simp] theorem State.setDie_imsic (s : State) (n : Nat) (v : DieFb) : (s.setDie n v).imsic = s.imsic := rfl
@[simp] theorem State.setDie_trapTail (s : State) (n : Nat) (v : DieFb) : (s.setDie n v).trapTail = s.trapTail := rfl
@[simp] theorem State.setDie_trapHead (s : State) (n : Nat) (v : DieFb) : (s.setDie n v).trapHead = s.trapHead := rfl
@[simp] theorem State.setDie_trapWait (s : State) (n : Nat) (v : DieFb) : (s.setDie n v).trapWait = s.trapWait := rfl
@[simp] theorem State.setDie_streams (s : State) (n : Nat) (v : DieFb) : (s.setDie n v).streams = s.streams := rfl
@[simp] theorem State.setDie_launches (s : State) (n : Nat) (v : DieFb) : (s.setDie n v).launches = s.launches := rfl
@[simp] theorem State.setDie_launchNum (s : State) (n : Nat) (v : DieFb) : (s.setDie n v).launchNum = s.launchNum := rfl
@[simp] theorem State.setDie_tiles (s : State) (n : Nat) (v : DieFb) : (s.setDie n v).tiles = s.tiles := rfl
@[simp] theorem State.setDie_heavy (s : State) (n : Nat) (v : DieFb) : (s.setDie n v).heavy = s.heavy := rfl
@[simp] theorem State.setDie_serial (s : State) (n : Nat) (v : DieFb) : (s.setDie n v).serial = s.serial := rfl
@[simp] theorem State.setDie_landing (s : State) (n : Nat) (v : DieFb) : (s.setDie n v).landing = s.landing := rfl
@[simp] theorem State.setDie_dram (s : State) (n : Nat) (v : DieFb) : (s.setDie n v).dram = s.dram := rfl
@[simp] theorem State.setDie_reqs (s : State) (n : Nat) (v : DieFb) : (s.setDie n v).reqs = s.reqs := rfl
@[simp] theorem State.setDie_reqNum (s : State) (n : Nat) (v : DieFb) : (s.setDie n v).reqNum = s.reqNum := rfl
@[simp] theorem State.setDie_ansNum (s : State) (n : Nat) (v : DieFb) : (s.setDie n v).ansNum = s.ansNum := rfl
@[simp] theorem State.setDie_slices (s : State) (n : Nat) (v : DieFb) : (s.setDie n v).slices = s.slices := rfl
@[simp] theorem State.setDie_msgs (s : State) (n : Nat) (v : DieFb) : (s.setDie n v).msgs = s.msgs := rfl
@[simp] theorem State.setDie_agents (s : State) (n : Nat) (v : DieFb) : (s.setDie n v).agents = s.agents := rfl
@[simp] theorem State.setDie_dead (s : State) (n : Nat) (v : DieFb) : (s.setDie n v).dead = s.dead := rfl
@[simp] theorem State.setDie_notices (s : State) (n : Nat) (v : DieFb) : (s.setDie n v).notices = s.notices := rfl
@[simp] theorem State.setDie_rejoin (s : State) (n : Nat) (v : DieFb) : (s.setDie n v).rejoin = s.rejoin := rfl
@[simp] theorem State.setDie_reclaimed (s : State) (n : Nat) (v : DieFb) : (s.setDie n v).reclaimed = s.reclaimed := rfl
@[simp] theorem State.setDie_beats (s : State) (n : Nat) (v : DieFb) : (s.setDie n v).beats = s.beats := rfl
@[simp] theorem State.setDie_host (s : State) (n : Nat) (v : DieFb) : (s.setDie n v).host = s.host := rfl
@[simp] theorem State.setDie_hostBusy (s : State) (n : Nat) (v : DieFb) : (s.setDie n v).hostBusy = s.hostBusy := rfl
@[simp] theorem State.setDie_hostQ (s : State) (n : Nat) (v : DieFb) : (s.setDie n v).hostQ = s.hostQ := rfl
@[simp] theorem State.setDie_snoopQ (s : State) (n : Nat) (v : DieFb) : (s.setDie n v).snoopQ = s.snoopQ := rfl
@[simp] theorem State.setDie_snoopIn (s : State) (n : Nat) (v : DieFb) : (s.setDie n v).snoopIn = s.snoopIn := rfl
@[simp] theorem State.setDie_hostOut (s : State) (n : Nat) (v : DieFb) : (s.setDie n v).hostOut = s.hostOut := rfl
@[simp] theorem State.setDie_xlt (s : State) (n : Nat) (v : DieFb) : (s.setDie n v).xlt = s.xlt := rfl
@[simp] theorem State.setDie_chans (s : State) (n : Nat) (v : DieFb) : (s.setDie n v).chans = s.chans := rfl
@[simp] theorem State.setDie_remap (s : State) (n : Nat) (v : DieFb) : (s.setDie n v).remap = s.remap := rfl
@[simp] theorem State.setDie_hbm (s : State) (n : Nat) (v : DieFb) : (s.setDie n v).hbm = s.hbm := rfl
@[simp] theorem State.setDie_tmax (s : State) (n : Nat) (v : DieFb) : (s.setDie n v).tmax = s.tmax := rfl
@[simp] theorem State.setDie_cols (s : State) (n : Nat) (v : DieFb) : (s.setDie n v).cols = s.cols := rfl
@[simp] theorem State.setDie_tokens (s : State) (n : Nat) (v : DieFb) : (s.setDie n v).tokens = s.tokens := rfl
@[simp] theorem State.setDie_held (s : State) (n : Nat) (v : DieFb) : (s.setDie n v).held = s.held := rfl
@[simp] theorem State.setDie_asks (s : State) (n : Nat) (v : DieFb) : (s.setDie n v).asks = s.asks := rfl
@[simp] theorem State.setDie_colSat (s : State) (n : Nat) (v : DieFb) : (s.setDie n v).colSat = s.colSat := rfl
@[simp] theorem State.setDie_links (s : State) (n : Nat) (v : DieFb) : (s.setDie n v).links = s.links := rfl
@[simp] theorem State.setDie_rdgRoute (s : State) (n : Nat) (v : DieFb) : (s.setDie n v).rdgRoute = s.rdgRoute := rfl
@[simp] theorem State.setDie_rdgWin (s : State) (n : Nat) (v : DieFb) : (s.setDie n v).rdgWin = s.rdgWin := rfl
@[simp] theorem State.setDie_plans (s : State) (n : Nat) (v : DieFb) : (s.setDie n v).plans = s.plans := rfl
@[simp] theorem State.setDie_holds (s : State) (n : Nat) (v : DieFb) : (s.setDie n v).holds = s.holds := rfl
@[simp] theorem State.setDie_chunkOut (s : State) (n : Nat) (v : DieFb) : (s.setDie n v).chunkOut = s.chunkOut := rfl
@[simp] theorem State.setDie_chunkRsp (s : State) (n : Nat) (v : DieFb) : (s.setDie n v).chunkRsp = s.chunkRsp := rfl
@[simp] theorem State.setDie_bcasts (s : State) (n : Nat) (v : DieFb) : (s.setDie n v).bcasts = s.bcasts := rfl
@[simp] theorem State.setDie_bcOut (s : State) (n : Nat) (v : DieFb) : (s.setDie n v).bcOut = s.bcOut := rfl
@[simp] theorem State.setDie_starts (s : State) (n : Nat) (v : DieFb) : (s.setDie n v).starts = s.starts := rfl
@[simp] theorem State.setDie_rdgIn (s : State) (n : Nat) (v : DieFb) : (s.setDie n v).rdgIn = s.rdgIn := rfl
@[simp] theorem State.setDie_rdgOut (s : State) (n : Nat) (v : DieFb) : (s.setDie n v).rdgOut = s.rdgOut := rfl
@[simp] theorem State.setDie_power (s : State) (n : Nat) (v : DieFb) : (s.setDie n v).power = s.power := rfl
@[simp] theorem State.setDie_cores (s : State) (n : Nat) (v : DieFb) : (s.setDie n v).cores = s.cores := rfl
@[simp] theorem State.setDie_dbgUnit (s : State) (n : Nat) (v : DieFb) : (s.setDie n v).dbgUnit = s.dbgUnit := rfl
@[simp] theorem State.setDie_jtag (s : State) (n : Nat) (v : DieFb) : (s.setDie n v).jtag = s.jtag := rfl
@[simp] theorem State.setDie_fresh (s : State) (n : Nat) (v : DieFb) : (s.setDie n v).fresh = s.fresh := rfl

/-! Fields that `State.setLink` keeps. -/

@[simp] theorem State.setLink_pending (s : State) (l : Nat) (v : Link) : (s.setLink l v).pending = s.pending := rfl
@[simp] theorem State.setLink_plat (s : State) (l : Nat) (v : Link) : (s.setLink l v).plat = s.plat := rfl
@[simp] theorem State.setLink_fuses (s : State) (l : Nat) (v : Link) : (s.setLink l v).fuses = s.fuses := rfl
@[simp] theorem State.setLink_portH (s : State) (l : Nat) (v : Link) : (s.setLink l v).portH = s.portH := rfl
@[simp] theorem State.setLink_portB (s : State) (l : Nat) (v : Link) : (s.setLink l v).portB = s.portB := rfl
@[simp] theorem State.setLink_portN (s : State) (l : Nat) (v : Link) : (s.setLink l v).portN = s.portN := rfl
@[simp] theorem State.setLink_cfg (s : State) (l : Nat) (v : Link) : (s.setLink l v).cfg = s.cfg := rfl
@[simp] theorem State.setLink_cairn (s : State) (l : Nat) (v : Link) : (s.setLink l v).cairn = s.cairn := rfl
@[simp] theorem State.setLink_time (s : State) (l : Nat) (v : Link) : (s.setLink l v).time = s.time := rfl
@[simp] theorem State.setLink_tally (s : State) (l : Nat) (v : Link) : (s.setLink l v).tally = s.tally := rfl
@[simp] theorem State.setLink_log (s : State) (l : Nat) (v : Link) : (s.setLink l v).log = s.log := rfl
@[simp] theorem State.setLink_logSeq (s : State) (l : Nat) (v : Link) : (s.setLink l v).logSeq = s.logSeq := rfl
@[simp] theorem State.setLink_acts (s : State) (l : Nat) (v : Link) : (s.setLink l v).acts = s.acts := rfl
@[simp] theorem State.setLink_actNum (s : State) (l : Nat) (v : Link) : (s.setLink l v).actNum = s.actNum := rfl
@[simp] theorem State.setLink_routes (s : State) (l : Nat) (v : Link) : (s.setLink l v).routes = s.routes := rfl
@[simp] theorem State.setLink_imsic (s : State) (l : Nat) (v : Link) : (s.setLink l v).imsic = s.imsic := rfl
@[simp] theorem State.setLink_trapTail (s : State) (l : Nat) (v : Link) : (s.setLink l v).trapTail = s.trapTail := rfl
@[simp] theorem State.setLink_trapHead (s : State) (l : Nat) (v : Link) : (s.setLink l v).trapHead = s.trapHead := rfl
@[simp] theorem State.setLink_trapWait (s : State) (l : Nat) (v : Link) : (s.setLink l v).trapWait = s.trapWait := rfl
@[simp] theorem State.setLink_streams (s : State) (l : Nat) (v : Link) : (s.setLink l v).streams = s.streams := rfl
@[simp] theorem State.setLink_launches (s : State) (l : Nat) (v : Link) : (s.setLink l v).launches = s.launches := rfl
@[simp] theorem State.setLink_launchNum (s : State) (l : Nat) (v : Link) : (s.setLink l v).launchNum = s.launchNum := rfl
@[simp] theorem State.setLink_tiles (s : State) (l : Nat) (v : Link) : (s.setLink l v).tiles = s.tiles := rfl
@[simp] theorem State.setLink_heavy (s : State) (l : Nat) (v : Link) : (s.setLink l v).heavy = s.heavy := rfl
@[simp] theorem State.setLink_serial (s : State) (l : Nat) (v : Link) : (s.setLink l v).serial = s.serial := rfl
@[simp] theorem State.setLink_landing (s : State) (l : Nat) (v : Link) : (s.setLink l v).landing = s.landing := rfl
@[simp] theorem State.setLink_dram (s : State) (l : Nat) (v : Link) : (s.setLink l v).dram = s.dram := rfl
@[simp] theorem State.setLink_reqs (s : State) (l : Nat) (v : Link) : (s.setLink l v).reqs = s.reqs := rfl
@[simp] theorem State.setLink_reqNum (s : State) (l : Nat) (v : Link) : (s.setLink l v).reqNum = s.reqNum := rfl
@[simp] theorem State.setLink_ansNum (s : State) (l : Nat) (v : Link) : (s.setLink l v).ansNum = s.ansNum := rfl
@[simp] theorem State.setLink_slices (s : State) (l : Nat) (v : Link) : (s.setLink l v).slices = s.slices := rfl
@[simp] theorem State.setLink_msgs (s : State) (l : Nat) (v : Link) : (s.setLink l v).msgs = s.msgs := rfl
@[simp] theorem State.setLink_agents (s : State) (l : Nat) (v : Link) : (s.setLink l v).agents = s.agents := rfl
@[simp] theorem State.setLink_dead (s : State) (l : Nat) (v : Link) : (s.setLink l v).dead = s.dead := rfl
@[simp] theorem State.setLink_notices (s : State) (l : Nat) (v : Link) : (s.setLink l v).notices = s.notices := rfl
@[simp] theorem State.setLink_rejoin (s : State) (l : Nat) (v : Link) : (s.setLink l v).rejoin = s.rejoin := rfl
@[simp] theorem State.setLink_reclaimed (s : State) (l : Nat) (v : Link) : (s.setLink l v).reclaimed = s.reclaimed := rfl
@[simp] theorem State.setLink_beats (s : State) (l : Nat) (v : Link) : (s.setLink l v).beats = s.beats := rfl
@[simp] theorem State.setLink_host (s : State) (l : Nat) (v : Link) : (s.setLink l v).host = s.host := rfl
@[simp] theorem State.setLink_hostBusy (s : State) (l : Nat) (v : Link) : (s.setLink l v).hostBusy = s.hostBusy := rfl
@[simp] theorem State.setLink_hostQ (s : State) (l : Nat) (v : Link) : (s.setLink l v).hostQ = s.hostQ := rfl
@[simp] theorem State.setLink_snoopQ (s : State) (l : Nat) (v : Link) : (s.setLink l v).snoopQ = s.snoopQ := rfl
@[simp] theorem State.setLink_snoopIn (s : State) (l : Nat) (v : Link) : (s.setLink l v).snoopIn = s.snoopIn := rfl
@[simp] theorem State.setLink_hostOut (s : State) (l : Nat) (v : Link) : (s.setLink l v).hostOut = s.hostOut := rfl
@[simp] theorem State.setLink_xlt (s : State) (l : Nat) (v : Link) : (s.setLink l v).xlt = s.xlt := rfl
@[simp] theorem State.setLink_chans (s : State) (l : Nat) (v : Link) : (s.setLink l v).chans = s.chans := rfl
@[simp] theorem State.setLink_remap (s : State) (l : Nat) (v : Link) : (s.setLink l v).remap = s.remap := rfl
@[simp] theorem State.setLink_hbm (s : State) (l : Nat) (v : Link) : (s.setLink l v).hbm = s.hbm := rfl
@[simp] theorem State.setLink_tmax (s : State) (l : Nat) (v : Link) : (s.setLink l v).tmax = s.tmax := rfl
@[simp] theorem State.setLink_cols (s : State) (l : Nat) (v : Link) : (s.setLink l v).cols = s.cols := rfl
@[simp] theorem State.setLink_tokens (s : State) (l : Nat) (v : Link) : (s.setLink l v).tokens = s.tokens := rfl
@[simp] theorem State.setLink_held (s : State) (l : Nat) (v : Link) : (s.setLink l v).held = s.held := rfl
@[simp] theorem State.setLink_asks (s : State) (l : Nat) (v : Link) : (s.setLink l v).asks = s.asks := rfl
@[simp] theorem State.setLink_colSat (s : State) (l : Nat) (v : Link) : (s.setLink l v).colSat = s.colSat := rfl
@[simp] theorem State.setLink_rdgRoute (s : State) (l : Nat) (v : Link) : (s.setLink l v).rdgRoute = s.rdgRoute := rfl
@[simp] theorem State.setLink_rdgWin (s : State) (l : Nat) (v : Link) : (s.setLink l v).rdgWin = s.rdgWin := rfl
@[simp] theorem State.setLink_plans (s : State) (l : Nat) (v : Link) : (s.setLink l v).plans = s.plans := rfl
@[simp] theorem State.setLink_holds (s : State) (l : Nat) (v : Link) : (s.setLink l v).holds = s.holds := rfl
@[simp] theorem State.setLink_chunkOut (s : State) (l : Nat) (v : Link) : (s.setLink l v).chunkOut = s.chunkOut := rfl
@[simp] theorem State.setLink_chunkRsp (s : State) (l : Nat) (v : Link) : (s.setLink l v).chunkRsp = s.chunkRsp := rfl
@[simp] theorem State.setLink_bcasts (s : State) (l : Nat) (v : Link) : (s.setLink l v).bcasts = s.bcasts := rfl
@[simp] theorem State.setLink_bcOut (s : State) (l : Nat) (v : Link) : (s.setLink l v).bcOut = s.bcOut := rfl
@[simp] theorem State.setLink_starts (s : State) (l : Nat) (v : Link) : (s.setLink l v).starts = s.starts := rfl
@[simp] theorem State.setLink_rdgIn (s : State) (l : Nat) (v : Link) : (s.setLink l v).rdgIn = s.rdgIn := rfl
@[simp] theorem State.setLink_rdgOut (s : State) (l : Nat) (v : Link) : (s.setLink l v).rdgOut = s.rdgOut := rfl
@[simp] theorem State.setLink_power (s : State) (l : Nat) (v : Link) : (s.setLink l v).power = s.power := rfl
@[simp] theorem State.setLink_fb (s : State) (l : Nat) (v : Link) : (s.setLink l v).fb = s.fb := rfl
@[simp] theorem State.setLink_cores (s : State) (l : Nat) (v : Link) : (s.setLink l v).cores = s.cores := rfl
@[simp] theorem State.setLink_dbgUnit (s : State) (l : Nat) (v : Link) : (s.setLink l v).dbgUnit = s.dbgUnit := rfl
@[simp] theorem State.setLink_jtag (s : State) (l : Nat) (v : Link) : (s.setLink l v).jtag = s.jtag := rfl
@[simp] theorem State.setLink_fresh (s : State) (l : Nat) (v : Link) : (s.setLink l v).fresh = s.fresh := rfl

/-! Fields that `State.setChan` keeps. -/

@[simp] theorem State.setChan_pending (s : State) (d k : Nat) (v : Chan) : (s.setChan d k v).pending = s.pending := rfl
@[simp] theorem State.setChan_plat (s : State) (d k : Nat) (v : Chan) : (s.setChan d k v).plat = s.plat := rfl
@[simp] theorem State.setChan_fuses (s : State) (d k : Nat) (v : Chan) : (s.setChan d k v).fuses = s.fuses := rfl
@[simp] theorem State.setChan_portH (s : State) (d k : Nat) (v : Chan) : (s.setChan d k v).portH = s.portH := rfl
@[simp] theorem State.setChan_portB (s : State) (d k : Nat) (v : Chan) : (s.setChan d k v).portB = s.portB := rfl
@[simp] theorem State.setChan_portN (s : State) (d k : Nat) (v : Chan) : (s.setChan d k v).portN = s.portN := rfl
@[simp] theorem State.setChan_cfg (s : State) (d k : Nat) (v : Chan) : (s.setChan d k v).cfg = s.cfg := rfl
@[simp] theorem State.setChan_cairn (s : State) (d k : Nat) (v : Chan) : (s.setChan d k v).cairn = s.cairn := rfl
@[simp] theorem State.setChan_time (s : State) (d k : Nat) (v : Chan) : (s.setChan d k v).time = s.time := rfl
@[simp] theorem State.setChan_tally (s : State) (d k : Nat) (v : Chan) : (s.setChan d k v).tally = s.tally := rfl
@[simp] theorem State.setChan_log (s : State) (d k : Nat) (v : Chan) : (s.setChan d k v).log = s.log := rfl
@[simp] theorem State.setChan_logSeq (s : State) (d k : Nat) (v : Chan) : (s.setChan d k v).logSeq = s.logSeq := rfl
@[simp] theorem State.setChan_acts (s : State) (d k : Nat) (v : Chan) : (s.setChan d k v).acts = s.acts := rfl
@[simp] theorem State.setChan_actNum (s : State) (d k : Nat) (v : Chan) : (s.setChan d k v).actNum = s.actNum := rfl
@[simp] theorem State.setChan_routes (s : State) (d k : Nat) (v : Chan) : (s.setChan d k v).routes = s.routes := rfl
@[simp] theorem State.setChan_imsic (s : State) (d k : Nat) (v : Chan) : (s.setChan d k v).imsic = s.imsic := rfl
@[simp] theorem State.setChan_trapTail (s : State) (d k : Nat) (v : Chan) : (s.setChan d k v).trapTail = s.trapTail := rfl
@[simp] theorem State.setChan_trapHead (s : State) (d k : Nat) (v : Chan) : (s.setChan d k v).trapHead = s.trapHead := rfl
@[simp] theorem State.setChan_trapWait (s : State) (d k : Nat) (v : Chan) : (s.setChan d k v).trapWait = s.trapWait := rfl
@[simp] theorem State.setChan_streams (s : State) (d k : Nat) (v : Chan) : (s.setChan d k v).streams = s.streams := rfl
@[simp] theorem State.setChan_launches (s : State) (d k : Nat) (v : Chan) : (s.setChan d k v).launches = s.launches := rfl
@[simp] theorem State.setChan_launchNum (s : State) (d k : Nat) (v : Chan) : (s.setChan d k v).launchNum = s.launchNum := rfl
@[simp] theorem State.setChan_tiles (s : State) (d k : Nat) (v : Chan) : (s.setChan d k v).tiles = s.tiles := rfl
@[simp] theorem State.setChan_heavy (s : State) (d k : Nat) (v : Chan) : (s.setChan d k v).heavy = s.heavy := rfl
@[simp] theorem State.setChan_serial (s : State) (d k : Nat) (v : Chan) : (s.setChan d k v).serial = s.serial := rfl
@[simp] theorem State.setChan_landing (s : State) (d k : Nat) (v : Chan) : (s.setChan d k v).landing = s.landing := rfl
@[simp] theorem State.setChan_dram (s : State) (d k : Nat) (v : Chan) : (s.setChan d k v).dram = s.dram := rfl
@[simp] theorem State.setChan_reqs (s : State) (d k : Nat) (v : Chan) : (s.setChan d k v).reqs = s.reqs := rfl
@[simp] theorem State.setChan_reqNum (s : State) (d k : Nat) (v : Chan) : (s.setChan d k v).reqNum = s.reqNum := rfl
@[simp] theorem State.setChan_ansNum (s : State) (d k : Nat) (v : Chan) : (s.setChan d k v).ansNum = s.ansNum := rfl
@[simp] theorem State.setChan_slices (s : State) (d k : Nat) (v : Chan) : (s.setChan d k v).slices = s.slices := rfl
@[simp] theorem State.setChan_msgs (s : State) (d k : Nat) (v : Chan) : (s.setChan d k v).msgs = s.msgs := rfl
@[simp] theorem State.setChan_agents (s : State) (d k : Nat) (v : Chan) : (s.setChan d k v).agents = s.agents := rfl
@[simp] theorem State.setChan_dead (s : State) (d k : Nat) (v : Chan) : (s.setChan d k v).dead = s.dead := rfl
@[simp] theorem State.setChan_notices (s : State) (d k : Nat) (v : Chan) : (s.setChan d k v).notices = s.notices := rfl
@[simp] theorem State.setChan_rejoin (s : State) (d k : Nat) (v : Chan) : (s.setChan d k v).rejoin = s.rejoin := rfl
@[simp] theorem State.setChan_reclaimed (s : State) (d k : Nat) (v : Chan) : (s.setChan d k v).reclaimed = s.reclaimed := rfl
@[simp] theorem State.setChan_beats (s : State) (d k : Nat) (v : Chan) : (s.setChan d k v).beats = s.beats := rfl
@[simp] theorem State.setChan_host (s : State) (d k : Nat) (v : Chan) : (s.setChan d k v).host = s.host := rfl
@[simp] theorem State.setChan_hostBusy (s : State) (d k : Nat) (v : Chan) : (s.setChan d k v).hostBusy = s.hostBusy := rfl
@[simp] theorem State.setChan_hostQ (s : State) (d k : Nat) (v : Chan) : (s.setChan d k v).hostQ = s.hostQ := rfl
@[simp] theorem State.setChan_snoopQ (s : State) (d k : Nat) (v : Chan) : (s.setChan d k v).snoopQ = s.snoopQ := rfl
@[simp] theorem State.setChan_snoopIn (s : State) (d k : Nat) (v : Chan) : (s.setChan d k v).snoopIn = s.snoopIn := rfl
@[simp] theorem State.setChan_hostOut (s : State) (d k : Nat) (v : Chan) : (s.setChan d k v).hostOut = s.hostOut := rfl
@[simp] theorem State.setChan_xlt (s : State) (d k : Nat) (v : Chan) : (s.setChan d k v).xlt = s.xlt := rfl
@[simp] theorem State.setChan_remap (s : State) (d k : Nat) (v : Chan) : (s.setChan d k v).remap = s.remap := rfl
@[simp] theorem State.setChan_hbm (s : State) (d k : Nat) (v : Chan) : (s.setChan d k v).hbm = s.hbm := rfl
@[simp] theorem State.setChan_tmax (s : State) (d k : Nat) (v : Chan) : (s.setChan d k v).tmax = s.tmax := rfl
@[simp] theorem State.setChan_cols (s : State) (d k : Nat) (v : Chan) : (s.setChan d k v).cols = s.cols := rfl
@[simp] theorem State.setChan_tokens (s : State) (d k : Nat) (v : Chan) : (s.setChan d k v).tokens = s.tokens := rfl
@[simp] theorem State.setChan_held (s : State) (d k : Nat) (v : Chan) : (s.setChan d k v).held = s.held := rfl
@[simp] theorem State.setChan_asks (s : State) (d k : Nat) (v : Chan) : (s.setChan d k v).asks = s.asks := rfl
@[simp] theorem State.setChan_colSat (s : State) (d k : Nat) (v : Chan) : (s.setChan d k v).colSat = s.colSat := rfl
@[simp] theorem State.setChan_links (s : State) (d k : Nat) (v : Chan) : (s.setChan d k v).links = s.links := rfl
@[simp] theorem State.setChan_rdgRoute (s : State) (d k : Nat) (v : Chan) : (s.setChan d k v).rdgRoute = s.rdgRoute := rfl
@[simp] theorem State.setChan_rdgWin (s : State) (d k : Nat) (v : Chan) : (s.setChan d k v).rdgWin = s.rdgWin := rfl
@[simp] theorem State.setChan_plans (s : State) (d k : Nat) (v : Chan) : (s.setChan d k v).plans = s.plans := rfl
@[simp] theorem State.setChan_holds (s : State) (d k : Nat) (v : Chan) : (s.setChan d k v).holds = s.holds := rfl
@[simp] theorem State.setChan_chunkOut (s : State) (d k : Nat) (v : Chan) : (s.setChan d k v).chunkOut = s.chunkOut := rfl
@[simp] theorem State.setChan_chunkRsp (s : State) (d k : Nat) (v : Chan) : (s.setChan d k v).chunkRsp = s.chunkRsp := rfl
@[simp] theorem State.setChan_bcasts (s : State) (d k : Nat) (v : Chan) : (s.setChan d k v).bcasts = s.bcasts := rfl
@[simp] theorem State.setChan_bcOut (s : State) (d k : Nat) (v : Chan) : (s.setChan d k v).bcOut = s.bcOut := rfl
@[simp] theorem State.setChan_starts (s : State) (d k : Nat) (v : Chan) : (s.setChan d k v).starts = s.starts := rfl
@[simp] theorem State.setChan_rdgIn (s : State) (d k : Nat) (v : Chan) : (s.setChan d k v).rdgIn = s.rdgIn := rfl
@[simp] theorem State.setChan_rdgOut (s : State) (d k : Nat) (v : Chan) : (s.setChan d k v).rdgOut = s.rdgOut := rfl
@[simp] theorem State.setChan_power (s : State) (d k : Nat) (v : Chan) : (s.setChan d k v).power = s.power := rfl
@[simp] theorem State.setChan_fb (s : State) (d k : Nat) (v : Chan) : (s.setChan d k v).fb = s.fb := rfl
@[simp] theorem State.setChan_cores (s : State) (d k : Nat) (v : Chan) : (s.setChan d k v).cores = s.cores := rfl
@[simp] theorem State.setChan_dbgUnit (s : State) (d k : Nat) (v : Chan) : (s.setChan d k v).dbgUnit = s.dbgUnit := rfl
@[simp] theorem State.setChan_jtag (s : State) (d k : Nat) (v : Chan) : (s.setChan d k v).jtag = s.jtag := rfl
@[simp] theorem State.setChan_fresh (s : State) (d k : Nat) (v : Chan) : (s.setChan d k v).fresh = s.fresh := rfl

/-! Fields that `State.setSlice` keeps. -/

@[simp] theorem State.setSlice_pending (s : State) (d k : Nat) (v : Slice) : (s.setSlice d k v).pending = s.pending := rfl
@[simp] theorem State.setSlice_plat (s : State) (d k : Nat) (v : Slice) : (s.setSlice d k v).plat = s.plat := rfl
@[simp] theorem State.setSlice_fuses (s : State) (d k : Nat) (v : Slice) : (s.setSlice d k v).fuses = s.fuses := rfl
@[simp] theorem State.setSlice_portH (s : State) (d k : Nat) (v : Slice) : (s.setSlice d k v).portH = s.portH := rfl
@[simp] theorem State.setSlice_portB (s : State) (d k : Nat) (v : Slice) : (s.setSlice d k v).portB = s.portB := rfl
@[simp] theorem State.setSlice_portN (s : State) (d k : Nat) (v : Slice) : (s.setSlice d k v).portN = s.portN := rfl
@[simp] theorem State.setSlice_cfg (s : State) (d k : Nat) (v : Slice) : (s.setSlice d k v).cfg = s.cfg := rfl
@[simp] theorem State.setSlice_cairn (s : State) (d k : Nat) (v : Slice) : (s.setSlice d k v).cairn = s.cairn := rfl
@[simp] theorem State.setSlice_time (s : State) (d k : Nat) (v : Slice) : (s.setSlice d k v).time = s.time := rfl
@[simp] theorem State.setSlice_tally (s : State) (d k : Nat) (v : Slice) : (s.setSlice d k v).tally = s.tally := rfl
@[simp] theorem State.setSlice_log (s : State) (d k : Nat) (v : Slice) : (s.setSlice d k v).log = s.log := rfl
@[simp] theorem State.setSlice_logSeq (s : State) (d k : Nat) (v : Slice) : (s.setSlice d k v).logSeq = s.logSeq := rfl
@[simp] theorem State.setSlice_acts (s : State) (d k : Nat) (v : Slice) : (s.setSlice d k v).acts = s.acts := rfl
@[simp] theorem State.setSlice_actNum (s : State) (d k : Nat) (v : Slice) : (s.setSlice d k v).actNum = s.actNum := rfl
@[simp] theorem State.setSlice_routes (s : State) (d k : Nat) (v : Slice) : (s.setSlice d k v).routes = s.routes := rfl
@[simp] theorem State.setSlice_imsic (s : State) (d k : Nat) (v : Slice) : (s.setSlice d k v).imsic = s.imsic := rfl
@[simp] theorem State.setSlice_trapTail (s : State) (d k : Nat) (v : Slice) : (s.setSlice d k v).trapTail = s.trapTail := rfl
@[simp] theorem State.setSlice_trapHead (s : State) (d k : Nat) (v : Slice) : (s.setSlice d k v).trapHead = s.trapHead := rfl
@[simp] theorem State.setSlice_trapWait (s : State) (d k : Nat) (v : Slice) : (s.setSlice d k v).trapWait = s.trapWait := rfl
@[simp] theorem State.setSlice_streams (s : State) (d k : Nat) (v : Slice) : (s.setSlice d k v).streams = s.streams := rfl
@[simp] theorem State.setSlice_launches (s : State) (d k : Nat) (v : Slice) : (s.setSlice d k v).launches = s.launches := rfl
@[simp] theorem State.setSlice_launchNum (s : State) (d k : Nat) (v : Slice) : (s.setSlice d k v).launchNum = s.launchNum := rfl
@[simp] theorem State.setSlice_tiles (s : State) (d k : Nat) (v : Slice) : (s.setSlice d k v).tiles = s.tiles := rfl
@[simp] theorem State.setSlice_heavy (s : State) (d k : Nat) (v : Slice) : (s.setSlice d k v).heavy = s.heavy := rfl
@[simp] theorem State.setSlice_serial (s : State) (d k : Nat) (v : Slice) : (s.setSlice d k v).serial = s.serial := rfl
@[simp] theorem State.setSlice_landing (s : State) (d k : Nat) (v : Slice) : (s.setSlice d k v).landing = s.landing := rfl
@[simp] theorem State.setSlice_dram (s : State) (d k : Nat) (v : Slice) : (s.setSlice d k v).dram = s.dram := rfl
@[simp] theorem State.setSlice_reqs (s : State) (d k : Nat) (v : Slice) : (s.setSlice d k v).reqs = s.reqs := rfl
@[simp] theorem State.setSlice_reqNum (s : State) (d k : Nat) (v : Slice) : (s.setSlice d k v).reqNum = s.reqNum := rfl
@[simp] theorem State.setSlice_ansNum (s : State) (d k : Nat) (v : Slice) : (s.setSlice d k v).ansNum = s.ansNum := rfl
@[simp] theorem State.setSlice_msgs (s : State) (d k : Nat) (v : Slice) : (s.setSlice d k v).msgs = s.msgs := rfl
@[simp] theorem State.setSlice_agents (s : State) (d k : Nat) (v : Slice) : (s.setSlice d k v).agents = s.agents := rfl
@[simp] theorem State.setSlice_dead (s : State) (d k : Nat) (v : Slice) : (s.setSlice d k v).dead = s.dead := rfl
@[simp] theorem State.setSlice_notices (s : State) (d k : Nat) (v : Slice) : (s.setSlice d k v).notices = s.notices := rfl
@[simp] theorem State.setSlice_rejoin (s : State) (d k : Nat) (v : Slice) : (s.setSlice d k v).rejoin = s.rejoin := rfl
@[simp] theorem State.setSlice_reclaimed (s : State) (d k : Nat) (v : Slice) : (s.setSlice d k v).reclaimed = s.reclaimed := rfl
@[simp] theorem State.setSlice_beats (s : State) (d k : Nat) (v : Slice) : (s.setSlice d k v).beats = s.beats := rfl
@[simp] theorem State.setSlice_host (s : State) (d k : Nat) (v : Slice) : (s.setSlice d k v).host = s.host := rfl
@[simp] theorem State.setSlice_hostBusy (s : State) (d k : Nat) (v : Slice) : (s.setSlice d k v).hostBusy = s.hostBusy := rfl
@[simp] theorem State.setSlice_hostQ (s : State) (d k : Nat) (v : Slice) : (s.setSlice d k v).hostQ = s.hostQ := rfl
@[simp] theorem State.setSlice_snoopQ (s : State) (d k : Nat) (v : Slice) : (s.setSlice d k v).snoopQ = s.snoopQ := rfl
@[simp] theorem State.setSlice_snoopIn (s : State) (d k : Nat) (v : Slice) : (s.setSlice d k v).snoopIn = s.snoopIn := rfl
@[simp] theorem State.setSlice_hostOut (s : State) (d k : Nat) (v : Slice) : (s.setSlice d k v).hostOut = s.hostOut := rfl
@[simp] theorem State.setSlice_xlt (s : State) (d k : Nat) (v : Slice) : (s.setSlice d k v).xlt = s.xlt := rfl
@[simp] theorem State.setSlice_chans (s : State) (d k : Nat) (v : Slice) : (s.setSlice d k v).chans = s.chans := rfl
@[simp] theorem State.setSlice_remap (s : State) (d k : Nat) (v : Slice) : (s.setSlice d k v).remap = s.remap := rfl
@[simp] theorem State.setSlice_hbm (s : State) (d k : Nat) (v : Slice) : (s.setSlice d k v).hbm = s.hbm := rfl
@[simp] theorem State.setSlice_tmax (s : State) (d k : Nat) (v : Slice) : (s.setSlice d k v).tmax = s.tmax := rfl
@[simp] theorem State.setSlice_cols (s : State) (d k : Nat) (v : Slice) : (s.setSlice d k v).cols = s.cols := rfl
@[simp] theorem State.setSlice_tokens (s : State) (d k : Nat) (v : Slice) : (s.setSlice d k v).tokens = s.tokens := rfl
@[simp] theorem State.setSlice_held (s : State) (d k : Nat) (v : Slice) : (s.setSlice d k v).held = s.held := rfl
@[simp] theorem State.setSlice_asks (s : State) (d k : Nat) (v : Slice) : (s.setSlice d k v).asks = s.asks := rfl
@[simp] theorem State.setSlice_colSat (s : State) (d k : Nat) (v : Slice) : (s.setSlice d k v).colSat = s.colSat := rfl
@[simp] theorem State.setSlice_links (s : State) (d k : Nat) (v : Slice) : (s.setSlice d k v).links = s.links := rfl
@[simp] theorem State.setSlice_rdgRoute (s : State) (d k : Nat) (v : Slice) : (s.setSlice d k v).rdgRoute = s.rdgRoute := rfl
@[simp] theorem State.setSlice_rdgWin (s : State) (d k : Nat) (v : Slice) : (s.setSlice d k v).rdgWin = s.rdgWin := rfl
@[simp] theorem State.setSlice_plans (s : State) (d k : Nat) (v : Slice) : (s.setSlice d k v).plans = s.plans := rfl
@[simp] theorem State.setSlice_holds (s : State) (d k : Nat) (v : Slice) : (s.setSlice d k v).holds = s.holds := rfl
@[simp] theorem State.setSlice_chunkOut (s : State) (d k : Nat) (v : Slice) : (s.setSlice d k v).chunkOut = s.chunkOut := rfl
@[simp] theorem State.setSlice_chunkRsp (s : State) (d k : Nat) (v : Slice) : (s.setSlice d k v).chunkRsp = s.chunkRsp := rfl
@[simp] theorem State.setSlice_bcasts (s : State) (d k : Nat) (v : Slice) : (s.setSlice d k v).bcasts = s.bcasts := rfl
@[simp] theorem State.setSlice_bcOut (s : State) (d k : Nat) (v : Slice) : (s.setSlice d k v).bcOut = s.bcOut := rfl
@[simp] theorem State.setSlice_starts (s : State) (d k : Nat) (v : Slice) : (s.setSlice d k v).starts = s.starts := rfl
@[simp] theorem State.setSlice_rdgIn (s : State) (d k : Nat) (v : Slice) : (s.setSlice d k v).rdgIn = s.rdgIn := rfl
@[simp] theorem State.setSlice_rdgOut (s : State) (d k : Nat) (v : Slice) : (s.setSlice d k v).rdgOut = s.rdgOut := rfl
@[simp] theorem State.setSlice_power (s : State) (d k : Nat) (v : Slice) : (s.setSlice d k v).power = s.power := rfl
@[simp] theorem State.setSlice_fb (s : State) (d k : Nat) (v : Slice) : (s.setSlice d k v).fb = s.fb := rfl
@[simp] theorem State.setSlice_cores (s : State) (d k : Nat) (v : Slice) : (s.setSlice d k v).cores = s.cores := rfl
@[simp] theorem State.setSlice_dbgUnit (s : State) (d k : Nat) (v : Slice) : (s.setSlice d k v).dbgUnit = s.dbgUnit := rfl
@[simp] theorem State.setSlice_jtag (s : State) (d k : Nat) (v : Slice) : (s.setSlice d k v).jtag = s.jtag := rfl
@[simp] theorem State.setSlice_fresh (s : State) (d k : Nat) (v : Slice) : (s.setSlice d k v).fresh = s.fresh := rfl

/-! Fields that `State.setCrew` keeps. -/

@[simp] theorem State.setCrew_pending (s : State) (c : CrewId) (v : Crew) : (s.setCrew c v).pending = s.pending := rfl
@[simp] theorem State.setCrew_plat (s : State) (c : CrewId) (v : Crew) : (s.setCrew c v).plat = s.plat := rfl
@[simp] theorem State.setCrew_fuses (s : State) (c : CrewId) (v : Crew) : (s.setCrew c v).fuses = s.fuses := rfl
@[simp] theorem State.setCrew_portH (s : State) (c : CrewId) (v : Crew) : (s.setCrew c v).portH = s.portH := rfl
@[simp] theorem State.setCrew_portB (s : State) (c : CrewId) (v : Crew) : (s.setCrew c v).portB = s.portB := rfl
@[simp] theorem State.setCrew_portN (s : State) (c : CrewId) (v : Crew) : (s.setCrew c v).portN = s.portN := rfl
@[simp] theorem State.setCrew_cfg (s : State) (c : CrewId) (v : Crew) : (s.setCrew c v).cfg = s.cfg := rfl
@[simp] theorem State.setCrew_cairn (s : State) (c : CrewId) (v : Crew) : (s.setCrew c v).cairn = s.cairn := rfl
@[simp] theorem State.setCrew_time (s : State) (c : CrewId) (v : Crew) : (s.setCrew c v).time = s.time := rfl
@[simp] theorem State.setCrew_tally (s : State) (c : CrewId) (v : Crew) : (s.setCrew c v).tally = s.tally := rfl
@[simp] theorem State.setCrew_log (s : State) (c : CrewId) (v : Crew) : (s.setCrew c v).log = s.log := rfl
@[simp] theorem State.setCrew_logSeq (s : State) (c : CrewId) (v : Crew) : (s.setCrew c v).logSeq = s.logSeq := rfl
@[simp] theorem State.setCrew_acts (s : State) (c : CrewId) (v : Crew) : (s.setCrew c v).acts = s.acts := rfl
@[simp] theorem State.setCrew_actNum (s : State) (c : CrewId) (v : Crew) : (s.setCrew c v).actNum = s.actNum := rfl
@[simp] theorem State.setCrew_routes (s : State) (c : CrewId) (v : Crew) : (s.setCrew c v).routes = s.routes := rfl
@[simp] theorem State.setCrew_imsic (s : State) (c : CrewId) (v : Crew) : (s.setCrew c v).imsic = s.imsic := rfl
@[simp] theorem State.setCrew_trapTail (s : State) (c : CrewId) (v : Crew) : (s.setCrew c v).trapTail = s.trapTail := rfl
@[simp] theorem State.setCrew_trapHead (s : State) (c : CrewId) (v : Crew) : (s.setCrew c v).trapHead = s.trapHead := rfl
@[simp] theorem State.setCrew_trapWait (s : State) (c : CrewId) (v : Crew) : (s.setCrew c v).trapWait = s.trapWait := rfl
@[simp] theorem State.setCrew_streams (s : State) (c : CrewId) (v : Crew) : (s.setCrew c v).streams = s.streams := rfl
@[simp] theorem State.setCrew_launches (s : State) (c : CrewId) (v : Crew) : (s.setCrew c v).launches = s.launches := rfl
@[simp] theorem State.setCrew_launchNum (s : State) (c : CrewId) (v : Crew) : (s.setCrew c v).launchNum = s.launchNum := rfl
@[simp] theorem State.setCrew_heavy (s : State) (c : CrewId) (v : Crew) : (s.setCrew c v).heavy = s.heavy := rfl
@[simp] theorem State.setCrew_serial (s : State) (c : CrewId) (v : Crew) : (s.setCrew c v).serial = s.serial := rfl
@[simp] theorem State.setCrew_landing (s : State) (c : CrewId) (v : Crew) : (s.setCrew c v).landing = s.landing := rfl
@[simp] theorem State.setCrew_dram (s : State) (c : CrewId) (v : Crew) : (s.setCrew c v).dram = s.dram := rfl
@[simp] theorem State.setCrew_reqs (s : State) (c : CrewId) (v : Crew) : (s.setCrew c v).reqs = s.reqs := rfl
@[simp] theorem State.setCrew_reqNum (s : State) (c : CrewId) (v : Crew) : (s.setCrew c v).reqNum = s.reqNum := rfl
@[simp] theorem State.setCrew_ansNum (s : State) (c : CrewId) (v : Crew) : (s.setCrew c v).ansNum = s.ansNum := rfl
@[simp] theorem State.setCrew_slices (s : State) (c : CrewId) (v : Crew) : (s.setCrew c v).slices = s.slices := rfl
@[simp] theorem State.setCrew_msgs (s : State) (c : CrewId) (v : Crew) : (s.setCrew c v).msgs = s.msgs := rfl
@[simp] theorem State.setCrew_agents (s : State) (c : CrewId) (v : Crew) : (s.setCrew c v).agents = s.agents := rfl
@[simp] theorem State.setCrew_dead (s : State) (c : CrewId) (v : Crew) : (s.setCrew c v).dead = s.dead := rfl
@[simp] theorem State.setCrew_notices (s : State) (c : CrewId) (v : Crew) : (s.setCrew c v).notices = s.notices := rfl
@[simp] theorem State.setCrew_rejoin (s : State) (c : CrewId) (v : Crew) : (s.setCrew c v).rejoin = s.rejoin := rfl
@[simp] theorem State.setCrew_reclaimed (s : State) (c : CrewId) (v : Crew) : (s.setCrew c v).reclaimed = s.reclaimed := rfl
@[simp] theorem State.setCrew_beats (s : State) (c : CrewId) (v : Crew) : (s.setCrew c v).beats = s.beats := rfl
@[simp] theorem State.setCrew_host (s : State) (c : CrewId) (v : Crew) : (s.setCrew c v).host = s.host := rfl
@[simp] theorem State.setCrew_hostBusy (s : State) (c : CrewId) (v : Crew) : (s.setCrew c v).hostBusy = s.hostBusy := rfl
@[simp] theorem State.setCrew_hostQ (s : State) (c : CrewId) (v : Crew) : (s.setCrew c v).hostQ = s.hostQ := rfl
@[simp] theorem State.setCrew_snoopQ (s : State) (c : CrewId) (v : Crew) : (s.setCrew c v).snoopQ = s.snoopQ := rfl
@[simp] theorem State.setCrew_snoopIn (s : State) (c : CrewId) (v : Crew) : (s.setCrew c v).snoopIn = s.snoopIn := rfl
@[simp] theorem State.setCrew_hostOut (s : State) (c : CrewId) (v : Crew) : (s.setCrew c v).hostOut = s.hostOut := rfl
@[simp] theorem State.setCrew_xlt (s : State) (c : CrewId) (v : Crew) : (s.setCrew c v).xlt = s.xlt := rfl
@[simp] theorem State.setCrew_chans (s : State) (c : CrewId) (v : Crew) : (s.setCrew c v).chans = s.chans := rfl
@[simp] theorem State.setCrew_remap (s : State) (c : CrewId) (v : Crew) : (s.setCrew c v).remap = s.remap := rfl
@[simp] theorem State.setCrew_hbm (s : State) (c : CrewId) (v : Crew) : (s.setCrew c v).hbm = s.hbm := rfl
@[simp] theorem State.setCrew_tmax (s : State) (c : CrewId) (v : Crew) : (s.setCrew c v).tmax = s.tmax := rfl
@[simp] theorem State.setCrew_cols (s : State) (c : CrewId) (v : Crew) : (s.setCrew c v).cols = s.cols := rfl
@[simp] theorem State.setCrew_tokens (s : State) (c : CrewId) (v : Crew) : (s.setCrew c v).tokens = s.tokens := rfl
@[simp] theorem State.setCrew_held (s : State) (c : CrewId) (v : Crew) : (s.setCrew c v).held = s.held := rfl
@[simp] theorem State.setCrew_asks (s : State) (c : CrewId) (v : Crew) : (s.setCrew c v).asks = s.asks := rfl
@[simp] theorem State.setCrew_colSat (s : State) (c : CrewId) (v : Crew) : (s.setCrew c v).colSat = s.colSat := rfl
@[simp] theorem State.setCrew_links (s : State) (c : CrewId) (v : Crew) : (s.setCrew c v).links = s.links := rfl
@[simp] theorem State.setCrew_rdgRoute (s : State) (c : CrewId) (v : Crew) : (s.setCrew c v).rdgRoute = s.rdgRoute := rfl
@[simp] theorem State.setCrew_rdgWin (s : State) (c : CrewId) (v : Crew) : (s.setCrew c v).rdgWin = s.rdgWin := rfl
@[simp] theorem State.setCrew_plans (s : State) (c : CrewId) (v : Crew) : (s.setCrew c v).plans = s.plans := rfl
@[simp] theorem State.setCrew_holds (s : State) (c : CrewId) (v : Crew) : (s.setCrew c v).holds = s.holds := rfl
@[simp] theorem State.setCrew_chunkOut (s : State) (c : CrewId) (v : Crew) : (s.setCrew c v).chunkOut = s.chunkOut := rfl
@[simp] theorem State.setCrew_chunkRsp (s : State) (c : CrewId) (v : Crew) : (s.setCrew c v).chunkRsp = s.chunkRsp := rfl
@[simp] theorem State.setCrew_bcasts (s : State) (c : CrewId) (v : Crew) : (s.setCrew c v).bcasts = s.bcasts := rfl
@[simp] theorem State.setCrew_bcOut (s : State) (c : CrewId) (v : Crew) : (s.setCrew c v).bcOut = s.bcOut := rfl
@[simp] theorem State.setCrew_starts (s : State) (c : CrewId) (v : Crew) : (s.setCrew c v).starts = s.starts := rfl
@[simp] theorem State.setCrew_rdgIn (s : State) (c : CrewId) (v : Crew) : (s.setCrew c v).rdgIn = s.rdgIn := rfl
@[simp] theorem State.setCrew_rdgOut (s : State) (c : CrewId) (v : Crew) : (s.setCrew c v).rdgOut = s.rdgOut := rfl
@[simp] theorem State.setCrew_power (s : State) (c : CrewId) (v : Crew) : (s.setCrew c v).power = s.power := rfl
@[simp] theorem State.setCrew_fb (s : State) (c : CrewId) (v : Crew) : (s.setCrew c v).fb = s.fb := rfl
@[simp] theorem State.setCrew_cores (s : State) (c : CrewId) (v : Crew) : (s.setCrew c v).cores = s.cores := rfl
@[simp] theorem State.setCrew_dbgUnit (s : State) (c : CrewId) (v : Crew) : (s.setCrew c v).dbgUnit = s.dbgUnit := rfl
@[simp] theorem State.setCrew_jtag (s : State) (c : CrewId) (v : Crew) : (s.setCrew c v).jtag = s.jtag := rfl
@[simp] theorem State.setCrew_fresh (s : State) (c : CrewId) (v : Crew) : (s.setCrew c v).fresh = s.fresh := rfl

/-! Fields that `State.setReq` keeps. -/

@[simp] theorem State.setReq_pending (s : State) (r : Req) : (s.setReq r).pending = s.pending := rfl
@[simp] theorem State.setReq_plat (s : State) (r : Req) : (s.setReq r).plat = s.plat := rfl
@[simp] theorem State.setReq_fuses (s : State) (r : Req) : (s.setReq r).fuses = s.fuses := rfl
@[simp] theorem State.setReq_portH (s : State) (r : Req) : (s.setReq r).portH = s.portH := rfl
@[simp] theorem State.setReq_portB (s : State) (r : Req) : (s.setReq r).portB = s.portB := rfl
@[simp] theorem State.setReq_portN (s : State) (r : Req) : (s.setReq r).portN = s.portN := rfl
@[simp] theorem State.setReq_cfg (s : State) (r : Req) : (s.setReq r).cfg = s.cfg := rfl
@[simp] theorem State.setReq_cairn (s : State) (r : Req) : (s.setReq r).cairn = s.cairn := rfl
@[simp] theorem State.setReq_time (s : State) (r : Req) : (s.setReq r).time = s.time := rfl
@[simp] theorem State.setReq_tally (s : State) (r : Req) : (s.setReq r).tally = s.tally := rfl
@[simp] theorem State.setReq_log (s : State) (r : Req) : (s.setReq r).log = s.log := rfl
@[simp] theorem State.setReq_logSeq (s : State) (r : Req) : (s.setReq r).logSeq = s.logSeq := rfl
@[simp] theorem State.setReq_acts (s : State) (r : Req) : (s.setReq r).acts = s.acts := rfl
@[simp] theorem State.setReq_actNum (s : State) (r : Req) : (s.setReq r).actNum = s.actNum := rfl
@[simp] theorem State.setReq_routes (s : State) (r : Req) : (s.setReq r).routes = s.routes := rfl
@[simp] theorem State.setReq_imsic (s : State) (r : Req) : (s.setReq r).imsic = s.imsic := rfl
@[simp] theorem State.setReq_trapTail (s : State) (r : Req) : (s.setReq r).trapTail = s.trapTail := rfl
@[simp] theorem State.setReq_trapHead (s : State) (r : Req) : (s.setReq r).trapHead = s.trapHead := rfl
@[simp] theorem State.setReq_trapWait (s : State) (r : Req) : (s.setReq r).trapWait = s.trapWait := rfl
@[simp] theorem State.setReq_streams (s : State) (r : Req) : (s.setReq r).streams = s.streams := rfl
@[simp] theorem State.setReq_launches (s : State) (r : Req) : (s.setReq r).launches = s.launches := rfl
@[simp] theorem State.setReq_launchNum (s : State) (r : Req) : (s.setReq r).launchNum = s.launchNum := rfl
@[simp] theorem State.setReq_tiles (s : State) (r : Req) : (s.setReq r).tiles = s.tiles := rfl
@[simp] theorem State.setReq_heavy (s : State) (r : Req) : (s.setReq r).heavy = s.heavy := rfl
@[simp] theorem State.setReq_serial (s : State) (r : Req) : (s.setReq r).serial = s.serial := rfl
@[simp] theorem State.setReq_landing (s : State) (r : Req) : (s.setReq r).landing = s.landing := rfl
@[simp] theorem State.setReq_dram (s : State) (r : Req) : (s.setReq r).dram = s.dram := rfl
@[simp] theorem State.setReq_reqNum (s : State) (r : Req) : (s.setReq r).reqNum = s.reqNum := rfl
@[simp] theorem State.setReq_ansNum (s : State) (r : Req) : (s.setReq r).ansNum = s.ansNum := rfl
@[simp] theorem State.setReq_slices (s : State) (r : Req) : (s.setReq r).slices = s.slices := rfl
@[simp] theorem State.setReq_msgs (s : State) (r : Req) : (s.setReq r).msgs = s.msgs := rfl
@[simp] theorem State.setReq_agents (s : State) (r : Req) : (s.setReq r).agents = s.agents := rfl
@[simp] theorem State.setReq_dead (s : State) (r : Req) : (s.setReq r).dead = s.dead := rfl
@[simp] theorem State.setReq_notices (s : State) (r : Req) : (s.setReq r).notices = s.notices := rfl
@[simp] theorem State.setReq_rejoin (s : State) (r : Req) : (s.setReq r).rejoin = s.rejoin := rfl
@[simp] theorem State.setReq_reclaimed (s : State) (r : Req) : (s.setReq r).reclaimed = s.reclaimed := rfl
@[simp] theorem State.setReq_beats (s : State) (r : Req) : (s.setReq r).beats = s.beats := rfl
@[simp] theorem State.setReq_host (s : State) (r : Req) : (s.setReq r).host = s.host := rfl
@[simp] theorem State.setReq_hostBusy (s : State) (r : Req) : (s.setReq r).hostBusy = s.hostBusy := rfl
@[simp] theorem State.setReq_hostQ (s : State) (r : Req) : (s.setReq r).hostQ = s.hostQ := rfl
@[simp] theorem State.setReq_snoopQ (s : State) (r : Req) : (s.setReq r).snoopQ = s.snoopQ := rfl
@[simp] theorem State.setReq_snoopIn (s : State) (r : Req) : (s.setReq r).snoopIn = s.snoopIn := rfl
@[simp] theorem State.setReq_hostOut (s : State) (r : Req) : (s.setReq r).hostOut = s.hostOut := rfl
@[simp] theorem State.setReq_xlt (s : State) (r : Req) : (s.setReq r).xlt = s.xlt := rfl
@[simp] theorem State.setReq_chans (s : State) (r : Req) : (s.setReq r).chans = s.chans := rfl
@[simp] theorem State.setReq_remap (s : State) (r : Req) : (s.setReq r).remap = s.remap := rfl
@[simp] theorem State.setReq_hbm (s : State) (r : Req) : (s.setReq r).hbm = s.hbm := rfl
@[simp] theorem State.setReq_tmax (s : State) (r : Req) : (s.setReq r).tmax = s.tmax := rfl
@[simp] theorem State.setReq_cols (s : State) (r : Req) : (s.setReq r).cols = s.cols := rfl
@[simp] theorem State.setReq_tokens (s : State) (r : Req) : (s.setReq r).tokens = s.tokens := rfl
@[simp] theorem State.setReq_held (s : State) (r : Req) : (s.setReq r).held = s.held := rfl
@[simp] theorem State.setReq_asks (s : State) (r : Req) : (s.setReq r).asks = s.asks := rfl
@[simp] theorem State.setReq_colSat (s : State) (r : Req) : (s.setReq r).colSat = s.colSat := rfl
@[simp] theorem State.setReq_links (s : State) (r : Req) : (s.setReq r).links = s.links := rfl
@[simp] theorem State.setReq_rdgRoute (s : State) (r : Req) : (s.setReq r).rdgRoute = s.rdgRoute := rfl
@[simp] theorem State.setReq_rdgWin (s : State) (r : Req) : (s.setReq r).rdgWin = s.rdgWin := rfl
@[simp] theorem State.setReq_plans (s : State) (r : Req) : (s.setReq r).plans = s.plans := rfl
@[simp] theorem State.setReq_holds (s : State) (r : Req) : (s.setReq r).holds = s.holds := rfl
@[simp] theorem State.setReq_chunkOut (s : State) (r : Req) : (s.setReq r).chunkOut = s.chunkOut := rfl
@[simp] theorem State.setReq_chunkRsp (s : State) (r : Req) : (s.setReq r).chunkRsp = s.chunkRsp := rfl
@[simp] theorem State.setReq_bcasts (s : State) (r : Req) : (s.setReq r).bcasts = s.bcasts := rfl
@[simp] theorem State.setReq_bcOut (s : State) (r : Req) : (s.setReq r).bcOut = s.bcOut := rfl
@[simp] theorem State.setReq_starts (s : State) (r : Req) : (s.setReq r).starts = s.starts := rfl
@[simp] theorem State.setReq_rdgIn (s : State) (r : Req) : (s.setReq r).rdgIn = s.rdgIn := rfl
@[simp] theorem State.setReq_rdgOut (s : State) (r : Req) : (s.setReq r).rdgOut = s.rdgOut := rfl
@[simp] theorem State.setReq_power (s : State) (r : Req) : (s.setReq r).power = s.power := rfl
@[simp] theorem State.setReq_fb (s : State) (r : Req) : (s.setReq r).fb = s.fb := rfl
@[simp] theorem State.setReq_cores (s : State) (r : Req) : (s.setReq r).cores = s.cores := rfl
@[simp] theorem State.setReq_dbgUnit (s : State) (r : Req) : (s.setReq r).dbgUnit = s.dbgUnit := rfl
@[simp] theorem State.setReq_jtag (s : State) (r : Req) : (s.setReq r).jtag = s.jtag := rfl
@[simp] theorem State.setReq_fresh (s : State) (r : Req) : (s.setReq r).fresh = s.fresh := rfl

/-! Fields that `State.drawn` keeps. -/

@[simp] theorem State.drawn_pending (s : State) : (s.drawn).pending = s.pending := rfl
@[simp] theorem State.drawn_plat (s : State) : (s.drawn).plat = s.plat := rfl
@[simp] theorem State.drawn_fuses (s : State) : (s.drawn).fuses = s.fuses := rfl
@[simp] theorem State.drawn_portH (s : State) : (s.drawn).portH = s.portH := rfl
@[simp] theorem State.drawn_portB (s : State) : (s.drawn).portB = s.portB := rfl
@[simp] theorem State.drawn_portN (s : State) : (s.drawn).portN = s.portN := rfl
@[simp] theorem State.drawn_cfg (s : State) : (s.drawn).cfg = s.cfg := rfl
@[simp] theorem State.drawn_cairn (s : State) : (s.drawn).cairn = s.cairn := rfl
@[simp] theorem State.drawn_time (s : State) : (s.drawn).time = s.time := rfl
@[simp] theorem State.drawn_tally (s : State) : (s.drawn).tally = s.tally := rfl
@[simp] theorem State.drawn_log (s : State) : (s.drawn).log = s.log := rfl
@[simp] theorem State.drawn_logSeq (s : State) : (s.drawn).logSeq = s.logSeq := rfl
@[simp] theorem State.drawn_acts (s : State) : (s.drawn).acts = s.acts := rfl
@[simp] theorem State.drawn_actNum (s : State) : (s.drawn).actNum = s.actNum := rfl
@[simp] theorem State.drawn_routes (s : State) : (s.drawn).routes = s.routes := rfl
@[simp] theorem State.drawn_imsic (s : State) : (s.drawn).imsic = s.imsic := rfl
@[simp] theorem State.drawn_trapTail (s : State) : (s.drawn).trapTail = s.trapTail := rfl
@[simp] theorem State.drawn_trapHead (s : State) : (s.drawn).trapHead = s.trapHead := rfl
@[simp] theorem State.drawn_trapWait (s : State) : (s.drawn).trapWait = s.trapWait := rfl
@[simp] theorem State.drawn_streams (s : State) : (s.drawn).streams = s.streams := rfl
@[simp] theorem State.drawn_launches (s : State) : (s.drawn).launches = s.launches := rfl
@[simp] theorem State.drawn_launchNum (s : State) : (s.drawn).launchNum = s.launchNum := rfl
@[simp] theorem State.drawn_tiles (s : State) : (s.drawn).tiles = s.tiles := rfl
@[simp] theorem State.drawn_heavy (s : State) : (s.drawn).heavy = s.heavy := rfl
@[simp] theorem State.drawn_serial (s : State) : (s.drawn).serial = s.serial := rfl
@[simp] theorem State.drawn_landing (s : State) : (s.drawn).landing = s.landing := rfl
@[simp] theorem State.drawn_dram (s : State) : (s.drawn).dram = s.dram := rfl
@[simp] theorem State.drawn_reqs (s : State) : (s.drawn).reqs = s.reqs := rfl
@[simp] theorem State.drawn_reqNum (s : State) : (s.drawn).reqNum = s.reqNum := rfl
@[simp] theorem State.drawn_ansNum (s : State) : (s.drawn).ansNum = s.ansNum := rfl
@[simp] theorem State.drawn_slices (s : State) : (s.drawn).slices = s.slices := rfl
@[simp] theorem State.drawn_msgs (s : State) : (s.drawn).msgs = s.msgs := rfl
@[simp] theorem State.drawn_agents (s : State) : (s.drawn).agents = s.agents := rfl
@[simp] theorem State.drawn_dead (s : State) : (s.drawn).dead = s.dead := rfl
@[simp] theorem State.drawn_notices (s : State) : (s.drawn).notices = s.notices := rfl
@[simp] theorem State.drawn_rejoin (s : State) : (s.drawn).rejoin = s.rejoin := rfl
@[simp] theorem State.drawn_reclaimed (s : State) : (s.drawn).reclaimed = s.reclaimed := rfl
@[simp] theorem State.drawn_beats (s : State) : (s.drawn).beats = s.beats := rfl
@[simp] theorem State.drawn_host (s : State) : (s.drawn).host = s.host := rfl
@[simp] theorem State.drawn_hostBusy (s : State) : (s.drawn).hostBusy = s.hostBusy := rfl
@[simp] theorem State.drawn_hostQ (s : State) : (s.drawn).hostQ = s.hostQ := rfl
@[simp] theorem State.drawn_snoopQ (s : State) : (s.drawn).snoopQ = s.snoopQ := rfl
@[simp] theorem State.drawn_snoopIn (s : State) : (s.drawn).snoopIn = s.snoopIn := rfl
@[simp] theorem State.drawn_hostOut (s : State) : (s.drawn).hostOut = s.hostOut := rfl
@[simp] theorem State.drawn_xlt (s : State) : (s.drawn).xlt = s.xlt := rfl
@[simp] theorem State.drawn_chans (s : State) : (s.drawn).chans = s.chans := rfl
@[simp] theorem State.drawn_remap (s : State) : (s.drawn).remap = s.remap := rfl
@[simp] theorem State.drawn_hbm (s : State) : (s.drawn).hbm = s.hbm := rfl
@[simp] theorem State.drawn_tmax (s : State) : (s.drawn).tmax = s.tmax := rfl
@[simp] theorem State.drawn_cols (s : State) : (s.drawn).cols = s.cols := rfl
@[simp] theorem State.drawn_tokens (s : State) : (s.drawn).tokens = s.tokens := rfl
@[simp] theorem State.drawn_held (s : State) : (s.drawn).held = s.held := rfl
@[simp] theorem State.drawn_asks (s : State) : (s.drawn).asks = s.asks := rfl
@[simp] theorem State.drawn_colSat (s : State) : (s.drawn).colSat = s.colSat := rfl
@[simp] theorem State.drawn_links (s : State) : (s.drawn).links = s.links := rfl
@[simp] theorem State.drawn_rdgRoute (s : State) : (s.drawn).rdgRoute = s.rdgRoute := rfl
@[simp] theorem State.drawn_rdgWin (s : State) : (s.drawn).rdgWin = s.rdgWin := rfl
@[simp] theorem State.drawn_plans (s : State) : (s.drawn).plans = s.plans := rfl
@[simp] theorem State.drawn_holds (s : State) : (s.drawn).holds = s.holds := rfl
@[simp] theorem State.drawn_chunkOut (s : State) : (s.drawn).chunkOut = s.chunkOut := rfl
@[simp] theorem State.drawn_chunkRsp (s : State) : (s.drawn).chunkRsp = s.chunkRsp := rfl
@[simp] theorem State.drawn_bcasts (s : State) : (s.drawn).bcasts = s.bcasts := rfl
@[simp] theorem State.drawn_bcOut (s : State) : (s.drawn).bcOut = s.bcOut := rfl
@[simp] theorem State.drawn_starts (s : State) : (s.drawn).starts = s.starts := rfl
@[simp] theorem State.drawn_rdgIn (s : State) : (s.drawn).rdgIn = s.rdgIn := rfl
@[simp] theorem State.drawn_rdgOut (s : State) : (s.drawn).rdgOut = s.rdgOut := rfl
@[simp] theorem State.drawn_power (s : State) : (s.drawn).power = s.power := rfl
@[simp] theorem State.drawn_fb (s : State) : (s.drawn).fb = s.fb := rfl
@[simp] theorem State.drawn_cores (s : State) : (s.drawn).cores = s.cores := rfl
@[simp] theorem State.drawn_dbgUnit (s : State) : (s.drawn).dbgUnit = s.dbgUnit := rfl
@[simp] theorem State.drawn_jtag (s : State) : (s.drawn).jtag = s.jtag := rfl

/-! Fields that `State.level` keeps. -/

@[simp] theorem State.level_pending (s : State) (k : Nat) (v : Int) : (s.level k v).pending = s.pending := rfl
@[simp] theorem State.level_plat (s : State) (k : Nat) (v : Int) : (s.level k v).plat = s.plat := rfl
@[simp] theorem State.level_fuses (s : State) (k : Nat) (v : Int) : (s.level k v).fuses = s.fuses := rfl
@[simp] theorem State.level_portH (s : State) (k : Nat) (v : Int) : (s.level k v).portH = s.portH := rfl
@[simp] theorem State.level_portB (s : State) (k : Nat) (v : Int) : (s.level k v).portB = s.portB := rfl
@[simp] theorem State.level_portN (s : State) (k : Nat) (v : Int) : (s.level k v).portN = s.portN := rfl
@[simp] theorem State.level_cfg (s : State) (k : Nat) (v : Int) : (s.level k v).cfg = s.cfg := rfl
@[simp] theorem State.level_cairn (s : State) (k : Nat) (v : Int) : (s.level k v).cairn = s.cairn := rfl
@[simp] theorem State.level_time (s : State) (k : Nat) (v : Int) : (s.level k v).time = s.time := rfl
@[simp] theorem State.level_log (s : State) (k : Nat) (v : Int) : (s.level k v).log = s.log := rfl
@[simp] theorem State.level_logSeq (s : State) (k : Nat) (v : Int) : (s.level k v).logSeq = s.logSeq := rfl
@[simp] theorem State.level_acts (s : State) (k : Nat) (v : Int) : (s.level k v).acts = s.acts := rfl
@[simp] theorem State.level_actNum (s : State) (k : Nat) (v : Int) : (s.level k v).actNum = s.actNum := rfl
@[simp] theorem State.level_routes (s : State) (k : Nat) (v : Int) : (s.level k v).routes = s.routes := rfl
@[simp] theorem State.level_imsic (s : State) (k : Nat) (v : Int) : (s.level k v).imsic = s.imsic := rfl
@[simp] theorem State.level_trapTail (s : State) (k : Nat) (v : Int) : (s.level k v).trapTail = s.trapTail := rfl
@[simp] theorem State.level_trapHead (s : State) (k : Nat) (v : Int) : (s.level k v).trapHead = s.trapHead := rfl
@[simp] theorem State.level_trapWait (s : State) (k : Nat) (v : Int) : (s.level k v).trapWait = s.trapWait := rfl
@[simp] theorem State.level_streams (s : State) (k : Nat) (v : Int) : (s.level k v).streams = s.streams := rfl
@[simp] theorem State.level_launches (s : State) (k : Nat) (v : Int) : (s.level k v).launches = s.launches := rfl
@[simp] theorem State.level_launchNum (s : State) (k : Nat) (v : Int) : (s.level k v).launchNum = s.launchNum := rfl
@[simp] theorem State.level_tiles (s : State) (k : Nat) (v : Int) : (s.level k v).tiles = s.tiles := rfl
@[simp] theorem State.level_heavy (s : State) (k : Nat) (v : Int) : (s.level k v).heavy = s.heavy := rfl
@[simp] theorem State.level_serial (s : State) (k : Nat) (v : Int) : (s.level k v).serial = s.serial := rfl
@[simp] theorem State.level_landing (s : State) (k : Nat) (v : Int) : (s.level k v).landing = s.landing := rfl
@[simp] theorem State.level_dram (s : State) (k : Nat) (v : Int) : (s.level k v).dram = s.dram := rfl
@[simp] theorem State.level_reqs (s : State) (k : Nat) (v : Int) : (s.level k v).reqs = s.reqs := rfl
@[simp] theorem State.level_reqNum (s : State) (k : Nat) (v : Int) : (s.level k v).reqNum = s.reqNum := rfl
@[simp] theorem State.level_ansNum (s : State) (k : Nat) (v : Int) : (s.level k v).ansNum = s.ansNum := rfl
@[simp] theorem State.level_slices (s : State) (k : Nat) (v : Int) : (s.level k v).slices = s.slices := rfl
@[simp] theorem State.level_msgs (s : State) (k : Nat) (v : Int) : (s.level k v).msgs = s.msgs := rfl
@[simp] theorem State.level_agents (s : State) (k : Nat) (v : Int) : (s.level k v).agents = s.agents := rfl
@[simp] theorem State.level_dead (s : State) (k : Nat) (v : Int) : (s.level k v).dead = s.dead := rfl
@[simp] theorem State.level_notices (s : State) (k : Nat) (v : Int) : (s.level k v).notices = s.notices := rfl
@[simp] theorem State.level_rejoin (s : State) (k : Nat) (v : Int) : (s.level k v).rejoin = s.rejoin := rfl
@[simp] theorem State.level_reclaimed (s : State) (k : Nat) (v : Int) : (s.level k v).reclaimed = s.reclaimed := rfl
@[simp] theorem State.level_beats (s : State) (k : Nat) (v : Int) : (s.level k v).beats = s.beats := rfl
@[simp] theorem State.level_host (s : State) (k : Nat) (v : Int) : (s.level k v).host = s.host := rfl
@[simp] theorem State.level_hostBusy (s : State) (k : Nat) (v : Int) : (s.level k v).hostBusy = s.hostBusy := rfl
@[simp] theorem State.level_hostQ (s : State) (k : Nat) (v : Int) : (s.level k v).hostQ = s.hostQ := rfl
@[simp] theorem State.level_snoopQ (s : State) (k : Nat) (v : Int) : (s.level k v).snoopQ = s.snoopQ := rfl
@[simp] theorem State.level_snoopIn (s : State) (k : Nat) (v : Int) : (s.level k v).snoopIn = s.snoopIn := rfl
@[simp] theorem State.level_hostOut (s : State) (k : Nat) (v : Int) : (s.level k v).hostOut = s.hostOut := rfl
@[simp] theorem State.level_xlt (s : State) (k : Nat) (v : Int) : (s.level k v).xlt = s.xlt := rfl
@[simp] theorem State.level_chans (s : State) (k : Nat) (v : Int) : (s.level k v).chans = s.chans := rfl
@[simp] theorem State.level_remap (s : State) (k : Nat) (v : Int) : (s.level k v).remap = s.remap := rfl
@[simp] theorem State.level_hbm (s : State) (k : Nat) (v : Int) : (s.level k v).hbm = s.hbm := rfl
@[simp] theorem State.level_tmax (s : State) (k : Nat) (v : Int) : (s.level k v).tmax = s.tmax := rfl
@[simp] theorem State.level_cols (s : State) (k : Nat) (v : Int) : (s.level k v).cols = s.cols := rfl
@[simp] theorem State.level_tokens (s : State) (k : Nat) (v : Int) : (s.level k v).tokens = s.tokens := rfl
@[simp] theorem State.level_held (s : State) (k : Nat) (v : Int) : (s.level k v).held = s.held := rfl
@[simp] theorem State.level_asks (s : State) (k : Nat) (v : Int) : (s.level k v).asks = s.asks := rfl
@[simp] theorem State.level_colSat (s : State) (k : Nat) (v : Int) : (s.level k v).colSat = s.colSat := rfl
@[simp] theorem State.level_links (s : State) (k : Nat) (v : Int) : (s.level k v).links = s.links := rfl
@[simp] theorem State.level_rdgRoute (s : State) (k : Nat) (v : Int) : (s.level k v).rdgRoute = s.rdgRoute := rfl
@[simp] theorem State.level_rdgWin (s : State) (k : Nat) (v : Int) : (s.level k v).rdgWin = s.rdgWin := rfl
@[simp] theorem State.level_plans (s : State) (k : Nat) (v : Int) : (s.level k v).plans = s.plans := rfl
@[simp] theorem State.level_holds (s : State) (k : Nat) (v : Int) : (s.level k v).holds = s.holds := rfl
@[simp] theorem State.level_chunkOut (s : State) (k : Nat) (v : Int) : (s.level k v).chunkOut = s.chunkOut := rfl
@[simp] theorem State.level_chunkRsp (s : State) (k : Nat) (v : Int) : (s.level k v).chunkRsp = s.chunkRsp := rfl
@[simp] theorem State.level_bcasts (s : State) (k : Nat) (v : Int) : (s.level k v).bcasts = s.bcasts := rfl
@[simp] theorem State.level_bcOut (s : State) (k : Nat) (v : Int) : (s.level k v).bcOut = s.bcOut := rfl
@[simp] theorem State.level_starts (s : State) (k : Nat) (v : Int) : (s.level k v).starts = s.starts := rfl
@[simp] theorem State.level_rdgIn (s : State) (k : Nat) (v : Int) : (s.level k v).rdgIn = s.rdgIn := rfl
@[simp] theorem State.level_rdgOut (s : State) (k : Nat) (v : Int) : (s.level k v).rdgOut = s.rdgOut := rfl
@[simp] theorem State.level_power (s : State) (k : Nat) (v : Int) : (s.level k v).power = s.power := rfl
@[simp] theorem State.level_fb (s : State) (k : Nat) (v : Int) : (s.level k v).fb = s.fb := rfl
@[simp] theorem State.level_cores (s : State) (k : Nat) (v : Int) : (s.level k v).cores = s.cores := rfl
@[simp] theorem State.level_dbgUnit (s : State) (k : Nat) (v : Int) : (s.level k v).dbgUnit = s.dbgUnit := rfl
@[simp] theorem State.level_jtag (s : State) (k : Nat) (v : Int) : (s.level k v).jtag = s.jtag := rfl
@[simp] theorem State.level_fresh (s : State) (k : Nat) (v : Int) : (s.level k v).fresh = s.fresh := rfl

/-! Fields that `State.window` keeps. -/

@[simp] theorem State.window_pending (s : State) (row obj n : Nat) : (s.window row obj n).pending = s.pending := rfl
@[simp] theorem State.window_plat (s : State) (row obj n : Nat) : (s.window row obj n).plat = s.plat := rfl
@[simp] theorem State.window_fuses (s : State) (row obj n : Nat) : (s.window row obj n).fuses = s.fuses := rfl
@[simp] theorem State.window_portH (s : State) (row obj n : Nat) : (s.window row obj n).portH = s.portH := rfl
@[simp] theorem State.window_portB (s : State) (row obj n : Nat) : (s.window row obj n).portB = s.portB := rfl
@[simp] theorem State.window_portN (s : State) (row obj n : Nat) : (s.window row obj n).portN = s.portN := rfl
@[simp] theorem State.window_cfg (s : State) (row obj n : Nat) : (s.window row obj n).cfg = s.cfg := rfl
@[simp] theorem State.window_cairn (s : State) (row obj n : Nat) : (s.window row obj n).cairn = s.cairn := rfl
@[simp] theorem State.window_time (s : State) (row obj n : Nat) : (s.window row obj n).time = s.time := rfl
@[simp] theorem State.window_log (s : State) (row obj n : Nat) : (s.window row obj n).log = s.log := rfl
@[simp] theorem State.window_logSeq (s : State) (row obj n : Nat) : (s.window row obj n).logSeq = s.logSeq := rfl
@[simp] theorem State.window_acts (s : State) (row obj n : Nat) : (s.window row obj n).acts = s.acts := rfl
@[simp] theorem State.window_actNum (s : State) (row obj n : Nat) : (s.window row obj n).actNum = s.actNum := rfl
@[simp] theorem State.window_routes (s : State) (row obj n : Nat) : (s.window row obj n).routes = s.routes := rfl
@[simp] theorem State.window_imsic (s : State) (row obj n : Nat) : (s.window row obj n).imsic = s.imsic := rfl
@[simp] theorem State.window_trapTail (s : State) (row obj n : Nat) : (s.window row obj n).trapTail = s.trapTail := rfl
@[simp] theorem State.window_trapHead (s : State) (row obj n : Nat) : (s.window row obj n).trapHead = s.trapHead := rfl
@[simp] theorem State.window_trapWait (s : State) (row obj n : Nat) : (s.window row obj n).trapWait = s.trapWait := rfl
@[simp] theorem State.window_streams (s : State) (row obj n : Nat) : (s.window row obj n).streams = s.streams := rfl
@[simp] theorem State.window_launches (s : State) (row obj n : Nat) : (s.window row obj n).launches = s.launches := rfl
@[simp] theorem State.window_launchNum (s : State) (row obj n : Nat) : (s.window row obj n).launchNum = s.launchNum := rfl
@[simp] theorem State.window_tiles (s : State) (row obj n : Nat) : (s.window row obj n).tiles = s.tiles := rfl
@[simp] theorem State.window_heavy (s : State) (row obj n : Nat) : (s.window row obj n).heavy = s.heavy := rfl
@[simp] theorem State.window_serial (s : State) (row obj n : Nat) : (s.window row obj n).serial = s.serial := rfl
@[simp] theorem State.window_landing (s : State) (row obj n : Nat) : (s.window row obj n).landing = s.landing := rfl
@[simp] theorem State.window_dram (s : State) (row obj n : Nat) : (s.window row obj n).dram = s.dram := rfl
@[simp] theorem State.window_reqs (s : State) (row obj n : Nat) : (s.window row obj n).reqs = s.reqs := rfl
@[simp] theorem State.window_reqNum (s : State) (row obj n : Nat) : (s.window row obj n).reqNum = s.reqNum := rfl
@[simp] theorem State.window_ansNum (s : State) (row obj n : Nat) : (s.window row obj n).ansNum = s.ansNum := rfl
@[simp] theorem State.window_slices (s : State) (row obj n : Nat) : (s.window row obj n).slices = s.slices := rfl
@[simp] theorem State.window_msgs (s : State) (row obj n : Nat) : (s.window row obj n).msgs = s.msgs := rfl
@[simp] theorem State.window_agents (s : State) (row obj n : Nat) : (s.window row obj n).agents = s.agents := rfl
@[simp] theorem State.window_dead (s : State) (row obj n : Nat) : (s.window row obj n).dead = s.dead := rfl
@[simp] theorem State.window_notices (s : State) (row obj n : Nat) : (s.window row obj n).notices = s.notices := rfl
@[simp] theorem State.window_rejoin (s : State) (row obj n : Nat) : (s.window row obj n).rejoin = s.rejoin := rfl
@[simp] theorem State.window_reclaimed (s : State) (row obj n : Nat) : (s.window row obj n).reclaimed = s.reclaimed := rfl
@[simp] theorem State.window_beats (s : State) (row obj n : Nat) : (s.window row obj n).beats = s.beats := rfl
@[simp] theorem State.window_host (s : State) (row obj n : Nat) : (s.window row obj n).host = s.host := rfl
@[simp] theorem State.window_hostBusy (s : State) (row obj n : Nat) : (s.window row obj n).hostBusy = s.hostBusy := rfl
@[simp] theorem State.window_hostQ (s : State) (row obj n : Nat) : (s.window row obj n).hostQ = s.hostQ := rfl
@[simp] theorem State.window_snoopQ (s : State) (row obj n : Nat) : (s.window row obj n).snoopQ = s.snoopQ := rfl
@[simp] theorem State.window_snoopIn (s : State) (row obj n : Nat) : (s.window row obj n).snoopIn = s.snoopIn := rfl
@[simp] theorem State.window_hostOut (s : State) (row obj n : Nat) : (s.window row obj n).hostOut = s.hostOut := rfl
@[simp] theorem State.window_xlt (s : State) (row obj n : Nat) : (s.window row obj n).xlt = s.xlt := rfl
@[simp] theorem State.window_chans (s : State) (row obj n : Nat) : (s.window row obj n).chans = s.chans := rfl
@[simp] theorem State.window_remap (s : State) (row obj n : Nat) : (s.window row obj n).remap = s.remap := rfl
@[simp] theorem State.window_hbm (s : State) (row obj n : Nat) : (s.window row obj n).hbm = s.hbm := rfl
@[simp] theorem State.window_tmax (s : State) (row obj n : Nat) : (s.window row obj n).tmax = s.tmax := rfl
@[simp] theorem State.window_cols (s : State) (row obj n : Nat) : (s.window row obj n).cols = s.cols := rfl
@[simp] theorem State.window_tokens (s : State) (row obj n : Nat) : (s.window row obj n).tokens = s.tokens := rfl
@[simp] theorem State.window_held (s : State) (row obj n : Nat) : (s.window row obj n).held = s.held := rfl
@[simp] theorem State.window_asks (s : State) (row obj n : Nat) : (s.window row obj n).asks = s.asks := rfl
@[simp] theorem State.window_colSat (s : State) (row obj n : Nat) : (s.window row obj n).colSat = s.colSat := rfl
@[simp] theorem State.window_links (s : State) (row obj n : Nat) : (s.window row obj n).links = s.links := rfl
@[simp] theorem State.window_rdgRoute (s : State) (row obj n : Nat) : (s.window row obj n).rdgRoute = s.rdgRoute := rfl
@[simp] theorem State.window_rdgWin (s : State) (row obj n : Nat) : (s.window row obj n).rdgWin = s.rdgWin := rfl
@[simp] theorem State.window_plans (s : State) (row obj n : Nat) : (s.window row obj n).plans = s.plans := rfl
@[simp] theorem State.window_holds (s : State) (row obj n : Nat) : (s.window row obj n).holds = s.holds := rfl
@[simp] theorem State.window_chunkOut (s : State) (row obj n : Nat) : (s.window row obj n).chunkOut = s.chunkOut := rfl
@[simp] theorem State.window_chunkRsp (s : State) (row obj n : Nat) : (s.window row obj n).chunkRsp = s.chunkRsp := rfl
@[simp] theorem State.window_bcasts (s : State) (row obj n : Nat) : (s.window row obj n).bcasts = s.bcasts := rfl
@[simp] theorem State.window_bcOut (s : State) (row obj n : Nat) : (s.window row obj n).bcOut = s.bcOut := rfl
@[simp] theorem State.window_starts (s : State) (row obj n : Nat) : (s.window row obj n).starts = s.starts := rfl
@[simp] theorem State.window_rdgIn (s : State) (row obj n : Nat) : (s.window row obj n).rdgIn = s.rdgIn := rfl
@[simp] theorem State.window_rdgOut (s : State) (row obj n : Nat) : (s.window row obj n).rdgOut = s.rdgOut := rfl
@[simp] theorem State.window_power (s : State) (row obj n : Nat) : (s.window row obj n).power = s.power := rfl
@[simp] theorem State.window_fb (s : State) (row obj n : Nat) : (s.window row obj n).fb = s.fb := rfl
@[simp] theorem State.window_cores (s : State) (row obj n : Nat) : (s.window row obj n).cores = s.cores := rfl
@[simp] theorem State.window_dbgUnit (s : State) (row obj n : Nat) : (s.window row obj n).dbgUnit = s.dbgUnit := rfl
@[simp] theorem State.window_jtag (s : State) (row obj n : Nat) : (s.window row obj n).jtag = s.jtag := rfl
@[simp] theorem State.window_fresh (s : State) (row obj n : Nat) : (s.window row obj n).fresh = s.fresh := rfl

/-! Fields that `State.measure` keeps. -/

@[simp] theorem State.measure_pending (s : State) (typ arg : Nat) (v : List Byte) : (s.measure typ arg v).pending = s.pending := rfl
@[simp] theorem State.measure_plat (s : State) (typ arg : Nat) (v : List Byte) : (s.measure typ arg v).plat = s.plat := rfl
@[simp] theorem State.measure_fuses (s : State) (typ arg : Nat) (v : List Byte) : (s.measure typ arg v).fuses = s.fuses := rfl
@[simp] theorem State.measure_portH (s : State) (typ arg : Nat) (v : List Byte) : (s.measure typ arg v).portH = s.portH := rfl
@[simp] theorem State.measure_portB (s : State) (typ arg : Nat) (v : List Byte) : (s.measure typ arg v).portB = s.portB := rfl
@[simp] theorem State.measure_portN (s : State) (typ arg : Nat) (v : List Byte) : (s.measure typ arg v).portN = s.portN := rfl
@[simp] theorem State.measure_cfg (s : State) (typ arg : Nat) (v : List Byte) : (s.measure typ arg v).cfg = s.cfg := rfl
@[simp] theorem State.measure_time (s : State) (typ arg : Nat) (v : List Byte) : (s.measure typ arg v).time = s.time := rfl
@[simp] theorem State.measure_tally (s : State) (typ arg : Nat) (v : List Byte) : (s.measure typ arg v).tally = s.tally := rfl
@[simp] theorem State.measure_log (s : State) (typ arg : Nat) (v : List Byte) : (s.measure typ arg v).log = s.log := rfl
@[simp] theorem State.measure_logSeq (s : State) (typ arg : Nat) (v : List Byte) : (s.measure typ arg v).logSeq = s.logSeq := rfl
@[simp] theorem State.measure_acts (s : State) (typ arg : Nat) (v : List Byte) : (s.measure typ arg v).acts = s.acts := rfl
@[simp] theorem State.measure_actNum (s : State) (typ arg : Nat) (v : List Byte) : (s.measure typ arg v).actNum = s.actNum := rfl
@[simp] theorem State.measure_routes (s : State) (typ arg : Nat) (v : List Byte) : (s.measure typ arg v).routes = s.routes := rfl
@[simp] theorem State.measure_imsic (s : State) (typ arg : Nat) (v : List Byte) : (s.measure typ arg v).imsic = s.imsic := rfl
@[simp] theorem State.measure_trapTail (s : State) (typ arg : Nat) (v : List Byte) : (s.measure typ arg v).trapTail = s.trapTail := rfl
@[simp] theorem State.measure_trapHead (s : State) (typ arg : Nat) (v : List Byte) : (s.measure typ arg v).trapHead = s.trapHead := rfl
@[simp] theorem State.measure_trapWait (s : State) (typ arg : Nat) (v : List Byte) : (s.measure typ arg v).trapWait = s.trapWait := rfl
@[simp] theorem State.measure_streams (s : State) (typ arg : Nat) (v : List Byte) : (s.measure typ arg v).streams = s.streams := rfl
@[simp] theorem State.measure_launches (s : State) (typ arg : Nat) (v : List Byte) : (s.measure typ arg v).launches = s.launches := rfl
@[simp] theorem State.measure_launchNum (s : State) (typ arg : Nat) (v : List Byte) : (s.measure typ arg v).launchNum = s.launchNum := rfl
@[simp] theorem State.measure_tiles (s : State) (typ arg : Nat) (v : List Byte) : (s.measure typ arg v).tiles = s.tiles := rfl
@[simp] theorem State.measure_heavy (s : State) (typ arg : Nat) (v : List Byte) : (s.measure typ arg v).heavy = s.heavy := rfl
@[simp] theorem State.measure_serial (s : State) (typ arg : Nat) (v : List Byte) : (s.measure typ arg v).serial = s.serial := rfl
@[simp] theorem State.measure_landing (s : State) (typ arg : Nat) (v : List Byte) : (s.measure typ arg v).landing = s.landing := rfl
@[simp] theorem State.measure_dram (s : State) (typ arg : Nat) (v : List Byte) : (s.measure typ arg v).dram = s.dram := rfl
@[simp] theorem State.measure_reqs (s : State) (typ arg : Nat) (v : List Byte) : (s.measure typ arg v).reqs = s.reqs := rfl
@[simp] theorem State.measure_reqNum (s : State) (typ arg : Nat) (v : List Byte) : (s.measure typ arg v).reqNum = s.reqNum := rfl
@[simp] theorem State.measure_ansNum (s : State) (typ arg : Nat) (v : List Byte) : (s.measure typ arg v).ansNum = s.ansNum := rfl
@[simp] theorem State.measure_slices (s : State) (typ arg : Nat) (v : List Byte) : (s.measure typ arg v).slices = s.slices := rfl
@[simp] theorem State.measure_msgs (s : State) (typ arg : Nat) (v : List Byte) : (s.measure typ arg v).msgs = s.msgs := rfl
@[simp] theorem State.measure_agents (s : State) (typ arg : Nat) (v : List Byte) : (s.measure typ arg v).agents = s.agents := rfl
@[simp] theorem State.measure_dead (s : State) (typ arg : Nat) (v : List Byte) : (s.measure typ arg v).dead = s.dead := rfl
@[simp] theorem State.measure_notices (s : State) (typ arg : Nat) (v : List Byte) : (s.measure typ arg v).notices = s.notices := rfl
@[simp] theorem State.measure_rejoin (s : State) (typ arg : Nat) (v : List Byte) : (s.measure typ arg v).rejoin = s.rejoin := rfl
@[simp] theorem State.measure_reclaimed (s : State) (typ arg : Nat) (v : List Byte) : (s.measure typ arg v).reclaimed = s.reclaimed := rfl
@[simp] theorem State.measure_beats (s : State) (typ arg : Nat) (v : List Byte) : (s.measure typ arg v).beats = s.beats := rfl
@[simp] theorem State.measure_host (s : State) (typ arg : Nat) (v : List Byte) : (s.measure typ arg v).host = s.host := rfl
@[simp] theorem State.measure_hostBusy (s : State) (typ arg : Nat) (v : List Byte) : (s.measure typ arg v).hostBusy = s.hostBusy := rfl
@[simp] theorem State.measure_hostQ (s : State) (typ arg : Nat) (v : List Byte) : (s.measure typ arg v).hostQ = s.hostQ := rfl
@[simp] theorem State.measure_snoopQ (s : State) (typ arg : Nat) (v : List Byte) : (s.measure typ arg v).snoopQ = s.snoopQ := rfl
@[simp] theorem State.measure_snoopIn (s : State) (typ arg : Nat) (v : List Byte) : (s.measure typ arg v).snoopIn = s.snoopIn := rfl
@[simp] theorem State.measure_hostOut (s : State) (typ arg : Nat) (v : List Byte) : (s.measure typ arg v).hostOut = s.hostOut := rfl
@[simp] theorem State.measure_xlt (s : State) (typ arg : Nat) (v : List Byte) : (s.measure typ arg v).xlt = s.xlt := rfl
@[simp] theorem State.measure_chans (s : State) (typ arg : Nat) (v : List Byte) : (s.measure typ arg v).chans = s.chans := rfl
@[simp] theorem State.measure_remap (s : State) (typ arg : Nat) (v : List Byte) : (s.measure typ arg v).remap = s.remap := rfl
@[simp] theorem State.measure_hbm (s : State) (typ arg : Nat) (v : List Byte) : (s.measure typ arg v).hbm = s.hbm := rfl
@[simp] theorem State.measure_tmax (s : State) (typ arg : Nat) (v : List Byte) : (s.measure typ arg v).tmax = s.tmax := rfl
@[simp] theorem State.measure_cols (s : State) (typ arg : Nat) (v : List Byte) : (s.measure typ arg v).cols = s.cols := rfl
@[simp] theorem State.measure_tokens (s : State) (typ arg : Nat) (v : List Byte) : (s.measure typ arg v).tokens = s.tokens := rfl
@[simp] theorem State.measure_held (s : State) (typ arg : Nat) (v : List Byte) : (s.measure typ arg v).held = s.held := rfl
@[simp] theorem State.measure_asks (s : State) (typ arg : Nat) (v : List Byte) : (s.measure typ arg v).asks = s.asks := rfl
@[simp] theorem State.measure_colSat (s : State) (typ arg : Nat) (v : List Byte) : (s.measure typ arg v).colSat = s.colSat := rfl
@[simp] theorem State.measure_links (s : State) (typ arg : Nat) (v : List Byte) : (s.measure typ arg v).links = s.links := rfl
@[simp] theorem State.measure_rdgRoute (s : State) (typ arg : Nat) (v : List Byte) : (s.measure typ arg v).rdgRoute = s.rdgRoute := rfl
@[simp] theorem State.measure_rdgWin (s : State) (typ arg : Nat) (v : List Byte) : (s.measure typ arg v).rdgWin = s.rdgWin := rfl
@[simp] theorem State.measure_plans (s : State) (typ arg : Nat) (v : List Byte) : (s.measure typ arg v).plans = s.plans := rfl
@[simp] theorem State.measure_holds (s : State) (typ arg : Nat) (v : List Byte) : (s.measure typ arg v).holds = s.holds := rfl
@[simp] theorem State.measure_chunkOut (s : State) (typ arg : Nat) (v : List Byte) : (s.measure typ arg v).chunkOut = s.chunkOut := rfl
@[simp] theorem State.measure_chunkRsp (s : State) (typ arg : Nat) (v : List Byte) : (s.measure typ arg v).chunkRsp = s.chunkRsp := rfl
@[simp] theorem State.measure_bcasts (s : State) (typ arg : Nat) (v : List Byte) : (s.measure typ arg v).bcasts = s.bcasts := rfl
@[simp] theorem State.measure_bcOut (s : State) (typ arg : Nat) (v : List Byte) : (s.measure typ arg v).bcOut = s.bcOut := rfl
@[simp] theorem State.measure_starts (s : State) (typ arg : Nat) (v : List Byte) : (s.measure typ arg v).starts = s.starts := rfl
@[simp] theorem State.measure_rdgIn (s : State) (typ arg : Nat) (v : List Byte) : (s.measure typ arg v).rdgIn = s.rdgIn := rfl
@[simp] theorem State.measure_rdgOut (s : State) (typ arg : Nat) (v : List Byte) : (s.measure typ arg v).rdgOut = s.rdgOut := rfl
@[simp] theorem State.measure_power (s : State) (typ arg : Nat) (v : List Byte) : (s.measure typ arg v).power = s.power := rfl
@[simp] theorem State.measure_fb (s : State) (typ arg : Nat) (v : List Byte) : (s.measure typ arg v).fb = s.fb := rfl
@[simp] theorem State.measure_cores (s : State) (typ arg : Nat) (v : List Byte) : (s.measure typ arg v).cores = s.cores := rfl
@[simp] theorem State.measure_dbgUnit (s : State) (typ arg : Nat) (v : List Byte) : (s.measure typ arg v).dbgUnit = s.dbgUnit := rfl
@[simp] theorem State.measure_jtag (s : State) (typ arg : Nat) (v : List Byte) : (s.measure typ arg v).jtag = s.jtag := rfl
@[simp] theorem State.measure_fresh (s : State) (typ arg : Nat) (v : List Byte) : (s.measure typ arg v).fresh = s.fresh := rfl

/-! Fields that `State.count` keeps. -/

@[simp] theorem State.count_pending (s : State) (k n : Nat) : (s.count k n).pending = s.pending := by unfold State.count; split <;> rfl
@[simp] theorem State.count_plat (s : State) (k n : Nat) : (s.count k n).plat = s.plat := by unfold State.count; split <;> rfl
@[simp] theorem State.count_fuses (s : State) (k n : Nat) : (s.count k n).fuses = s.fuses := by unfold State.count; split <;> rfl
@[simp] theorem State.count_portH (s : State) (k n : Nat) : (s.count k n).portH = s.portH := by unfold State.count; split <;> rfl
@[simp] theorem State.count_portB (s : State) (k n : Nat) : (s.count k n).portB = s.portB := by unfold State.count; split <;> rfl
@[simp] theorem State.count_portN (s : State) (k n : Nat) : (s.count k n).portN = s.portN := by unfold State.count; split <;> rfl
@[simp] theorem State.count_cfg (s : State) (k n : Nat) : (s.count k n).cfg = s.cfg := by unfold State.count; split <;> rfl
@[simp] theorem State.count_cairn (s : State) (k n : Nat) : (s.count k n).cairn = s.cairn := by unfold State.count; split <;> rfl
@[simp] theorem State.count_time (s : State) (k n : Nat) : (s.count k n).time = s.time := by unfold State.count; split <;> rfl
@[simp] theorem State.count_log (s : State) (k n : Nat) : (s.count k n).log = s.log := by unfold State.count; split <;> rfl
@[simp] theorem State.count_logSeq (s : State) (k n : Nat) : (s.count k n).logSeq = s.logSeq := by unfold State.count; split <;> rfl
@[simp] theorem State.count_acts (s : State) (k n : Nat) : (s.count k n).acts = s.acts := by unfold State.count; split <;> rfl
@[simp] theorem State.count_actNum (s : State) (k n : Nat) : (s.count k n).actNum = s.actNum := by unfold State.count; split <;> rfl
@[simp] theorem State.count_routes (s : State) (k n : Nat) : (s.count k n).routes = s.routes := by unfold State.count; split <;> rfl
@[simp] theorem State.count_imsic (s : State) (k n : Nat) : (s.count k n).imsic = s.imsic := by unfold State.count; split <;> rfl
@[simp] theorem State.count_trapTail (s : State) (k n : Nat) : (s.count k n).trapTail = s.trapTail := by unfold State.count; split <;> rfl
@[simp] theorem State.count_trapHead (s : State) (k n : Nat) : (s.count k n).trapHead = s.trapHead := by unfold State.count; split <;> rfl
@[simp] theorem State.count_trapWait (s : State) (k n : Nat) : (s.count k n).trapWait = s.trapWait := by unfold State.count; split <;> rfl
@[simp] theorem State.count_streams (s : State) (k n : Nat) : (s.count k n).streams = s.streams := by unfold State.count; split <;> rfl
@[simp] theorem State.count_launches (s : State) (k n : Nat) : (s.count k n).launches = s.launches := by unfold State.count; split <;> rfl
@[simp] theorem State.count_launchNum (s : State) (k n : Nat) : (s.count k n).launchNum = s.launchNum := by unfold State.count; split <;> rfl
@[simp] theorem State.count_tiles (s : State) (k n : Nat) : (s.count k n).tiles = s.tiles := by unfold State.count; split <;> rfl
@[simp] theorem State.count_heavy (s : State) (k n : Nat) : (s.count k n).heavy = s.heavy := by unfold State.count; split <;> rfl
@[simp] theorem State.count_serial (s : State) (k n : Nat) : (s.count k n).serial = s.serial := by unfold State.count; split <;> rfl
@[simp] theorem State.count_landing (s : State) (k n : Nat) : (s.count k n).landing = s.landing := by unfold State.count; split <;> rfl
@[simp] theorem State.count_dram (s : State) (k n : Nat) : (s.count k n).dram = s.dram := by unfold State.count; split <;> rfl
@[simp] theorem State.count_reqs (s : State) (k n : Nat) : (s.count k n).reqs = s.reqs := by unfold State.count; split <;> rfl
@[simp] theorem State.count_reqNum (s : State) (k n : Nat) : (s.count k n).reqNum = s.reqNum := by unfold State.count; split <;> rfl
@[simp] theorem State.count_ansNum (s : State) (k n : Nat) : (s.count k n).ansNum = s.ansNum := by unfold State.count; split <;> rfl
@[simp] theorem State.count_slices (s : State) (k n : Nat) : (s.count k n).slices = s.slices := by unfold State.count; split <;> rfl
@[simp] theorem State.count_msgs (s : State) (k n : Nat) : (s.count k n).msgs = s.msgs := by unfold State.count; split <;> rfl
@[simp] theorem State.count_agents (s : State) (k n : Nat) : (s.count k n).agents = s.agents := by unfold State.count; split <;> rfl
@[simp] theorem State.count_dead (s : State) (k n : Nat) : (s.count k n).dead = s.dead := by unfold State.count; split <;> rfl
@[simp] theorem State.count_notices (s : State) (k n : Nat) : (s.count k n).notices = s.notices := by unfold State.count; split <;> rfl
@[simp] theorem State.count_rejoin (s : State) (k n : Nat) : (s.count k n).rejoin = s.rejoin := by unfold State.count; split <;> rfl
@[simp] theorem State.count_reclaimed (s : State) (k n : Nat) : (s.count k n).reclaimed = s.reclaimed := by unfold State.count; split <;> rfl
@[simp] theorem State.count_beats (s : State) (k n : Nat) : (s.count k n).beats = s.beats := by unfold State.count; split <;> rfl
@[simp] theorem State.count_host (s : State) (k n : Nat) : (s.count k n).host = s.host := by unfold State.count; split <;> rfl
@[simp] theorem State.count_hostBusy (s : State) (k n : Nat) : (s.count k n).hostBusy = s.hostBusy := by unfold State.count; split <;> rfl
@[simp] theorem State.count_hostQ (s : State) (k n : Nat) : (s.count k n).hostQ = s.hostQ := by unfold State.count; split <;> rfl
@[simp] theorem State.count_snoopQ (s : State) (k n : Nat) : (s.count k n).snoopQ = s.snoopQ := by unfold State.count; split <;> rfl
@[simp] theorem State.count_snoopIn (s : State) (k n : Nat) : (s.count k n).snoopIn = s.snoopIn := by unfold State.count; split <;> rfl
@[simp] theorem State.count_hostOut (s : State) (k n : Nat) : (s.count k n).hostOut = s.hostOut := by unfold State.count; split <;> rfl
@[simp] theorem State.count_xlt (s : State) (k n : Nat) : (s.count k n).xlt = s.xlt := by unfold State.count; split <;> rfl
@[simp] theorem State.count_chans (s : State) (k n : Nat) : (s.count k n).chans = s.chans := by unfold State.count; split <;> rfl
@[simp] theorem State.count_remap (s : State) (k n : Nat) : (s.count k n).remap = s.remap := by unfold State.count; split <;> rfl
@[simp] theorem State.count_hbm (s : State) (k n : Nat) : (s.count k n).hbm = s.hbm := by unfold State.count; split <;> rfl
@[simp] theorem State.count_tmax (s : State) (k n : Nat) : (s.count k n).tmax = s.tmax := by unfold State.count; split <;> rfl
@[simp] theorem State.count_cols (s : State) (k n : Nat) : (s.count k n).cols = s.cols := by unfold State.count; split <;> rfl
@[simp] theorem State.count_tokens (s : State) (k n : Nat) : (s.count k n).tokens = s.tokens := by unfold State.count; split <;> rfl
@[simp] theorem State.count_held (s : State) (k n : Nat) : (s.count k n).held = s.held := by unfold State.count; split <;> rfl
@[simp] theorem State.count_asks (s : State) (k n : Nat) : (s.count k n).asks = s.asks := by unfold State.count; split <;> rfl
@[simp] theorem State.count_colSat (s : State) (k n : Nat) : (s.count k n).colSat = s.colSat := by unfold State.count; split <;> rfl
@[simp] theorem State.count_links (s : State) (k n : Nat) : (s.count k n).links = s.links := by unfold State.count; split <;> rfl
@[simp] theorem State.count_rdgRoute (s : State) (k n : Nat) : (s.count k n).rdgRoute = s.rdgRoute := by unfold State.count; split <;> rfl
@[simp] theorem State.count_rdgWin (s : State) (k n : Nat) : (s.count k n).rdgWin = s.rdgWin := by unfold State.count; split <;> rfl
@[simp] theorem State.count_plans (s : State) (k n : Nat) : (s.count k n).plans = s.plans := by unfold State.count; split <;> rfl
@[simp] theorem State.count_holds (s : State) (k n : Nat) : (s.count k n).holds = s.holds := by unfold State.count; split <;> rfl
@[simp] theorem State.count_chunkOut (s : State) (k n : Nat) : (s.count k n).chunkOut = s.chunkOut := by unfold State.count; split <;> rfl
@[simp] theorem State.count_chunkRsp (s : State) (k n : Nat) : (s.count k n).chunkRsp = s.chunkRsp := by unfold State.count; split <;> rfl
@[simp] theorem State.count_bcasts (s : State) (k n : Nat) : (s.count k n).bcasts = s.bcasts := by unfold State.count; split <;> rfl
@[simp] theorem State.count_bcOut (s : State) (k n : Nat) : (s.count k n).bcOut = s.bcOut := by unfold State.count; split <;> rfl
@[simp] theorem State.count_starts (s : State) (k n : Nat) : (s.count k n).starts = s.starts := by unfold State.count; split <;> rfl
@[simp] theorem State.count_rdgIn (s : State) (k n : Nat) : (s.count k n).rdgIn = s.rdgIn := by unfold State.count; split <;> rfl
@[simp] theorem State.count_rdgOut (s : State) (k n : Nat) : (s.count k n).rdgOut = s.rdgOut := by unfold State.count; split <;> rfl
@[simp] theorem State.count_power (s : State) (k n : Nat) : (s.count k n).power = s.power := by unfold State.count; split <;> rfl
@[simp] theorem State.count_fb (s : State) (k n : Nat) : (s.count k n).fb = s.fb := by unfold State.count; split <;> rfl
@[simp] theorem State.count_cores (s : State) (k n : Nat) : (s.count k n).cores = s.cores := by unfold State.count; split <;> rfl
@[simp] theorem State.count_dbgUnit (s : State) (k n : Nat) : (s.count k n).dbgUnit = s.dbgUnit := by unfold State.count; split <;> rfl
@[simp] theorem State.count_jtag (s : State) (k n : Nat) : (s.count k n).jtag = s.jtag := by unfold State.count; split <;> rfl
@[simp] theorem State.count_fresh (s : State) (k n : Nat) : (s.count k n).fresh = s.fresh := by unfold State.count; split <;> rfl

/-! Fields that `State.countReal` keeps. -/

@[simp] theorem State.countReal_pending (s : State) (c u : Nat) : (s.countReal c u).pending = s.pending := by unfold State.countReal; split <;> rfl
@[simp] theorem State.countReal_plat (s : State) (c u : Nat) : (s.countReal c u).plat = s.plat := by unfold State.countReal; split <;> rfl
@[simp] theorem State.countReal_fuses (s : State) (c u : Nat) : (s.countReal c u).fuses = s.fuses := by unfold State.countReal; split <;> rfl
@[simp] theorem State.countReal_portH (s : State) (c u : Nat) : (s.countReal c u).portH = s.portH := by unfold State.countReal; split <;> rfl
@[simp] theorem State.countReal_portB (s : State) (c u : Nat) : (s.countReal c u).portB = s.portB := by unfold State.countReal; split <;> rfl
@[simp] theorem State.countReal_portN (s : State) (c u : Nat) : (s.countReal c u).portN = s.portN := by unfold State.countReal; split <;> rfl
@[simp] theorem State.countReal_cfg (s : State) (c u : Nat) : (s.countReal c u).cfg = s.cfg := by unfold State.countReal; split <;> rfl
@[simp] theorem State.countReal_cairn (s : State) (c u : Nat) : (s.countReal c u).cairn = s.cairn := by unfold State.countReal; split <;> rfl
@[simp] theorem State.countReal_time (s : State) (c u : Nat) : (s.countReal c u).time = s.time := by unfold State.countReal; split <;> rfl
@[simp] theorem State.countReal_log (s : State) (c u : Nat) : (s.countReal c u).log = s.log := by unfold State.countReal; split <;> rfl
@[simp] theorem State.countReal_logSeq (s : State) (c u : Nat) : (s.countReal c u).logSeq = s.logSeq := by unfold State.countReal; split <;> rfl
@[simp] theorem State.countReal_acts (s : State) (c u : Nat) : (s.countReal c u).acts = s.acts := by unfold State.countReal; split <;> rfl
@[simp] theorem State.countReal_actNum (s : State) (c u : Nat) : (s.countReal c u).actNum = s.actNum := by unfold State.countReal; split <;> rfl
@[simp] theorem State.countReal_routes (s : State) (c u : Nat) : (s.countReal c u).routes = s.routes := by unfold State.countReal; split <;> rfl
@[simp] theorem State.countReal_imsic (s : State) (c u : Nat) : (s.countReal c u).imsic = s.imsic := by unfold State.countReal; split <;> rfl
@[simp] theorem State.countReal_trapTail (s : State) (c u : Nat) : (s.countReal c u).trapTail = s.trapTail := by unfold State.countReal; split <;> rfl
@[simp] theorem State.countReal_trapHead (s : State) (c u : Nat) : (s.countReal c u).trapHead = s.trapHead := by unfold State.countReal; split <;> rfl
@[simp] theorem State.countReal_trapWait (s : State) (c u : Nat) : (s.countReal c u).trapWait = s.trapWait := by unfold State.countReal; split <;> rfl
@[simp] theorem State.countReal_streams (s : State) (c u : Nat) : (s.countReal c u).streams = s.streams := by unfold State.countReal; split <;> rfl
@[simp] theorem State.countReal_launches (s : State) (c u : Nat) : (s.countReal c u).launches = s.launches := by unfold State.countReal; split <;> rfl
@[simp] theorem State.countReal_launchNum (s : State) (c u : Nat) : (s.countReal c u).launchNum = s.launchNum := by unfold State.countReal; split <;> rfl
@[simp] theorem State.countReal_tiles (s : State) (c u : Nat) : (s.countReal c u).tiles = s.tiles := by unfold State.countReal; split <;> rfl
@[simp] theorem State.countReal_heavy (s : State) (c u : Nat) : (s.countReal c u).heavy = s.heavy := by unfold State.countReal; split <;> rfl
@[simp] theorem State.countReal_serial (s : State) (c u : Nat) : (s.countReal c u).serial = s.serial := by unfold State.countReal; split <;> rfl
@[simp] theorem State.countReal_landing (s : State) (c u : Nat) : (s.countReal c u).landing = s.landing := by unfold State.countReal; split <;> rfl
@[simp] theorem State.countReal_dram (s : State) (c u : Nat) : (s.countReal c u).dram = s.dram := by unfold State.countReal; split <;> rfl
@[simp] theorem State.countReal_reqs (s : State) (c u : Nat) : (s.countReal c u).reqs = s.reqs := by unfold State.countReal; split <;> rfl
@[simp] theorem State.countReal_reqNum (s : State) (c u : Nat) : (s.countReal c u).reqNum = s.reqNum := by unfold State.countReal; split <;> rfl
@[simp] theorem State.countReal_ansNum (s : State) (c u : Nat) : (s.countReal c u).ansNum = s.ansNum := by unfold State.countReal; split <;> rfl
@[simp] theorem State.countReal_slices (s : State) (c u : Nat) : (s.countReal c u).slices = s.slices := by unfold State.countReal; split <;> rfl
@[simp] theorem State.countReal_msgs (s : State) (c u : Nat) : (s.countReal c u).msgs = s.msgs := by unfold State.countReal; split <;> rfl
@[simp] theorem State.countReal_agents (s : State) (c u : Nat) : (s.countReal c u).agents = s.agents := by unfold State.countReal; split <;> rfl
@[simp] theorem State.countReal_dead (s : State) (c u : Nat) : (s.countReal c u).dead = s.dead := by unfold State.countReal; split <;> rfl
@[simp] theorem State.countReal_notices (s : State) (c u : Nat) : (s.countReal c u).notices = s.notices := by unfold State.countReal; split <;> rfl
@[simp] theorem State.countReal_rejoin (s : State) (c u : Nat) : (s.countReal c u).rejoin = s.rejoin := by unfold State.countReal; split <;> rfl
@[simp] theorem State.countReal_reclaimed (s : State) (c u : Nat) : (s.countReal c u).reclaimed = s.reclaimed := by unfold State.countReal; split <;> rfl
@[simp] theorem State.countReal_beats (s : State) (c u : Nat) : (s.countReal c u).beats = s.beats := by unfold State.countReal; split <;> rfl
@[simp] theorem State.countReal_host (s : State) (c u : Nat) : (s.countReal c u).host = s.host := by unfold State.countReal; split <;> rfl
@[simp] theorem State.countReal_hostBusy (s : State) (c u : Nat) : (s.countReal c u).hostBusy = s.hostBusy := by unfold State.countReal; split <;> rfl
@[simp] theorem State.countReal_hostQ (s : State) (c u : Nat) : (s.countReal c u).hostQ = s.hostQ := by unfold State.countReal; split <;> rfl
@[simp] theorem State.countReal_snoopQ (s : State) (c u : Nat) : (s.countReal c u).snoopQ = s.snoopQ := by unfold State.countReal; split <;> rfl
@[simp] theorem State.countReal_snoopIn (s : State) (c u : Nat) : (s.countReal c u).snoopIn = s.snoopIn := by unfold State.countReal; split <;> rfl
@[simp] theorem State.countReal_hostOut (s : State) (c u : Nat) : (s.countReal c u).hostOut = s.hostOut := by unfold State.countReal; split <;> rfl
@[simp] theorem State.countReal_xlt (s : State) (c u : Nat) : (s.countReal c u).xlt = s.xlt := by unfold State.countReal; split <;> rfl
@[simp] theorem State.countReal_chans (s : State) (c u : Nat) : (s.countReal c u).chans = s.chans := by unfold State.countReal; split <;> rfl
@[simp] theorem State.countReal_remap (s : State) (c u : Nat) : (s.countReal c u).remap = s.remap := by unfold State.countReal; split <;> rfl
@[simp] theorem State.countReal_hbm (s : State) (c u : Nat) : (s.countReal c u).hbm = s.hbm := by unfold State.countReal; split <;> rfl
@[simp] theorem State.countReal_tmax (s : State) (c u : Nat) : (s.countReal c u).tmax = s.tmax := by unfold State.countReal; split <;> rfl
@[simp] theorem State.countReal_cols (s : State) (c u : Nat) : (s.countReal c u).cols = s.cols := by unfold State.countReal; split <;> rfl
@[simp] theorem State.countReal_tokens (s : State) (c u : Nat) : (s.countReal c u).tokens = s.tokens := by unfold State.countReal; split <;> rfl
@[simp] theorem State.countReal_held (s : State) (c u : Nat) : (s.countReal c u).held = s.held := by unfold State.countReal; split <;> rfl
@[simp] theorem State.countReal_asks (s : State) (c u : Nat) : (s.countReal c u).asks = s.asks := by unfold State.countReal; split <;> rfl
@[simp] theorem State.countReal_colSat (s : State) (c u : Nat) : (s.countReal c u).colSat = s.colSat := by unfold State.countReal; split <;> rfl
@[simp] theorem State.countReal_links (s : State) (c u : Nat) : (s.countReal c u).links = s.links := by unfold State.countReal; split <;> rfl
@[simp] theorem State.countReal_rdgRoute (s : State) (c u : Nat) : (s.countReal c u).rdgRoute = s.rdgRoute := by unfold State.countReal; split <;> rfl
@[simp] theorem State.countReal_rdgWin (s : State) (c u : Nat) : (s.countReal c u).rdgWin = s.rdgWin := by unfold State.countReal; split <;> rfl
@[simp] theorem State.countReal_plans (s : State) (c u : Nat) : (s.countReal c u).plans = s.plans := by unfold State.countReal; split <;> rfl
@[simp] theorem State.countReal_holds (s : State) (c u : Nat) : (s.countReal c u).holds = s.holds := by unfold State.countReal; split <;> rfl
@[simp] theorem State.countReal_chunkOut (s : State) (c u : Nat) : (s.countReal c u).chunkOut = s.chunkOut := by unfold State.countReal; split <;> rfl
@[simp] theorem State.countReal_chunkRsp (s : State) (c u : Nat) : (s.countReal c u).chunkRsp = s.chunkRsp := by unfold State.countReal; split <;> rfl
@[simp] theorem State.countReal_bcasts (s : State) (c u : Nat) : (s.countReal c u).bcasts = s.bcasts := by unfold State.countReal; split <;> rfl
@[simp] theorem State.countReal_bcOut (s : State) (c u : Nat) : (s.countReal c u).bcOut = s.bcOut := by unfold State.countReal; split <;> rfl
@[simp] theorem State.countReal_starts (s : State) (c u : Nat) : (s.countReal c u).starts = s.starts := by unfold State.countReal; split <;> rfl
@[simp] theorem State.countReal_rdgIn (s : State) (c u : Nat) : (s.countReal c u).rdgIn = s.rdgIn := by unfold State.countReal; split <;> rfl
@[simp] theorem State.countReal_rdgOut (s : State) (c u : Nat) : (s.countReal c u).rdgOut = s.rdgOut := by unfold State.countReal; split <;> rfl
@[simp] theorem State.countReal_power (s : State) (c u : Nat) : (s.countReal c u).power = s.power := by unfold State.countReal; split <;> rfl
@[simp] theorem State.countReal_fb (s : State) (c u : Nat) : (s.countReal c u).fb = s.fb := by unfold State.countReal; split <;> rfl
@[simp] theorem State.countReal_cores (s : State) (c u : Nat) : (s.countReal c u).cores = s.cores := by unfold State.countReal; split <;> rfl
@[simp] theorem State.countReal_dbgUnit (s : State) (c u : Nat) : (s.countReal c u).dbgUnit = s.dbgUnit := by unfold State.countReal; split <;> rfl
@[simp] theorem State.countReal_jtag (s : State) (c u : Nat) : (s.countReal c u).jtag = s.jtag := by unfold State.countReal; split <;> rfl
@[simp] theorem State.countReal_fresh (s : State) (c u : Nat) : (s.countReal c u).fresh = s.fresh := by unfold State.countReal; split <;> rfl

/-- An event of a source touches the route table and pending interrupts alone. -/
theorem State.raise_eq (s : State) (src : Nat) : s.raise src = { s with routes := (s.raise src).routes, imsic := (s.raise src).imsic } := by
  unfold State.raise State.sendRoute State.imsicSet
  dsimp only
  split
  · rfl
  · split
    · rfl
    · split
      · split <;> rfl
      · rfl

/-! Fields that `State.raise` keeps. -/

@[simp] theorem State.raise_pending (s : State) (src : Nat) : (s.raise src).pending = s.pending := by rw [State.raise_eq]
@[simp] theorem State.raise_plat (s : State) (src : Nat) : (s.raise src).plat = s.plat := by rw [State.raise_eq]
@[simp] theorem State.raise_fuses (s : State) (src : Nat) : (s.raise src).fuses = s.fuses := by rw [State.raise_eq]
@[simp] theorem State.raise_portH (s : State) (src : Nat) : (s.raise src).portH = s.portH := by rw [State.raise_eq]
@[simp] theorem State.raise_portB (s : State) (src : Nat) : (s.raise src).portB = s.portB := by rw [State.raise_eq]
@[simp] theorem State.raise_portN (s : State) (src : Nat) : (s.raise src).portN = s.portN := by rw [State.raise_eq]
@[simp] theorem State.raise_cfg (s : State) (src : Nat) : (s.raise src).cfg = s.cfg := by rw [State.raise_eq]
@[simp] theorem State.raise_cairn (s : State) (src : Nat) : (s.raise src).cairn = s.cairn := by rw [State.raise_eq]
@[simp] theorem State.raise_time (s : State) (src : Nat) : (s.raise src).time = s.time := by rw [State.raise_eq]
@[simp] theorem State.raise_tally (s : State) (src : Nat) : (s.raise src).tally = s.tally := by rw [State.raise_eq]
@[simp] theorem State.raise_log (s : State) (src : Nat) : (s.raise src).log = s.log := by rw [State.raise_eq]
@[simp] theorem State.raise_logSeq (s : State) (src : Nat) : (s.raise src).logSeq = s.logSeq := by rw [State.raise_eq]
@[simp] theorem State.raise_acts (s : State) (src : Nat) : (s.raise src).acts = s.acts := by rw [State.raise_eq]
@[simp] theorem State.raise_actNum (s : State) (src : Nat) : (s.raise src).actNum = s.actNum := by rw [State.raise_eq]
@[simp] theorem State.raise_trapTail (s : State) (src : Nat) : (s.raise src).trapTail = s.trapTail := by rw [State.raise_eq]
@[simp] theorem State.raise_trapHead (s : State) (src : Nat) : (s.raise src).trapHead = s.trapHead := by rw [State.raise_eq]
@[simp] theorem State.raise_trapWait (s : State) (src : Nat) : (s.raise src).trapWait = s.trapWait := by rw [State.raise_eq]
@[simp] theorem State.raise_streams (s : State) (src : Nat) : (s.raise src).streams = s.streams := by rw [State.raise_eq]
@[simp] theorem State.raise_launches (s : State) (src : Nat) : (s.raise src).launches = s.launches := by rw [State.raise_eq]
@[simp] theorem State.raise_launchNum (s : State) (src : Nat) : (s.raise src).launchNum = s.launchNum := by rw [State.raise_eq]
@[simp] theorem State.raise_tiles (s : State) (src : Nat) : (s.raise src).tiles = s.tiles := by rw [State.raise_eq]
@[simp] theorem State.raise_heavy (s : State) (src : Nat) : (s.raise src).heavy = s.heavy := by rw [State.raise_eq]
@[simp] theorem State.raise_serial (s : State) (src : Nat) : (s.raise src).serial = s.serial := by rw [State.raise_eq]
@[simp] theorem State.raise_landing (s : State) (src : Nat) : (s.raise src).landing = s.landing := by rw [State.raise_eq]
@[simp] theorem State.raise_dram (s : State) (src : Nat) : (s.raise src).dram = s.dram := by rw [State.raise_eq]
@[simp] theorem State.raise_reqs (s : State) (src : Nat) : (s.raise src).reqs = s.reqs := by rw [State.raise_eq]
@[simp] theorem State.raise_reqNum (s : State) (src : Nat) : (s.raise src).reqNum = s.reqNum := by rw [State.raise_eq]
@[simp] theorem State.raise_ansNum (s : State) (src : Nat) : (s.raise src).ansNum = s.ansNum := by rw [State.raise_eq]
@[simp] theorem State.raise_slices (s : State) (src : Nat) : (s.raise src).slices = s.slices := by rw [State.raise_eq]
@[simp] theorem State.raise_msgs (s : State) (src : Nat) : (s.raise src).msgs = s.msgs := by rw [State.raise_eq]
@[simp] theorem State.raise_agents (s : State) (src : Nat) : (s.raise src).agents = s.agents := by rw [State.raise_eq]
@[simp] theorem State.raise_dead (s : State) (src : Nat) : (s.raise src).dead = s.dead := by rw [State.raise_eq]
@[simp] theorem State.raise_notices (s : State) (src : Nat) : (s.raise src).notices = s.notices := by rw [State.raise_eq]
@[simp] theorem State.raise_rejoin (s : State) (src : Nat) : (s.raise src).rejoin = s.rejoin := by rw [State.raise_eq]
@[simp] theorem State.raise_reclaimed (s : State) (src : Nat) : (s.raise src).reclaimed = s.reclaimed := by rw [State.raise_eq]
@[simp] theorem State.raise_beats (s : State) (src : Nat) : (s.raise src).beats = s.beats := by rw [State.raise_eq]
@[simp] theorem State.raise_host (s : State) (src : Nat) : (s.raise src).host = s.host := by rw [State.raise_eq]
@[simp] theorem State.raise_hostBusy (s : State) (src : Nat) : (s.raise src).hostBusy = s.hostBusy := by rw [State.raise_eq]
@[simp] theorem State.raise_hostQ (s : State) (src : Nat) : (s.raise src).hostQ = s.hostQ := by rw [State.raise_eq]
@[simp] theorem State.raise_snoopQ (s : State) (src : Nat) : (s.raise src).snoopQ = s.snoopQ := by rw [State.raise_eq]
@[simp] theorem State.raise_snoopIn (s : State) (src : Nat) : (s.raise src).snoopIn = s.snoopIn := by rw [State.raise_eq]
@[simp] theorem State.raise_hostOut (s : State) (src : Nat) : (s.raise src).hostOut = s.hostOut := by rw [State.raise_eq]
@[simp] theorem State.raise_xlt (s : State) (src : Nat) : (s.raise src).xlt = s.xlt := by rw [State.raise_eq]
@[simp] theorem State.raise_chans (s : State) (src : Nat) : (s.raise src).chans = s.chans := by rw [State.raise_eq]
@[simp] theorem State.raise_remap (s : State) (src : Nat) : (s.raise src).remap = s.remap := by rw [State.raise_eq]
@[simp] theorem State.raise_hbm (s : State) (src : Nat) : (s.raise src).hbm = s.hbm := by rw [State.raise_eq]
@[simp] theorem State.raise_tmax (s : State) (src : Nat) : (s.raise src).tmax = s.tmax := by rw [State.raise_eq]
@[simp] theorem State.raise_cols (s : State) (src : Nat) : (s.raise src).cols = s.cols := by rw [State.raise_eq]
@[simp] theorem State.raise_tokens (s : State) (src : Nat) : (s.raise src).tokens = s.tokens := by rw [State.raise_eq]
@[simp] theorem State.raise_held (s : State) (src : Nat) : (s.raise src).held = s.held := by rw [State.raise_eq]
@[simp] theorem State.raise_asks (s : State) (src : Nat) : (s.raise src).asks = s.asks := by rw [State.raise_eq]
@[simp] theorem State.raise_colSat (s : State) (src : Nat) : (s.raise src).colSat = s.colSat := by rw [State.raise_eq]
@[simp] theorem State.raise_links (s : State) (src : Nat) : (s.raise src).links = s.links := by rw [State.raise_eq]
@[simp] theorem State.raise_rdgRoute (s : State) (src : Nat) : (s.raise src).rdgRoute = s.rdgRoute := by rw [State.raise_eq]
@[simp] theorem State.raise_rdgWin (s : State) (src : Nat) : (s.raise src).rdgWin = s.rdgWin := by rw [State.raise_eq]
@[simp] theorem State.raise_plans (s : State) (src : Nat) : (s.raise src).plans = s.plans := by rw [State.raise_eq]
@[simp] theorem State.raise_holds (s : State) (src : Nat) : (s.raise src).holds = s.holds := by rw [State.raise_eq]
@[simp] theorem State.raise_chunkOut (s : State) (src : Nat) : (s.raise src).chunkOut = s.chunkOut := by rw [State.raise_eq]
@[simp] theorem State.raise_chunkRsp (s : State) (src : Nat) : (s.raise src).chunkRsp = s.chunkRsp := by rw [State.raise_eq]
@[simp] theorem State.raise_bcasts (s : State) (src : Nat) : (s.raise src).bcasts = s.bcasts := by rw [State.raise_eq]
@[simp] theorem State.raise_bcOut (s : State) (src : Nat) : (s.raise src).bcOut = s.bcOut := by rw [State.raise_eq]
@[simp] theorem State.raise_starts (s : State) (src : Nat) : (s.raise src).starts = s.starts := by rw [State.raise_eq]
@[simp] theorem State.raise_rdgIn (s : State) (src : Nat) : (s.raise src).rdgIn = s.rdgIn := by rw [State.raise_eq]
@[simp] theorem State.raise_rdgOut (s : State) (src : Nat) : (s.raise src).rdgOut = s.rdgOut := by rw [State.raise_eq]
@[simp] theorem State.raise_power (s : State) (src : Nat) : (s.raise src).power = s.power := by rw [State.raise_eq]
@[simp] theorem State.raise_fb (s : State) (src : Nat) : (s.raise src).fb = s.fb := by rw [State.raise_eq]
@[simp] theorem State.raise_cores (s : State) (src : Nat) : (s.raise src).cores = s.cores := by rw [State.raise_eq]
@[simp] theorem State.raise_dbgUnit (s : State) (src : Nat) : (s.raise src).dbgUnit = s.dbgUnit := by rw [State.raise_eq]
@[simp] theorem State.raise_jtag (s : State) (src : Nat) : (s.raise src).jtag = s.jtag := by rw [State.raise_eq]
@[simp] theorem State.raise_fresh (s : State) (src : Nat) : (s.raise src).fresh = s.fresh := by rw [State.raise_eq]

set_option maxRecDepth 20000 in
/-- An event-log entry touches the log, counts, the route table and pending interrupts alone. -/
theorem State.logEv_eq (s : State) (code die sev : Nat) (data : List Nat) : s.logEv code die sev data = { s with
    log := (s.logEv code die sev data).log, logSeq := (s.logEv code die sev data).logSeq, tally := (s.logEv code die sev data).tally,
    routes := (s.logEv code die sev data).routes, imsic := (s.logEv code die sev data).imsic } := by
  unfold State.logEv State.count
  dsimp only
  rw [State.raise_eq]
  split
  · split <;> rfl
  · rfl

/-! Fields that `State.logEv` keeps. -/

@[simp] theorem State.logEv_pending (s : State) (code die sev : Nat) (data : List Nat) : (s.logEv code die sev data).pending = s.pending := by rw [State.logEv_eq]
@[simp] theorem State.logEv_plat (s : State) (code die sev : Nat) (data : List Nat) : (s.logEv code die sev data).plat = s.plat := by rw [State.logEv_eq]
@[simp] theorem State.logEv_fuses (s : State) (code die sev : Nat) (data : List Nat) : (s.logEv code die sev data).fuses = s.fuses := by rw [State.logEv_eq]
@[simp] theorem State.logEv_portH (s : State) (code die sev : Nat) (data : List Nat) : (s.logEv code die sev data).portH = s.portH := by rw [State.logEv_eq]
@[simp] theorem State.logEv_portB (s : State) (code die sev : Nat) (data : List Nat) : (s.logEv code die sev data).portB = s.portB := by rw [State.logEv_eq]
@[simp] theorem State.logEv_portN (s : State) (code die sev : Nat) (data : List Nat) : (s.logEv code die sev data).portN = s.portN := by rw [State.logEv_eq]
@[simp] theorem State.logEv_cfg (s : State) (code die sev : Nat) (data : List Nat) : (s.logEv code die sev data).cfg = s.cfg := by rw [State.logEv_eq]
@[simp] theorem State.logEv_cairn (s : State) (code die sev : Nat) (data : List Nat) : (s.logEv code die sev data).cairn = s.cairn := by rw [State.logEv_eq]
@[simp] theorem State.logEv_time (s : State) (code die sev : Nat) (data : List Nat) : (s.logEv code die sev data).time = s.time := by rw [State.logEv_eq]
@[simp] theorem State.logEv_acts (s : State) (code die sev : Nat) (data : List Nat) : (s.logEv code die sev data).acts = s.acts := by rw [State.logEv_eq]
@[simp] theorem State.logEv_actNum (s : State) (code die sev : Nat) (data : List Nat) : (s.logEv code die sev data).actNum = s.actNum := by rw [State.logEv_eq]
@[simp] theorem State.logEv_trapTail (s : State) (code die sev : Nat) (data : List Nat) : (s.logEv code die sev data).trapTail = s.trapTail := by rw [State.logEv_eq]
@[simp] theorem State.logEv_trapHead (s : State) (code die sev : Nat) (data : List Nat) : (s.logEv code die sev data).trapHead = s.trapHead := by rw [State.logEv_eq]
@[simp] theorem State.logEv_trapWait (s : State) (code die sev : Nat) (data : List Nat) : (s.logEv code die sev data).trapWait = s.trapWait := by rw [State.logEv_eq]
@[simp] theorem State.logEv_streams (s : State) (code die sev : Nat) (data : List Nat) : (s.logEv code die sev data).streams = s.streams := by rw [State.logEv_eq]
@[simp] theorem State.logEv_launches (s : State) (code die sev : Nat) (data : List Nat) : (s.logEv code die sev data).launches = s.launches := by rw [State.logEv_eq]
@[simp] theorem State.logEv_launchNum (s : State) (code die sev : Nat) (data : List Nat) : (s.logEv code die sev data).launchNum = s.launchNum := by rw [State.logEv_eq]
@[simp] theorem State.logEv_tiles (s : State) (code die sev : Nat) (data : List Nat) : (s.logEv code die sev data).tiles = s.tiles := by rw [State.logEv_eq]
@[simp] theorem State.logEv_heavy (s : State) (code die sev : Nat) (data : List Nat) : (s.logEv code die sev data).heavy = s.heavy := by rw [State.logEv_eq]
@[simp] theorem State.logEv_serial (s : State) (code die sev : Nat) (data : List Nat) : (s.logEv code die sev data).serial = s.serial := by rw [State.logEv_eq]
@[simp] theorem State.logEv_landing (s : State) (code die sev : Nat) (data : List Nat) : (s.logEv code die sev data).landing = s.landing := by rw [State.logEv_eq]
@[simp] theorem State.logEv_dram (s : State) (code die sev : Nat) (data : List Nat) : (s.logEv code die sev data).dram = s.dram := by rw [State.logEv_eq]
@[simp] theorem State.logEv_reqs (s : State) (code die sev : Nat) (data : List Nat) : (s.logEv code die sev data).reqs = s.reqs := by rw [State.logEv_eq]
@[simp] theorem State.logEv_reqNum (s : State) (code die sev : Nat) (data : List Nat) : (s.logEv code die sev data).reqNum = s.reqNum := by rw [State.logEv_eq]
@[simp] theorem State.logEv_ansNum (s : State) (code die sev : Nat) (data : List Nat) : (s.logEv code die sev data).ansNum = s.ansNum := by rw [State.logEv_eq]
@[simp] theorem State.logEv_slices (s : State) (code die sev : Nat) (data : List Nat) : (s.logEv code die sev data).slices = s.slices := by rw [State.logEv_eq]
@[simp] theorem State.logEv_msgs (s : State) (code die sev : Nat) (data : List Nat) : (s.logEv code die sev data).msgs = s.msgs := by rw [State.logEv_eq]
@[simp] theorem State.logEv_agents (s : State) (code die sev : Nat) (data : List Nat) : (s.logEv code die sev data).agents = s.agents := by rw [State.logEv_eq]
@[simp] theorem State.logEv_dead (s : State) (code die sev : Nat) (data : List Nat) : (s.logEv code die sev data).dead = s.dead := by rw [State.logEv_eq]
@[simp] theorem State.logEv_notices (s : State) (code die sev : Nat) (data : List Nat) : (s.logEv code die sev data).notices = s.notices := by rw [State.logEv_eq]
@[simp] theorem State.logEv_rejoin (s : State) (code die sev : Nat) (data : List Nat) : (s.logEv code die sev data).rejoin = s.rejoin := by rw [State.logEv_eq]
@[simp] theorem State.logEv_reclaimed (s : State) (code die sev : Nat) (data : List Nat) : (s.logEv code die sev data).reclaimed = s.reclaimed := by rw [State.logEv_eq]
@[simp] theorem State.logEv_beats (s : State) (code die sev : Nat) (data : List Nat) : (s.logEv code die sev data).beats = s.beats := by rw [State.logEv_eq]
@[simp] theorem State.logEv_host (s : State) (code die sev : Nat) (data : List Nat) : (s.logEv code die sev data).host = s.host := by rw [State.logEv_eq]
@[simp] theorem State.logEv_hostBusy (s : State) (code die sev : Nat) (data : List Nat) : (s.logEv code die sev data).hostBusy = s.hostBusy := by rw [State.logEv_eq]
@[simp] theorem State.logEv_hostQ (s : State) (code die sev : Nat) (data : List Nat) : (s.logEv code die sev data).hostQ = s.hostQ := by rw [State.logEv_eq]
@[simp] theorem State.logEv_snoopQ (s : State) (code die sev : Nat) (data : List Nat) : (s.logEv code die sev data).snoopQ = s.snoopQ := by rw [State.logEv_eq]
@[simp] theorem State.logEv_snoopIn (s : State) (code die sev : Nat) (data : List Nat) : (s.logEv code die sev data).snoopIn = s.snoopIn := by rw [State.logEv_eq]
@[simp] theorem State.logEv_hostOut (s : State) (code die sev : Nat) (data : List Nat) : (s.logEv code die sev data).hostOut = s.hostOut := by rw [State.logEv_eq]
@[simp] theorem State.logEv_xlt (s : State) (code die sev : Nat) (data : List Nat) : (s.logEv code die sev data).xlt = s.xlt := by rw [State.logEv_eq]
@[simp] theorem State.logEv_chans (s : State) (code die sev : Nat) (data : List Nat) : (s.logEv code die sev data).chans = s.chans := by rw [State.logEv_eq]
@[simp] theorem State.logEv_remap (s : State) (code die sev : Nat) (data : List Nat) : (s.logEv code die sev data).remap = s.remap := by rw [State.logEv_eq]
@[simp] theorem State.logEv_hbm (s : State) (code die sev : Nat) (data : List Nat) : (s.logEv code die sev data).hbm = s.hbm := by rw [State.logEv_eq]
@[simp] theorem State.logEv_tmax (s : State) (code die sev : Nat) (data : List Nat) : (s.logEv code die sev data).tmax = s.tmax := by rw [State.logEv_eq]
@[simp] theorem State.logEv_cols (s : State) (code die sev : Nat) (data : List Nat) : (s.logEv code die sev data).cols = s.cols := by rw [State.logEv_eq]
@[simp] theorem State.logEv_tokens (s : State) (code die sev : Nat) (data : List Nat) : (s.logEv code die sev data).tokens = s.tokens := by rw [State.logEv_eq]
@[simp] theorem State.logEv_held (s : State) (code die sev : Nat) (data : List Nat) : (s.logEv code die sev data).held = s.held := by rw [State.logEv_eq]
@[simp] theorem State.logEv_asks (s : State) (code die sev : Nat) (data : List Nat) : (s.logEv code die sev data).asks = s.asks := by rw [State.logEv_eq]
@[simp] theorem State.logEv_colSat (s : State) (code die sev : Nat) (data : List Nat) : (s.logEv code die sev data).colSat = s.colSat := by rw [State.logEv_eq]
@[simp] theorem State.logEv_links (s : State) (code die sev : Nat) (data : List Nat) : (s.logEv code die sev data).links = s.links := by rw [State.logEv_eq]
@[simp] theorem State.logEv_rdgRoute (s : State) (code die sev : Nat) (data : List Nat) : (s.logEv code die sev data).rdgRoute = s.rdgRoute := by rw [State.logEv_eq]
@[simp] theorem State.logEv_rdgWin (s : State) (code die sev : Nat) (data : List Nat) : (s.logEv code die sev data).rdgWin = s.rdgWin := by rw [State.logEv_eq]
@[simp] theorem State.logEv_plans (s : State) (code die sev : Nat) (data : List Nat) : (s.logEv code die sev data).plans = s.plans := by rw [State.logEv_eq]
@[simp] theorem State.logEv_holds (s : State) (code die sev : Nat) (data : List Nat) : (s.logEv code die sev data).holds = s.holds := by rw [State.logEv_eq]
@[simp] theorem State.logEv_chunkOut (s : State) (code die sev : Nat) (data : List Nat) : (s.logEv code die sev data).chunkOut = s.chunkOut := by rw [State.logEv_eq]
@[simp] theorem State.logEv_chunkRsp (s : State) (code die sev : Nat) (data : List Nat) : (s.logEv code die sev data).chunkRsp = s.chunkRsp := by rw [State.logEv_eq]
@[simp] theorem State.logEv_bcasts (s : State) (code die sev : Nat) (data : List Nat) : (s.logEv code die sev data).bcasts = s.bcasts := by rw [State.logEv_eq]
@[simp] theorem State.logEv_bcOut (s : State) (code die sev : Nat) (data : List Nat) : (s.logEv code die sev data).bcOut = s.bcOut := by rw [State.logEv_eq]
@[simp] theorem State.logEv_starts (s : State) (code die sev : Nat) (data : List Nat) : (s.logEv code die sev data).starts = s.starts := by rw [State.logEv_eq]
@[simp] theorem State.logEv_rdgIn (s : State) (code die sev : Nat) (data : List Nat) : (s.logEv code die sev data).rdgIn = s.rdgIn := by rw [State.logEv_eq]
@[simp] theorem State.logEv_rdgOut (s : State) (code die sev : Nat) (data : List Nat) : (s.logEv code die sev data).rdgOut = s.rdgOut := by rw [State.logEv_eq]
@[simp] theorem State.logEv_power (s : State) (code die sev : Nat) (data : List Nat) : (s.logEv code die sev data).power = s.power := by rw [State.logEv_eq]
@[simp] theorem State.logEv_fb (s : State) (code die sev : Nat) (data : List Nat) : (s.logEv code die sev data).fb = s.fb := by rw [State.logEv_eq]
@[simp] theorem State.logEv_cores (s : State) (code die sev : Nat) (data : List Nat) : (s.logEv code die sev data).cores = s.cores := by rw [State.logEv_eq]
@[simp] theorem State.logEv_dbgUnit (s : State) (code die sev : Nat) (data : List Nat) : (s.logEv code die sev data).dbgUnit = s.dbgUnit := by rw [State.logEv_eq]
@[simp] theorem State.logEv_jtag (s : State) (code die sev : Nat) (data : List Nat) : (s.logEv code die sev data).jtag = s.jtag := by rw [State.logEv_eq]
@[simp] theorem State.logEv_fresh (s : State) (code die sev : Nat) (data : List Nat) : (s.logEv code die sev data).fresh = s.fresh := by rw [State.logEv_eq]

/-- The end of a command touches its port, the route table and pending interrupts alone. -/
theorem State.finish_eq (s : State) (p : Port) (st : Nat) (r : List Byte) : s.finish p st r = { s with
    portH := (s.finish p st r).portH, portB := (s.finish p st r).portB, portN := (s.finish p st r).portN,
    routes := (s.finish p st r).routes, imsic := (s.finish p st r).imsic } := by
  unfold State.finish
  dsimp only
  split
  · cases p <;> rfl
  · cases p
    · dsimp only
      split
      · split <;> rfl
      · rfl
    · rfl
    · dsimp only
      rw [State.raise_eq]
      rfl

/-! Fields that `State.finish` keeps. -/

@[simp] theorem State.finish_pending (s : State) (p : Port) (st : Nat) (r : List Byte) : (s.finish p st r).pending = s.pending := by rw [State.finish_eq]
@[simp] theorem State.finish_plat (s : State) (p : Port) (st : Nat) (r : List Byte) : (s.finish p st r).plat = s.plat := by rw [State.finish_eq]
@[simp] theorem State.finish_fuses (s : State) (p : Port) (st : Nat) (r : List Byte) : (s.finish p st r).fuses = s.fuses := by rw [State.finish_eq]
@[simp] theorem State.finish_cfg (s : State) (p : Port) (st : Nat) (r : List Byte) : (s.finish p st r).cfg = s.cfg := by rw [State.finish_eq]
@[simp] theorem State.finish_cairn (s : State) (p : Port) (st : Nat) (r : List Byte) : (s.finish p st r).cairn = s.cairn := by rw [State.finish_eq]
@[simp] theorem State.finish_time (s : State) (p : Port) (st : Nat) (r : List Byte) : (s.finish p st r).time = s.time := by rw [State.finish_eq]
@[simp] theorem State.finish_tally (s : State) (p : Port) (st : Nat) (r : List Byte) : (s.finish p st r).tally = s.tally := by rw [State.finish_eq]
@[simp] theorem State.finish_log (s : State) (p : Port) (st : Nat) (r : List Byte) : (s.finish p st r).log = s.log := by rw [State.finish_eq]
@[simp] theorem State.finish_logSeq (s : State) (p : Port) (st : Nat) (r : List Byte) : (s.finish p st r).logSeq = s.logSeq := by rw [State.finish_eq]
@[simp] theorem State.finish_acts (s : State) (p : Port) (st : Nat) (r : List Byte) : (s.finish p st r).acts = s.acts := by rw [State.finish_eq]
@[simp] theorem State.finish_actNum (s : State) (p : Port) (st : Nat) (r : List Byte) : (s.finish p st r).actNum = s.actNum := by rw [State.finish_eq]
@[simp] theorem State.finish_trapTail (s : State) (p : Port) (st : Nat) (r : List Byte) : (s.finish p st r).trapTail = s.trapTail := by rw [State.finish_eq]
@[simp] theorem State.finish_trapHead (s : State) (p : Port) (st : Nat) (r : List Byte) : (s.finish p st r).trapHead = s.trapHead := by rw [State.finish_eq]
@[simp] theorem State.finish_trapWait (s : State) (p : Port) (st : Nat) (r : List Byte) : (s.finish p st r).trapWait = s.trapWait := by rw [State.finish_eq]
@[simp] theorem State.finish_streams (s : State) (p : Port) (st : Nat) (r : List Byte) : (s.finish p st r).streams = s.streams := by rw [State.finish_eq]
@[simp] theorem State.finish_launches (s : State) (p : Port) (st : Nat) (r : List Byte) : (s.finish p st r).launches = s.launches := by rw [State.finish_eq]
@[simp] theorem State.finish_launchNum (s : State) (p : Port) (st : Nat) (r : List Byte) : (s.finish p st r).launchNum = s.launchNum := by rw [State.finish_eq]
@[simp] theorem State.finish_tiles (s : State) (p : Port) (st : Nat) (r : List Byte) : (s.finish p st r).tiles = s.tiles := by rw [State.finish_eq]
@[simp] theorem State.finish_heavy (s : State) (p : Port) (st : Nat) (r : List Byte) : (s.finish p st r).heavy = s.heavy := by rw [State.finish_eq]
@[simp] theorem State.finish_serial (s : State) (p : Port) (st : Nat) (r : List Byte) : (s.finish p st r).serial = s.serial := by rw [State.finish_eq]
@[simp] theorem State.finish_landing (s : State) (p : Port) (st : Nat) (r : List Byte) : (s.finish p st r).landing = s.landing := by rw [State.finish_eq]
@[simp] theorem State.finish_dram (s : State) (p : Port) (st : Nat) (r : List Byte) : (s.finish p st r).dram = s.dram := by rw [State.finish_eq]
@[simp] theorem State.finish_reqs (s : State) (p : Port) (st : Nat) (r : List Byte) : (s.finish p st r).reqs = s.reqs := by rw [State.finish_eq]
@[simp] theorem State.finish_reqNum (s : State) (p : Port) (st : Nat) (r : List Byte) : (s.finish p st r).reqNum = s.reqNum := by rw [State.finish_eq]
@[simp] theorem State.finish_ansNum (s : State) (p : Port) (st : Nat) (r : List Byte) : (s.finish p st r).ansNum = s.ansNum := by rw [State.finish_eq]
@[simp] theorem State.finish_slices (s : State) (p : Port) (st : Nat) (r : List Byte) : (s.finish p st r).slices = s.slices := by rw [State.finish_eq]
@[simp] theorem State.finish_msgs (s : State) (p : Port) (st : Nat) (r : List Byte) : (s.finish p st r).msgs = s.msgs := by rw [State.finish_eq]
@[simp] theorem State.finish_agents (s : State) (p : Port) (st : Nat) (r : List Byte) : (s.finish p st r).agents = s.agents := by rw [State.finish_eq]
@[simp] theorem State.finish_dead (s : State) (p : Port) (st : Nat) (r : List Byte) : (s.finish p st r).dead = s.dead := by rw [State.finish_eq]
@[simp] theorem State.finish_notices (s : State) (p : Port) (st : Nat) (r : List Byte) : (s.finish p st r).notices = s.notices := by rw [State.finish_eq]
@[simp] theorem State.finish_rejoin (s : State) (p : Port) (st : Nat) (r : List Byte) : (s.finish p st r).rejoin = s.rejoin := by rw [State.finish_eq]
@[simp] theorem State.finish_reclaimed (s : State) (p : Port) (st : Nat) (r : List Byte) : (s.finish p st r).reclaimed = s.reclaimed := by rw [State.finish_eq]
@[simp] theorem State.finish_beats (s : State) (p : Port) (st : Nat) (r : List Byte) : (s.finish p st r).beats = s.beats := by rw [State.finish_eq]
@[simp] theorem State.finish_host (s : State) (p : Port) (st : Nat) (r : List Byte) : (s.finish p st r).host = s.host := by rw [State.finish_eq]
@[simp] theorem State.finish_hostBusy (s : State) (p : Port) (st : Nat) (r : List Byte) : (s.finish p st r).hostBusy = s.hostBusy := by rw [State.finish_eq]
@[simp] theorem State.finish_hostQ (s : State) (p : Port) (st : Nat) (r : List Byte) : (s.finish p st r).hostQ = s.hostQ := by rw [State.finish_eq]
@[simp] theorem State.finish_snoopQ (s : State) (p : Port) (st : Nat) (r : List Byte) : (s.finish p st r).snoopQ = s.snoopQ := by rw [State.finish_eq]
@[simp] theorem State.finish_snoopIn (s : State) (p : Port) (st : Nat) (r : List Byte) : (s.finish p st r).snoopIn = s.snoopIn := by rw [State.finish_eq]
@[simp] theorem State.finish_hostOut (s : State) (p : Port) (st : Nat) (r : List Byte) : (s.finish p st r).hostOut = s.hostOut := by rw [State.finish_eq]
@[simp] theorem State.finish_xlt (s : State) (p : Port) (st : Nat) (r : List Byte) : (s.finish p st r).xlt = s.xlt := by rw [State.finish_eq]
@[simp] theorem State.finish_chans (s : State) (p : Port) (st : Nat) (r : List Byte) : (s.finish p st r).chans = s.chans := by rw [State.finish_eq]
@[simp] theorem State.finish_remap (s : State) (p : Port) (st : Nat) (r : List Byte) : (s.finish p st r).remap = s.remap := by rw [State.finish_eq]
@[simp] theorem State.finish_hbm (s : State) (p : Port) (st : Nat) (r : List Byte) : (s.finish p st r).hbm = s.hbm := by rw [State.finish_eq]
@[simp] theorem State.finish_tmax (s : State) (p : Port) (st : Nat) (r : List Byte) : (s.finish p st r).tmax = s.tmax := by rw [State.finish_eq]
@[simp] theorem State.finish_cols (s : State) (p : Port) (st : Nat) (r : List Byte) : (s.finish p st r).cols = s.cols := by rw [State.finish_eq]
@[simp] theorem State.finish_tokens (s : State) (p : Port) (st : Nat) (r : List Byte) : (s.finish p st r).tokens = s.tokens := by rw [State.finish_eq]
@[simp] theorem State.finish_held (s : State) (p : Port) (st : Nat) (r : List Byte) : (s.finish p st r).held = s.held := by rw [State.finish_eq]
@[simp] theorem State.finish_asks (s : State) (p : Port) (st : Nat) (r : List Byte) : (s.finish p st r).asks = s.asks := by rw [State.finish_eq]
@[simp] theorem State.finish_colSat (s : State) (p : Port) (st : Nat) (r : List Byte) : (s.finish p st r).colSat = s.colSat := by rw [State.finish_eq]
@[simp] theorem State.finish_links (s : State) (p : Port) (st : Nat) (r : List Byte) : (s.finish p st r).links = s.links := by rw [State.finish_eq]
@[simp] theorem State.finish_rdgRoute (s : State) (p : Port) (st : Nat) (r : List Byte) : (s.finish p st r).rdgRoute = s.rdgRoute := by rw [State.finish_eq]
@[simp] theorem State.finish_rdgWin (s : State) (p : Port) (st : Nat) (r : List Byte) : (s.finish p st r).rdgWin = s.rdgWin := by rw [State.finish_eq]
@[simp] theorem State.finish_plans (s : State) (p : Port) (st : Nat) (r : List Byte) : (s.finish p st r).plans = s.plans := by rw [State.finish_eq]
@[simp] theorem State.finish_holds (s : State) (p : Port) (st : Nat) (r : List Byte) : (s.finish p st r).holds = s.holds := by rw [State.finish_eq]
@[simp] theorem State.finish_chunkOut (s : State) (p : Port) (st : Nat) (r : List Byte) : (s.finish p st r).chunkOut = s.chunkOut := by rw [State.finish_eq]
@[simp] theorem State.finish_chunkRsp (s : State) (p : Port) (st : Nat) (r : List Byte) : (s.finish p st r).chunkRsp = s.chunkRsp := by rw [State.finish_eq]
@[simp] theorem State.finish_bcasts (s : State) (p : Port) (st : Nat) (r : List Byte) : (s.finish p st r).bcasts = s.bcasts := by rw [State.finish_eq]
@[simp] theorem State.finish_bcOut (s : State) (p : Port) (st : Nat) (r : List Byte) : (s.finish p st r).bcOut = s.bcOut := by rw [State.finish_eq]
@[simp] theorem State.finish_starts (s : State) (p : Port) (st : Nat) (r : List Byte) : (s.finish p st r).starts = s.starts := by rw [State.finish_eq]
@[simp] theorem State.finish_rdgIn (s : State) (p : Port) (st : Nat) (r : List Byte) : (s.finish p st r).rdgIn = s.rdgIn := by rw [State.finish_eq]
@[simp] theorem State.finish_rdgOut (s : State) (p : Port) (st : Nat) (r : List Byte) : (s.finish p st r).rdgOut = s.rdgOut := by rw [State.finish_eq]
@[simp] theorem State.finish_power (s : State) (p : Port) (st : Nat) (r : List Byte) : (s.finish p st r).power = s.power := by rw [State.finish_eq]
@[simp] theorem State.finish_fb (s : State) (p : Port) (st : Nat) (r : List Byte) : (s.finish p st r).fb = s.fb := by rw [State.finish_eq]
@[simp] theorem State.finish_cores (s : State) (p : Port) (st : Nat) (r : List Byte) : (s.finish p st r).cores = s.cores := by rw [State.finish_eq]
@[simp] theorem State.finish_dbgUnit (s : State) (p : Port) (st : Nat) (r : List Byte) : (s.finish p st r).dbgUnit = s.dbgUnit := by rw [State.finish_eq]
@[simp] theorem State.finish_jtag (s : State) (p : Port) (st : Nat) (r : List Byte) : (s.finish p st r).jtag = s.jtag := by rw [State.finish_eq]
@[simp] theorem State.finish_fresh (s : State) (p : Port) (st : Nat) (r : List Byte) : (s.finish p st r).fresh = s.fresh := by rw [State.finish_eq]

end Sys2Proof.Machine
end

