-- ==== Sys2Proof/Laws/Ports.lean ====
section
/-! SUPPORT. What an Ebior packet does on a port: it is taken and its own part runs, a check fails, or the port is busy. -/

namespace Sys2Proof.Machine

/-- A packet that a port takes and whose checks pass runs its own part. -/
theorem State.ebior_accepts {s : State} {op : Nat} {p : Port} {k : Packet} (own : State → EbOut) (h : s.accepts op p k = true) :
    s.ebior op p k own = (match own (s.began op p k) with | .reply st res t => t.finish p st res | .hold t => t) := by
  simp only [State.accepts, Bool.and_eq_true, Bool.not_eq_true', Option.isNone_iff_eq_none] at h
  obtain ⟨⟨⟨h1, h2⟩, h3⟩, h4⟩ := h
  simp [State.ebior, State.serve, h1, h2, h3, h4, State.began] <;> rfl

/-- A failed check is answered, and nothing else happens. -/
theorem State.ebior_refused {s : State} {op : Nat} {p : Port} {k : Packet} {st : Nat} (own : State → EbOut) (h1 : s.reach p = true)
    (h2 : (s.port p).busy = false) (h3 : s.cairn.restarting = false) (h4 : ebCheck op p k s.plat.stage = some st) :
    s.ebior op p k own = (s.began op p k).finish p st [] := by
  simp [State.ebior, State.serve, h1, h2, h3, h4, State.began]

/-- The CRC register stays within 32 bits. -/
theorem crcBits_lt (k c : Nat) (h : c < 2 ^ 32) : crcBits k c < 2 ^ 32 := by
  induction k generalizing c with
  | zero => exact h
  | succ k ih =>
    unfold crcBits
    apply ih
    split
    · exact Nat.xor_lt_two_pow (Nat.lt_of_le_of_lt (Nat.div_le_self c 2) h) (by decide)
    · exact Nat.lt_of_le_of_lt (Nat.div_le_self c 2) h

theorem crcRun_lt (c : Nat) (l : List Byte) (h : c < 2 ^ 32) : crcRun c l < 2 ^ 32 := by
  induction l generalizing c with
  | nil => exact h
  | cons b r ih =>
    exact ih _ (crcBits_lt 8 _ (Nat.xor_lt_two_pow h (Nat.lt_trans b.isLt (by decide))))

/-- A CRC-32C is a 32-bit value. -/
theorem crc32c_lt (l : List Byte) : crc32c l < 2 ^ 32 := Nat.xor_lt_two_pow (crcRun_lt _ l (by decide)) (by decide)

end Sys2Proof.Machine
end

