-- ==== Sys2Proof/Laws/Tables.lean ====
section
/-! SUPPORT. Reading a table after it was written. -/

namespace Sys2Proof.Machine

/-- The entry just set is found. -/
@[simp] theorem alFind_alPut_self {α : Type} (t : Sparse α) (n : Nat) (v : α) : alFind (alPut t n v) n = some v := by
  induction t with
  | nil => simp [alPut, alFind]
  | cons e r ih =>
    obtain ⟨k, w⟩ := e
    unfold alPut
    split
    · simp [alFind]
    · split
      · simp [alFind]
      · simp_all [alFind]

/-- Setting one key leaves every other key as it was. -/
theorem alFind_alPut_ne {α : Type} (t : Sparse α) (n m : Nat) (v : α) (h : m ≠ n) : alFind (alPut t n v) m = alFind t m := by
  induction t with
  | nil => simp [alPut, alFind, h.symm]
  | cons e r ih =>
    obtain ⟨k, w⟩ := e
    unfold alPut
    split
    · rename_i hk
      subst hk
      simp [alFind, h.symm]
    · split
      · simp [alFind, h.symm]
      · by_cases hm : k = m <;> simp_all [alFind]

/-- Reading any key after one was set. -/
theorem alFind_alPut {α : Type} (t : Sparse α) (n m : Nat) (v : α) :
    alFind (alPut t n v) m = if m = n then some v else alFind t m := by
  split
  · rename_i h
    rw [h, alFind_alPut_self]
  · rename_i h
    exact alFind_alPut_ne t n m v h

@[simp] theorem alGet_alPut_self {α : Type} (d : α) (t : Sparse α) (n : Nat) (v : α) : alGet d (alPut t n v) n = v := by
  simp [alGet]

theorem alGet_alPut_ne {α : Type} (d : α) (t : Sparse α) (n m : Nat) (v : α) (h : m ≠ n) :
    alGet d (alPut t n v) m = alGet d t m := by
  simp [alGet, alFind_alPut_ne t n m v h]

theorem alGet_alPut {α : Type} (d : α) (t : Sparse α) (n m : Nat) (v : α) :
    alGet d (alPut t n v) m = if m = n then v else alGet d t m := by
  unfold alGet
  rw [alFind_alPut]
  split <;> rfl

/-- A removed key is not found. -/
@[simp] theorem alFind_alDel_self {α : Type} (t : Sparse α) (n : Nat) : alFind (alDel t n) n = none := by
  unfold alDel
  induction t with
  | nil => rfl
  | cons e r ih =>
    obtain ⟨k, w⟩ := e
    by_cases h : k = n <;> simp_all [alFind]

/-- Removing one key leaves every other key as it was. -/
theorem alFind_alDel_ne {α : Type} (t : Sparse α) (n m : Nat) (h : m ≠ n) : alFind (alDel t n) m = alFind t m := by
  unfold alDel
  induction t with
  | nil => rfl
  | cons e r ih =>
    obtain ⟨k, w⟩ := e
    by_cases hk : k = n <;> by_cases hm : k = m <;> simp_all [alFind]

/-- A changed entry as it reads after. -/
@[simp] theorem alGet_alMod_self {α : Type} (d : α) (t : Sparse α) (n : Nat) (f : α → α) :
    alGet d (alMod d t n f) n = f (alGet d t n) := by
  simp [alMod]

end Sys2Proof.Machine
end

