-- ==== Sys2Proof/Laws/Power.lean ====
section
/-! SUPPORT. What clock changes and decisions of a die controller leave as it was. -/

namespace Sys2Proof.Machine

@[simp] theorem State.setDie_die_self (s : State) (n : Nat) (d : DieFb) : (s.setDie n d).die n = d := by simp [State.die, State.setDie]

/-- Setting one controller leaves the others. -/
theorem State.setDie_die (s : State) (n m : Nat) (d : DieFb) : (s.setDie n d).die m = if m = n then d else s.die m := by
  simp only [State.die, State.setDie, alGet_alPut]

@[simp] theorem State.count_die (s : State) (k n m : Nat) : (s.count k n).die m = s.die m := by simp [State.die]

/-- A clock change sets the point of its die and nothing else of any controller. -/
theorem State.setOp_die (s : State) (n k m : Nat) : (s.setOp n k).die m = if m = n then { s.die n with op := k } else s.die m := by
  unfold State.setOp
  dsimp only
  split
  · rename_i h
    split
    · rename_i hm
      rw [hm, ← h]
    · rfl
  · rw [State.count_die, State.setDie_die]

/-- The points of the four dies after all were set to OP0. -/
theorem State.allOp0_die (s : State) (n : Nat) :
    ((List.range 4).foldl (fun (t : State) k => t.setOp k 0) s).die n = if n < 4 then { s.die n with op := 0 } else s.die n := by
  by_cases h : n < 4
  · rw [if_pos h]
    rcases n with _ | _ | _ | _ | n
    all_goals first | omega | simp [List.range, List.range.loop, State.setOp_die]
  · rw [if_neg h]
    simp only [List.range, List.range.loop, List.foldl, State.setOp_die]
    repeat rw [if_neg (by omega)]

/-- A decision sets the target, the point moved towards and the point of its die, and nothing else of any controller. -/
theorem State.moveClock_die (s : State) (n m : Nat) :
    (s.moveClock n).die m = if m = n then { s.die n with op := ((s.moveClock n).die n).op } else s.die m := by
  unfold State.moveClock
  dsimp only
  split
  · by_cases h : m = n <;> simp [State.setOp_die, h]
  · split
    · by_cases h : m = n <;> simp [State.setOp_die, h]
    · by_cases h : m = n <;> simp [h]

/-- Counting unmet hints marks hints of its die and nothing else of any controller. -/
theorem State.unmetHints_die (s : State) (n m : Nat) :
    (s.unmetHints n).die m = if m = n then { s.die n with hints := ((s.unmetHints n).die n).hints } else s.die m := by
  unfold State.unmetHints
  dsimp only
  split
  · by_cases h : m = n <;> simp [h]
  · by_cases h : m = n <;> simp [h, State.setDie_die]

theorem State.decideOp_die (s : State) (n m : Nat) :
    (s.decideOp n).die m = if m = n then { s.die n with
      tgt := ((s.decideOp n).die n).tgt, goal := ((s.decideOp n).die n).goal, op := ((s.decideOp n).die n).op,
      hints := ((s.decideOp n).die n).hints } else s.die m := by
  unfold State.decideOp
  split
  · dsimp only
    rw [State.unmetHints_die, State.unmetHints_die _ n n, if_pos rfl, State.moveClock_die _ n m, State.moveClock_die _ n n]
    by_cases h : m = n <;> simp [h, State.setDie_die]
  · by_cases h : m = n <;> simp [h]

theorem State.ceilingFell_die (s : State) (n old m : Nat) :
    (s.ceilingFell n old).die m = if m = n then { s.die n with
      tgt := ((s.ceilingFell n old).die n).tgt, goal := ((s.ceilingFell n old).die n).goal, op := ((s.ceilingFell n old).die n).op,
      hints := ((s.ceilingFell n old).die n).hints } else s.die m := by
  unfold State.ceilingFell
  split
  · exact State.decideOp_die s n m
  · by_cases h : m = n <;> simp [h]

/-! Fields that `State.setOp` keeps. -/

@[simp] theorem State.setOp_pending (s : State) (n k : Nat) : (s.setOp n k).pending = s.pending := by unfold State.setOp; dsimp only; split <;> simp
@[simp] theorem State.setOp_plat (s : State) (n k : Nat) : (s.setOp n k).plat = s.plat := by unfold State.setOp; dsimp only; split <;> simp
@[simp] theorem State.setOp_fuses (s : State) (n k : Nat) : (s.setOp n k).fuses = s.fuses := by unfold State.setOp; dsimp only; split <;> simp
@[simp] theorem State.setOp_portH (s : State) (n k : Nat) : (s.setOp n k).portH = s.portH := by unfold State.setOp; dsimp only; split <;> simp
@[simp] theorem State.setOp_portB (s : State) (n k : Nat) : (s.setOp n k).portB = s.portB := by unfold State.setOp; dsimp only; split <;> simp
@[simp] theorem State.setOp_portN (s : State) (n k : Nat) : (s.setOp n k).portN = s.portN := by unfold State.setOp; dsimp only; split <;> simp
@[simp] theorem State.setOp_cfg (s : State) (n k : Nat) : (s.setOp n k).cfg = s.cfg := by unfold State.setOp; dsimp only; split <;> simp
@[simp] theorem State.setOp_cairn (s : State) (n k : Nat) : (s.setOp n k).cairn = s.cairn := by unfold State.setOp; dsimp only; split <;> simp
@[simp] theorem State.setOp_time (s : State) (n k : Nat) : (s.setOp n k).time = s.time := by unfold State.setOp; dsimp only; split <;> simp
@[simp] theorem State.setOp_log (s : State) (n k : Nat) : (s.setOp n k).log = s.log := by unfold State.setOp; dsimp only; split <;> simp
@[simp] theorem State.setOp_logSeq (s : State) (n k : Nat) : (s.setOp n k).logSeq = s.logSeq := by unfold State.setOp; dsimp only; split <;> simp
@[simp] theorem State.setOp_acts (s : State) (n k : Nat) : (s.setOp n k).acts = s.acts := by unfold State.setOp; dsimp only; split <;> simp
@[simp] theorem State.setOp_actNum (s : State) (n k : Nat) : (s.setOp n k).actNum = s.actNum := by unfold State.setOp; dsimp only; split <;> simp
@[simp] theorem State.setOp_routes (s : State) (n k : Nat) : (s.setOp n k).routes = s.routes := by unfold State.setOp; dsimp only; split <;> simp
@[simp] theorem State.setOp_imsic (s : State) (n k : Nat) : (s.setOp n k).imsic = s.imsic := by unfold State.setOp; dsimp only; split <;> simp
@[simp] theorem State.setOp_trapTail (s : State) (n k : Nat) : (s.setOp n k).trapTail = s.trapTail := by unfold State.setOp; dsimp only; split <;> simp
@[simp] theorem State.setOp_trapHead (s : State) (n k : Nat) : (s.setOp n k).trapHead = s.trapHead := by unfold State.setOp; dsimp only; split <;> simp
@[simp] theorem State.setOp_trapWait (s : State) (n k : Nat) : (s.setOp n k).trapWait = s.trapWait := by unfold State.setOp; dsimp only; split <;> simp
@[simp] theorem State.setOp_streams (s : State) (n k : Nat) : (s.setOp n k).streams = s.streams := by unfold State.setOp; dsimp only; split <;> simp
@[simp] theorem State.setOp_launches (s : State) (n k : Nat) : (s.setOp n k).launches = s.launches := by unfold State.setOp; dsimp only; split <;> simp
@[simp] theorem State.setOp_launchNum (s : State) (n k : Nat) : (s.setOp n k).launchNum = s.launchNum := by unfold State.setOp; dsimp only; split <;> simp
@[simp] theorem State.setOp_tiles (s : State) (n k : Nat) : (s.setOp n k).tiles = s.tiles := by unfold State.setOp; dsimp only; split <;> simp
@[simp] theorem State.setOp_heavy (s : State) (n k : Nat) : (s.setOp n k).heavy = s.heavy := by unfold State.setOp; dsimp only; split <;> simp
@[simp] theorem State.setOp_serial (s : State) (n k : Nat) : (s.setOp n k).serial = s.serial := by unfold State.setOp; dsimp only; split <;> simp
@[simp] theorem State.setOp_landing (s : State) (n k : Nat) : (s.setOp n k).landing = s.landing := by unfold State.setOp; dsimp only; split <;> simp
@[simp] theorem State.setOp_dram (s : State) (n k : Nat) : (s.setOp n k).dram = s.dram := by unfold State.setOp; dsimp only; split <;> simp
@[simp] theorem State.setOp_reqs (s : State) (n k : Nat) : (s.setOp n k).reqs = s.reqs := by unfold State.setOp; dsimp only; split <;> simp
@[simp] theorem State.setOp_reqNum (s : State) (n k : Nat) : (s.setOp n k).reqNum = s.reqNum := by unfold State.setOp; dsimp only; split <;> simp
@[simp] theorem State.setOp_ansNum (s : State) (n k : Nat) : (s.setOp n k).ansNum = s.ansNum := by unfold State.setOp; dsimp only; split <;> simp
@[simp] theorem State.setOp_slices (s : State) (n k : Nat) : (s.setOp n k).slices = s.slices := by unfold State.setOp; dsimp only; split <;> simp
@[simp] theorem State.setOp_msgs (s : State) (n k : Nat) : (s.setOp n k).msgs = s.msgs := by unfold State.setOp; dsimp only; split <;> simp
@[simp] theorem State.setOp_agents (s : State) (n k : Nat) : (s.setOp n k).agents = s.agents := by unfold State.setOp; dsimp only; split <;> simp
@[simp] theorem State.setOp_dead (s : State) (n k : Nat) : (s.setOp n k).dead = s.dead := by unfold State.setOp; dsimp only; split <;> simp
@[simp] theorem State.setOp_notices (s : State) (n k : Nat) : (s.setOp n k).notices = s.notices := by unfold State.setOp; dsimp only; split <;> simp
@[simp] theorem State.setOp_rejoin (s : State) (n k : Nat) : (s.setOp n k).rejoin = s.rejoin := by unfold State.setOp; dsimp only; split <;> simp
@[simp] theorem State.setOp_reclaimed (s : State) (n k : Nat) : (s.setOp n k).reclaimed = s.reclaimed := by unfold State.setOp; dsimp only; split <;> simp
@[simp] theorem State.setOp_beats (s : State) (n k : Nat) : (s.setOp n k).beats = s.beats := by unfold State.setOp; dsimp only; split <;> simp
@[simp] theorem State.setOp_host (s : State) (n k : Nat) : (s.setOp n k).host = s.host := by unfold State.setOp; dsimp only; split <;> simp
@[simp] theorem State.setOp_hostBusy (s : State) (n k : Nat) : (s.setOp n k).hostBusy = s.hostBusy := by unfold State.setOp; dsimp only; split <;> simp
@[simp] theorem State.setOp_hostQ (s : State) (n k : Nat) : (s.setOp n k).hostQ = s.hostQ := by unfold State.setOp; dsimp only; split <;> simp
@[simp] theorem State.setOp_snoopQ (s : State) (n k : Nat) : (s.setOp n k).snoopQ = s.snoopQ := by unfold State.setOp; dsimp only; split <;> simp
@[simp] theorem State.setOp_snoopIn (s : State) (n k : Nat) : (s.setOp n k).snoopIn = s.snoopIn := by unfold State.setOp; dsimp only; split <;> simp
@[simp] theorem State.setOp_hostOut (s : State) (n k : Nat) : (s.setOp n k).hostOut = s.hostOut := by unfold State.setOp; dsimp only; split <;> simp
@[simp] theorem State.setOp_xlt (s : State) (n k : Nat) : (s.setOp n k).xlt = s.xlt := by unfold State.setOp; dsimp only; split <;> simp
@[simp] theorem State.setOp_chans (s : State) (n k : Nat) : (s.setOp n k).chans = s.chans := by unfold State.setOp; dsimp only; split <;> simp
@[simp] theorem State.setOp_remap (s : State) (n k : Nat) : (s.setOp n k).remap = s.remap := by unfold State.setOp; dsimp only; split <;> simp
@[simp] theorem State.setOp_hbm (s : State) (n k : Nat) : (s.setOp n k).hbm = s.hbm := by unfold State.setOp; dsimp only; split <;> simp
@[simp] theorem State.setOp_tmax (s : State) (n k : Nat) : (s.setOp n k).tmax = s.tmax := by unfold State.setOp; dsimp only; split <;> simp
@[simp] theorem State.setOp_cols (s : State) (n k : Nat) : (s.setOp n k).cols = s.cols := by unfold State.setOp; dsimp only; split <;> simp
@[simp] theorem State.setOp_tokens (s : State) (n k : Nat) : (s.setOp n k).tokens = s.tokens := by unfold State.setOp; dsimp only; split <;> simp
@[simp] theorem State.setOp_held (s : State) (n k : Nat) : (s.setOp n k).held = s.held := by unfold State.setOp; dsimp only; split <;> simp
@[simp] theorem State.setOp_asks (s : State) (n k : Nat) : (s.setOp n k).asks = s.asks := by unfold State.setOp; dsimp only; split <;> simp
@[simp] theorem State.setOp_colSat (s : State) (n k : Nat) : (s.setOp n k).colSat = s.colSat := by unfold State.setOp; dsimp only; split <;> simp
@[simp] theorem State.setOp_links (s : State) (n k : Nat) : (s.setOp n k).links = s.links := by unfold State.setOp; dsimp only; split <;> simp
@[simp] theorem State.setOp_rdgRoute (s : State) (n k : Nat) : (s.setOp n k).rdgRoute = s.rdgRoute := by unfold State.setOp; dsimp only; split <;> simp
@[simp] theorem State.setOp_rdgWin (s : State) (n k : Nat) : (s.setOp n k).rdgWin = s.rdgWin := by unfold State.setOp; dsimp only; split <;> simp
@[simp] theorem State.setOp_plans (s : State) (n k : Nat) : (s.setOp n k).plans = s.plans := by unfold State.setOp; dsimp only; split <;> simp
@[simp] theorem State.setOp_holds (s : State) (n k : Nat) : (s.setOp n k).holds = s.holds := by unfold State.setOp; dsimp only; split <;> simp
@[simp] theorem State.setOp_chunkOut (s : State) (n k : Nat) : (s.setOp n k).chunkOut = s.chunkOut := by unfold State.setOp; dsimp only; split <;> simp
@[simp] theorem State.setOp_chunkRsp (s : State) (n k : Nat) : (s.setOp n k).chunkRsp = s.chunkRsp := by unfold State.setOp; dsimp only; split <;> simp
@[simp] theorem State.setOp_bcasts (s : State) (n k : Nat) : (s.setOp n k).bcasts = s.bcasts := by unfold State.setOp; dsimp only; split <;> simp
@[simp] theorem State.setOp_bcOut (s : State) (n k : Nat) : (s.setOp n k).bcOut = s.bcOut := by unfold State.setOp; dsimp only; split <;> simp
@[simp] theorem State.setOp_starts (s : State) (n k : Nat) : (s.setOp n k).starts = s.starts := by unfold State.setOp; dsimp only; split <;> simp
@[simp] theorem State.setOp_rdgIn (s : State) (n k : Nat) : (s.setOp n k).rdgIn = s.rdgIn := by unfold State.setOp; dsimp only; split <;> simp
@[simp] theorem State.setOp_rdgOut (s : State) (n k : Nat) : (s.setOp n k).rdgOut = s.rdgOut := by unfold State.setOp; dsimp only; split <;> simp
@[simp] theorem State.setOp_power (s : State) (n k : Nat) : (s.setOp n k).power = s.power := by unfold State.setOp; dsimp only; split <;> simp
@[simp] theorem State.setOp_cores (s : State) (n k : Nat) : (s.setOp n k).cores = s.cores := by unfold State.setOp; dsimp only; split <;> simp
@[simp] theorem State.setOp_dbgUnit (s : State) (n k : Nat) : (s.setOp n k).dbgUnit = s.dbgUnit := by unfold State.setOp; dsimp only; split <;> simp
@[simp] theorem State.setOp_jtag (s : State) (n k : Nat) : (s.setOp n k).jtag = s.jtag := by unfold State.setOp; dsimp only; split <;> simp
@[simp] theorem State.setOp_fresh (s : State) (n k : Nat) : (s.setOp n k).fresh = s.fresh := by unfold State.setOp; dsimp only; split <;> simp

/-! Fields that `State.moveClock` keeps. -/

@[simp] theorem State.moveClock_pending (s : State) (n : Nat) : (s.moveClock n).pending = s.pending := by unfold State.moveClock; dsimp only; (repeat' split) <;> simp
@[simp] theorem State.moveClock_plat (s : State) (n : Nat) : (s.moveClock n).plat = s.plat := by unfold State.moveClock; dsimp only; (repeat' split) <;> simp
@[simp] theorem State.moveClock_fuses (s : State) (n : Nat) : (s.moveClock n).fuses = s.fuses := by unfold State.moveClock; dsimp only; (repeat' split) <;> simp
@[simp] theorem State.moveClock_portH (s : State) (n : Nat) : (s.moveClock n).portH = s.portH := by unfold State.moveClock; dsimp only; (repeat' split) <;> simp
@[simp] theorem State.moveClock_portB (s : State) (n : Nat) : (s.moveClock n).portB = s.portB := by unfold State.moveClock; dsimp only; (repeat' split) <;> simp
@[simp] theorem State.moveClock_portN (s : State) (n : Nat) : (s.moveClock n).portN = s.portN := by unfold State.moveClock; dsimp only; (repeat' split) <;> simp
@[simp] theorem State.moveClock_cfg (s : State) (n : Nat) : (s.moveClock n).cfg = s.cfg := by unfold State.moveClock; dsimp only; (repeat' split) <;> simp
@[simp] theorem State.moveClock_cairn (s : State) (n : Nat) : (s.moveClock n).cairn = s.cairn := by unfold State.moveClock; dsimp only; (repeat' split) <;> simp
@[simp] theorem State.moveClock_time (s : State) (n : Nat) : (s.moveClock n).time = s.time := by unfold State.moveClock; dsimp only; (repeat' split) <;> simp
@[simp] theorem State.moveClock_log (s : State) (n : Nat) : (s.moveClock n).log = s.log := by unfold State.moveClock; dsimp only; (repeat' split) <;> simp
@[simp] theorem State.moveClock_logSeq (s : State) (n : Nat) : (s.moveClock n).logSeq = s.logSeq := by unfold State.moveClock; dsimp only; (repeat' split) <;> simp
@[simp] theorem State.moveClock_acts (s : State) (n : Nat) : (s.moveClock n).acts = s.acts := by unfold State.moveClock; dsimp only; (repeat' split) <;> simp
@[simp] theorem State.moveClock_actNum (s : State) (n : Nat) : (s.moveClock n).actNum = s.actNum := by unfold State.moveClock; dsimp only; (repeat' split) <;> simp
@[simp] theorem State.moveClock_routes (s : State) (n : Nat) : (s.moveClock n).routes = s.routes := by unfold State.moveClock; dsimp only; (repeat' split) <;> simp
@[simp] theorem State.moveClock_imsic (s : State) (n : Nat) : (s.moveClock n).imsic = s.imsic := by unfold State.moveClock; dsimp only; (repeat' split) <;> simp
@[simp] theorem State.moveClock_trapTail (s : State) (n : Nat) : (s.moveClock n).trapTail = s.trapTail := by unfold State.moveClock; dsimp only; (repeat' split) <;> simp
@[simp] theorem State.moveClock_trapHead (s : State) (n : Nat) : (s.moveClock n).trapHead = s.trapHead := by unfold State.moveClock; dsimp only; (repeat' split) <;> simp
@[simp] theorem State.moveClock_trapWait (s : State) (n : Nat) : (s.moveClock n).trapWait = s.trapWait := by unfold State.moveClock; dsimp only; (repeat' split) <;> simp
@[simp] theorem State.moveClock_streams (s : State) (n : Nat) : (s.moveClock n).streams = s.streams := by unfold State.moveClock; dsimp only; (repeat' split) <;> simp
@[simp] theorem State.moveClock_launches (s : State) (n : Nat) : (s.moveClock n).launches = s.launches := by unfold State.moveClock; dsimp only; (repeat' split) <;> simp
@[simp] theorem State.moveClock_launchNum (s : State) (n : Nat) : (s.moveClock n).launchNum = s.launchNum := by unfold State.moveClock; dsimp only; (repeat' split) <;> simp
@[simp] theorem State.moveClock_tiles (s : State) (n : Nat) : (s.moveClock n).tiles = s.tiles := by unfold State.moveClock; dsimp only; (repeat' split) <;> simp
@[simp] theorem State.moveClock_heavy (s : State) (n : Nat) : (s.moveClock n).heavy = s.heavy := by unfold State.moveClock; dsimp only; (repeat' split) <;> simp
@[simp] theorem State.moveClock_serial (s : State) (n : Nat) : (s.moveClock n).serial = s.serial := by unfold State.moveClock; dsimp only; (repeat' split) <;> simp
@[simp] theorem State.moveClock_landing (s : State) (n : Nat) : (s.moveClock n).landing = s.landing := by unfold State.moveClock; dsimp only; (repeat' split) <;> simp
@[simp] theorem State.moveClock_dram (s : State) (n : Nat) : (s.moveClock n).dram = s.dram := by unfold State.moveClock; dsimp only; (repeat' split) <;> simp
@[simp] theorem State.moveClock_reqs (s : State) (n : Nat) : (s.moveClock n).reqs = s.reqs := by unfold State.moveClock; dsimp only; (repeat' split) <;> simp
@[simp] theorem State.moveClock_reqNum (s : State) (n : Nat) : (s.moveClock n).reqNum = s.reqNum := by unfold State.moveClock; dsimp only; (repeat' split) <;> simp
@[simp] theorem State.moveClock_ansNum (s : State) (n : Nat) : (s.moveClock n).ansNum = s.ansNum := by unfold State.moveClock; dsimp only; (repeat' split) <;> simp
@[simp] theorem State.moveClock_slices (s : State) (n : Nat) : (s.moveClock n).slices = s.slices := by unfold State.moveClock; dsimp only; (repeat' split) <;> simp
@[simp] theorem State.moveClock_msgs (s : State) (n : Nat) : (s.moveClock n).msgs = s.msgs := by unfold State.moveClock; dsimp only; (repeat' split) <;> simp
@[simp] theorem State.moveClock_agents (s : State) (n : Nat) : (s.moveClock n).agents = s.agents := by unfold State.moveClock; dsimp only; (repeat' split) <;> simp
@[simp] theorem State.moveClock_dead (s : State) (n : Nat) : (s.moveClock n).dead = s.dead := by unfold State.moveClock; dsimp only; (repeat' split) <;> simp
@[simp] theorem State.moveClock_notices (s : State) (n : Nat) : (s.moveClock n).notices = s.notices := by unfold State.moveClock; dsimp only; (repeat' split) <;> simp
@[simp] theorem State.moveClock_rejoin (s : State) (n : Nat) : (s.moveClock n).rejoin = s.rejoin := by unfold State.moveClock; dsimp only; (repeat' split) <;> simp
@[simp] theorem State.moveClock_reclaimed (s : State) (n : Nat) : (s.moveClock n).reclaimed = s.reclaimed := by unfold State.moveClock; dsimp only; (repeat' split) <;> simp
@[simp] theorem State.moveClock_beats (s : State) (n : Nat) : (s.moveClock n).beats = s.beats := by unfold State.moveClock; dsimp only; (repeat' split) <;> simp
@[simp] theorem State.moveClock_host (s : State) (n : Nat) : (s.moveClock n).host = s.host := by unfold State.moveClock; dsimp only; (repeat' split) <;> simp
@[simp] theorem State.moveClock_hostBusy (s : State) (n : Nat) : (s.moveClock n).hostBusy = s.hostBusy := by unfold State.moveClock; dsimp only; (repeat' split) <;> simp
@[simp] theorem State.moveClock_hostQ (s : State) (n : Nat) : (s.moveClock n).hostQ = s.hostQ := by unfold State.moveClock; dsimp only; (repeat' split) <;> simp
@[simp] theorem State.moveClock_snoopQ (s : State) (n : Nat) : (s.moveClock n).snoopQ = s.snoopQ := by unfold State.moveClock; dsimp only; (repeat' split) <;> simp
@[simp] theorem State.moveClock_snoopIn (s : State) (n : Nat) : (s.moveClock n).snoopIn = s.snoopIn := by unfold State.moveClock; dsimp only; (repeat' split) <;> simp
@[simp] theorem State.moveClock_hostOut (s : State) (n : Nat) : (s.moveClock n).hostOut = s.hostOut := by unfold State.moveClock; dsimp only; (repeat' split) <;> simp
@[simp] theorem State.moveClock_xlt (s : State) (n : Nat) : (s.moveClock n).xlt = s.xlt := by unfold State.moveClock; dsimp only; (repeat' split) <;> simp
@[simp] theorem State.moveClock_chans (s : State) (n : Nat) : (s.moveClock n).chans = s.chans := by unfold State.moveClock; dsimp only; (repeat' split) <;> simp
@[simp] theorem State.moveClock_remap (s : State) (n : Nat) : (s.moveClock n).remap = s.remap := by unfold State.moveClock; dsimp only; (repeat' split) <;> simp
@[simp] theorem State.moveClock_hbm (s : State) (n : Nat) : (s.moveClock n).hbm = s.hbm := by unfold State.moveClock; dsimp only; (repeat' split) <;> simp
@[simp] theorem State.moveClock_tmax (s : State) (n : Nat) : (s.moveClock n).tmax = s.tmax := by unfold State.moveClock; dsimp only; (repeat' split) <;> simp
@[simp] theorem State.moveClock_cols (s : State) (n : Nat) : (s.moveClock n).cols = s.cols := by unfold State.moveClock; dsimp only; (repeat' split) <;> simp
@[simp] theorem State.moveClock_tokens (s : State) (n : Nat) : (s.moveClock n).tokens = s.tokens := by unfold State.moveClock; dsimp only; (repeat' split) <;> simp
@[simp] theorem State.moveClock_held (s : State) (n : Nat) : (s.moveClock n).held = s.held := by unfold State.moveClock; dsimp only; (repeat' split) <;> simp
@[simp] theorem State.moveClock_asks (s : State) (n : Nat) : (s.moveClock n).asks = s.asks := by unfold State.moveClock; dsimp only; (repeat' split) <;> simp
@[simp] theorem State.moveClock_colSat (s : State) (n : Nat) : (s.moveClock n).colSat = s.colSat := by unfold State.moveClock; dsimp only; (repeat' split) <;> simp
@[simp] theorem State.moveClock_links (s : State) (n : Nat) : (s.moveClock n).links = s.links := by unfold State.moveClock; dsimp only; (repeat' split) <;> simp
@[simp] theorem State.moveClock_rdgRoute (s : State) (n : Nat) : (s.moveClock n).rdgRoute = s.rdgRoute := by unfold State.moveClock; dsimp only; (repeat' split) <;> simp
@[simp] theorem State.moveClock_rdgWin (s : State) (n : Nat) : (s.moveClock n).rdgWin = s.rdgWin := by unfold State.moveClock; dsimp only; (repeat' split) <;> simp
@[simp] theorem State.moveClock_plans (s : State) (n : Nat) : (s.moveClock n).plans = s.plans := by unfold State.moveClock; dsimp only; (repeat' split) <;> simp
@[simp] theorem State.moveClock_holds (s : State) (n : Nat) : (s.moveClock n).holds = s.holds := by unfold State.moveClock; dsimp only; (repeat' split) <;> simp
@[simp] theorem State.moveClock_chunkOut (s : State) (n : Nat) : (s.moveClock n).chunkOut = s.chunkOut := by unfold State.moveClock; dsimp only; (repeat' split) <;> simp
@[simp] theorem State.moveClock_chunkRsp (s : State) (n : Nat) : (s.moveClock n).chunkRsp = s.chunkRsp := by unfold State.moveClock; dsimp only; (repeat' split) <;> simp
@[simp] theorem State.moveClock_bcasts (s : State) (n : Nat) : (s.moveClock n).bcasts = s.bcasts := by unfold State.moveClock; dsimp only; (repeat' split) <;> simp
@[simp] theorem State.moveClock_bcOut (s : State) (n : Nat) : (s.moveClock n).bcOut = s.bcOut := by unfold State.moveClock; dsimp only; (repeat' split) <;> simp
@[simp] theorem State.moveClock_starts (s : State) (n : Nat) : (s.moveClock n).starts = s.starts := by unfold State.moveClock; dsimp only; (repeat' split) <;> simp
@[simp] theorem State.moveClock_rdgIn (s : State) (n : Nat) : (s.moveClock n).rdgIn = s.rdgIn := by unfold State.moveClock; dsimp only; (repeat' split) <;> simp
@[simp] theorem State.moveClock_rdgOut (s : State) (n : Nat) : (s.moveClock n).rdgOut = s.rdgOut := by unfold State.moveClock; dsimp only; (repeat' split) <;> simp
@[simp] theorem State.moveClock_power (s : State) (n : Nat) : (s.moveClock n).power = s.power := by unfold State.moveClock; dsimp only; (repeat' split) <;> simp
@[simp] theorem State.moveClock_cores (s : State) (n : Nat) : (s.moveClock n).cores = s.cores := by unfold State.moveClock; dsimp only; (repeat' split) <;> simp
@[simp] theorem State.moveClock_dbgUnit (s : State) (n : Nat) : (s.moveClock n).dbgUnit = s.dbgUnit := by unfold State.moveClock; dsimp only; (repeat' split) <;> simp
@[simp] theorem State.moveClock_jtag (s : State) (n : Nat) : (s.moveClock n).jtag = s.jtag := by unfold State.moveClock; dsimp only; (repeat' split) <;> simp
@[simp] theorem State.moveClock_fresh (s : State) (n : Nat) : (s.moveClock n).fresh = s.fresh := by unfold State.moveClock; dsimp only; (repeat' split) <;> simp

/-! Fields that `State.unmetHints` keeps. -/

@[simp] theorem State.unmetHints_pending (s : State) (n : Nat) : (s.unmetHints n).pending = s.pending := by unfold State.unmetHints; dsimp only; split <;> simp
@[simp] theorem State.unmetHints_plat (s : State) (n : Nat) : (s.unmetHints n).plat = s.plat := by unfold State.unmetHints; dsimp only; split <;> simp
@[simp] theorem State.unmetHints_fuses (s : State) (n : Nat) : (s.unmetHints n).fuses = s.fuses := by unfold State.unmetHints; dsimp only; split <;> simp
@[simp] theorem State.unmetHints_portH (s : State) (n : Nat) : (s.unmetHints n).portH = s.portH := by unfold State.unmetHints; dsimp only; split <;> simp
@[simp] theorem State.unmetHints_portB (s : State) (n : Nat) : (s.unmetHints n).portB = s.portB := by unfold State.unmetHints; dsimp only; split <;> simp
@[simp] theorem State.unmetHints_portN (s : State) (n : Nat) : (s.unmetHints n).portN = s.portN := by unfold State.unmetHints; dsimp only; split <;> simp
@[simp] theorem State.unmetHints_cfg (s : State) (n : Nat) : (s.unmetHints n).cfg = s.cfg := by unfold State.unmetHints; dsimp only; split <;> simp
@[simp] theorem State.unmetHints_cairn (s : State) (n : Nat) : (s.unmetHints n).cairn = s.cairn := by unfold State.unmetHints; dsimp only; split <;> simp
@[simp] theorem State.unmetHints_time (s : State) (n : Nat) : (s.unmetHints n).time = s.time := by unfold State.unmetHints; dsimp only; split <;> simp
@[simp] theorem State.unmetHints_log (s : State) (n : Nat) : (s.unmetHints n).log = s.log := by unfold State.unmetHints; dsimp only; split <;> simp
@[simp] theorem State.unmetHints_logSeq (s : State) (n : Nat) : (s.unmetHints n).logSeq = s.logSeq := by unfold State.unmetHints; dsimp only; split <;> simp
@[simp] theorem State.unmetHints_acts (s : State) (n : Nat) : (s.unmetHints n).acts = s.acts := by unfold State.unmetHints; dsimp only; split <;> simp
@[simp] theorem State.unmetHints_actNum (s : State) (n : Nat) : (s.unmetHints n).actNum = s.actNum := by unfold State.unmetHints; dsimp only; split <;> simp
@[simp] theorem State.unmetHints_routes (s : State) (n : Nat) : (s.unmetHints n).routes = s.routes := by unfold State.unmetHints; dsimp only; split <;> simp
@[simp] theorem State.unmetHints_imsic (s : State) (n : Nat) : (s.unmetHints n).imsic = s.imsic := by unfold State.unmetHints; dsimp only; split <;> simp
@[simp] theorem State.unmetHints_trapTail (s : State) (n : Nat) : (s.unmetHints n).trapTail = s.trapTail := by unfold State.unmetHints; dsimp only; split <;> simp
@[simp] theorem State.unmetHints_trapHead (s : State) (n : Nat) : (s.unmetHints n).trapHead = s.trapHead := by unfold State.unmetHints; dsimp only; split <;> simp
@[simp] theorem State.unmetHints_trapWait (s : State) (n : Nat) : (s.unmetHints n).trapWait = s.trapWait := by unfold State.unmetHints; dsimp only; split <;> simp
@[simp] theorem State.unmetHints_streams (s : State) (n : Nat) : (s.unmetHints n).streams = s.streams := by unfold State.unmetHints; dsimp only; split <;> simp
@[simp] theorem State.unmetHints_launches (s : State) (n : Nat) : (s.unmetHints n).launches = s.launches := by unfold State.unmetHints; dsimp only; split <;> simp
@[simp] theorem State.unmetHints_launchNum (s : State) (n : Nat) : (s.unmetHints n).launchNum = s.launchNum := by unfold State.unmetHints; dsimp only; split <;> simp
@[simp] theorem State.unmetHints_tiles (s : State) (n : Nat) : (s.unmetHints n).tiles = s.tiles := by unfold State.unmetHints; dsimp only; split <;> simp
@[simp] theorem State.unmetHints_heavy (s : State) (n : Nat) : (s.unmetHints n).heavy = s.heavy := by unfold State.unmetHints; dsimp only; split <;> simp
@[simp] theorem State.unmetHints_serial (s : State) (n : Nat) : (s.unmetHints n).serial = s.serial := by unfold State.unmetHints; dsimp only; split <;> simp
@[simp] theorem State.unmetHints_landing (s : State) (n : Nat) : (s.unmetHints n).landing = s.landing := by unfold State.unmetHints; dsimp only; split <;> simp
@[simp] theorem State.unmetHints_dram (s : State) (n : Nat) : (s.unmetHints n).dram = s.dram := by unfold State.unmetHints; dsimp only; split <;> simp
@[simp] theorem State.unmetHints_reqs (s : State) (n : Nat) : (s.unmetHints n).reqs = s.reqs := by unfold State.unmetHints; dsimp only; split <;> simp
@[simp] theorem State.unmetHints_reqNum (s : State) (n : Nat) : (s.unmetHints n).reqNum = s.reqNum := by unfold State.unmetHints; dsimp only; split <;> simp
@[simp] theorem State.unmetHints_ansNum (s : State) (n : Nat) : (s.unmetHints n).ansNum = s.ansNum := by unfold State.unmetHints; dsimp only; split <;> simp
@[simp] theorem State.unmetHints_slices (s : State) (n : Nat) : (s.unmetHints n).slices = s.slices := by unfold State.unmetHints; dsimp only; split <;> simp
@[simp] theorem State.unmetHints_msgs (s : State) (n : Nat) : (s.unmetHints n).msgs = s.msgs := by unfold State.unmetHints; dsimp only; split <;> simp
@[simp] theorem State.unmetHints_agents (s : State) (n : Nat) : (s.unmetHints n).agents = s.agents := by unfold State.unmetHints; dsimp only; split <;> simp
@[simp] theorem State.unmetHints_dead (s : State) (n : Nat) : (s.unmetHints n).dead = s.dead := by unfold State.unmetHints; dsimp only; split <;> simp
@[simp] theorem State.unmetHints_notices (s : State) (n : Nat) : (s.unmetHints n).notices = s.notices := by unfold State.unmetHints; dsimp only; split <;> simp
@[simp] theorem State.unmetHints_rejoin (s : State) (n : Nat) : (s.unmetHints n).rejoin = s.rejoin := by unfold State.unmetHints; dsimp only; split <;> simp
@[simp] theorem State.unmetHints_reclaimed (s : State) (n : Nat) : (s.unmetHints n).reclaimed = s.reclaimed := by unfold State.unmetHints; dsimp only; split <;> simp
@[simp] theorem State.unmetHints_beats (s : State) (n : Nat) : (s.unmetHints n).beats = s.beats := by unfold State.unmetHints; dsimp only; split <;> simp
@[simp] theorem State.unmetHints_host (s : State) (n : Nat) : (s.unmetHints n).host = s.host := by unfold State.unmetHints; dsimp only; split <;> simp
@[simp] theorem State.unmetHints_hostBusy (s : State) (n : Nat) : (s.unmetHints n).hostBusy = s.hostBusy := by unfold State.unmetHints; dsimp only; split <;> simp
@[simp] theorem State.unmetHints_hostQ (s : State) (n : Nat) : (s.unmetHints n).hostQ = s.hostQ := by unfold State.unmetHints; dsimp only; split <;> simp
@[simp] theorem State.unmetHints_snoopQ (s : State) (n : Nat) : (s.unmetHints n).snoopQ = s.snoopQ := by unfold State.unmetHints; dsimp only; split <;> simp
@[simp] theorem State.unmetHints_snoopIn (s : State) (n : Nat) : (s.unmetHints n).snoopIn = s.snoopIn := by unfold State.unmetHints; dsimp only; split <;> simp
@[simp] theorem State.unmetHints_hostOut (s : State) (n : Nat) : (s.unmetHints n).hostOut = s.hostOut := by unfold State.unmetHints; dsimp only; split <;> simp
@[simp] theorem State.unmetHints_xlt (s : State) (n : Nat) : (s.unmetHints n).xlt = s.xlt := by unfold State.unmetHints; dsimp only; split <;> simp
@[simp] theorem State.unmetHints_chans (s : State) (n : Nat) : (s.unmetHints n).chans = s.chans := by unfold State.unmetHints; dsimp only; split <;> simp
@[simp] theorem State.unmetHints_remap (s : State) (n : Nat) : (s.unmetHints n).remap = s.remap := by unfold State.unmetHints; dsimp only; split <;> simp
@[simp] theorem State.unmetHints_hbm (s : State) (n : Nat) : (s.unmetHints n).hbm = s.hbm := by unfold State.unmetHints; dsimp only; split <;> simp
@[simp] theorem State.unmetHints_tmax (s : State) (n : Nat) : (s.unmetHints n).tmax = s.tmax := by unfold State.unmetHints; dsimp only; split <;> simp
@[simp] theorem State.unmetHints_cols (s : State) (n : Nat) : (s.unmetHints n).cols = s.cols := by unfold State.unmetHints; dsimp only; split <;> simp
@[simp] theorem State.unmetHints_tokens (s : State) (n : Nat) : (s.unmetHints n).tokens = s.tokens := by unfold State.unmetHints; dsimp only; split <;> simp
@[simp] theorem State.unmetHints_held (s : State) (n : Nat) : (s.unmetHints n).held = s.held := by unfold State.unmetHints; dsimp only; split <;> simp
@[simp] theorem State.unmetHints_asks (s : State) (n : Nat) : (s.unmetHints n).asks = s.asks := by unfold State.unmetHints; dsimp only; split <;> simp
@[simp] theorem State.unmetHints_colSat (s : State) (n : Nat) : (s.unmetHints n).colSat = s.colSat := by unfold State.unmetHints; dsimp only; split <;> simp
@[simp] theorem State.unmetHints_links (s : State) (n : Nat) : (s.unmetHints n).links = s.links := by unfold State.unmetHints; dsimp only; split <;> simp
@[simp] theorem State.unmetHints_rdgRoute (s : State) (n : Nat) : (s.unmetHints n).rdgRoute = s.rdgRoute := by unfold State.unmetHints; dsimp only; split <;> simp
@[simp] theorem State.unmetHints_rdgWin (s : State) (n : Nat) : (s.unmetHints n).rdgWin = s.rdgWin := by unfold State.unmetHints; dsimp only; split <;> simp
@[simp] theorem State.unmetHints_plans (s : State) (n : Nat) : (s.unmetHints n).plans = s.plans := by unfold State.unmetHints; dsimp only; split <;> simp
@[simp] theorem State.unmetHints_holds (s : State) (n : Nat) : (s.unmetHints n).holds = s.holds := by unfold State.unmetHints; dsimp only; split <;> simp
@[simp] theorem State.unmetHints_chunkOut (s : State) (n : Nat) : (s.unmetHints n).chunkOut = s.chunkOut := by unfold State.unmetHints; dsimp only; split <;> simp
@[simp] theorem State.unmetHints_chunkRsp (s : State) (n : Nat) : (s.unmetHints n).chunkRsp = s.chunkRsp := by unfold State.unmetHints; dsimp only; split <;> simp
@[simp] theorem State.unmetHints_bcasts (s : State) (n : Nat) : (s.unmetHints n).bcasts = s.bcasts := by unfold State.unmetHints; dsimp only; split <;> simp
@[simp] theorem State.unmetHints_bcOut (s : State) (n : Nat) : (s.unmetHints n).bcOut = s.bcOut := by unfold State.unmetHints; dsimp only; split <;> simp
@[simp] theorem State.unmetHints_starts (s : State) (n : Nat) : (s.unmetHints n).starts = s.starts := by unfold State.unmetHints; dsimp only; split <;> simp
@[simp] theorem State.unmetHints_rdgIn (s : State) (n : Nat) : (s.unmetHints n).rdgIn = s.rdgIn := by unfold State.unmetHints; dsimp only; split <;> simp
@[simp] theorem State.unmetHints_rdgOut (s : State) (n : Nat) : (s.unmetHints n).rdgOut = s.rdgOut := by unfold State.unmetHints; dsimp only; split <;> simp
@[simp] theorem State.unmetHints_power (s : State) (n : Nat) : (s.unmetHints n).power = s.power := by unfold State.unmetHints; dsimp only; split <;> simp
@[simp] theorem State.unmetHints_cores (s : State) (n : Nat) : (s.unmetHints n).cores = s.cores := by unfold State.unmetHints; dsimp only; split <;> simp
@[simp] theorem State.unmetHints_dbgUnit (s : State) (n : Nat) : (s.unmetHints n).dbgUnit = s.dbgUnit := by unfold State.unmetHints; dsimp only; split <;> simp
@[simp] theorem State.unmetHints_jtag (s : State) (n : Nat) : (s.unmetHints n).jtag = s.jtag := by unfold State.unmetHints; dsimp only; split <;> simp
@[simp] theorem State.unmetHints_fresh (s : State) (n : Nat) : (s.unmetHints n).fresh = s.fresh := by unfold State.unmetHints; dsimp only; split <;> simp

/-! Fields that `State.decideOp` keeps. -/

@[simp] theorem State.decideOp_pending (s : State) (n : Nat) : (s.decideOp n).pending = s.pending := by unfold State.decideOp; dsimp only; split <;> simp
@[simp] theorem State.decideOp_plat (s : State) (n : Nat) : (s.decideOp n).plat = s.plat := by unfold State.decideOp; dsimp only; split <;> simp
@[simp] theorem State.decideOp_fuses (s : State) (n : Nat) : (s.decideOp n).fuses = s.fuses := by unfold State.decideOp; dsimp only; split <;> simp
@[simp] theorem State.decideOp_portH (s : State) (n : Nat) : (s.decideOp n).portH = s.portH := by unfold State.decideOp; dsimp only; split <;> simp
@[simp] theorem State.decideOp_portB (s : State) (n : Nat) : (s.decideOp n).portB = s.portB := by unfold State.decideOp; dsimp only; split <;> simp
@[simp] theorem State.decideOp_portN (s : State) (n : Nat) : (s.decideOp n).portN = s.portN := by unfold State.decideOp; dsimp only; split <;> simp
@[simp] theorem State.decideOp_cfg (s : State) (n : Nat) : (s.decideOp n).cfg = s.cfg := by unfold State.decideOp; dsimp only; split <;> simp
@[simp] theorem State.decideOp_cairn (s : State) (n : Nat) : (s.decideOp n).cairn = s.cairn := by unfold State.decideOp; dsimp only; split <;> simp
@[simp] theorem State.decideOp_time (s : State) (n : Nat) : (s.decideOp n).time = s.time := by unfold State.decideOp; dsimp only; split <;> simp
@[simp] theorem State.decideOp_log (s : State) (n : Nat) : (s.decideOp n).log = s.log := by unfold State.decideOp; dsimp only; split <;> simp
@[simp] theorem State.decideOp_logSeq (s : State) (n : Nat) : (s.decideOp n).logSeq = s.logSeq := by unfold State.decideOp; dsimp only; split <;> simp
@[simp] theorem State.decideOp_acts (s : State) (n : Nat) : (s.decideOp n).acts = s.acts := by unfold State.decideOp; dsimp only; split <;> simp
@[simp] theorem State.decideOp_actNum (s : State) (n : Nat) : (s.decideOp n).actNum = s.actNum := by unfold State.decideOp; dsimp only; split <;> simp
@[simp] theorem State.decideOp_routes (s : State) (n : Nat) : (s.decideOp n).routes = s.routes := by unfold State.decideOp; dsimp only; split <;> simp
@[simp] theorem State.decideOp_imsic (s : State) (n : Nat) : (s.decideOp n).imsic = s.imsic := by unfold State.decideOp; dsimp only; split <;> simp
@[simp] theorem State.decideOp_trapTail (s : State) (n : Nat) : (s.decideOp n).trapTail = s.trapTail := by unfold State.decideOp; dsimp only; split <;> simp
@[simp] theorem State.decideOp_trapHead (s : State) (n : Nat) : (s.decideOp n).trapHead = s.trapHead := by unfold State.decideOp; dsimp only; split <;> simp
@[simp] theorem State.decideOp_trapWait (s : State) (n : Nat) : (s.decideOp n).trapWait = s.trapWait := by unfold State.decideOp; dsimp only; split <;> simp
@[simp] theorem State.decideOp_streams (s : State) (n : Nat) : (s.decideOp n).streams = s.streams := by unfold State.decideOp; dsimp only; split <;> simp
@[simp] theorem State.decideOp_launches (s : State) (n : Nat) : (s.decideOp n).launches = s.launches := by unfold State.decideOp; dsimp only; split <;> simp
@[simp] theorem State.decideOp_launchNum (s : State) (n : Nat) : (s.decideOp n).launchNum = s.launchNum := by unfold State.decideOp; dsimp only; split <;> simp
@[simp] theorem State.decideOp_tiles (s : State) (n : Nat) : (s.decideOp n).tiles = s.tiles := by unfold State.decideOp; dsimp only; split <;> simp
@[simp] theorem State.decideOp_heavy (s : State) (n : Nat) : (s.decideOp n).heavy = s.heavy := by unfold State.decideOp; dsimp only; split <;> simp
@[simp] theorem State.decideOp_serial (s : State) (n : Nat) : (s.decideOp n).serial = s.serial := by unfold State.decideOp; dsimp only; split <;> simp
@[simp] theorem State.decideOp_landing (s : State) (n : Nat) : (s.decideOp n).landing = s.landing := by unfold State.decideOp; dsimp only; split <;> simp
@[simp] theorem State.decideOp_dram (s : State) (n : Nat) : (s.decideOp n).dram = s.dram := by unfold State.decideOp; dsimp only; split <;> simp
@[simp] theorem State.decideOp_reqs (s : State) (n : Nat) : (s.decideOp n).reqs = s.reqs := by unfold State.decideOp; dsimp only; split <;> simp
@[simp] theorem State.decideOp_reqNum (s : State) (n : Nat) : (s.decideOp n).reqNum = s.reqNum := by unfold State.decideOp; dsimp only; split <;> simp
@[simp] theorem State.decideOp_ansNum (s : State) (n : Nat) : (s.decideOp n).ansNum = s.ansNum := by unfold State.decideOp; dsimp only; split <;> simp
@[simp] theorem State.decideOp_slices (s : State) (n : Nat) : (s.decideOp n).slices = s.slices := by unfold State.decideOp; dsimp only; split <;> simp
@[simp] theorem State.decideOp_msgs (s : State) (n : Nat) : (s.decideOp n).msgs = s.msgs := by unfold State.decideOp; dsimp only; split <;> simp
@[simp] theorem State.decideOp_agents (s : State) (n : Nat) : (s.decideOp n).agents = s.agents := by unfold State.decideOp; dsimp only; split <;> simp
@[simp] theorem State.decideOp_dead (s : State) (n : Nat) : (s.decideOp n).dead = s.dead := by unfold State.decideOp; dsimp only; split <;> simp
@[simp] theorem State.decideOp_notices (s : State) (n : Nat) : (s.decideOp n).notices = s.notices := by unfold State.decideOp; dsimp only; split <;> simp
@[simp] theorem State.decideOp_rejoin (s : State) (n : Nat) : (s.decideOp n).rejoin = s.rejoin := by unfold State.decideOp; dsimp only; split <;> simp
@[simp] theorem State.decideOp_reclaimed (s : State) (n : Nat) : (s.decideOp n).reclaimed = s.reclaimed := by unfold State.decideOp; dsimp only; split <;> simp
@[simp] theorem State.decideOp_beats (s : State) (n : Nat) : (s.decideOp n).beats = s.beats := by unfold State.decideOp; dsimp only; split <;> simp
@[simp] theorem State.decideOp_host (s : State) (n : Nat) : (s.decideOp n).host = s.host := by unfold State.decideOp; dsimp only; split <;> simp
@[simp] theorem State.decideOp_hostBusy (s : State) (n : Nat) : (s.decideOp n).hostBusy = s.hostBusy := by unfold State.decideOp; dsimp only; split <;> simp
@[simp] theorem State.decideOp_hostQ (s : State) (n : Nat) : (s.decideOp n).hostQ = s.hostQ := by unfold State.decideOp; dsimp only; split <;> simp
@[simp] theorem State.decideOp_snoopQ (s : State) (n : Nat) : (s.decideOp n).snoopQ = s.snoopQ := by unfold State.decideOp; dsimp only; split <;> simp
@[simp] theorem State.decideOp_snoopIn (s : State) (n : Nat) : (s.decideOp n).snoopIn = s.snoopIn := by unfold State.decideOp; dsimp only; split <;> simp
@[simp] theorem State.decideOp_hostOut (s : State) (n : Nat) : (s.decideOp n).hostOut = s.hostOut := by unfold State.decideOp; dsimp only; split <;> simp
@[simp] theorem State.decideOp_xlt (s : State) (n : Nat) : (s.decideOp n).xlt = s.xlt := by unfold State.decideOp; dsimp only; split <;> simp
@[simp] theorem State.decideOp_chans (s : State) (n : Nat) : (s.decideOp n).chans = s.chans := by unfold State.decideOp; dsimp only; split <;> simp
@[simp] theorem State.decideOp_remap (s : State) (n : Nat) : (s.decideOp n).remap = s.remap := by unfold State.decideOp; dsimp only; split <;> simp
@[simp] theorem State.decideOp_hbm (s : State) (n : Nat) : (s.decideOp n).hbm = s.hbm := by unfold State.decideOp; dsimp only; split <;> simp
@[simp] theorem State.decideOp_tmax (s : State) (n : Nat) : (s.decideOp n).tmax = s.tmax := by unfold State.decideOp; dsimp only; split <;> simp
@[simp] theorem State.decideOp_cols (s : State) (n : Nat) : (s.decideOp n).cols = s.cols := by unfold State.decideOp; dsimp only; split <;> simp
@[simp] theorem State.decideOp_tokens (s : State) (n : Nat) : (s.decideOp n).tokens = s.tokens := by unfold State.decideOp; dsimp only; split <;> simp
@[simp] theorem State.decideOp_held (s : State) (n : Nat) : (s.decideOp n).held = s.held := by unfold State.decideOp; dsimp only; split <;> simp
@[simp] theorem State.decideOp_asks (s : State) (n : Nat) : (s.decideOp n).asks = s.asks := by unfold State.decideOp; dsimp only; split <;> simp
@[simp] theorem State.decideOp_colSat (s : State) (n : Nat) : (s.decideOp n).colSat = s.colSat := by unfold State.decideOp; dsimp only; split <;> simp
@[simp] theorem State.decideOp_links (s : State) (n : Nat) : (s.decideOp n).links = s.links := by unfold State.decideOp; dsimp only; split <;> simp
@[simp] theorem State.decideOp_rdgRoute (s : State) (n : Nat) : (s.decideOp n).rdgRoute = s.rdgRoute := by unfold State.decideOp; dsimp only; split <;> simp
@[simp] theorem State.decideOp_rdgWin (s : State) (n : Nat) : (s.decideOp n).rdgWin = s.rdgWin := by unfold State.decideOp; dsimp only; split <;> simp
@[simp] theorem State.decideOp_plans (s : State) (n : Nat) : (s.decideOp n).plans = s.plans := by unfold State.decideOp; dsimp only; split <;> simp
@[simp] theorem State.decideOp_holds (s : State) (n : Nat) : (s.decideOp n).holds = s.holds := by unfold State.decideOp; dsimp only; split <;> simp
@[simp] theorem State.decideOp_chunkOut (s : State) (n : Nat) : (s.decideOp n).chunkOut = s.chunkOut := by unfold State.decideOp; dsimp only; split <;> simp
@[simp] theorem State.decideOp_chunkRsp (s : State) (n : Nat) : (s.decideOp n).chunkRsp = s.chunkRsp := by unfold State.decideOp; dsimp only; split <;> simp
@[simp] theorem State.decideOp_bcasts (s : State) (n : Nat) : (s.decideOp n).bcasts = s.bcasts := by unfold State.decideOp; dsimp only; split <;> simp
@[simp] theorem State.decideOp_bcOut (s : State) (n : Nat) : (s.decideOp n).bcOut = s.bcOut := by unfold State.decideOp; dsimp only; split <;> simp
@[simp] theorem State.decideOp_starts (s : State) (n : Nat) : (s.decideOp n).starts = s.starts := by unfold State.decideOp; dsimp only; split <;> simp
@[simp] theorem State.decideOp_rdgIn (s : State) (n : Nat) : (s.decideOp n).rdgIn = s.rdgIn := by unfold State.decideOp; dsimp only; split <;> simp
@[simp] theorem State.decideOp_rdgOut (s : State) (n : Nat) : (s.decideOp n).rdgOut = s.rdgOut := by unfold State.decideOp; dsimp only; split <;> simp
@[simp] theorem State.decideOp_power (s : State) (n : Nat) : (s.decideOp n).power = s.power := by unfold State.decideOp; dsimp only; split <;> simp
@[simp] theorem State.decideOp_cores (s : State) (n : Nat) : (s.decideOp n).cores = s.cores := by unfold State.decideOp; dsimp only; split <;> simp
@[simp] theorem State.decideOp_dbgUnit (s : State) (n : Nat) : (s.decideOp n).dbgUnit = s.dbgUnit := by unfold State.decideOp; dsimp only; split <;> simp
@[simp] theorem State.decideOp_jtag (s : State) (n : Nat) : (s.decideOp n).jtag = s.jtag := by unfold State.decideOp; dsimp only; split <;> simp
@[simp] theorem State.decideOp_fresh (s : State) (n : Nat) : (s.decideOp n).fresh = s.fresh := by unfold State.decideOp; dsimp only; split <;> simp

/-! Fields that `State.ceilingFell` keeps. -/

@[simp] theorem State.ceilingFell_pending (s : State) (n old : Nat) : (s.ceilingFell n old).pending = s.pending := by unfold State.ceilingFell; split <;> simp
@[simp] theorem State.ceilingFell_plat (s : State) (n old : Nat) : (s.ceilingFell n old).plat = s.plat := by unfold State.ceilingFell; split <;> simp
@[simp] theorem State.ceilingFell_fuses (s : State) (n old : Nat) : (s.ceilingFell n old).fuses = s.fuses := by unfold State.ceilingFell; split <;> simp
@[simp] theorem State.ceilingFell_portH (s : State) (n old : Nat) : (s.ceilingFell n old).portH = s.portH := by unfold State.ceilingFell; split <;> simp
@[simp] theorem State.ceilingFell_portB (s : State) (n old : Nat) : (s.ceilingFell n old).portB = s.portB := by unfold State.ceilingFell; split <;> simp
@[simp] theorem State.ceilingFell_portN (s : State) (n old : Nat) : (s.ceilingFell n old).portN = s.portN := by unfold State.ceilingFell; split <;> simp
@[simp] theorem State.ceilingFell_cfg (s : State) (n old : Nat) : (s.ceilingFell n old).cfg = s.cfg := by unfold State.ceilingFell; split <;> simp
@[simp] theorem State.ceilingFell_cairn (s : State) (n old : Nat) : (s.ceilingFell n old).cairn = s.cairn := by unfold State.ceilingFell; split <;> simp
@[simp] theorem State.ceilingFell_time (s : State) (n old : Nat) : (s.ceilingFell n old).time = s.time := by unfold State.ceilingFell; split <;> simp
@[simp] theorem State.ceilingFell_log (s : State) (n old : Nat) : (s.ceilingFell n old).log = s.log := by unfold State.ceilingFell; split <;> simp
@[simp] theorem State.ceilingFell_logSeq (s : State) (n old : Nat) : (s.ceilingFell n old).logSeq = s.logSeq := by unfold State.ceilingFell; split <;> simp
@[simp] theorem State.ceilingFell_acts (s : State) (n old : Nat) : (s.ceilingFell n old).acts = s.acts := by unfold State.ceilingFell; split <;> simp
@[simp] theorem State.ceilingFell_actNum (s : State) (n old : Nat) : (s.ceilingFell n old).actNum = s.actNum := by unfold State.ceilingFell; split <;> simp
@[simp] theorem State.ceilingFell_routes (s : State) (n old : Nat) : (s.ceilingFell n old).routes = s.routes := by unfold State.ceilingFell; split <;> simp
@[simp] theorem State.ceilingFell_imsic (s : State) (n old : Nat) : (s.ceilingFell n old).imsic = s.imsic := by unfold State.ceilingFell; split <;> simp
@[simp] theorem State.ceilingFell_trapTail (s : State) (n old : Nat) : (s.ceilingFell n old).trapTail = s.trapTail := by unfold State.ceilingFell; split <;> simp
@[simp] theorem State.ceilingFell_trapHead (s : State) (n old : Nat) : (s.ceilingFell n old).trapHead = s.trapHead := by unfold State.ceilingFell; split <;> simp
@[simp] theorem State.ceilingFell_trapWait (s : State) (n old : Nat) : (s.ceilingFell n old).trapWait = s.trapWait := by unfold State.ceilingFell; split <;> simp
@[simp] theorem State.ceilingFell_streams (s : State) (n old : Nat) : (s.ceilingFell n old).streams = s.streams := by unfold State.ceilingFell; split <;> simp
@[simp] theorem State.ceilingFell_launches (s : State) (n old : Nat) : (s.ceilingFell n old).launches = s.launches := by unfold State.ceilingFell; split <;> simp
@[simp] theorem State.ceilingFell_launchNum (s : State) (n old : Nat) : (s.ceilingFell n old).launchNum = s.launchNum := by unfold State.ceilingFell; split <;> simp
@[simp] theorem State.ceilingFell_tiles (s : State) (n old : Nat) : (s.ceilingFell n old).tiles = s.tiles := by unfold State.ceilingFell; split <;> simp
@[simp] theorem State.ceilingFell_heavy (s : State) (n old : Nat) : (s.ceilingFell n old).heavy = s.heavy := by unfold State.ceilingFell; split <;> simp
@[simp] theorem State.ceilingFell_serial (s : State) (n old : Nat) : (s.ceilingFell n old).serial = s.serial := by unfold State.ceilingFell; split <;> simp
@[simp] theorem State.ceilingFell_landing (s : State) (n old : Nat) : (s.ceilingFell n old).landing = s.landing := by unfold State.ceilingFell; split <;> simp
@[simp] theorem State.ceilingFell_dram (s : State) (n old : Nat) : (s.ceilingFell n old).dram = s.dram := by unfold State.ceilingFell; split <;> simp
@[simp] theorem State.ceilingFell_reqs (s : State) (n old : Nat) : (s.ceilingFell n old).reqs = s.reqs := by unfold State.ceilingFell; split <;> simp
@[simp] theorem State.ceilingFell_reqNum (s : State) (n old : Nat) : (s.ceilingFell n old).reqNum = s.reqNum := by unfold State.ceilingFell; split <;> simp
@[simp] theorem State.ceilingFell_ansNum (s : State) (n old : Nat) : (s.ceilingFell n old).ansNum = s.ansNum := by unfold State.ceilingFell; split <;> simp
@[simp] theorem State.ceilingFell_slices (s : State) (n old : Nat) : (s.ceilingFell n old).slices = s.slices := by unfold State.ceilingFell; split <;> simp
@[simp] theorem State.ceilingFell_msgs (s : State) (n old : Nat) : (s.ceilingFell n old).msgs = s.msgs := by unfold State.ceilingFell; split <;> simp
@[simp] theorem State.ceilingFell_agents (s : State) (n old : Nat) : (s.ceilingFell n old).agents = s.agents := by unfold State.ceilingFell; split <;> simp
@[simp] theorem State.ceilingFell_dead (s : State) (n old : Nat) : (s.ceilingFell n old).dead = s.dead := by unfold State.ceilingFell; split <;> simp
@[simp] theorem State.ceilingFell_notices (s : State) (n old : Nat) : (s.ceilingFell n old).notices = s.notices := by unfold State.ceilingFell; split <;> simp
@[simp] theorem State.ceilingFell_rejoin (s : State) (n old : Nat) : (s.ceilingFell n old).rejoin = s.rejoin := by unfold State.ceilingFell; split <;> simp
@[simp] theorem State.ceilingFell_reclaimed (s : State) (n old : Nat) : (s.ceilingFell n old).reclaimed = s.reclaimed := by unfold State.ceilingFell; split <;> simp
@[simp] theorem State.ceilingFell_beats (s : State) (n old : Nat) : (s.ceilingFell n old).beats = s.beats := by unfold State.ceilingFell; split <;> simp
@[simp] theorem State.ceilingFell_host (s : State) (n old : Nat) : (s.ceilingFell n old).host = s.host := by unfold State.ceilingFell; split <;> simp
@[simp] theorem State.ceilingFell_hostBusy (s : State) (n old : Nat) : (s.ceilingFell n old).hostBusy = s.hostBusy := by unfold State.ceilingFell; split <;> simp
@[simp] theorem State.ceilingFell_hostQ (s : State) (n old : Nat) : (s.ceilingFell n old).hostQ = s.hostQ := by unfold State.ceilingFell; split <;> simp
@[simp] theorem State.ceilingFell_snoopQ (s : State) (n old : Nat) : (s.ceilingFell n old).snoopQ = s.snoopQ := by unfold State.ceilingFell; split <;> simp
@[simp] theorem State.ceilingFell_snoopIn (s : State) (n old : Nat) : (s.ceilingFell n old).snoopIn = s.snoopIn := by unfold State.ceilingFell; split <;> simp
@[simp] theorem State.ceilingFell_hostOut (s : State) (n old : Nat) : (s.ceilingFell n old).hostOut = s.hostOut := by unfold State.ceilingFell; split <;> simp
@[simp] theorem State.ceilingFell_xlt (s : State) (n old : Nat) : (s.ceilingFell n old).xlt = s.xlt := by unfold State.ceilingFell; split <;> simp
@[simp] theorem State.ceilingFell_chans (s : State) (n old : Nat) : (s.ceilingFell n old).chans = s.chans := by unfold State.ceilingFell; split <;> simp
@[simp] theorem State.ceilingFell_remap (s : State) (n old : Nat) : (s.ceilingFell n old).remap = s.remap := by unfold State.ceilingFell; split <;> simp
@[simp] theorem State.ceilingFell_hbm (s : State) (n old : Nat) : (s.ceilingFell n old).hbm = s.hbm := by unfold State.ceilingFell; split <;> simp
@[simp] theorem State.ceilingFell_tmax (s : State) (n old : Nat) : (s.ceilingFell n old).tmax = s.tmax := by unfold State.ceilingFell; split <;> simp
@[simp] theorem State.ceilingFell_cols (s : State) (n old : Nat) : (s.ceilingFell n old).cols = s.cols := by unfold State.ceilingFell; split <;> simp
@[simp] theorem State.ceilingFell_tokens (s : State) (n old : Nat) : (s.ceilingFell n old).tokens = s.tokens := by unfold State.ceilingFell; split <;> simp
@[simp] theorem State.ceilingFell_held (s : State) (n old : Nat) : (s.ceilingFell n old).held = s.held := by unfold State.ceilingFell; split <;> simp
@[simp] theorem State.ceilingFell_asks (s : State) (n old : Nat) : (s.ceilingFell n old).asks = s.asks := by unfold State.ceilingFell; split <;> simp
@[simp] theorem State.ceilingFell_colSat (s : State) (n old : Nat) : (s.ceilingFell n old).colSat = s.colSat := by unfold State.ceilingFell; split <;> simp
@[simp] theorem State.ceilingFell_links (s : State) (n old : Nat) : (s.ceilingFell n old).links = s.links := by unfold State.ceilingFell; split <;> simp
@[simp] theorem State.ceilingFell_rdgRoute (s : State) (n old : Nat) : (s.ceilingFell n old).rdgRoute = s.rdgRoute := by unfold State.ceilingFell; split <;> simp
@[simp] theorem State.ceilingFell_rdgWin (s : State) (n old : Nat) : (s.ceilingFell n old).rdgWin = s.rdgWin := by unfold State.ceilingFell; split <;> simp
@[simp] theorem State.ceilingFell_plans (s : State) (n old : Nat) : (s.ceilingFell n old).plans = s.plans := by unfold State.ceilingFell; split <;> simp
@[simp] theorem State.ceilingFell_holds (s : State) (n old : Nat) : (s.ceilingFell n old).holds = s.holds := by unfold State.ceilingFell; split <;> simp
@[simp] theorem State.ceilingFell_chunkOut (s : State) (n old : Nat) : (s.ceilingFell n old).chunkOut = s.chunkOut := by unfold State.ceilingFell; split <;> simp
@[simp] theorem State.ceilingFell_chunkRsp (s : State) (n old : Nat) : (s.ceilingFell n old).chunkRsp = s.chunkRsp := by unfold State.ceilingFell; split <;> simp
@[simp] theorem State.ceilingFell_bcasts (s : State) (n old : Nat) : (s.ceilingFell n old).bcasts = s.bcasts := by unfold State.ceilingFell; split <;> simp
@[simp] theorem State.ceilingFell_bcOut (s : State) (n old : Nat) : (s.ceilingFell n old).bcOut = s.bcOut := by unfold State.ceilingFell; split <;> simp
@[simp] theorem State.ceilingFell_starts (s : State) (n old : Nat) : (s.ceilingFell n old).starts = s.starts := by unfold State.ceilingFell; split <;> simp
@[simp] theorem State.ceilingFell_rdgIn (s : State) (n old : Nat) : (s.ceilingFell n old).rdgIn = s.rdgIn := by unfold State.ceilingFell; split <;> simp
@[simp] theorem State.ceilingFell_rdgOut (s : State) (n old : Nat) : (s.ceilingFell n old).rdgOut = s.rdgOut := by unfold State.ceilingFell; split <;> simp
@[simp] theorem State.ceilingFell_power (s : State) (n old : Nat) : (s.ceilingFell n old).power = s.power := by unfold State.ceilingFell; split <;> simp
@[simp] theorem State.ceilingFell_cores (s : State) (n old : Nat) : (s.ceilingFell n old).cores = s.cores := by unfold State.ceilingFell; split <;> simp
@[simp] theorem State.ceilingFell_dbgUnit (s : State) (n old : Nat) : (s.ceilingFell n old).dbgUnit = s.dbgUnit := by unfold State.ceilingFell; split <;> simp
@[simp] theorem State.ceilingFell_jtag (s : State) (n old : Nat) : (s.ceilingFell n old).jtag = s.jtag := by unfold State.ceilingFell; split <;> simp
@[simp] theorem State.ceilingFell_fresh (s : State) (n old : Nat) : (s.ceilingFell n old).fresh = s.fresh := by unfold State.ceilingFell; split <;> simp

/-! What answering waiting limits and a Halt leave. -/

@[simp] theorem State.limitReplies_pending (s : State) : s.limitReplies.pending = s.pending :=
  (foldl_keeps State.pending _ (by intros; simp) _ _).trans rfl
@[simp] theorem State.limitReplies_plat (s : State) : s.limitReplies.plat = s.plat :=
  (foldl_keeps State.plat _ (by intros; simp) _ _).trans rfl
@[simp] theorem State.limitReplies_fuses (s : State) : s.limitReplies.fuses = s.fuses :=
  (foldl_keeps State.fuses _ (by intros; simp) _ _).trans rfl
@[simp] theorem State.limitReplies_cfg (s : State) : s.limitReplies.cfg = s.cfg :=
  (foldl_keeps State.cfg _ (by intros; simp) _ _).trans rfl
@[simp] theorem State.limitReplies_cairn (s : State) : s.limitReplies.cairn = s.cairn :=
  (foldl_keeps State.cairn _ (by intros; simp) _ _).trans rfl
@[simp] theorem State.limitReplies_time (s : State) : s.limitReplies.time = s.time :=
  (foldl_keeps State.time _ (by intros; simp) _ _).trans rfl
@[simp] theorem State.limitReplies_log (s : State) : s.limitReplies.log = s.log :=
  (foldl_keeps State.log _ (by intros; simp) _ _).trans rfl
@[simp] theorem State.limitReplies_logSeq (s : State) : s.limitReplies.logSeq = s.logSeq :=
  (foldl_keeps State.logSeq _ (by intros; simp) _ _).trans rfl
@[simp] theorem State.limitReplies_acts (s : State) : s.limitReplies.acts = s.acts :=
  (foldl_keeps State.acts _ (by intros; simp) _ _).trans rfl
@[simp] theorem State.limitReplies_actNum (s : State) : s.limitReplies.actNum = s.actNum :=
  (foldl_keeps State.actNum _ (by intros; simp) _ _).trans rfl
@[simp] theorem State.limitReplies_trapTail (s : State) : s.limitReplies.trapTail = s.trapTail :=
  (foldl_keeps State.trapTail _ (by intros; simp) _ _).trans rfl
@[simp] theorem State.limitReplies_trapHead (s : State) : s.limitReplies.trapHead = s.trapHead :=
  (foldl_keeps State.trapHead _ (by intros; simp) _ _).trans rfl
@[simp] theorem State.limitReplies_trapWait (s : State) : s.limitReplies.trapWait = s.trapWait :=
  (foldl_keeps State.trapWait _ (by intros; simp) _ _).trans rfl
@[simp] theorem State.limitReplies_streams (s : State) : s.limitReplies.streams = s.streams :=
  (foldl_keeps State.streams _ (by intros; simp) _ _).trans rfl
@[simp] theorem State.limitReplies_launches (s : State) : s.limitReplies.launches = s.launches :=
  (foldl_keeps State.launches _ (by intros; simp) _ _).trans rfl
@[simp] theorem State.limitReplies_launchNum (s : State) : s.limitReplies.launchNum = s.launchNum :=
  (foldl_keeps State.launchNum _ (by intros; simp) _ _).trans rfl
@[simp] theorem State.limitReplies_tiles (s : State) : s.limitReplies.tiles = s.tiles :=
  (foldl_keeps State.tiles _ (by intros; simp) _ _).trans rfl
@[simp] theorem State.limitReplies_heavy (s : State) : s.limitReplies.heavy = s.heavy :=
  (foldl_keeps State.heavy _ (by intros; simp) _ _).trans rfl
@[simp] theorem State.limitReplies_serial (s : State) : s.limitReplies.serial = s.serial :=
  (foldl_keeps State.serial _ (by intros; simp) _ _).trans rfl
@[simp] theorem State.limitReplies_landing (s : State) : s.limitReplies.landing = s.landing :=
  (foldl_keeps State.landing _ (by intros; simp) _ _).trans rfl
@[simp] theorem State.limitReplies_dram (s : State) : s.limitReplies.dram = s.dram :=
  (foldl_keeps State.dram _ (by intros; simp) _ _).trans rfl
@[simp] theorem State.limitReplies_reqs (s : State) : s.limitReplies.reqs = s.reqs :=
  (foldl_keeps State.reqs _ (by intros; simp) _ _).trans rfl
@[simp] theorem State.limitReplies_reqNum (s : State) : s.limitReplies.reqNum = s.reqNum :=
  (foldl_keeps State.reqNum _ (by intros; simp) _ _).trans rfl
@[simp] theorem State.limitReplies_ansNum (s : State) : s.limitReplies.ansNum = s.ansNum :=
  (foldl_keeps State.ansNum _ (by intros; simp) _ _).trans rfl
@[simp] theorem State.limitReplies_slices (s : State) : s.limitReplies.slices = s.slices :=
  (foldl_keeps State.slices _ (by intros; simp) _ _).trans rfl
@[simp] theorem State.limitReplies_msgs (s : State) : s.limitReplies.msgs = s.msgs :=
  (foldl_keeps State.msgs _ (by intros; simp) _ _).trans rfl
@[simp] theorem State.limitReplies_agents (s : State) : s.limitReplies.agents = s.agents :=
  (foldl_keeps State.agents _ (by intros; simp) _ _).trans rfl
@[simp] theorem State.limitReplies_dead (s : State) : s.limitReplies.dead = s.dead :=
  (foldl_keeps State.dead _ (by intros; simp) _ _).trans rfl
@[simp] theorem State.limitReplies_notices (s : State) : s.limitReplies.notices = s.notices :=
  (foldl_keeps State.notices _ (by intros; simp) _ _).trans rfl
@[simp] theorem State.limitReplies_rejoin (s : State) : s.limitReplies.rejoin = s.rejoin :=
  (foldl_keeps State.rejoin _ (by intros; simp) _ _).trans rfl
@[simp] theorem State.limitReplies_reclaimed (s : State) : s.limitReplies.reclaimed = s.reclaimed :=
  (foldl_keeps State.reclaimed _ (by intros; simp) _ _).trans rfl
@[simp] theorem State.limitReplies_beats (s : State) : s.limitReplies.beats = s.beats :=
  (foldl_keeps State.beats _ (by intros; simp) _ _).trans rfl
@[simp] theorem State.limitReplies_host (s : State) : s.limitReplies.host = s.host :=
  (foldl_keeps State.host _ (by intros; simp) _ _).trans rfl
@[simp] theorem State.limitReplies_hostBusy (s : State) : s.limitReplies.hostBusy = s.hostBusy :=
  (foldl_keeps State.hostBusy _ (by intros; simp) _ _).trans rfl
@[simp] theorem State.limitReplies_hostQ (s : State) : s.limitReplies.hostQ = s.hostQ :=
  (foldl_keeps State.hostQ _ (by intros; simp) _ _).trans rfl
@[simp] theorem State.limitReplies_snoopQ (s : State) : s.limitReplies.snoopQ = s.snoopQ :=
  (foldl_keeps State.snoopQ _ (by intros; simp) _ _).trans rfl
@[simp] theorem State.limitReplies_snoopIn (s : State) : s.limitReplies.snoopIn = s.snoopIn :=
  (foldl_keeps State.snoopIn _ (by intros; simp) _ _).trans rfl
@[simp] theorem State.limitReplies_hostOut (s : State) : s.limitReplies.hostOut = s.hostOut :=
  (foldl_keeps State.hostOut _ (by intros; simp) _ _).trans rfl
@[simp] theorem State.limitReplies_xlt (s : State) : s.limitReplies.xlt = s.xlt :=
  (foldl_keeps State.xlt _ (by intros; simp) _ _).trans rfl
@[simp] theorem State.limitReplies_chans (s : State) : s.limitReplies.chans = s.chans :=
  (foldl_keeps State.chans _ (by intros; simp) _ _).trans rfl
@[simp] theorem State.limitReplies_remap (s : State) : s.limitReplies.remap = s.remap :=
  (foldl_keeps State.remap _ (by intros; simp) _ _).trans rfl
@[simp] theorem State.limitReplies_hbm (s : State) : s.limitReplies.hbm = s.hbm :=
  (foldl_keeps State.hbm _ (by intros; simp) _ _).trans rfl
@[simp] theorem State.limitReplies_tmax (s : State) : s.limitReplies.tmax = s.tmax :=
  (foldl_keeps State.tmax _ (by intros; simp) _ _).trans rfl
@[simp] theorem State.limitReplies_cols (s : State) : s.limitReplies.cols = s.cols :=
  (foldl_keeps State.cols _ (by intros; simp) _ _).trans rfl
@[simp] theorem State.limitReplies_tokens (s : State) : s.limitReplies.tokens = s.tokens :=
  (foldl_keeps State.tokens _ (by intros; simp) _ _).trans rfl
@[simp] theorem State.limitReplies_held (s : State) : s.limitReplies.held = s.held :=
  (foldl_keeps State.held _ (by intros; simp) _ _).trans rfl
@[simp] theorem State.limitReplies_asks (s : State) : s.limitReplies.asks = s.asks :=
  (foldl_keeps State.asks _ (by intros; simp) _ _).trans rfl
@[simp] theorem State.limitReplies_colSat (s : State) : s.limitReplies.colSat = s.colSat :=
  (foldl_keeps State.colSat _ (by intros; simp) _ _).trans rfl
@[simp] theorem State.limitReplies_links (s : State) : s.limitReplies.links = s.links :=
  (foldl_keeps State.links _ (by intros; simp) _ _).trans rfl
@[simp] theorem State.limitReplies_rdgRoute (s : State) : s.limitReplies.rdgRoute = s.rdgRoute :=
  (foldl_keeps State.rdgRoute _ (by intros; simp) _ _).trans rfl
@[simp] theorem State.limitReplies_rdgWin (s : State) : s.limitReplies.rdgWin = s.rdgWin :=
  (foldl_keeps State.rdgWin _ (by intros; simp) _ _).trans rfl
@[simp] theorem State.limitReplies_plans (s : State) : s.limitReplies.plans = s.plans :=
  (foldl_keeps State.plans _ (by intros; simp) _ _).trans rfl
@[simp] theorem State.limitReplies_holds (s : State) : s.limitReplies.holds = s.holds :=
  (foldl_keeps State.holds _ (by intros; simp) _ _).trans rfl
@[simp] theorem State.limitReplies_chunkOut (s : State) : s.limitReplies.chunkOut = s.chunkOut :=
  (foldl_keeps State.chunkOut _ (by intros; simp) _ _).trans rfl
@[simp] theorem State.limitReplies_chunkRsp (s : State) : s.limitReplies.chunkRsp = s.chunkRsp :=
  (foldl_keeps State.chunkRsp _ (by intros; simp) _ _).trans rfl
@[simp] theorem State.limitReplies_bcasts (s : State) : s.limitReplies.bcasts = s.bcasts :=
  (foldl_keeps State.bcasts _ (by intros; simp) _ _).trans rfl
@[simp] theorem State.limitReplies_bcOut (s : State) : s.limitReplies.bcOut = s.bcOut :=
  (foldl_keeps State.bcOut _ (by intros; simp) _ _).trans rfl
@[simp] theorem State.limitReplies_starts (s : State) : s.limitReplies.starts = s.starts :=
  (foldl_keeps State.starts _ (by intros; simp) _ _).trans rfl
@[simp] theorem State.limitReplies_rdgIn (s : State) : s.limitReplies.rdgIn = s.rdgIn :=
  (foldl_keeps State.rdgIn _ (by intros; simp) _ _).trans rfl
@[simp] theorem State.limitReplies_rdgOut (s : State) : s.limitReplies.rdgOut = s.rdgOut :=
  (foldl_keeps State.rdgOut _ (by intros; simp) _ _).trans rfl
@[simp] theorem State.limitReplies_fb (s : State) : s.limitReplies.fb = s.fb :=
  (foldl_keeps State.fb _ (by intros; simp) _ _).trans rfl
@[simp] theorem State.limitReplies_cores (s : State) : s.limitReplies.cores = s.cores :=
  (foldl_keeps State.cores _ (by intros; simp) _ _).trans rfl
@[simp] theorem State.limitReplies_dbgUnit (s : State) : s.limitReplies.dbgUnit = s.dbgUnit :=
  (foldl_keeps State.dbgUnit _ (by intros; simp) _ _).trans rfl
@[simp] theorem State.limitReplies_jtag (s : State) : s.limitReplies.jtag = s.jtag :=
  (foldl_keeps State.jtag _ (by intros; simp) _ _).trans rfl
@[simp] theorem State.limitReplies_fresh (s : State) : s.limitReplies.fresh = s.fresh :=
  (foldl_keeps State.fresh _ (by intros; simp) _ _).trans rfl

@[simp] theorem State.limitReplies_power (s : State) : s.limitReplies.power = { s.power with limitPorts := [] } :=
  (foldl_keeps State.power _ (by intros; simp) _ _).trans rfl

/-- A Halt from another state sets PSTATE and LASTH, keeps the state it came from, and leaves no limit unanswered. -/
theorem State.halt_power (s : State) (c : Nat) (h : s.power.pstate ≠ 3) :
    (s.halt c).power = { s.power with pstate := 3, before := s.power.pstate, lasth := c, coolLow := false, limitPorts := [] } := by
  unfold State.halt
  rw [if_neg h]
  simp

@[simp] theorem State.halt_pending (s : State) (c : Nat) : (s.halt c).pending = s.pending := by unfold State.halt; split <;> simp
@[simp] theorem State.halt_plat (s : State) (c : Nat) : (s.halt c).plat = s.plat := by unfold State.halt; split <;> simp
@[simp] theorem State.halt_fuses (s : State) (c : Nat) : (s.halt c).fuses = s.fuses := by unfold State.halt; split <;> simp
@[simp] theorem State.halt_cfg (s : State) (c : Nat) : (s.halt c).cfg = s.cfg := by unfold State.halt; split <;> simp
@[simp] theorem State.halt_cairn (s : State) (c : Nat) : (s.halt c).cairn = s.cairn := by unfold State.halt; split <;> simp
@[simp] theorem State.halt_time (s : State) (c : Nat) : (s.halt c).time = s.time := by unfold State.halt; split <;> simp
@[simp] theorem State.halt_actNum (s : State) (c : Nat) : (s.halt c).actNum = s.actNum := by unfold State.halt; split <;> simp
@[simp] theorem State.halt_trapTail (s : State) (c : Nat) : (s.halt c).trapTail = s.trapTail := by unfold State.halt; split <;> simp
@[simp] theorem State.halt_trapHead (s : State) (c : Nat) : (s.halt c).trapHead = s.trapHead := by unfold State.halt; split <;> simp
@[simp] theorem State.halt_trapWait (s : State) (c : Nat) : (s.halt c).trapWait = s.trapWait := by unfold State.halt; split <;> simp
@[simp] theorem State.halt_streams (s : State) (c : Nat) : (s.halt c).streams = s.streams := by unfold State.halt; split <;> simp
@[simp] theorem State.halt_launches (s : State) (c : Nat) : (s.halt c).launches = s.launches := by unfold State.halt; split <;> simp
@[simp] theorem State.halt_launchNum (s : State) (c : Nat) : (s.halt c).launchNum = s.launchNum := by unfold State.halt; split <;> simp
@[simp] theorem State.halt_tiles (s : State) (c : Nat) : (s.halt c).tiles = s.tiles := by unfold State.halt; split <;> simp
@[simp] theorem State.halt_heavy (s : State) (c : Nat) : (s.halt c).heavy = s.heavy := by unfold State.halt; split <;> simp
@[simp] theorem State.halt_serial (s : State) (c : Nat) : (s.halt c).serial = s.serial := by unfold State.halt; split <;> simp
@[simp] theorem State.halt_landing (s : State) (c : Nat) : (s.halt c).landing = s.landing := by unfold State.halt; split <;> simp
@[simp] theorem State.halt_dram (s : State) (c : Nat) : (s.halt c).dram = s.dram := by unfold State.halt; split <;> simp
@[simp] theorem State.halt_reqs (s : State) (c : Nat) : (s.halt c).reqs = s.reqs := by unfold State.halt; split <;> simp
@[simp] theorem State.halt_reqNum (s : State) (c : Nat) : (s.halt c).reqNum = s.reqNum := by unfold State.halt; split <;> simp
@[simp] theorem State.halt_ansNum (s : State) (c : Nat) : (s.halt c).ansNum = s.ansNum := by unfold State.halt; split <;> simp
@[simp] theorem State.halt_slices (s : State) (c : Nat) : (s.halt c).slices = s.slices := by unfold State.halt; split <;> simp
@[simp] theorem State.halt_msgs (s : State) (c : Nat) : (s.halt c).msgs = s.msgs := by unfold State.halt; split <;> simp
@[simp] theorem State.halt_agents (s : State) (c : Nat) : (s.halt c).agents = s.agents := by unfold State.halt; split <;> simp
@[simp] theorem State.halt_dead (s : State) (c : Nat) : (s.halt c).dead = s.dead := by unfold State.halt; split <;> simp
@[simp] theorem State.halt_notices (s : State) (c : Nat) : (s.halt c).notices = s.notices := by unfold State.halt; split <;> simp
@[simp] theorem State.halt_rejoin (s : State) (c : Nat) : (s.halt c).rejoin = s.rejoin := by unfold State.halt; split <;> simp
@[simp] theorem State.halt_reclaimed (s : State) (c : Nat) : (s.halt c).reclaimed = s.reclaimed := by unfold State.halt; split <;> simp
@[simp] theorem State.halt_beats (s : State) (c : Nat) : (s.halt c).beats = s.beats := by unfold State.halt; split <;> simp
@[simp] theorem State.halt_host (s : State) (c : Nat) : (s.halt c).host = s.host := by unfold State.halt; split <;> simp
@[simp] theorem State.halt_hostBusy (s : State) (c : Nat) : (s.halt c).hostBusy = s.hostBusy := by unfold State.halt; split <;> simp
@[simp] theorem State.halt_hostQ (s : State) (c : Nat) : (s.halt c).hostQ = s.hostQ := by unfold State.halt; split <;> simp
@[simp] theorem State.halt_snoopQ (s : State) (c : Nat) : (s.halt c).snoopQ = s.snoopQ := by unfold State.halt; split <;> simp
@[simp] theorem State.halt_snoopIn (s : State) (c : Nat) : (s.halt c).snoopIn = s.snoopIn := by unfold State.halt; split <;> simp
@[simp] theorem State.halt_hostOut (s : State) (c : Nat) : (s.halt c).hostOut = s.hostOut := by unfold State.halt; split <;> simp
@[simp] theorem State.halt_xlt (s : State) (c : Nat) : (s.halt c).xlt = s.xlt := by unfold State.halt; split <;> simp
@[simp] theorem State.halt_chans (s : State) (c : Nat) : (s.halt c).chans = s.chans := by unfold State.halt; split <;> simp
@[simp] theorem State.halt_remap (s : State) (c : Nat) : (s.halt c).remap = s.remap := by unfold State.halt; split <;> simp
@[simp] theorem State.halt_hbm (s : State) (c : Nat) : (s.halt c).hbm = s.hbm := by unfold State.halt; split <;> simp
@[simp] theorem State.halt_tmax (s : State) (c : Nat) : (s.halt c).tmax = s.tmax := by unfold State.halt; split <;> simp
@[simp] theorem State.halt_cols (s : State) (c : Nat) : (s.halt c).cols = s.cols := by unfold State.halt; split <;> simp
@[simp] theorem State.halt_tokens (s : State) (c : Nat) : (s.halt c).tokens = s.tokens := by unfold State.halt; split <;> simp
@[simp] theorem State.halt_held (s : State) (c : Nat) : (s.halt c).held = s.held := by unfold State.halt; split <;> simp
@[simp] theorem State.halt_asks (s : State) (c : Nat) : (s.halt c).asks = s.asks := by unfold State.halt; split <;> simp
@[simp] theorem State.halt_colSat (s : State) (c : Nat) : (s.halt c).colSat = s.colSat := by unfold State.halt; split <;> simp
@[simp] theorem State.halt_links (s : State) (c : Nat) : (s.halt c).links = s.links := by unfold State.halt; split <;> simp
@[simp] theorem State.halt_rdgRoute (s : State) (c : Nat) : (s.halt c).rdgRoute = s.rdgRoute := by unfold State.halt; split <;> simp
@[simp] theorem State.halt_rdgWin (s : State) (c : Nat) : (s.halt c).rdgWin = s.rdgWin := by unfold State.halt; split <;> simp
@[simp] theorem State.halt_plans (s : State) (c : Nat) : (s.halt c).plans = s.plans := by unfold State.halt; split <;> simp
@[simp] theorem State.halt_holds (s : State) (c : Nat) : (s.halt c).holds = s.holds := by unfold State.halt; split <;> simp
@[simp] theorem State.halt_chunkOut (s : State) (c : Nat) : (s.halt c).chunkOut = s.chunkOut := by unfold State.halt; split <;> simp
@[simp] theorem State.halt_chunkRsp (s : State) (c : Nat) : (s.halt c).chunkRsp = s.chunkRsp := by unfold State.halt; split <;> simp
@[simp] theorem State.halt_bcasts (s : State) (c : Nat) : (s.halt c).bcasts = s.bcasts := by unfold State.halt; split <;> simp
@[simp] theorem State.halt_bcOut (s : State) (c : Nat) : (s.halt c).bcOut = s.bcOut := by unfold State.halt; split <;> simp
@[simp] theorem State.halt_starts (s : State) (c : Nat) : (s.halt c).starts = s.starts := by unfold State.halt; split <;> simp
@[simp] theorem State.halt_rdgIn (s : State) (c : Nat) : (s.halt c).rdgIn = s.rdgIn := by unfold State.halt; split <;> simp
@[simp] theorem State.halt_rdgOut (s : State) (c : Nat) : (s.halt c).rdgOut = s.rdgOut := by unfold State.halt; split <;> simp
@[simp] theorem State.halt_fb (s : State) (c : Nat) : (s.halt c).fb = s.fb := by unfold State.halt; split <;> simp
@[simp] theorem State.halt_cores (s : State) (c : Nat) : (s.halt c).cores = s.cores := by unfold State.halt; split <;> simp
@[simp] theorem State.halt_dbgUnit (s : State) (c : Nat) : (s.halt c).dbgUnit = s.dbgUnit := by unfold State.halt; split <;> simp
@[simp] theorem State.halt_jtag (s : State) (c : Nat) : (s.halt c).jtag = s.jtag := by unfold State.halt; split <;> simp
@[simp] theorem State.halt_fresh (s : State) (c : Nat) : (s.halt c).fresh = s.fresh := by unfold State.halt; split <;> simp
end Sys2Proof.Machine
end

