-- ==== Sys2Proof/Laws/Records.lean ====
section
/-! SUPPORT. What the dispatcher does with a record that its stream takes. -/

namespace Sys2Proof.Machine

/-- A record that is taken: its own part runs. -/
theorem State.take_of_recordFor {s : State} {n typ : Nat} {ws : List W64} {u : State}
    (h : s.recordFor n typ = some (ws, u)) (f : State → List W64 → State) : s.take n typ f = f u ws := by
  unfold State.recordFor at h
  split at h
  case isFalse => cases h
  rename_i ht
  obtain ⟨ht, hw⟩ := ht
  split at h
  case h_2 => cases h
  rename_i w v hr
  split at h
  case isFalse => cases h
  rename_i hc
  obtain ⟨h1, h2, h3, h4⟩ := hc
  obtain ⟨rfl, rfl⟩ : w = ws ∧ (if parks w then v else v.dropWatch n) = u := by simpa using h
  unfold State.take
  simp only [ht, Bool.not_true, Bool.false_eq_true, if_false, Option.isNone_iff_eq_none.mp hw, hr, h1]
  have e1 : ¬ ((!parks w && (bitOf (nth 0 w 0).toNat 8 || alwaysOrd typ) && !(s.stream n).flights.isEmpty) = true) := by
    rcases h3 with h3 | h3 | h3
    · simp [h3]
    · rw [h3]; simp
    · simp [h3]
  have e2 : ¬ ((decide (10 < typ) || (decide (fld (s.stream n).next 6 6 = 63) && typ != 0 && typ != 10)) = true) := by
    have : ¬ 10 < typ := by omega
    rcases h4 with h4 | h4 | h4 <;> simp [h4, this]
  have e3 : (typ != typ) = false := by simp
  rw [if_neg e1, if_neg e2, e3]
  cases hp : parks w <;> simp

/-- A record that a stream takes is served by a package that serves commands, on one of its 64 streams. -/
theorem State.recordFor_serves {s : State} {n typ : Nat} {x : List W64 × State}
    (h : s.recordFor n typ = some x) : s.serves = true ∧ n < 64 := by
  unfold State.recordFor at h
  split at h
  case isFalse => cases h
  rename_i ht
  replace ht := ht.1
  simp [State.takes] at ht
  exact ⟨ht.1.1.1.1.1.1.1, ht.1.1.1.1.2⟩

/-- What an attempt at a record does, when the stream takes no other after it. -/
theorem State.attempt_of_worksOn {s : State} {n typ : Nat} {ok : List W64 → Bool} {f : Flight} {w : State}
    (h : s.worksOn n typ ok = some (f, w)) (go : State → Flight → State)
    (hn : s.openFlight n typ = none ∨ (go w f).takes n = false) : s.attempt n typ ok go = go w f := by
  unfold State.worksOn at h
  unfold State.attempt
  cases ho : s.openFlight n typ with
  | some g =>
    simp only [ho] at h hn ⊢
    by_cases hs : (s.serves && decide (n < 64)) = true
    · simp only [hs, if_true, Option.some.injEq, Prod.mk.injEq] at h ⊢
      obtain ⟨rfl, rfl⟩ := h
      have : (go s g).takes n = false := by simpa using hn
      simp [State.take, this]
    · simp [hs] at h
  | none =>
    simp only [ho] at h ⊢
    cases hr : s.recordFor n typ with
    | none => simp [hr] at h
    | some x =>
      obtain ⟨ws, u⟩ := x
      have hv := State.recordFor_serves hr
      simp only [hr] at h
      by_cases hk : ok ws = true
      · simp only [hk, if_true, Option.some.injEq, Prod.mk.injEq] at h
        obtain ⟨rfl, rfl⟩ := h
        simp [hv, State.take_of_recordFor hr, hk]
      · simp [hk] at h

end Sys2Proof.Machine
end

