-- ==== Sys2Proof/Laws/Stores.lean ====
section
/-! SUPPORT. Every operation on a coded store keeps the canonical form of its cells, and a byte reads as it was last written. -/

namespace Sys2Proof.Machine

/-- A canonical list above a bound is canonical above a lower one. -/
theorem Memory.wfFrom_mono {m : List Host.Cell} {a b : Nat} (h : Memory.wfFrom b m = true) (hab : a ≤ b) : Memory.wfFrom a m = true := by
  cases m with
  | nil => rfl
  | cons c r =>
    obtain ⟨k, v⟩ := c
    simp only [Memory.wfFrom, Bool.and_eq_true, decide_eq_true_eq] at h ⊢
    exact ⟨⟨Nat.le_trans hab h.1.1, h.1.2⟩, h.2⟩

/-- Leaving cells out keeps the canonical form. -/
theorem Memory.wfFrom_filter (p : Host.Cell → Bool) (m : List Host.Cell) (lo : Nat) (h : Memory.wfFrom lo m = true) :
    Memory.wfFrom lo (m.filter p) = true := by
  induction m generalizing lo with
  | nil => rfl
  | cons c r ih =>
    obtain ⟨k, v⟩ := c
    simp only [Memory.wfFrom, Bool.and_eq_true, decide_eq_true_eq] at h
    rw [List.filter_cons]
    split
    · simp only [Memory.wfFrom, Bool.and_eq_true, decide_eq_true_eq]
      exact ⟨h.1, ih _ h.2⟩
    · exact Memory.wfFrom_mono (ih _ h.2) (Nat.le_succ_of_le h.1.1)

/-- The cells of a canonical list that lie above a bound are canonical above it. -/
theorem Memory.wfFrom_above (m : List Host.Cell) (lo b : Nat) (h : Memory.wfFrom lo m = true) :
    Memory.wfFrom b (m.filter (fun c => decide (b ≤ c.1))) = true := by
  induction m generalizing lo with
  | nil => rfl
  | cons c r ih =>
    obtain ⟨k, v⟩ := c
    simp only [Memory.wfFrom, Bool.and_eq_true, decide_eq_true_eq] at h
    rw [List.filter_cons]
    split
    · rename_i hb
      simp only [decide_eq_true_eq] at hb
      simp only [Memory.wfFrom, Bool.and_eq_true, decide_eq_true_eq]
      exact ⟨⟨hb, h.1.2⟩, Memory.wfFrom_filter _ _ _ h.2⟩
    · exact ih _ h.2

/-- Two canonical lists, all of the first below the start of the second, make one. -/
theorem Memory.wfFrom_append (l r : List Host.Cell) (lo b : Nat) (hl : Memory.wfFrom lo l = true) (hr : Memory.wfFrom b r = true)
    (hlo : lo ≤ b) (hb : ∀ c ∈ l, c.1 < b) : Memory.wfFrom lo (l ++ r) = true := by
  induction l generalizing lo with
  | nil => exact Memory.wfFrom_mono hr hlo
  | cons c t ih =>
    obtain ⟨k, v⟩ := c
    simp only [Memory.wfFrom, Bool.and_eq_true, decide_eq_true_eq] at hl
    simp only [List.cons_append, Memory.wfFrom, Bool.and_eq_true, decide_eq_true_eq]
    exact ⟨hl.1, ih _ hl.2 (hb (k, v) (by simp)) (fun c hc => hb c (by simp [hc]))⟩

/-- The cells of a list of bytes are canonical from its first address. -/
theorem cellsAt_wf (a : Nat) (l : List Byte) : Memory.wfFrom a (cellsAt a l) = true := by
  induction l generalizing a with
  | nil => rfl
  | cons v r ih =>
    unfold cellsAt
    split
    · exact Memory.wfFrom_mono (ih _) (Nat.le_succ a)
    · rename_i hv
      simp only [Memory.wfFrom, Bool.and_eq_true, decide_eq_true_eq, Nat.le_refl, true_and]
      exact ⟨by simpa using hv, ih _⟩

/-- The cells of a list of bytes lie below its end. -/
theorem cellsAt_lt (a : Nat) (l : List Byte) : ∀ c ∈ cellsAt a l, a ≤ c.1 ∧ c.1 < a + l.length := by
  induction l generalizing a with
  | nil => simp [cellsAt]
  | cons v r ih =>
    intro c hc
    unfold cellsAt at hc
    split at hc
    · have := ih (a + 1) c hc
      simp only [List.length_cons]
      omega
    · rcases List.mem_cons.mp hc with rfl | hc
      · simp
      · have := ih (a + 1) c hc
        simp only [List.length_cons]
        omega

/-- A write keeps the canonical form. -/
theorem writeCells_wf (m : List Host.Cell) (a : Nat) (l : List Byte) (h : Memory.wf m = true) : Memory.wf (writeCells m a l) = true := by
  unfold writeCells Memory.wf
  refine Memory.wfFrom_append _ _ 0 a (Memory.wfFrom_filter _ _ _ h) ?_ (Nat.zero_le _) ?_
  · exact Memory.wfFrom_append _ _ a (a + l.length) (cellsAt_wf a l) (Memory.wfFrom_above m 0 _ h) (Nat.le_add_right _ _)
      (fun c hc => (cellsAt_lt a l c hc).2)
  · intro c hc
    simpa using (List.mem_filter.mp hc).2

/-- The canonical form of a store. -/
def Store.wf (st : Store) : Bool := Memory.wf st.cells

theorem Store.writeBytes_wf (st : Store) (a : Nat) (l : List Byte) (h : st.wf = true) : (st.writeBytes a l).wf = true :=
  writeCells_wf st.cells a l h

theorem Store.writeNat_wf (st : Store) (a n v : Nat) (h : st.wf = true) : (st.writeNat a n v).wf = true :=
  writeCells_wf st.cells a (leBytes n v) h

theorem Store.setPoison_wf (st : Store) (a n : Nat) (h : st.wf = true) : (st.setPoison a n).wf = true := h
theorem Store.clrPoison_wf (st : Store) (a n : Nat) (h : st.wf = true) : (st.clrPoison a n).wf = true := h
theorem Store.correct_wf (st : Store) (k : Nat) (h : st.wf = true) : (st.correct k).wf = true := h
theorem Store.inject_wf (st : Store) (a k : Nat) (h : st.wf = true) : (st.inject a k).wf = true := h

theorem Store.zeroRange_wf (st : Store) (a n : Nat) (h : st.wf = true) : (st.zeroRange a n).wf = true :=
  Memory.wfFrom_filter _ _ _ h

theorem Store.foldl_setPoison_wf (l : List Nat) (st : Store) (f : Nat → Nat) (n : Nat) (h : st.wf = true) :
    (l.foldl (fun (t : Store) k => t.setPoison (f k) n) st).wf = true := by
  induction l generalizing st with
  | nil => exact h
  | cons k r ih => exact ih _ h

theorem Store.putLine_wf (st : Store) (a : Nat) (l : Line) (h : st.wf = true) : (st.putLine a l).wf = true := by
  unfold Store.putLine
  exact Store.foldl_setPoison_wf _ _ (fun k => a + 32 * k) 32 (Store.writeBytes_wf st a _ h)

/-- Reading an address in a list whose cells all lie elsewhere gives 0. -/
theorem readCell_none (m : List Host.Cell) (x : Nat) (h : ∀ c ∈ m, c.1 ≠ x) : readCell m x = 0 := by
  induction m with
  | nil => rfl
  | cons c r ih =>
    obtain ⟨k, v⟩ := c
    have hk : k ≠ x := h (k, v) (by simp)
    simp only [readCell, hk, if_false]
    exact ih (fun c hc => h c (by simp [hc]))

/-- Reading past a part with no cell at the address. -/
theorem readCell_append (l r : List Host.Cell) (x : Nat) (h : ∀ c ∈ l, c.1 ≠ x) : readCell (l ++ r) x = readCell r x := by
  induction l with
  | nil => rfl
  | cons c t ih =>
    obtain ⟨k, v⟩ := c
    have hk : k ≠ x := h (k, v) (by simp)
    simp only [List.cons_append, readCell, hk, if_false]
    exact ih (fun c hc => h c (by simp [hc]))

/-- Reading where the rest has no cell at the address. -/
theorem readCell_append_left (l r : List Host.Cell) (x : Nat) (h : ∀ c ∈ r, c.1 ≠ x) : readCell (l ++ r) x = readCell l x := by
  induction l with
  | nil => exact readCell_none r x h
  | cons c t ih =>
    obtain ⟨k, v⟩ := c
    simp only [List.cons_append, readCell]
    split
    · rfl
    · exact ih

/-- Leaving out cells elsewhere does not change what an address reads as. -/
theorem readCell_filter (p : Nat → Bool) (m : List Host.Cell) (x : Nat) (h : p x = true) :
    readCell (m.filter (fun c => p c.1)) x = readCell m x := by
  induction m with
  | nil => rfl
  | cons c r ih =>
    obtain ⟨k, v⟩ := c
    rw [List.filter_cons]
    by_cases hk : k = x
    · subst hk
      simp [h, readCell]
    · split <;> simp [readCell, hk, ih]

/-- The cells of a list of bytes read back as the bytes. -/
theorem readCell_cellsAt (a : Nat) (l : List Byte) (k : Nat) (h : k < l.length) : readCell (cellsAt a l) (a + k) = l.getD k 0 := by
  induction l generalizing a k with
  | nil => simp at h
  | cons v r ih =>
    unfold cellsAt
    cases k with
    | zero =>
      split
      · rename_i hv
        rw [readCell_none _ _ (fun c hc => by have := (cellsAt_lt (a + 1) r c hc).1; omega)]
        simp [hv]
      · simp [readCell]
    | succ n =>
      have hn : n < r.length := by simpa using h
      have e := ih (a + 1) n hn
      have ha : a + (n + 1) = a + 1 + n := by omega
      split
      · rw [ha, e]
        simp
      · rw [ha]
        simp only [readCell, show a ≠ a + 1 + n by omega, if_false, e]
        simp

/-- A byte just written reads as written. -/
theorem readCell_writeCells_in (m : List Host.Cell) (a : Nat) (l : List Byte) (k : Nat) (h : k < l.length) :
    readCell (writeCells m a l) (a + k) = l.getD k 0 := by
  unfold writeCells
  rw [readCell_append _ _ _ (fun c hc => by have := (List.mem_filter.mp hc).2; simp at this; omega),
    readCell_append_left _ _ _ (fun c hc => by have := (List.mem_filter.mp hc).2; simp at this; omega), readCell_cellsAt a l k h]

/-- A byte outside a write reads as before. -/
theorem readCell_writeCells_out (m : List Host.Cell) (a : Nat) (l : List Byte) (x : Nat) (h : x < a ∨ a + l.length ≤ x) :
    readCell (writeCells m a l) x = readCell m x := by
  unfold writeCells
  rcases h with h | h
  · rw [readCell_append_left, readCell_filter (fun k => decide (k < a)) m x (by simpa using h)]
    intro c hc
    rcases List.mem_append.mp hc with hc | hc
    · have := (cellsAt_lt a l c hc).1
      omega
    · have := (List.mem_filter.mp hc).2
      simp at this
      omega
  · rw [readCell_append _ _ _ (fun c hc => by have := (List.mem_filter.mp hc).2; simp at this; omega),
      readCell_append _ _ _ (fun c hc => by have := (cellsAt_lt a l c hc).2; omega),
      readCell_filter (fun k => decide (a + l.length ≤ k)) m x (by simpa using h)]

/-- A byte of a store outside a write reads as before. -/
theorem Store.read8_writeBytes_out (st : Store) (a : Nat) (l : List Byte) (x : Nat) (h : x < a ∨ a + l.length ≤ x) :
    (st.writeBytes a l).read8 x = st.read8 x := readCell_writeCells_out st.cells a l x h

/-- A byte of a store inside a write reads as written. -/
theorem Store.read8_writeBytes_in (st : Store) (a : Nat) (l : List Byte) (k : Nat) (h : k < l.length) :
    (st.writeBytes a l).read8 (a + k) = l.getD k 0 := readCell_writeCells_in st.cells a l k h

end Sys2Proof.Machine
end

