-- ==== Sys2Proof/Machine/Code.lean ====
section
/-! DEFINITION. The codeword of a stored 32-byte sector (R271, R272, Table 11.2): a shortened Reed-Solomon code over GF(2⁸) with three check
symbols, which corrects one symbol and detects two. Stores hold data, marks and the number of corrupted symbols; a sector's 36 symbols follow
from them. -/

namespace Sys2Proof.Machine

/-- Multiplication by α in GF(2⁸) with x⁸ + x⁴ + x³ + x² + 1 (R271). -/
def gfAlpha (a : Nat) : Nat := if a < 128 then 2 * a else (2 * a) ^^^ 0x11D

/-- Multiplication in GF(2⁸). -/
def gfMul (a b : Nat) : Nat := (List.range 8).foldl (fun r i => gfAlpha r ^^^ (if bitOf b (7 - i) then a else 0)) 0

/-- The value of the polynomial with the given symbols, the first the highest power, at x. -/
def gfEval (l : List Nat) (x : Nat) : Nat := l.foldl (fun r c => gfMul r x ^^^ c) 0

/-- The generator (x − 1)(x − α)(x − α²) without its leading 1, highest power first. -/
def rsGen : List Nat := [7, 14, 8]

/-- Check symbols C0–C2 of information symbols: the remainder of their polynomial times x³ by the generator. That D0 stands at the highest power,
and C2 at x⁰, is the model's own (log entry 71). -/
def rsCheck (info : List Nat) : List Nat :=
  info.foldl (fun r d =>
    let q := d ^^^ nth 0 r 0
    (List.range 3).map (fun k => nth 0 r (k + 1) ^^^ gfMul q (nth 0 rsGen k))) [0, 0, 0]

/-- The 36 symbols of a sector: D0–D31, M and C0–C2 (Table 11.2). -/
def codeword (data : List Byte) (poison : Bool) : List Nat :=
  let info := data.map (fun b => b.toNat) ++ [b2n poison]
  info ++ rsCheck info

/-- What a read makes of 36 stored symbols (R272): data and POISON, corrected or not; or uncorrectable. -/
inductive Decoded where
  | sector (info : List Nat) (corrected : Bool)
  | uncorrectable
  deriving DecidableEq, Repr

/-- Reads a codeword (R272): a single wrong symbol is corrected, any two are found, and M with a bit of [7:1] set counts as uncorrectable. -/
def readCode (w : List Nat) : Decoded :=
  let s0 := gfEval w 1
  let s1 := gfEval w 2
  let s2 := gfEval w 4
  let out := fun (l : List Nat) (c : Bool) => if nth 0 l 32 < 2 then Decoded.sector (l.take 33) c else .uncorrectable
  if s0 = 0 ∧ s1 = 0 ∧ s2 = 0 then out w false
  else
    match (List.range 36).find? (fun k =>
        let p := (List.range (35 - k)).foldl (fun r _ => gfAlpha r) 1
        gfMul s0 p == s1 && gfMul s1 p == s2 && s0 != 0) with
    | some k => out (w.take k ++ [nth 0 w k ^^^ s0] ++ w.drop (k + 1)) true
    | none => .uncorrectable

/-- The codeword that a store holds for a sector as written, before any symbol of it was corrupted. -/
def Store.codeword (st : Store) (sector : Nat) : List Nat :=
  Machine.codeword (st.readBytes (32 * sector) 32) (st.poison.contains sector)

end Sys2Proof.Machine
end

