-- ==== Sys2Proof/WellFormed.lean ====
section
/-! DEFINITION. Which commands are well formed: every operand within the range its unit has (dies, tiles, slots, streams,
links, stacks; tables 1.1, 3.16, 12.5). A meaning does nothing for an operand that names no unit. -/

namespace Sys2Proof

/-- The header fields are 16 bits and the body is at most 4,080 bytes (R341, Table 14.1). -/
def Packet.Ok (k : Packet) : Bool := decide (k.flags < 65536) && decide (k.plen < 65536) && decide (k.seq < 65536) && decide (k.body.length ≤ 4080)
  && decide (k.eid < 256) && decide (k.tag < 8)

/-- A crew slot of a built tile (Table 3.16). -/
def CrewId.Ok (c : CrewId) : Bool := decide (c.die < 4) && decide (c.tile < 68) && decide (c.slot < 48)

/-- A line of the 48-bit device physical space and 7-bit agent identities (R222, Table 9.6). -/
def CMsg.Ok (m : CMsg) : Bool := decide (m.line < 2 ^ 41) && decide (m.dst < 128) && decide (m.src < 128) && decide (m.rq < 128) && decide (m.dsrc < 128)

/-- A 56-bit node-core physical address and a size of 1 to 8 bytes (R29, R30). -/
def NodeAccess.Ok (a : NodeAccess) : Bool :=
  decide (a.addr < 2 ^ 56) && decide (1 ≤ a.size) && decide (a.size ≤ 8)
    && (match a.kind with
        | .amo => decide (a.sub < 10) && a.sub != 7 && (a.size == 4 || a.size == 8) && a.addr % a.size == 0
        | .lr | .sc => (a.size == 4 || a.size == 8) && a.addr % a.size == 0
        | .fence => decide (a.sub < 256)
        | _ => true)

/-- A packet of a port, or firmware naming a die (R432, R433). -/
def ActReq.Ok : ActReq → Bool
  | .port _ k => k.Ok
  | .firmware die t4 t5 => decide (die < 5) && decide (t4 < 256) && decide (t5 < 256)

/-- The packet of either form (R351). -/
def DieResetReq.Ok : DieResetReq → Bool
  | .command _ k => k.Ok
  | .maint _ k => k.Ok

/-- The fields of DBG_REQ (R415). -/
def DbgReq.Ok (q : DbgReq) : Bool := decide (q.core < 64) && decide (q.die < 8) && decide (q.unit < 128) && decide (q.space < 4) && decide (q.addr < 2 ^ 48)

/-- A built Bucker (Table 6.1). -/
def BuckerId.Ok : BuckerId → Bool
  | .tile d t c => decide (d < 4) && decide (t < 68) && decide (c < 16)
  | .heavy d b => decide (d < 4) && decide (b < 8)

/-- A level of Tables 12.5 and 12.8. -/
def Level.Ok : Level → Bool
  | .tileEgress die tile => decide (die < 4) && decide (tile < 68)
  | .heavyEgress die | .engineEgress die | .serviceEgress die | .srcFabric die | .colHub die | .dstFabric die => decide (die < 4)
  | .col die k => decide (die < 4) && decide (k < 3)
  | .slice die s => decide (die < 4) && decide (s < 32)
  | .bank die b => decide (die < 4) && decide (b < 64)
  | .hbm die stack ch => decide (die < 4) && decide (stack < 3) && decide (ch < 32)
  | .lpddr die ch => decide (die < 4) && decide (ch < 16)
  | .ridge link => decide (link < 64)
  | .hubEgress | .hostLevel => true

/-- The command's operands are within range. -/
def WellFormed : Instr → Bool
  | .pwrGoodAssert _ => true
  | .pwrGoodLoss _ => true
  | .vddCairnLoss => true
  | .refclkCoreLoss => true
  | .refclkRidgeLoss => true
  | .refclkPcieLoss => true
  | .portLinkBringup _ => true
  | .portLinkRetrain _ => true
  | .perstNAssert => true
  | .perstNDeassert => true
  | .functionLevelReset => true
  | .cacheEnableClear => true
  | .cacheEnableSet => true
  | .imageBegin _ k => k.Ok
  | .imageData _ k => k.Ok
  | .imageEnd _ k => k.Ok
  | .memoryBringupEnd _ => true
  | .configWrite _ k => k.Ok
  | .configRead _ k => k.Ok
  | .configCommit _ k _ => k.Ok
  | .safetyProfile _ k => k.Ok
  | .safetyArm _ k => k.Ok
  | .queryIdentity _ k => k.Ok
  | .attest _ k => k.Ok
  | .timeSet _ k => k.Ok
  | .timeRead _ k => k.Ok
  | .telemetryRead _ k => k.Ok
  | .eventLogRead _ k => k.Ok
  | .maintStatus _ k => k.Ok
  | .maintAbort _ k => k.Ok
  | .scrub q => q.Ok
  | .hbmRetrain q => q.Ok
  | .lpRetrain q => q.Ok
  | .ridgeRetrain q => q.Ok
  | .chanEvac q => q.Ok
  | .chanEvacBlockWritten die _ => decide (die < 4)
  | .wayTest q => q.Ok
  | .tileRetire q => q.Ok
  | .tileRetireDeadline die tile => decide (die < 4) && decide (tile < 68)
  | .sensorCal q => q.Ok
  | .dieReset q => q.Ok
  | .dieResetDrainEnd die => decide (die < 4)
  | .activityEnd _ _ _ => true
  | .waitingActivityStart _ => true
  | .packagePark _ k => k.Ok
  | .parkEntry => true
  | .parkTimeout => true
  | .resume _ k => k.Ok
  | .resumeComplete => true
  | .streamOpen _ k => k.Ok
  | .streamClose _ k => k.Ok
  | .streamCloseDrained n => decide (n < 64)
  | .streamMigrate _ k => k.Ok
  | .migrateDrained n => decide (n < 64)
  | .streamDrainTimeout n => decide (n < 64)
  | .debugUnlockChallenge _ k _ => k.Ok
  | .debugUnlockKey _ k => k.Ok
  | .debugUnlockSignature _ k => k.Ok
  | .challengeExpiry => true
  | .debugLock _ k => k.Ok
  | .powerLimitSet _ k => k.Ok
  | .portBMessage _ _ k => k.Ok
  | .registerWrite _ addr _ => decide (addr < 2 ^ 52)
  | .routeEntryWrite i _ => decide (i < 128)
  | .interruptEvent src => decide (src < 128)
  | .apertureAccess core a => decide (core < 64) && a.Ok
  | .deviceRegisterAccessFault core a => decide (core < 64) && a.Ok
  | .trapAnswerReplay die _ => decide (die < 4)
  | .trapAnswerSkip die _ => decide (die < 4)
  | .trapAnswerKill die _ => decide (die < 4)
  | .trapHeadWrite die _ => decide (die < 4)
  | .trapRecordWrite die => decide (die < 4)
  | .xltReplyWalk _ => true
  | .xltReplyError _ _ => true
  | .xltRingHeadWrite _ => true
  | .xltInvalPage _ _ => true
  | .xltInvalSpace _ => true
  | .xltInvalAll => true
  | .invalidationComplete => true
  | .streamEheadWrite n _ => decide (n < 64)
  | .streamCont n => decide (n < 64)
  | .talTelHeadWrite _ => true
  | .memL2WayRead die s => decide (die < 4) && decide (s < 32)
  | .memStackTempRead die => decide (die < 4)
  | .colSatRead die l => decide (die < 4) && decide (l < 10)
  | .dbgRead q => q.Ok
  | .dbgWrite q => q.Ok
  | .dbgHalt q => q.Ok
  | .dbgRun q => q.Ok
  | .dbgStep q => q.Ok
  | .bkset q => q.Ok
  | .bkclr q => q.Ok
  | .inject q => q.Ok
  | .sample q => q.Ok
  | .extest => true
  | .idcode => true
  | .samplePreload => true
  | .clamp => true
  | .highz => true
  | .bypass _ => true
  | .launch n => decide (n < 64)
  | .standPlace _ die tile => decide (die < 4) && decide (tile < 68)
  | .standEnd die tile slot => decide (die < 4) && decide (tile < 68) && decide (slot < 16)
  | .copy n => decide (n < 64)
  | .signal n => decide (n < 64)
  | .wait n => decide (n < 64)
  | .waitTimeout n => decide (n < 64)
  | .phaseHint n => decide (n < 64)
  | .opRequest n => decide (n < 64)
  | .flushRange n => decide (n < 64)
  | .collective n => decide (n < 64)
  | .epoch n => decide (n < 64)
  | .link n => decide (n < 64)
  | .empty n => decide (n < 64)
  | .streamWake n => decide (n < 64)
  | .recordComplete n addr => decide (n < 64) && decide (addr < 2 ^ 52)
  | .mov c _ => c.Ok
  | .sel c _ => c.Ok
  | .sread c _ => c.Ok
  | .iadd c _ => c.Ok
  | .isub c _ => c.Ok
  | .imul c _ => c.Ok
  | .imulhi c _ => c.Ok
  | .imulhu c _ => c.Ok
  | .imad c _ => c.Ok
  | .imin c _ => c.Ok
  | .imax c _ => c.Ok
  | .umin c _ => c.Ok
  | .umax c _ => c.Ok
  | .and c _ => c.Ok
  | .or c _ => c.Ok
  | .xor c _ => c.Ok
  | .not c _ => c.Ok
  | .shl c _ => c.Ok
  | .shr c _ => c.Ok
  | .sar c _ => c.Ok
  | .popc c _ => c.Ok
  | .clz c _ => c.Ok
  | .bfx c _ => c.Ok
  | .isetp c _ => c.Ok
  | .fadd c _ => c.Ok
  | .fsub c _ => c.Ok
  | .fmul c _ => c.Ok
  | .ffma c _ => c.Ok
  | .fmin c _ => c.Ok
  | .fmax c _ => c.Ok
  | .fsetp c _ => c.Ok
  | .cvt c _ => c.Ok
  | .ld c _ _ => c.Ok
  | .st c _ => c.Ok
  | .bcopy c _ => c.Ok
  | .nop c _ => c.Ok
  | .bra c _ => c.Ok
  | .brx c _ => c.Ok
  | .call c _ => c.Ok
  | .ret c _ => c.Ok
  | .exit c _ => c.Ok
  | .trap c _ => c.Ok
  | .brk c _ => c.Ok
  | .bar c _ => c.Ok
  | .fenceAcq c _ => c.Ok
  | .fenceRel c _ => c.Ok
  | .fenceAr c _ => c.Ok
  | .atom c _ => c.Ok
  | .red c _ => c.Ok
  | .redl c _ => c.Ok
  | .shfl c _ => c.Ok
  | .vote c _ => c.Ok
  | .bwait c _ => c.Ok
  | .waitf c _ => c.Ok
  | .pause c _ => c.Ok
  | .waitConditionMet c => c.Ok
  | .mma c _ => c.Ok
  | .mmap c _ => c.Ok
  | .accld c _ => c.Ok
  | .accst c _ => c.Ok
  | .mwait c _ => c.Ok
  | .matrixStart die tile _ => decide (die < 4) && decide (tile < 68)
  | .matrixComplete die tile _ => decide (die < 4) && decide (tile < 68)
  | .eprun c _ => c.Ok
  | .vget c _ => c.Ok
  | .vput c _ => c.Ok
  | .vflags c _ => c.Ok
  | .vwait c _ => c.Ok
  | .elementStart die tile => decide (die < 4) && decide (tile < 68)
  | .elementComplete die tile _ => decide (die < 4) && decide (tile < 68)
  | .buckerTurn b count => b.Ok && decide (count < 65536)
  | .heavyBuckerTake die b n addr => decide (die < 4) && decide (b < 8) && decide (n < 64) && decide (addr < 2 ^ 52)
  | .indexListRead b => b.Ok
  | .flaggedFinalWrite b _ => b.Ok
  | .descriptorComplete b _ => b.Ok
  | .copyDataPathError b _ _ addr => b.Ok && decide (addr < 2 ^ 52)
  | .homeAccess _ _ => true
  | .l2FillReturn _ _ => true
  | .l1FillReturn _ => true
  | .evictionWriteIssue _ _ => true
  | .evictionWriteAck _ => true
  | .cleanVictimOffer cluster _ _ => decide (cluster < 8)
  | .wayDisable die s way => decide (die < 4) && decide (s < 32) && decide (way < 16)
  | .hourBucketAdvance => true
  | .nodeCoreAccess core a => decide (core < 64) && a.Ok
  | .rds m _ => m.Ok
  | .rdw m _ => m.Ok
  | .rdu m _ => m.Ok
  | .upg m _ => m.Ok
  | .vicd m => m.Ok
  | .vicc m => m.Ok
  | .rdc _ => true
  | .wrReq _ => true
  | .atReq _ => true
  | .fwds m => m.Ok
  | .fwdu m => m.Ok
  | .inv m => m.Ok
  | .cur m => m.Ok
  | .rcl m => m.Ok
  | .dataReceive m => m.Ok
  | .cmp m => m.Ok
  | .invack m => m.Ok
  | .vcmp m => m.Ok
  | .fwddone m => m.Ok
  | .wbd m => m.Ok
  | .rspi m => m.Ok
  | .cack m => m.Ok
  | .clusterHeartbeatTimeout k => decide (k < 8)
  | .packageHeartbeatTimeout slot => decide (slot < 8)
  | .clusterReset k => decide (k < 8)
  | .deadNotice agent _ => decide (agent < 127)
  | .reclamationComplete _ => true
  | .snpinv half => decide (half < 2 ^ 41)
  | .snpdata half => decide (half < 2 ^ 41)
  | .snpcur half => decide (half < 2 ^ 41)
  | .goReceive half _ => decide (half < 2 ^ 41)
  | .hostDataReceive half _ _ => decide (half < 2 ^ 41)
  | .hostLineEvict _ => true
  | .translationMiss _ => true
  | .walkComplete index => decide (index < 512)
  | .requestRecordWrite index => decide (index < 512)
  | .fillComplete index => decide (index < 512)
  | .tokenGrant _ l count => l.Ok && decide (count < 65536)
  | .tokenIdleReturn _ l count => l.Ok && decide (count < 65536)
  | .tokenReturn _ l => l.Ok
  | .retryBackoffExpiry _ => true
  | .colModuleRetire port _ => decide (port < 16)
  | .portSevered port => decide (port < 16)
  | .serviceClockStop die => decide (die < 4)
  | .computeDieLost die => decide (die < 4)
  | .tileLost die tile => decide (die < 4) && decide (tile < 68)
  | .foundationLost die => decide (die < 4)
  | .flitReceive link b fc fu => decide (fc < 65536) && decide (fu < 65536) && decide (link < 64) && decide (b.length = 256)
  | .nakReceive link _ => decide (link < 64)
  | .linkTrainingStart link => decide (link < 64)
  | .linkTrainingEnd link _ _ => decide (link < 64)
  | .linkRetrainEnd link _ => decide (link < 64)
  | .lanePermanentFault link lane => decide (link < 64) && decide (lane < 4)
  | .linkFailover link => decide (link < 64)
  | .ridgeMessageArrive link _ => decide (link < 64)
  | .chunkReceive die _ => decide (die < 4)
  | .chunkHoldExpiry die _ _ => decide (die < 4)
  | .chunkAnswer die _ _ _ _ => decide (die < 4)
  | .chunkTimeout die _ _ _ => decide (die < 4)
  | .stepTimeout die _ _ => decide (die < 4)
  | .planComplete die _ => decide (die < 4)
  | .startMsg _ => true
  | .startAck _ _ => true
  | .doneMsg _ _ => true
  | .unreached _ _ => true
  | .refeed _ => true
  | .refeedDone _ _ _ => true
  | .tackTimeout _ _ => true
  | .tdoneTimeout _ _ => true
  | .beaconSend link => decide (link < 64)
  | .beaconReceive _ => true
  | .delayExchange link _ => decide (link < 64)
  | .beaconLoss => true
  | .stackTempSample die stack temp => decide (die < 4) && decide (stack < 3) && decide (temp < 256)
  | .stackLevelExit die stack => decide (die < 4) && decide (stack < 3)
  | .lpddrTempSample die k temp => decide (die < 4) && decide (k < 4) && decide (temp < 256)
  | .patrolScrubVisit die chan _ _ => decide (die < 4) && decide (chan < 112)
  | .thresholdCrossed _ die _ count => decide (die < 4) && decide (count < 65536)
  | .signatureSample die _ => decide (die < 4)
  | .voltageStep die => decide (die < 4)
  | .voltageReported die mv => decide (die < 4) && decide (mv < 65536)
  | .budgetExchange => true
  | .grantReceive die => decide (die < 4)
  | .grantRaiseEffect die => decide (die < 4)
  | .grantTimeout die => decide (die < 4)
  | .hintPrepare die i _ => decide (die < 4) && decide (i < 8)
  | .hintStart die i => decide (die < 4) && decide (i < 8)
  | .hintEnd die i => decide (die < 4) && decide (i < 8)
  | .explorationSample die => decide (die < 4)
  | .marginLow die tile _ => decide (die < 4) && decide (tile < 68)
  | .stretchEnd die tile => decide (die < 4) && decide (tile < 68)
  | .stretchInterval die _ _ => decide (die < 4)
  | .supplyWarnAssert => true
  | .supplyWarnDeassert => true
  | .supplyEpisodeEnd => true
  | .junctionSample _ hub => decide (hub < 256)
  | .junctionLevelExit die => decide (die < 4)
  | .thermTrip => true
  | .coolantOkDeassert => true
  | .coolantHalt => true
  | .coolantOkAssert => true
  | .idleEntry => true
  | .idleExit => true
  | .powerSafetyNet => true
  | .lockstepMismatch => true
  | .cairnRestartComplete => true
  | .tallySample _ => true
  | .telemetryPeriodEnd => true
  | .avsbusSample rail _ => decide (rail < 16)
  | .avsbusFrameTimeout rail => decide (rail < 16)
  | .heartbeat _ => true
  | .accessCompletionReceive _ => true
  | .ridgeRequestBoundExpiry _ => true
  | .refclkRidgeReturn => true
  | .refclkPcieReturn => true
  | .channelRetrainComplete die chan _ => decide (die < 4) && decide (chan < 112)

end Sys2Proof
end

