-- ==== Sys2Proof/Tests/Slice0.lean ====
section
/-! SUPPORT. Tests: for every statement a witness of its hypotheses, and worked examples and tables of the spec. -/

set_option Elab.async false

namespace Sys2Proof.Tests
open Sys2Proof.Machine

/-- Powered, in ROM. -/
def powered : State := { State.reset with plat := { on := true } }

/-- At STAGE 3 in Run with the host's link up. -/
def booted : State :=
  { State.reset with plat := { on := true, stage := 3, perst := false, pcieUp := true, hpState := 1, memUp := true }, cfg := { interleave := some 0 } }

/-- A complete configuration, ready to be committed. -/
def configured : State :=
  { State.reset with
    plat := { on := true, stage := 1, perst := false, pcieUp := true, hpState := 1, memUp := true, cacheEn := true }
    cfg := { interleave := some 0, ridgeAddr := some 3, trapRing := [(0, 0, 6), (1, 0x1000, 6), (2, 0x2000, 6), (3, 0x3000, 6)]
             reqRing := some 0x20000, startRing := some (0x40000, 2), telemetry := some (0x50000, 8, 10, 8)
             nodeEntry := some 0x800000000000 } }

/-- A packet of an opcode with its CRC. -/
def pkt (op : Nat) (body : List Byte) : Packet :=
  let k : Packet := { flags := 0, plen := body.length, seq := 7, crc := 0, rsv := 0, body := body }
  { k with crc := BitVec.ofNat 32 (pktCrc k op) }

/-- A test packet carries its CRC. -/
theorem pkt_crc (op : Nat) (body : List Byte) : (pkt op body).crc.toNat = pktCrc (pkt op body) op := by
  have h := crc32c_lt (pktHeader (pkt op body) op 0 ++ pktData (pkt op body))
  exact Nat.mod_eq_of_lt h

/-- What is left of the checks of a test packet. -/
theorem pkt_check (op : Nat) (p : Port) (body : List Byte) (stage : Nat) :
    ebCheck op p (pkt op body) stage = (match ebPorts op with
      | none => some 2
      | some ps =>
        if !(ps.contains p) then some 3
        else if !(ebLen op (pkt op body).plen (pktData (pkt op body))) then some 4
        else if !(ebStage op stage) then some 5
        else none) := by
  unfold ebCheck
  rw [if_neg (by simpa using pkt_crc op body)] <;> (cases ebPorts op <;> rfl)

/-- Crew 0 of stand 0 on tile (0, 0), all lanes at address 0, with a word in the instruction buffer; 128 registers, accumulators and the
element engine allotted, 8 KiB of local store. -/
def crewState (w : W64) : State :=
  { booted.setTile 0 0 {
      launch := some 0, ibuf := [(0, w)], stands := [(0, { launch := 0, index := 0, killed := false, lost := false })],
      crews := [(0, newCrew 0 0 0)] } with
    launches := [(0, {
      id := 0, stream := 0, addr := 0, tag := 0, gx := 1, gy := 1, gz := 1, crews := 1, nreg := 128, lsSplit := 1, lsStand := 8,
      acc := 4, ee := 1, entry := 0, space := 0, progs := [], wins := [], tiles := [(0, 0)], per := 1, paced := false, next := 1, ended := 0,
      killed := 0, lost := 0, unplaced := 0, closed := false })] }

/-- That crew. -/
def c0 : CrewId := { die := 0, tile := 0, slot := 0 }

/-- A word of a format and opcode with guard p7 and the rest of its fields. -/
def word (fmt op rest : Nat) : W64 := BitVec.ofNat 64 (fmt + 7 * 8 + op * 256 + rest)
/-- A format A word: D, A, B, C, TYPE. -/
def wordA (op d a b k ty : Nat) : W64 := word 0 op (d * 2 ^ 16 + a * 2 ^ 24 + b * 2 ^ 32 + k * 2 ^ 40 + ty * 2 ^ 48)
/-- The word issues. -/
def runs (w : W64) : Bool := ((crewState w).issues c0 w (opKey w)).isSome
/-- A format M word: D, B, OFF, SIZE, SP. -/
def wordM (op d b off size sp : Nat) : W64 := word 1 op (d * 2 ^ 16 + b * 2 ^ 24 + off * 2 ^ 32 + size * 2 ^ 56 + sp * 2 ^ 59)
/-- A format S word: D, A, B, TYPE, sub-operation, SP. -/
def wordS (op d a b ty sub sp : Nat) : W64 := word 5 op (d * 2 ^ 16 + a * 2 ^ 24 + b * 2 ^ 32 + ty * 2 ^ 48 + sub * 2 ^ 52 + sp * 2 ^ 56)
/-- What issues for a word at the test crew. -/
def issued (w : W64) : Option (Issue × State) := (crewState w).issues c0 w (opKey w)

/-- An access in flight at a stage, of a crew's lane. -/
def oneReq (who : Who) (kind : AccKind) (stage : Stage) (levels : List Level) : State :=
  { crewState 0 with reqs := [(4, { laneReq c0 0 kind 0 4 { lane := 0, addr := 0, data := 0, cmp := 0 } with
    id := 4, who := who, stage := stage, levels := levels })] }

/-- A maintenance activity that runs on die 1, target 3 and 2. -/
def maintAct (code origin : Nat) : Act :=
  { num := 1, code := code, die := 1, t4 := 3, t5 := 2, state := 0, origin := origin, time := booted.now, aborting := false, result := [],
    bare := false, begun := true }

/-- The outcome is a next state. -/
def answers (o : Host.Outcome State Fault Refusal) : Bool := match o with | .next _ => true | _ => false

/-- Stream 5 ready to take a record at address 64 of its space, whose page 0 is host memory and page 1 near memory, all readable and
writable. -/
def reader (v : Stream) : State :=
  let b := booted.setStream 5 { v with state := 1, next := 64, srsz := 8, slots := [some 0, none, none, none], masks := [1, 0, 0, 0] }
  { b with
    plat := { b.plat with cacheEn := true }
    cols := (List.range 16).map (fun k => (k, { state := 1, mods := 9 }))
    fuses := { b.fuses with enabled := [BitVec.allOnes 68, 0, 0, 0] }
    xlt := { b.xlt with
      root := [(0, 1)]
      tc := [(0, { space := 0, page := 0, big := false, leaf := some (0x1F + 2 * 32), refused := 0 }),
             (16, { space := 0, page := 1, big := false, leaf := some 0x1F, refused := 0 })] } }

/-- The answer to a read of a line that holds bytes from an offset on. -/
def lineWith (at_ : Nat) (l : List Byte) : AccResult := .line { data := BitVec.ofNat 1024 (leNat l * 2 ^ (8 * at_)), pmask := 0 }

/-- The answered access of a unit's read of 8-byte words at an address within one line. -/
def readOf (id : Nat) (who : Who) (space va : Nat) (ws : List W64) : Nat × Req :=
  let l := (ws.map (fun w => leBytes 8 w.toNat)).flatten
  (id, { unitReq who .bread space va l.length with id := id, pa := va, stage := .replied (lineWith (va % 128) l) })

/-- Stream 5 has read its next record. -/
def hasRead (v : Stream) (ws : List W64) : State :=
  let r := reader v
  { r with reqs := [readOf 900 (.stream 5 64) v.space 64 (ws ++ List.replicate (8 - ws.length) 0)] }

/-- What the dispatcher takes of a record of a type. -/
def taken (v : Stream) (typ : Nat) (ws : List W64) : Option (List W64 × State) := (hasRead v ws).recordFor 5 typ

/-- Accesses in flight that have all been answered alike. -/
def answered (s : State) (a : AccResult) (xs : List Req) : State :=
  { s with reqs := (List.range xs.length).map (fun i => (i, { xs.getD i (unitReq (.unit .hub 0) .load 0 0 0) with id := i, stage := .replied a })) }

/-- A record of a type in flight. -/
def aFlight (addr typ pos : Nat) (ws : List W64) : Flight :=
  { addr := addr, typ := typ, words := ws, fin := none, handed := 0, finished := 0, err := none, die := 0, since := 0, last := 0, pos := pos }

/-- Fifteen COPY records in flight: with another, a stream starts no more. -/
def fifteen : List Flight := (List.range 15).map (fun k => aFlight (0x1000 + 64 * k) 2 0 [2])

/-- Witnesses for PinsAndClocksComplete. -/
theorem test_pins_met :
    State.reset.plat.on = false ∧ State.reset.plat.thermTrip = false ∧ booted.plat.on = true ∧ booted.on = true ∧ booted.up = true
    ∧ booted.plat.pcieClk = true ∧ booted.cairn.session = none ∧ booted.cairn.cfgSession = none
    ∧ ({ booted with plat := { booted.plat with pcieClk := false } }).on = true ∧ ({ booted with plat := { booted.plat with perst := true } }).on = true
    ∧ booted.plat.perst = false ∧ booted.reach .h = true := by decide

/-- An offer that R291 accepts, at the half rate. -/
def goodOffer : LinkOffer :=
  { version := 0x20, advanced := true, modules := 1, lanes := 64, rate := 16, flit256 := true, retry := true, trained := true, ident := 7 }

/-- Witnesses for LinksAndCairnComplete. -/
theorem test_links_met :
    ({ powered with plat := { powered.plat with hpState := 0 } }).up = true ∧ powered.plat.stage = 0 ∧ powered.cairn.mismTimes = []
    ∧ LinkOfferOk goodOffer = true
    ∧ booted.up = true ∧ booted.plat.hpState = 1
    ∧ (let s : State := { booted with plat := { booted.plat with hpFails := [0, 0] } }; s.now < 0 + 10000000 ∧ s.up = true)
    ∧ booted.reach .h = true ∧ booted.plat.cacheEn = false ∧ booted.plat.cacheOff = false
    ∧ ({ booted with plat := { booted.plat with cacheEn := true } }).runs = true
    ∧ (let s : State := { powered with plat := { powered.plat with stage := 1 } }; s.up = true ∧ s.plat.memUp = false ∧ s.cairn.commitWait = none)
    ∧ ({ booted with cairn := { booted.cairn with restarting := true } }).on = true ∧ booted.cairn.waiting = none := by decide

/-- Witnesses for BoundaryScanComplete. -/
theorem test_scan_met : powered.plat.on = true ∧ powered.scanAllowed = true
    ∧ ({ booted with cairn := { booted.cairn with lc := 2 } }).scanAllowed = false ∧ 5 ≤ (0xFF#8).toNat ∧ 5 ≤ (5#8).toNat := by decide

/-- Witnesses for CommandPacketChecked. -/
theorem test_packet_met :
    booted.accepts 0x0502 .h (pkt 0x0502 []) = true ∧ ebCheck 0x0502 .h (pkt 0x0502 []) 3 = none
    ∧ ebCheck 0x0502 .h { pkt 0x0502 [] with crc := 0 } 3 = some 1 ∧ ebCheck 0x0777 .h (pkt 0x0777 []) 3 = some 2
    ∧ ebCheck 0x0501 .b (pkt 0x0501 []) 3 = some 3 ∧ ebCheck 0x0501 .h (pkt 0x0501 []) 3 = some 4
    ∧ ebCheck 0x0203 .h (pkt 0x0203 []) 3 = some 5
    ∧ (let s : State := { booted with portH := { booted.portH with busy := true } }; s.reach .h = true ∧ s.portH.busy = true)
    ∧ (let s : State := { booted with portN := { booted.portN with busy := true } }; s.reach .n = true ∧ s.portN.busy = true)
    ∧ (let s : State := { booted with portB := { booted.portB with busy := true } }; s.reach .b = true ∧ s.portB.busy = true)
    ∧ (let s : State := { booted with cairn := { booted.cairn with restarting := true } }
       s.reach .h = true ∧ s.reach .b = true ∧ s.reach .n = true ∧ s.portN.busy = false)
    ∧ State.reset.reach .h = false := by decide +kernel

/-- Witnesses for CommandEndsWithReply. -/
theorem test_finish_met :
    ({ booted.portH with ien := true }).ien = true ∧ booted.portH.discard = false ∧ bitOf booted.portH.msixTable 96 = false
    ∧ bitOf (2 ^ 96) 96 = true ∧ booted.portB.discard = false ∧ booted.portN.discard = false := by decide

/-- Witnesses for ImageAndConfigurationComplete. -/
theorem test_image_met :
    powered.accepts 0x0101 .b (pkt 0x0101 (leBytes 4 4096)) = true ∧ powered.cairn.session = none
    ∧ powered.accepts 0x0101 .b (pkt 0x0101 (leBytes 4 67108864)) = true
    ∧ (let s : State := { powered with cairn := { powered.cairn with session := some (.b, 4096, 0) } }
       s.accepts 0x0102 .b (pkt 0x0102 (List.replicate 20 0)) = true ∧ byteFld (List.replicate 20 (0 : Byte)) 0 4 = 0 ∧ 16 ≤ 4096) := by
  decide +kernel

/-- The non-zero bytes of an image of the least size: header, three components of 16 bytes from byte 2,208, signature at 2,256. -/
def imageCells : List Host.Cell :=
  [(0, 0x4D), (1, 0x49), (2, 0x59), (3, 0x4C), (4, 1), (16, 0xC0), (17, 0x15), (20, 0xD0), (21, 0x08), (24, 3),
   (64, 1), (68, 0xA0), (69, 0x08), (72, 16), (88, 2), (92, 0xB0), (93, 0x08), (96, 16), (112, 3), (116, 0xC0), (117, 0x08), (120, 16)]

/-- The landing store of F0 with that image in its area. -/
def imageStore : Store := { cells := imageCells.map (fun c => (imageBase + c.1, c.2)) }

/-- At STAGE 0 with the image received and its key fused in slot 0. -/
def imaged : State :=
  { powered with
    cairn := { powered.cairn with session := some (.b, 5568, 5568) }
    landing := [(0, imageStore)]
    fuses := { powered.fuses with
      keyHash := [some (shake 32 (((imageStore.readBytes imageBase 5568).drop 256).take 1952)), none, none, none] } }

/-- Witnesses for IMAGE_END. -/
theorem test_image_end_met :
    imaged.accepts 0x0103 .b (pkt 0x0103 []) = true ∧ imgOk (imageStore.readBytes imageBase 5568) 5568 = true
    ∧ byteFld (imageStore.readBytes imageBase 5568) 7 1 = 0 ∧ bitOf imaged.fuses.revoked.toNat 0 = false := by decide +kernel

theorem test_image_key_met :
    nth none imaged.fuses.keyHash 0 = some (shake 32 ((((alGet {} imaged.landing 0).readBytes imageBase 5568).drop 256).take 1952)) := rfl

/-- Witnesses for CONFIG_WRITE, CONFIG_READ and CONFIG_COMMIT. -/
theorem test_config_met :
    (let s : State := { powered with plat := { powered.plat with stage := 1 } }
     s.accepts 0x0201 .b (pkt 0x0201 (leBytes 2 1 ++ leBytes 2 1 ++ leBytes 8 1)) = true
     ∧ (applyEntries 12 (leBytes 2 1 ++ leBytes 2 1 ++ leBytes 8 1) s.cfg s.rdgRoute s.powerCeil 0).toOption.isSome = true)
    ∧ booted.accepts 0x0202 .h (pkt 0x0202 (leBytes 2 8)) = true ∧ (booted.keyVal 8).isSome = true
    ∧ configured.accepts 0x0203 .b (pkt 0x0203 []) = true
    ∧ requiredKeys.all (fun key => !((configured.keyVal key).getD []).isEmpty) = true ∧ configured.plat.memUp = true
    ∧ (List.range 16).all (fun i => decide (configured.failedChans (i / 4) (i % 4) < 2)) = true ∧ configured.inconsistent = none
    ∧ configured.plat.cacheEn = true := by decide +kernel

/-- Witnesses for SafetyAndDebugCommandsComplete: the least and greatest profile, and each command taken. -/
theorem test_safety_met :
    (let s : State := { booted with plat := { booted.plat with stage := 2 }, cairn := { booted.cairn with pending := some {
      tj := 106, hbm := 96, ceil := 600, cool := 0, supply := 0, bytes := [] } } }
     s.accepts 0x0301 .b (pkt 0x0301 (leBytes 1 106 ++ leBytes 1 96 ++ leBytes 2 600 ++ List.replicate 12 0)) = true
     ∧ s.accepts 0x0301 .b (pkt 0x0301 (leBytes 1 118 ++ leBytes 1 100 ++ leBytes 2 2800 ++ [1, 1] ++ List.replicate 10 0)) = true
     ∧ s.accepts 0x0302 .b (pkt 0x0302 []) = true ∧ s.cairn.pending.isSome = true)
    ∧ booted.accepts 0x0401 .n (pkt 0x0401 []) = true
    ∧ (let s : State := { booted with cairn := { booted.cairn with lc := 1 } }
       s.accepts 0x0402 .h (pkt 0x0402 (List.replicate 36 0)) = true ∧ s.cairn.lc = 1 ∧ s.cairn.idErased = false)
    ∧ booted.accepts 0x0A02 .b (pkt 0x0A02 []) = true
    ∧ booted.accepts 0x0B01 .h (pkt 0x0B01 (leBytes 2 600)) = true ∧ 2800 ≤ booted.powerCeil ∧ booted.power.pstate ≤ 1 := by decide +kernel

/-- A debug attempt on port B with the debug key, level 1, in the given phase. -/
def unlocking (pk : Option (List Byte)) : State :=
  { booted with
    fuses := { booted.fuses with debugHash := some (shake 32 (List.replicate 1952 0)) }
    cairn := { booted.cairn with lc := 1, challenge := some { port := .b, level := 1, key := 4, value := [], pk := pk, until_ := 0 } } }

/-- The packet of a phase: level 1, key 4, then zeros. -/
def unlockPkt (phase len : Nat) : Packet := pkt 0x0A01 (leBytes 1 phase ++ [1, 4] ++ List.replicate len 0)

/-- Witnesses for the three phases of DEBUG_UNLOCK. -/
theorem test_unlock_taken :
    (unlocking none).accepts 0x0A01 .b (unlockPkt 0 1) = true ∧ (unlocking none).accepts 0x0A01 .b (unlockPkt 1 1953) = true
    ∧ (unlocking (some [])).accepts 0x0A01 .b (unlockPkt 2 3313) = true := by
  refine ⟨?_, ?_, ?_⟩ <;> (unfold State.accepts unlockPkt; rw [pkt_check]; decide +kernel)

theorem test_unlock_met :
    byteFld (pktData (unlockPkt 0 1)) 0 1 = 0 ∧ (unlocking none).cairn.refc < 16 ∧ (unlocking none).levelPermitted 1 4 = true
    ∧ byteFld (pktData (unlockPkt 1 1953)) 0 1 = 1
    ∧ byteFld (pktData (unlockPkt 1 1953)) 1 1 = 1 ∧ byteFld (pktData (unlockPkt 1 1953)) 2 1 = 4
    ∧ ((pktData (unlockPkt 1 1953)).drop 4).take 1952 = List.replicate 1952 0
    ∧ byteFld (pktData (unlockPkt 2 3313)) 0 1 = 2 ∧ byteFld (pktData (unlockPkt 2 3313)) 3313 3 = 0 := by decide +kernel

theorem test_unlock_key_met : (unlocking none).fuses.keyFor 4 = some (shake 32 (List.replicate 1952 0)) := rfl

/-- Witnesses for TimeLogAndMaintenanceCommandsComplete. -/
theorem test_time_met :
    (let s : State := { booted with
       time := { booted.time with fine := 500000 }, logSeq := 3, log := [{ seq := 2, time := 0, code := 1, die := 0, sev := 0, data := [] }]
       acts := [{ num := 9, code := 1, die := 0, t4 := 0, t5 := 0, state := 0, origin := 0, time := 0, aborting := false, result := [], bare := false, begun := true }] }
     s.accepts 0x0501 .h (pkt 0x0501 (leBytes 16 6)) = true ∧ s.time.sync ≤ 1 ∧ s.now < 6
     ∧ s.accepts 0x0501 .n (pkt 0x0501 (leBytes 16 4)) = true ∧ 4 < s.now
     ∧ s.accepts 0x0502 .n (pkt 0x0502 []) = true
     ∧ s.accepts 0x0601 .b (pkt 0x0601 (leBytes 2 2047 ++ leBytes 2 1)) = true ∧ s.accepts 0x0601 .b (pkt 0x0601 (leBytes 2 0 ++ leBytes 2 127)) = true
     ∧ s.accepts 0x0602 .h (pkt 0x0602 (leBytes 8 2)) = true ∧ s.logSeq - s.log.length ≤ 2 ∧ 1 < s.logSeq - s.log.length
     ∧ s.accepts 0x0702 .h (pkt 0x0702 []) = true ∧ s.accepts 0x0703 .h (pkt 0x0703 (leBytes 2 9)) = true
     ∧ (s.actOf 9).any (fun a => abortable a.code && a.begun) = true) := by decide +kernel

/-- Witnesses for StreamAndParkCommandsComplete. -/
theorem test_stream_met :
    (let body := [63, 1, 15, 12] ++ leBytes 8 64 ++ leBytes 8 32 ++ leBytes 4 0 ++ [0x80, 0, 0, 0] ++ leBytes 8 1 ++ leBytes 24 0 ++ leBytes 32 0
     booted.accepts 0x0901 .n (pkt 0x0901 body) = true ∧ (booted.stream 63).state = 0 ∧ (booted.stream 63).heldBy .n = false
     ∧ booted.placementOk (parseSlots body 24).1 (parseSlots body 24).2 = true ∧ winsOk (parseWins body 60) = true)
    ∧ (let s : State := booted.setStream 0 { state := 1 }
       let body := [0, 0, 0, 0, 0, 0, 0, 0, 0x80, 0, 0, 0] ++ leBytes 8 1 ++ leBytes 24 0 ++ leBytes 32 0
       s.accepts 0x0902 .h (pkt 0x0902 (leBytes 8 0)) = true ∧ (s.stream 0).state ≠ 0 ∧ (s.stream 0).heldBy .h = false
       ∧ s.accepts 0x0903 .h (pkt 0x0903 body) = true ∧ s.placementOk (parseSlots body 8).1 (parseSlots body 8).2 = true)
    ∧ booted.accepts 0x0802 .h (pkt 0x0802 (leBytes 4 10000)) = true ∧ booted.power.parking = none ∧ booted.acts = []
    ∧ (let s : State := { booted with power := { booted.power with pstate := 2 } }
       s.accepts 0x0803 .b (pkt 0x0803 []) = true ∧ s.power.resuming = none ∧ s.power.pstate = 2)
    ∧ (let s : State := { booted with power := { booted.power with pstate := 3, lasth := 0, coolSince := 0 }, time := { booted.time with fine := 2 * 10 ^ 14 } }
       s.accepts 0x0803 .b (pkt 0x0803 []) = true ∧ s.power.mismHalt = false ∧ s.plat.coolant = true ∧ s.power.coolSince + 2000000000 ≤ s.now)
    ∧ booted.on = true ∧ booted.portB.busy = false ∧ booted.cairn.restarting = false ∧ ebPorts 0x0777 = none ∧ booted.reach .b = true
    ∧ ({ booted with cairn := { booted.cairn with restarting := true } }).on = true
    ∧ (let s : State := { booted with portB := { booted.portB with busy := true } }; s.on = true ∧ s.portB.busy = true) := by decide +kernel

/-- Witnesses for DecisionObeysBudgetAndCeilings. -/
theorem test_decides_met : booted.decides 0 = true ∧ booted.decides 3 = true ∧ booted.decides 4 = false := by decide

/-- Witnesses for SamplesAndBudgetsComplete. -/
theorem test_budget_met :
    booted.serves = true ∧ booted.dieLive 3 = true ∧ booted.power.warn = false ∧ booted.power.newLimit = none ∧ booted.power.limitPorts = []
    ∧ ({ booted with power := { booted.power with newLimit := some 600 } }).power.newLimit = some 600
    ∧ (let s := (booted.setDie 0 { grant := some 50, budget := 50 }).setDie 1 { grant := some 51, budget := 50, raise := some 7 }
       (s.die 0).grant = some 50 ∧ (s.die 1).budget < 51 ∧ (s.die 1).raise = some 7 ∧ (s.die 1).raiseAt ≤ s.now ∧ s.dieLive 1 = true)
    ∧ (let s : State := { booted with time := { booted.time with fine := 20000000000 } }
       (s.die 2).lastGrant + 200000 ≤ s.now ∧ s.dieLive 2 = true)
    ∧ (let s := booted.setDie 0 { goal := 3, mv := 580 }; (s.die 0).mv < s.wantMv 0 ∧ s.tally.railMax.contains 0 = false)
    ∧ (let s := booted.setDie 0 { goal := 0, mv := 585 }; s.wantMv 0 < (s.die 0).mv ∧ opMv (s.die 0).op < (s.die 0).mv)
    ∧ (let e : Phase := { sig := 0, pw := [1, 1, 1, 1, 1, 1, 1, 1], wr := [1, 2, 3, 4, 5, 6, 7, 8], obs := [0, 0, 0, 0, 0, 0, 0, 1], used := 0 }
       let s := ({ booted with time := { booted.time with fine := 2000000000000 } }).setDie 0 { entry := some 5, phase := [(5, e)], budget := 2 }
       s.decides 0 = true ∧ 0 < (s.die 0).choice (some (s.die 0).budget) (s.ceiling 0)
       ∧ nth 0 e.obs ((s.die 0).choice (some (s.die 0).budget) (s.ceiling 0) - 1) = 0 ∧ (s.die 0).explored + 10000000 ≤ s.now
       ∧ max (s.die 0).request (s.die 0).hintMin < (s.die 0).choice (some (s.die 0).budget) (s.ceiling 0) ∧ (s.die 0).boost = false) := by
  decide +kernel

/-- Witnesses for HintsDroopAndSupplyComplete. -/
theorem test_hints_met :
    (let h : Hint := { stream := 0, t := 200000, dur := 1, opmin := 1, pwr := 1, inForce := false, marked := false, raised := false }
     let s := booted.setDie 0 { hints := [h, { h with t := 40000 }, { h with t := 0 }, { h with t := 0, dur := 0, inForce := true }] }
     s.serves = true ∧ s.dieLive 0 = true ∧ s.now = 0 ∧ (s.die 0).hints[0]? = some h ∧ h.t ≤ s.now + 200000
     ∧ ((s.die 0).hints[1]?).any (fun x => decide (x.t ≤ s.now + 40000)) = true
     ∧ ((s.die 0).hints[2]?).any (fun x => !x.inForce && decide (x.t ≤ s.now)) = true
     ∧ ((s.die 0).hints[3]?).any (fun x => x.inForce && decide (x.t + x.dur * 1000 ≤ s.now)) = true)
    ∧ booted.dieLive 3 = true ∧ ((booted.setTile 3 67 { stretched := true }).tile 3 67).stretched = true
    ∧ (booted.setTile 3 67 { stretched := true }).serves = true
    ∧ booted.on = true ∧ booted.power.pstate ≠ 3 ∧ booted.power.warn = false ∧ booted.cairn.supplyAction = 0 ∧ 1 ≤ booted.plat.stage
    ∧ ({ booted with power := { booted.power with warnPin := true } }).on = true
    ∧ ({ booted with power := { booted.power with warn := true } }).power.warnPin = false
    ∧ (let s : State := { booted with power := { booted.power with warn := true }, time := { booted.time with fine := 5 * 10 ^ 9 } }
       s.on = true ∧ s.power.warnOff + 50000 ≤ s.now) := by decide +kernel

/-- Witnesses for HeatCoolantAndIdleComplete. -/
theorem test_heat_met :
    booted.up = true ∧ booted.power.pstate ≠ 3 ∧ booted.power.tjRun < 2
    ∧ (let s : State := { booted with power := { booted.power with tjRun := 2 } }; s.up = true ∧ 2 ≤ s.power.tjRun ∧ s.cairn.tjTrip ≤ 110)
    ∧ 1 ≤ booted.plat.stage ∧ booted.plat.lostF.contains 3 = false ∧ booted.cairn.hbmTrip ≤ 98 ∧ booted.serves = true
    ∧ booted.on = true ∧ booted.plat.coolant = true
    ∧ (let s : State := { booted with plat := { booted.plat with coolant := false }, power := { booted.power with coolLow := true } }
       s.on = true ∧ s.plat.coolant = false ∧ s.power.coolLow = true)
    ∧ (let s : State := { booted with plat := { booted.plat with coolant := false }, power := { booted.power with coolLow := true }, time := { booted.time with fine := 10 ^ 9 } }
       s.on = true ∧ s.power.coolOff + 10000 ≤ s.now)
    ∧ (let s : State := { booted with time := { booted.time with fine := 10 ^ 11 } }
       s.serves = true ∧ s.power.pstate = 0 ∧ s.noWork = true ∧ s.power.busyAt + 1000000 ≤ s.now)
    ∧ (let s : State := ({ booted with power := { booted.power with pstate := 1 } }).setStream 0 { flights := [{
         addr := 0, typ := 4, words := [], fin := none, handed := 0, finished := 0, err := none, die := 0, since := 0, last := 0, pos := 0 }] }
       s.serves = true ∧ s.power.pstate = 1 ∧ s.noWork = false)
    ∧ (let s : State := { booted with tally := { booted.tally with excess := 10001 } }; s.runs = true ∧ s.power.snet = false) := by
  decide +kernel

/-- Two links up, to packages 2 and 1; this package is 1, the masters 0, 1 and 2. -/
def timed : State :=
  { booted with
    links := [(3, { state := 2, peer := 2048 }), (5, { state := 2, peer := 0 })]
    rdgRoute := [(0, 5 + 512), (2, 3 + 512)]
    cfg := { ridgeAddr := some 128, timeMaster := some [0, 1024, 2048], telemetry := some (0x50000, 8, 10, 8) }
    time := { booted.time with master := 0, sync := 2, fine := 360000000000000000000 } }

/-- Witnesses for TimeAndTallyEventsComplete. -/
theorem test_time_events_met :
    booted.runs = true ∧ 1 ≤ booted.plat.stage ∧ booted.on = true ∧ 15 ∉ booted.tally.railMax ∧ booted.serves = true ∧ alGet 0 timed.tally.railAt 15 + 1000000 ≤ timed.now ∧ timed.time.heard + 1000000 ≤ timed.now
    ∧ ({ timed with cfg := { timed.cfg with timeMaster := some [0] } }).nextMaster = none
    ∧ timed.reqs.any (fun e => e.2.who == .unit .hub 2) = false ∧ (timed.tally.tail + 2 ^ 32 - timed.tally.head) % 2 ^ 32 < 2 ^ 8
    ∧ (let s := answered timed .ok (writeReqs (.unit .hub 2) .store noSpace 0x50000 (List.replicate 256 0) false)
       s.reqs.any (fun e => e.2.who == .unit .hub 2) = true ∧ (s.ringWrite .hub 2 0x50000 (List.replicate 256 0)).1 = true)
    ∧ (let s : State := { booted with tally := { booted.tally with tail := 5, head := 4294967290 } }
       (wfld 5 0 32 + 2 ^ 32 - s.tally.head) % 2 ^ 32 ≤ (s.tally.tail + 2 ^ 32 - s.tally.head) % 2 ^ 32
       ∧ (s.tally.tail + 2 ^ 32 - s.tally.head) % 2 ^ 32 < (wfld 6 0 32 + 2 ^ 32 - s.tally.head) % 2 ^ 32)
    ∧ timed.serves = true ∧ timed.tally.hour < timed.now / 3600000000000
    ∧ (timed.link 5).up = true ∧ timed.time.sync ≠ 0 ∧ timed.time.sync ≠ 1
    ∧ timed.parentLink 0 = some 5 ∧ indexWhere (· == 0) timed.timeMasters = some 0 ∧ timed.nextMaster = some 1
    ∧ indexWhere (· == 0) ({ timed with time := { timed.time with master := 1 } }).timeMasters = some 0 ∧ timed.up = true ∧ 2 ≤ timed.plat.stage ∧ timed.power.pstate ≠ 3 := by decide +kernel

/-- Witnesses for StreamEndsAndWakesComplete. -/
theorem test_stream_ends_met :
    (let s := booted.setStream 63 { state := 5, drain := some { migrate := false, port := .h, stopped := false, slots := [], masks := [], wins := none, until_ := 0 } }
     s.serves = true ∧ (s.stream 63).drain.isSome = true ∧ (s.stream 63).flights = [])
    ∧ (let s := booted.setStream 0 { state := 5, drain := some { migrate := true, port := .b, stopped := true, slots := [], masks := [], wins := none, until_ := 0 } }
       (s.stream 0).drain.any (fun d => d.migrate) = true)
    ∧ (let s : State := { booted with power := { booted.power with parking := some .b, resuming := some .h } }
       s.up = true ∧ s.serves = true ∧ s.power.parking = some .b ∧ s.power.resuming = some .h ∧ s.power.pstate = 0 ∧ s.streams = [] ∧ s.acts = []
       ∧ s.plat.resetting = [])
    ∧ ((booted.setStream 1 { state := 2, woken := true }).stream 1).woken = true
    ∧ ((booted.setStream 1 { state := 3, woken := true }).stream 1).state ≠ 2
    ∧ (let v := (booted.setStream 2 { etail := 3, srsz := 8 }).stream 2; (v.etail + 2 ^ 32 - wfld 3 0 32) % 2 ^ 32 ≤ 2 ^ v.srsz)
    ∧ ((booted.setStream 2 { state := 4, err := true }).stream 2).err = true := by decide +kernel

/-- The record words of a LAUNCH of one stand of one crew on slot 0, ENTRY 0, 8 registers, no programs. -/
def launchWords : List W64 := [1, BitVec.ofNat 64 (2 ^ 52), BitVec.ofNat 64 (1 + 2 ^ 16 + 2 ^ 32 + 2 ^ 48), 1, 0, 0, 0, 0]

/-- A stream on foundation die 0 with one launch of its own. -/
def streamed : State :=
  { booted.setStream 5 { state := 1, next := 0x1000, space := 7, slots := [some 0, none, none, none], masks := [1, 0, 0, 0], srsz := 8 } with
    fuses := { booted.fuses with enabled := [BitVec.allOnes 68, 0, 0, 0] } }

/-- Witnesses for LaunchesAndStandsComplete: what does not need memory. -/
theorem test_launch_met :
    (match streamed.launchOfRec 5 launchWords 0 with
     | .ok l => l.per == 16 && l.total == 1 && l.tiles == [(0, 0)] && streamed.tileOpen l.id l.paced (0, 0) && !l.closed
     | .error _ => false) = true
    ∧ streamed.power.pstate = 0 ∧ 0 ∉ streamed.plat.resetting := by decide +kernel

/-- Witnesses for LaunchesAndStandsComplete: a LAUNCH, a COPY and a FLUSH_RANGE of no bytes as the dispatcher takes them. -/
theorem test_launch_take :
    (match taken {} 1 (launchWords.set 0 1) with
     | some (ws, u) =>
       (match u.launchOfRec 5 ws u.launchNum with
        | .ok l =>
          (match u.readKeep (.stream 5 (u.stream 5).next) l.space (wfld (nth 0 ws 4) 0 52) (48 * wfld (nth 0 ws 4) 52 7) with
           | .ok tab u' => (images (wfld (nth 0 ws 4) 52 7) tab).all programOk && l.tiles.any (fun e => u'.tileOpen l.id l.paced e)
           | _ => false)
        | .error _ => false)
     | none => false) = true
    ∧ (match taken {} 2 [2, 64, 1 + 1 * 2 ^ 16] with
       | some (ws, u) => decide (1 ≤ wfld (nth 0 ws 2) 0 13 ∧ wfld (nth 0 ws 1) 0 6 = 0 ∧ wfld (nth 0 ws 2) 16 8 ≠ 0
           ∧ nth none (u.stream 5).slots (wfld (nth 0 ws 2) 13 2) = some 0)
       | none => false) = true
    ∧ (match taken {} 7 [7, 0, 0] with | some (ws, _) => decide ((nth 0 ws 2).toNat = 0) | none => false) = true := by decide +kernel

/-- Stream 5 with a FLUSH_RANGE of 256 bytes from an address in flight. -/
def flushing (va : Nat) (lines : Option (List Nat)) : State :=
  reader { flights := { aFlight 0x800 7 va [7, BitVec.ofNat 64 va, 256] with lines := lines } :: fifteen }

/-- Witnesses for LaunchesAndStandsComplete: a FLUSH_RANGE in flight finds its page's lines, meets an unmapped page, and takes answers. -/
theorem test_flush_met :
    (let s := flushing 0x2000000 none
     (s.openFlight 5 7).any (fun f => f.pos == 0x2000000 && f.lines.isNone) && !(s.takes 5)
       && (match s.unitXlat (.stream 5 0x800) .flush (s.stream 5).space 0x2000000 with
           | .hit pa u => u.region pa != .unmapped && u.region pa != .regs
           | _ => false)) = true
    ∧ (let s := flushing 0x2000000 (some [0x2000000, 0x2000080])
       let f := aFlight 0x800 7 0x2000000 []
       let ask := fun (a : AccResult) => (answered s a (flushReqs 5 f (s.stream 5).space [0x2000000, 0x2000080])).unitAll
         (flushReqs 5 f (s.stream 5).space [0x2000000, 0x2000080])
       (match ask .ok with | .done l u => (firstFail l).isNone && !(u.takes 5) | _ => false)
         && (match ask .unreachable with | .done l u => (firstFail l).isSome && !(u.takes 5) | _ => false)) = true := by decide +kernel

/-- Stream 5 with a record of its own in flight, its next record not read; the answers of its accesses at hand. -/
def inFlight (v : Stream) (f : Flight) (line : Nat) (a : AccResult) (x : Req) : State :=
  let s := reader { v with flights := f :: (if f.typ = 4 then [] else fifteen) }
  answered (s.setAline (s.agentId 8) line (ALine.new line .s Line.zero)) a [x]

/-- A record in flight performs its write. -/
def writes (typ : Nat) (a : AccResult) : RecOut :=
  let f := aFlight 0x800 typ 0 [BitVec.ofNat 64 typ, 0x2000000, 9]
  let x := recWr 5 0x800 0 0x2000000 (if typ = 3 then 9 else 0) false
  match (inFlight {} f 1 a x).worksOn 5 typ (fun ws => wfld (nth 0 ws 1) 0 3 == 0) with
  | some (g, w) => w.recAccess (recWr 5 g.addr (w.stream 5).space (wfld (nth 0 g.words 1) 0 52)
      (if typ = 3 then nth 0 g.words 2 else BitVec.ofNat 64 (w.stream 5).epoch) (typ == 3 && bitOf (nth 0 g.words 3).toNat 0))
  | none => .wait {}

/-- Witnesses for RecordsComplete: SIGNAL and EPOCH, answered, failed, and as they start. -/
theorem test_records_write :
    (match writes 3 .ok with | .done _ t => !((t.finFlight 5 0x800 0 0).takes 5) | _ => false) = true
    ∧ (match writes 9 .ok with | .done _ t => !((t.finFlight 5 0x800 0 0).takes 5) | _ => false) = true
    ∧ (match writes 3 .decode with | .fail k t => k == 6 && !(t.takes 5) | _ => false) = true
    ∧ (match writes 9 .xlatError with | .fail k t => k == 7 && !(t.takes 5) | _ => false) = true
    ∧ (match (hasRead {} [3, 0x2000000, 9]).worksOn 5 3 (fun ws => wfld (nth 0 ws 1) 0 3 == 0) with
       | some (g, w) => (match w.recAccess (recWr 5 g.addr (w.stream 5).space (wfld (nth 0 g.words 1) 0 52) 9 false) with | .wait _ => true | _ => false)
       | none => false) = true
    ∧ ((hasRead {} [9, 0x2000000]).worksOn 5 9 (fun ws => wfld (nth 0 ws 1) 0 3 == 0)).isSome = true := by decide +kernel

/-- A WAIT of stream 5 for the value 9, in flight, with its watch, its word read as a value. -/
def waits (watch : Option Nat) (x : W64) : Option (Nat × State × RecOut) :=
  let s := inFlight { watch := watch } (aFlight 64 4 0 [4, 0x2000000, 9, 0]) 0 (lineWith 0 (leBytes 8 x.toNat))
    (unitReq (.stream 5 64) .bread 0 0x2000000 8)
  match s.worksOn 5 4 (fun ws => wfld (nth 0 ws 1) 0 3 == 0 && wfld (nth 0 ws 3) 0 2 != 3) with
  | some (f, w) =>
    (match w.unitXlat (.stream 5 f.addr) .bread (w.stream 5).space (wfld (nth 0 f.words 1) 0 52) with
     | .hit pa v => some (pa, v, v.recAccess (unitReq (.stream 5 f.addr) .bread (v.stream 5).space (wfld (nth 0 f.words 1) 0 52) 8))
     | _ => none)
  | none => none

/-- Witnesses for RecordsComplete: a WAIT whose condition holds, one whose does not, one without its watch, one that times out. -/
theorem test_records_wait :
    (waits (some 0) 9).any (fun e => decide (e.2.1.watchable e.1 = some 0 ∧ (e.2.1.stream 5).watch = some 0 ∧ e.2.1.ast (e.2.1.agentId 8) 0 = .s)
      && (match e.2.2 with
          | .done x t => condMet [4, 0x2000000, 9, 0] x && decide (t.snoopIn ≤ t.snoopOut) && !((t.finFlight 5 64 0 0).takes 5)
          | _ => false)) = true
    ∧ (waits (some 0) 8).any (fun e => match e.2.2 with | .done x _ => !(condMet [4, 0x2000000, 9, 0] x) | _ => false) = true
    ∧ (waits none 9).any (fun e => decide ((e.2.1.stream 5).watch = none) && !((e.2.1.setWatch 5 0).takes 5)
        && (match e.2.1.route .hub e.1 with | .go _ => true | _ => false)) = true
    ∧ (let s := { reader { flights := [aFlight 64 4 0 [4, 0x80, 0, BitVec.ofNat 64 (2 ^ 32)]] } with
          time := { (reader {}).time with fine := 100000000 } }
       (s.openFlight 5 4).any (fun f => wfld (nth 0 f.words 3) 32 32 != 0 && decide (f.since + 1000 * wfld (nth 0 f.words 3) 32 32 ≤ s.now)) = true)
    := by decide +kernel

/-- Witnesses for RecordsComplete: PHASE_HINT, OP_REQUEST and LINK. -/
theorem test_records_pass :
    (match taken { cls := 1 } 5 [5, 2 ^ 16] with | some (_, u) => decide ((u.stream 5).cls ≠ 0) | none => false) = true
    ∧ (match taken {} 5 [5, 1 + 2 ^ 16] with
       | some (ws, u) => decide ((u.stream 5).cls = 0 ∧ wfld (nth 0 ws 1) 16 16 ≠ 0 ∧ (nth 0 ws 2).toNat ≤ u.now + 2000000
           ∧ (u.stream 5).smaskBad (wfld (nth 0 ws 1) 0 4) = none)
       | none => false) = true
    ∧ (match taken { cls := 1 } 6 [6, 1] with | some (_, u) => decide ((u.stream 5).cls = 1 ∧ (u.stream 5).smaskBad 1 = none) | none => false) = true
    ∧ (match taken {} 6 [6, 1] with | some (_, u) => decide ((u.stream 5).cls ≠ 1) | none => false) = true
    ∧ (match taken {} 10 [10, 0x80] with | some (ws, _) => decide (wfld (nth 0 ws 1) 0 52 ≠ 0 ∧ wfld (nth 0 ws 1) 0 52 % 64 = 0) | none => false) = true
    := by decide +kernel

/-- What parks stream 5: its record lies in host memory, whose line it watches or not. -/
def parksAt (typ : Nat) (watch : Option Nat) : Bool :=
  let s := hasRead { watch := watch } [BitVec.ofNat 64 typ]
  match (s.setAline (s.agentId 8) 0x10000000000 (ALine.new 0x10000000000 .s Line.zero)).recordFor 5 typ with
  | some (_, u) =>
    (match u.unitXlat (.stream 5 (u.stream 5).next) .bread (u.stream 5).space (u.stream 5).next with
     | .hit pa v => decide (v.watchable pa = some 0x10000000000 ∧ (v.stream 5).watch = watch ∧ v.ast (v.agentId 8) 0x10000000000 = .s)
     | _ => false)
  | none => false

/-- Witnesses for RecordsComplete: EMPTY and LINK park with the watch and ask for it without. -/
theorem test_records_park :
    parksAt 0 (some 0x10000000000) = true ∧ parksAt 0 none = true ∧ parksAt 10 (some 0x10000000000) = true ∧ parksAt 10 none = true := by
  decide +kernel

/-- Witnesses for RecordsComplete: completed records, with room in the status ring and without. -/
theorem test_records_done :
    (let s := reader { srsz := 2, flights := [{ aFlight 0x800 2 0 [2] with fin := some (0, 0) }, { aFlight 0x840 2 0 [2] with fin := some (1, 2) }] }
     ((s.stream 5).flights.find? (fun f => f.addr == 0x800 && f.fin.isSome)).any (fun f => f.fin == some (0, 0)) = true
     ∧ ((s.stream 5).flights.find? (fun f => f.addr == 0x840 && f.fin.isSome)).any (fun f => f.fin == some (1, 2)) = true
     ∧ (s.stream 5).ringUsed < 2 ^ (s.stream 5).srsz
     ∧ (let xs := writeReqs (.stream 5 0x840) .store 0 (s.stream 5).sring (([2 + 2 ^ 16, 0x840, 2, s.now]).flatMap (leBytes 8)) false
        statusWords { aFlight 0x840 2 0 [2] with fin := some (1, 2) } 1 2 s.now = [2 + 2 ^ 16, 0x840, 2, s.now]
        ∧ (match (answered s .ok xs).unitWrites xs with | .ok _ _ _ _ => true | _ => false) = true
        ∧ (match (answered s .decode xs).unitWrites xs with | .fail k _ _ => k == 6 | _ => false) = true))
    ∧ (let s := booted.setStream 5 { srsz := 2, etail := 4 }; 2 ^ (s.stream 5).srsz ≤ (s.stream 5).ringUsed) := by decide +kernel

/-- A plan of one SEND of one chunk to the engine of die 1, in flight, then a RECV-copy of another. -/
def planned (try_ : Nat) : State :=
  { booted with
    plans := [(0, [{
      cid := 9, stream := 5, addr := 64, space := 0, op := 0, fmt := 0, rop := 0, sbuf := 0, dbuf := 4096, nbytes := 16,
      steps := [{ kind := 1, peer := booted.engineAddr 1, first := 0, count := 0, dfirst := 0, from_ := false, sstep := 0 },
                { kind := 2, peer := booted.engineAddr 1, first := 0, count := 0, dfirst := 0, from_ := false, sstep := 0 }], landed := [],
      out := [{ step := 0, chunk := 0, try_ := try_, payload := [], psn := false }], acked := [], poisoned := false, tmo := 1, since := 0, prog := [] }])]
    time := { booted.time with fine := 10000000000000 } }

/-- A chunk from the engine of die 1, of a plan. -/
def aChunk (cid : Nat) : Chunk :=
  { cid := cid, chunk := 0, step := 0, try_ := 0, psn := false, src := booted.engineAddr 1, payload := [7, 7] }

/-- Witnesses for CollectivesComplete: the engine runs, the plan exists, the step has not progressed, a chunk waits. -/
theorem test_collectives_met :
    (planned 2).engineRuns 0 = true ∧ ((planned 2).planOf 0 9).isSome = true ∧ (planned 2).planOf 0 4 = none
    ∧ ((planned 2).planOf 0 9).any (fun p => p.out.any (fun o => o.step == 0 && o.chunk == 0 && decide (o.try_ < 3) && !o.owed
        && decide (o.sent + 50000 ≤ (planned 2).now))) = true
    ∧ ((planned 3).planOf 0 9).any (fun p => p.out.any (fun o => decide (3 ≤ o.try_))) = true
    ∧ (match (planned 2).sendChunk 0 (booted.engineAddr 1) (aChunk 9) with | .sent _ _ => true | _ => false) = true
    ∧ (match (planned 2).sendChunk 0 (booted.engineAddr 1 + 1024) (aChunk 9) with | .unreachable => true | _ => false) = true
    ∧ ((planned 2).planOf 0 9).any (fun p => (p.steps[0]?).any (fun t => !(p.stepDone 0 t) && decide (alGet p.since p.prog 0 + 1000 ≤ (planned 2).now))) = true
    ∧ (let s := { planned 2 with holds := [(0, [(0, aChunk 4)])] }
       ((alGet [] s.holds 0).find? (fun e => e.2.cid == 4 && e.2.chunk == 0 && decide (e.1 + 100000000 ≤ s.now))).isSome = true)
    ∧ (let s := { planned 2 with holds := [(0, List.replicate 256 (0, aChunk 4))] }; 256 ≤ (alGet [] s.holds 0).length)
    ∧ chunkAt (aChunk 4).bytes = aChunk 4 ∧ chunkGood (aChunk 4).bytes = true ∧ chunkGood ((aChunk 4).bytes ++ [0]) = false := by decide +kernel

/-- The plan with a route to another package over one link. -/
def routed : State := { planned 2 with rdgRoute := [(5, 515)], links := [(3, { state := 2 })] }

/-- Witness for CollectivesComplete: a chunk to another package waits for tokens of its link; 4096 bytes take 37 (R310). -/
theorem test_collectives_tokens :
    (match routed.sendChunk 0 (5 * 1024 + 80) (aChunk 9) with | .refused _ => true | _ => false) = true ∧ chunkTokens 4096 = 37 := by
  have h : routed.usable 5 = [(3, 0)] := by decide +kernel
  have e : routed.egress 5 (some (Free.chunkHash 9 0)) = some 3 := by
    simp only [State.egress, h, List.length_singleton]
    rw [show min 1 (fld (alGet 0 routed.rdgRoute 5).toNat 40 2 + 1) = 1 from by decide +kernel]
    simp [Nat.mod_one]
  refine ⟨?_, by decide⟩
  unfold State.sendChunk
  rw [if_neg (by decide +kernel), show (5 * 1024 + 80) / 1024 = 5 from rfl, show (aChunk 9).cid = 9 from rfl, show (aChunk 9).chunk = 0 from rfl, e]
  dsimp only
  rw [if_pos (by decide +kernel)]

/-- Witnesses for CollectivesComplete: a chunk of the RECV-copy step, not landed and landed before. -/
theorem test_collectives_land :
    ((planned 2).planOf 0 9).any (fun p => p.stepsFor (aChunk 9) == [1] && p.ready 1 0 && (p.steps[1]?).any (fun t => t.kind == 2)
      && (let xs := writeReqs (.engine 0 9 1) .bwrite p.space (p.dbuf + 4096 * 0) [7, 7] false
          match (answered (planned 2) .ok xs).unitWrites xs with | .ok _ _ _ _ => true | _ => false)) = true := by decide +kernel

/-- A plan of one SEND of 16 bytes to the engine of die 1: no elements, so nothing goes before its first chunk. -/
def sendPlan : List W64 := [BitVec.ofNat 64 (2 ^ 16), 0, 0, 16, 0, 0, 0, 0, BitVec.ofNat 64 1, 0]

/-- Stream 5 has read a COLLECTIVE record with its plan at 128. -/
def planRead : State :=
  let r := hasRead {} [8, 128, 0]
  { r with reqs := r.reqs ++ [readOf 901 (.stream 5 64) 0 128 (sendPlan.take 8), readOf 902 (.stream 5 64) 0 192 []]
      ++ (readReqs (.stream 5 64) .bread 0 128 80).map (fun x => (903, { x with id := 903, pa := x.va, stage := .replied (lineWith (x.va % 128)
        ((sendPlan.map (fun w => leBytes 8 w.toNat)).flatten.drop (x.va - 128))) })) }

/-- Witness for CollectivesComplete: a COLLECTIVE record and its plan, read from host memory. -/
theorem test_collective_take :
    (match (planRead.collectiveGo 5).recordFor 5 8 with
     | some (ws, u) =>
       (match u.readKeep (.stream 5 (u.stream 5).next) (u.stream 5).space (wfld (nth 0 ws 1) 0 52) 8 with
        | .ok w v =>
          (match v.readKeep (.stream 5 (u.stream 5).next) (u.stream 5).space (wfld (nth 0 ws 1) 0 52) (8 + 2 * planNstep w) with
           | .ok all t =>
             headerValid all && planOp w != 5
               && ((List.range (planNstep all)).map (fun i => planStep (nth 0 all (8 + 2 * i)) (nth 0 all (9 + 2 * i)))).all
                 (stepValid (planOp all) (wfld (nth 0 all 3) 0 40))
               && nth none (t.stream 5).slots (wfld (nth 0 ws 2) 0 2) == some 0 && t.dieLive 0 && decide ((alGet [] t.plans 0).length < 16)
           | _ => false)
        | _ => false)
     | none => false) = true
    ∧ ((reader { state := 2 }).collectiveGo 5).takes 5 = true := by decide +kernel

/-- Witnesses for IntegerInstructionsComplete: every instruction issues, in each of its types. -/
theorem test_integers_run :
    [0, 1].all (fun op => runs (wordA op 0 2 4 0 2) && runs (wordA op 0 2 4 7 12) && runs (wordA op 126 2 4 0 13)) = true
    ∧ (List.range 16).all (fun k => runs (wordA 2 255 0 k 0 0)) = true
    ∧ (List.range 20).all (fun k => runs (wordA (8 + k) 127 0 255 1 12)) = true
    ∧ ([8, 9, 10, 13, 14, 15, 16, 17, 18, 19, 20, 21, 22, 23, 24].all (fun op => runs (wordA op 2 4 6 8 13))) = true
    ∧ (List.range 10).all (fun k => runs (wordA 28 7 0 1 k 12)) = true := by decide +kernel

/-- Witnesses for FloatingPointInstructionsComplete. -/
theorem test_floats_run :
    [0x20, 0x21, 0x22, 0x23, 0x24, 0x25].all (fun op => runs (wordA op 127 0 255 1 2)) = true
    ∧ (List.range 7).all (fun k => runs (wordA 0x26 6 1 2 k 2)) = true
    ∧ [0, 1, 2, 3, 4, 5, 12, 13].all (fun f => runs (wordA 0x28 2 4 0 f 13) && runs (wordA 0x28 2 4 0 13 f)
        && runs (wordA 0x28 2 4 0 f 4 + BitVec.ofNat 64 (2 ^ 53))) = true
    ∧ (∀ x, rmOf 0 x = some .rne) ∧ (∀ x, rmOf 1 x = some .rtz) := by
  refine ⟨by decide +kernel, by decide +kernel, by decide +kernel, fun _ => rfl, fun _ => rfl⟩

/-- Witnesses for ControlInstructionsComplete. -/
theorem test_control_runs :
    (List.range 8).all (fun k => runs (word 4 k 0)) = true ∧ runs (word 4 1 (2 ^ 16 + 2 ^ 40)) = true
    ∧ (newCrew 0 0 0).frames.length < 32
    ∧ ((newCrew 0 0 0).frames.find? (fun f => f.id == (newCrew 0 0 0).frame && f.call)) = none
    ∧ (let s := crewState (word 4 5 0 - 56)
       (s.onCrew c0 (fun v => v.setP 3 0 true)).issues c0 (word 4 5 0 - 56) 0x405 |>.any (fun e => decide (e.1.active &&& ~~~e.1.part ≠ 0))) = true
    ∧ (let s := (crewState (word 4 4 0)).onCrew c0 (fun v => { v with
         frames := v.frames ++ [{ id := 1, rcv := 8, call := true, parent := 0 }], paths := v.paths.map (fun p => { p with frame := 1 }) })
       (s.issues c0 (word 4 4 0) 0x404).any (fun e => (e.1.v.frames.find? (fun f => f.id == e.1.v.frame && f.call)).isSome)) = true
    ∧ (let s := (crewState (word 4 3 0)).onCrew c0 (fun v => { v with
         frames := (List.range 32).map (fun k => { id := k, rcv := 0, call := false, parent := 0 }) })
       (s.issues c0 (word 4 3 0) 0x403).any (fun e => decide (32 ≤ e.1.v.frames.length))) = true := by decide +kernel

/-- Witnesses for CrewAccessesComplete: address 0 of local store and of global memory, and a zero line. -/
theorem test_accesses_met :
    (issued (wordM 0 2 255 0 2 0)).any (fun e => laneFaults false (e.2.windowOf c0 e.1.v) 4 (e.1.ldst 4) == []
      && (((e.1.ldst 4).foldl (localLoad e.1 4) (e.2, e.1.v, [])).2.2 == [])) = true
    ∧ (issued (wordM 1 2 255 8188 2 0 + 0x80)).any (fun e => laneFaults false (e.2.windowOf c0 e.1.v) 4 (e.2.laneOrder (e.1.ldst 4)) == []) = true
    ∧ (issued (wordS 2 2 255 4 12 0 0 + 0x80)).any (fun e => laneFaults false (e.2.windowOf c0 e.1.v) 4 (e.2.laneOrder e.1.atoms) == []
      && (((e.2.laneOrder e.1.atoms).foldl (localAtom e.1 true) (e.2.ordered e.1.atoms, e.1.v, [])).2.2 == [])) = true
    ∧ (issued (wordS 3 0 255 4 12 0 0 + 0x80)).any (fun e => laneFaults false (e.2.windowOf c0 e.1.v) 4 (e.2.laneOrder e.1.atoms) == []
      && (((e.2.laneOrder e.1.atoms).foldl (localAtom e.1 false) (e.2.ordered e.1.atoms, e.1.v, [])).2.2 == [])) = true
    ∧ (issued (wordM 0 4 6 0 4 1)).any (fun e => laneFaults true (0, 0) 16 (e.1.ldst 16) == []) = true
    ∧ (issued (wordM 1 4 6 0 4 1 + 0x80)).any (fun e => laneFaults true (0, 0) 16 (e.2.laneOrder (e.1.ldst 16)) == []) = true
    ∧ (issued (wordS 2 2 6 4 12 7 1)).isSome = true ∧ (issued (wordS 3 0 6 4 12 5 1 + 0x80)).any (fun e => laneFaults true (0, 0) 4 (e.2.laneOrder e.1.atoms) == []) = true
    ∧ (issued (wordS 4 0 6 4 2 0 1)).any (fun e => decide (e.1.v.getN true 0 6 2 = 0)) = true := by decide +kernel

/-- Witnesses for SynchronisationInstructionsComplete. -/
theorem test_sync_runs :
    (List.range 8).all (fun n => runs (wordS 0 0 0 n 0 0 0)) = true
    ∧ [1, 2, 3].all (fun k => (List.range 4).all (fun sc => runs (word 5 1 (sc * 2 ^ 52 + k * 2 ^ 54)))) = true
    ∧ (List.range 4).all (fun k => runs (wordS 5 2 4 6 13 k 0) && runs (wordS 6 2 4 6 12 k 0)) = true
    ∧ (issued (wordS 7 0 0 255 0 0 0)).any (fun e => e.1.v.copyErr == []) = true
    ∧ (((crewState (wordS 7 0 0 0 0 0 0)).onCrew c0 (fun v => { v with copyErr := [(8, 64, 0, 0)] })).issues c0 (wordS 7 0 0 0 0 0 0) 0x507).any
      (fun e => e.1.v.copyErr.length == 1) = true
    ∧ (issued (wordS 8 0 255 7 0 0 0)).any (fun e => e.1.lanes.all (fun k => laneCheck false (e.2.windowOf c0 e.1.v) 4 (e.1.read k 255 1) == none)) = true
    ∧ runs (word 5 9 (65535 * 2 ^ 32)) = true
    ∧ (let s := (crewState 0).onCrew c0 (fun v => v.waitOn (.clocks 1))
       (s.crew c0).any (fun v => indexWhere (s.waitMet c0 v) v.paths == some 0 && v.parked.isNone && v.fence.isNone)) = true
    ∧ (let s := (crewState 0).onCrew c0 (fun v => { v with fence := some (1, 3), snoops := 1 })
       s.serves && (s.crew c0).any (fun v => v.parked.isNone && v.fence.isSome && decide (s.snoopOut < v.snoops))) = true
    ∧ (((oneReq (.lane c0 0 0) .store .sent []).crewReqs c0).any (fun r => r.kind.writes)
        && ((oneReq (.lane c0 0 0) .load .sent []).crewReqs c0).any (fun r => r.kind == AccKind.load)) = true := by decide +kernel

/-- A format X word over accumulators 0 and 1: half, formats, and the u registers 4, 6, 8 and 10. -/
def wordX (op half fa fb : Nat) : W64 :=
  word 2 op (half * 2 ^ 19 + fa * 2 ^ 20 + fb * 2 ^ 24 + 4 * 2 ^ 28 + 6 * 2 ^ 34 + 8 * 2 ^ 40 + 10 * 2 ^ 46)
/-- The test crew with pitches of 512 bytes. -/
def matrixState (w : W64) : State :=
  { (crewState w).onCrew c0 (fun v => { v with u := [(8, 0x02000200)] }) with
    launches := (crewState w).launches.map (fun e => (e.1, { e.2 with lsStand := 320, lsSplit := 10 })) }

/-- Witnesses for MatrixInstructionsComplete. -/
theorem test_matrix_met :
    [wordX 0 1 0 0, wordX 1 1 14 14, wordX 2 1 2 2, wordX 3 1 2 2].all (fun w =>
      ((matrixState w).issues c0 w (opKey w)).any (fun e =>
        e.1.part == 0xFFFFFFFF && e.1.active == 0xFFFFFFFF && (accsOf w).all (fun k => decide (k < 2))
        && (regionTrap ({ slot := 0, w := w, ua := 0, ub := 0, up := 0x02000200, us := 0, us1 := 0, base := 0 } : MInstr).regions
          (e.2.windowOf c0 e.1.v)).isNone)) = true
    ∧ (issued (word 2 4 0)).isSome = true ∧ (newCrew 0 0 0).matrix ≤ 0
    ∧ (let m : MInstr := { slot := 0, w := wordX 0 1 0 0, ua := 0, ub := 0, up := 0, us := 0, us1 := 0, base := 0 }
       let s := (crewState 0).setTile 0 0 { (crewState 0).tile 0 0 with mq := [m] }
       s.tileRuns 0 = true ∧ indexWhere (fun (i : MInstr) => i.transfer == false) (s.tile 0 0).mq = some 0
         ∧ (s.tile 0 0).mayStart [] m = true ∧ m.op ≠ 3 ∧ ({ m with w := wordX 3 1 2 2 } : MInstr).op = 3) := by decide +kernel

/-- A tile whose engine executes an element instruction of a word. -/
def elementState (w : W64) : State :=
  (crewState 0).setTile 0 0 { (crewState 0).tile 0 0 with
    ex := some { slot := 0, ctx := 0, w := w, block := [], q0 := 0, q1 := 0, lanes := 1, put := [] } }

/-- Witnesses for ElementInstructionsComplete. -/
theorem test_element_met :
    [word 3 1 (5 * 2 ^ 32), word 3 2 (5 * 2 ^ 32), word 3 3 (5 * 2 ^ 32), word 3 4 0].all (fun w => (issued w).isSome) = true
    ∧ (newCrew 0 0 0).element ≤ 0
    ∧ [0, 1, 2, 3].all (fun k => (elementState (word 3 k 0)).tileRuns 0 && (elementState (word 3 k 0)).tileEnds 0 && ((elementState (word 3 k 0)).tile 0 0).ex.isSome) = true
    ∧ (((elementState 0).tile 0 0).ectx 0).w.poisoned 0 4 = false
    ∧ wfld (word 3 3 0) 40 1 = 0 ∧ wfld (word 3 3 (2 ^ 40)) 40 1 = 1 := by decide +kernel

/-- Program B of chapter 5's worked example: the gated normalisation. -/
def progB : List W64 :=
  [0x0B0205C4, 0, 0x0000000001280083, 0x0000000001100483, 0x00000000000088AB, 0x000000000020C083] ++ List.replicate 42 0

/-- The test crew with program B in slot 0 and its call block at u0: one row of four columns. -/
def eprunState : State :=
  let s := (crewState (word 3 0 0)).onCrew c0 (fun v =>
    { v with u := [(0, 0x10004), (1, 0), (2, 0x50), (3, 0x100), (4, 0x50), (5, 0x200), (6, 0x4032), (9, 0x300), (10, 0x10)] })
  { s with launches := s.launches.map (fun e => (e.1, { e.2 with progs := [progB] })) }

/-- Witness for ElementInstructionsComplete: an EPRUN whose image and streams pass. -/
theorem test_eprun_met :
    programOk progB = true
    ∧ (match eprunState.issues c0 (word 3 0 0) 0x300 with
       | some (i, u) =>
         decide (eprunTrap (u.imageOf c0 0) 0 ((List.range 16).map (fun k => i.v.getU k)) (u.windowOf c0 i.v) = none)
       | none => false) = true := by decide +kernel

/-- A copy of four FP32 values from local offset 0 to 64 (`ind` 1: a GATHER by the indices at 128); flag bit and FSP local in `flag`. -/
def copyWords (ind flag : Nat) : List W64 :=
  [BitVec.ofNat 64 (ind + 2 * 2 ^ 6 + 2 * 2 ^ 10 + flag * 2 ^ 17 + (1 + ind) * 2 ^ 20), 0, 64, 96, BitVec.ofNat 64 (4 + ind * 2 ^ 24), 0,
    BitVec.ofNat 64 (128 * ind), 0]
/-- A tile with one such descriptor on channel 3, moved up to `pos`. -/
def copying (ind flag pos : Nat) : State :=
  (crewState 0).setDescs (.tile 0 0 3) [{ newDesc 7 (copyWords ind flag) with crew := some c0, pos := pos, lsSize := 8192 }]

/-- Witnesses for CopyEnginesComplete: a turn of four elements, an index list, a flag, an end. -/
theorem test_copies_met :
    (copying 0 0 0).buckerRuns (.tile 0 0 3) = true ∧ (copying 0 0 0).hasTurn (.tile 0 0 3) = true
    ∧ ((copying 0 0 0).movable (.tile 0 0 3)).any (fun d =>
        let fin := min (d.turnEnd 4) (cdTotal d.words)
        (match (copying 0 0 0).unitAll (d.reads (.tile 0 0 3) (d.turnOf fin)) with
         | .done got t =>
           let m := t.moves (.tile 0 0 3) d fin got
           let all := d.part ++ (m.ws.filter (fun x => decide (x.sp ≤ 1))).flatMap CopyW.cut
           let out := all.filter (fun x => coversSector (all.filter (fun y => y.sector == x.sector)) x.sector.2.2 || !(d.writesLater fin x.sector))
           !m.wait && m.err.isNone && m.bad.isEmpty && m.rows == 0 && m.ws.length == 4 && cdRnd d.words == 0 && out.length == 4
             && (m.s.landEnter (.tile 0 0 3) out).1
         | .wait _ => false)) = true
    ∧ ((copying 1 0 0).activeDesc (.tile 0 0 3)).any (fun d => cdIndexed d.words && d.idx.isNone
        && (((copying 1 0 0).idxRead (.tile 0 0 3) d).1.any (fun l => !(l.contains none) && l.length == 1 && !(cdLateBad d.words l (d.lsBase, d.lsSize) d.wins)))
        && ((copying 1 0 0).idxRead (.tile 0 0 3) d).2.1.isNone) = true
    ∧ ((copying 0 1 4).descOf (.tile 0 0 3) 7).any (fun d => cdFlag d.words && !d.flagIssued && !((copying 0 1 4).flagLost (.tile 0 0 3) d)
        && (copying 0 1 4).flagReady (.tile 0 0 3) d
        && ((copying 0 1 4).landEnter (.tile 0 0 3) [{ sp := cdFsp d.words, die := 0, off := 0, n := 4, val := 0, poisoned := false }]).1) = true
    ∧ ((copying 0 0 4).descOf (.tile 0 0 3) 7).any (fun d => (copying 0 0 4).dataLanded (.tile 0 0 3) d && !(cdFlag d.words) && d.crew == some c0) = true
    ∧ cdCheck (copyWords 0 0) (some (0, 8192)) [] = none
    ∧ cdCheck [BitVec.ofNat 64 (1 * 2 ^ 2 + 1 * 2 ^ 4 + 2 * 2 ^ 6 + 2 * 2 ^ 10 + 2 ^ 20), 0, 64, 0, 4, 0, 0, 0] none [(0, 1)] = none
    ∧ (AccResult.decode).fails = true ∧ copyCause .decode = 6
    ∧ booted.buckerRuns (.heavy 3 7) = true ∧ booted.evacHolds 3 7 = false := by decide +kernel

/-- Witness for CopyEnginesComplete: a heavy Bucker's next descriptor, read from a record's array. -/
theorem test_heavy_take :
    (let ws : List W64 := [BitVec.ofNat 64 (1 * 2 ^ 2 + 1 * 2 ^ 4 + 2 * 2 ^ 6 + 2 * 2 ^ 10 + 2 ^ 20), 0, 64, 0, 4, 0, 0, 0]
     let f := { aFlight 0x800 2 0 [2, 0x40, BitVec.ofNat 64 (1 + 2 ^ 16)] with die := 0 }
     let s := reader { flights := [f], wins := [(0, 1)] }
     let s1 := { s with reqs := [readOf 7 (.stream 5 0x800) 0 0x40 ws] }
     ((s1.stream 5).flights.find? (fun f => f.addr == 0x800 && f.typ == 2 && f.fin.isNone)).any (fun g => g == f
       && bitOf (wfld (nth 0 g.words 2) 16 8) 0 && decide (g.handed < wfld (nth 0 g.words 2) 0 13)
       && (match s1.descRead 5 (s1.stream 5) g with | .ok xs _ => cdCheck xs none [(0, 1)] == none | _ => false))
       && (s1.descs (.heavy 0 0)).all Desc.moved) = true := by decide +kernel

/-- The test crew parked by a trap of cause 13. -/
def parkedState : State :=
  { (crewState 0).onCrew c0 (fun v => { v with parked := some {
      cause := 13, instr := 0, pc := 0, active := 1, fault := 1, first := 0, detail := 0,
      late := false, time := 0, recorded := false } }) with
    trapWait := [(0, [c0])], cfg := { booted.cfg with trapRing := [(0, 0x4000, 6)] } }

/-- Witnesses for TrapAnswersComplete. -/
theorem test_traps_met :
    parkedState.serves = true ∧ trapCrew 0 0 = c0 ∧ (parkedState.crew c0).any (fun v => v.parked.isSome) = true ∧ parkedState.genOf c0 = 0
    ∧ fld (0x2000#17).toNat 13 4 ≠ parkedState.genOf c0
    ∧ (alGet 0 parkedState.trapTail 0 + 2 ^ 32 - wfld 0 0 32) % 2 ^ 32 ≤ parkedState.trapSize 0
    ∧ parkedState.trapSize 0 < (alGet 0 parkedState.trapTail 0 + 2 ^ 32 - wfld 1 0 32) % 2 ^ 32
    ∧ alGet [] parkedState.trapWait 0 = [c0] ∧ parkedState.trapUsed 0 < parkedState.trapSize 0
    ∧ (let s := { parkedState with trapTail := [(0, 64)] }; s.trapSize 0 ≤ s.trapUsed 0)
    ∧ (let xs := writeReqs (.unit (.service 0) 0) .store noSpace 0x4000 (List.replicate 64 0) false
       (xs.length = 1 ∧ ((answered parkedState .ok xs).ringWrite (.service 0) 0 0x4000 (List.replicate 64 0)).1 = true)) := by decide +kernel

/-- A pending entry of page 3 of space 2 in a state, with no waiters. -/
def pendingEntry (st : PSt) : PEntry :=
  { st := st, space := 2, page := 3, need := 1, aperture := 0, waiters := [], src := 0, cause := 0, level := 0, entry := 0, restart := false }

/-- A state with that entry; `root` is the root of space 2. -/
def pendingState (st : PSt) (root : W64 := 1) : State :=
  { booted with xlt := { booted.xlt with
    root := [(2, root)]
    pend := [(5, pendingEntry st)]
    order := [5], inval := [(3, 0, 0)] } }

/-- The table entries that a walk of that page has read. -/
def walked (es : List W64) : State :=
  let s := pendingState .walk
  let at_ := fun (k : Nat) => (walkNext 1 3 (es.take k)).getD 0
  { s with reqs := (List.range es.length).map (fun k => readOf (900 + k) (.unit .hub 21) noSpace (at_ k) [nth 0 es k]) }

/-- A walk whose first entry is no entry stops; one not yet answered goes on; one that finds a leaf of 32 MiB fills. -/
theorem test_walk_met :
    (match (walked [0]).walkGo 5 1 3 3 [] with
     | (some reads, _) => (match walkEnd 1 reads with | .stop .. => true | _ => false)
     | _ => false) = true
    ∧ ((walked []).walkGo 5 1 3 3 []).1 = none
    ∧ (match (walked [1, 1, 0x1F]).walkGo 5 1 3 3 [] with
       | (some reads, _) => (match walkEnd 1 reads with | .leaf .. => true | _ => false)
       | _ => false) = true
    ∧ (pendingState .walk).xlt.on 2 = true ∧ (pendingState .walk 0).xlt.on 2 = false
    ∧ ({ pendingEntry .walk with restart := true } : PEntry).restart = true
    ∧ leafPermits 0x1F 1 = true ∧ leafPermits 0x3 1 = false := by decide +kernel

/-- Witnesses for TranslationCommandsComplete. -/
theorem test_translation_met :
    (pendingState .walk).serves = true ∧ (alFind (pendingState .walk).xlt.pend 5).any (fun e => e.st == .walk && !e.restart) = true
    ∧ (pendingState .ringWait).xlt.order.head? = some 5 ∧ (pendingState .ringWait).xlt.used < 4096
    ∧ (alFind (pendingState .fill).xlt.pend 5).any (fun e => e.st == .fill) = true
    ∧ (pendingState .posted).xlt.pid 5 = 5 ∧ alFind (pendingState .posted).xlt.pend (6 % 512) = none
    ∧ (pendingState .posted).xlt.inval = [(3, 0, 0)] ∧ (pendingState .posted).xlt.invalIds = [] ∧ alFree booted.xlt.pend 512 = some 0
    ∧ (match (({ booted with xlt := { booted.xlt with root := [(2, 1)] } }).look none 2 0x6000000 1).1 with | .miss => true | _ => false) = true := by decide +kernel

/-- A state whose source of crew 0 holds a token of every level of a route, and an access backed off. -/
def backedOff (pa : Nat) (hold : Bool) : State :=
  let s := { oneReq (.lane c0 0 0) .store (.backoff 2) [] with cols := (List.range 16).map (fun k => (k, { state := 1, mods := 9 })) }
  let s := { s with reqs := s.reqs.map (fun e => (e.1, { e.2 with pa := pa })) }
  let ls := match s.route (.tile 0 0) pa with | .go l => l | .answer l _ => l
  if hold then ls.foldl (fun t l => t.setHeld (.tile 0 0) l [0]) s else s

/-- The route of that access is open, or answers at once. -/
def routeGoes (pa : Nat) : Option Bool :=
  match (backedOff pa true).route (.tile 0 0) pa with | .go l => if ridgeOf l = none then some true else none | .answer _ _ => some false

/-- Witnesses for AdmissionCommandsComplete: grants, returns and retries. -/
theorem test_admission_met :
    (booted.issued .hubEgress + 16 ≤ booted.pool .hubEgress) ∧ booted.sourceLive .hub = true ∧ booted.inTurn .hub .hubEgress = true
    ∧ ((({ booted with time := { booted.time with fine := 200000000 } }).setHeld .hub .hubEgress [0]).heldSince .hub .hubEgress) = [0]
    ∧ ((oneReq (.lane c0 0 0) .store (.replied .ok) [.hubEgress]).req 4).any (fun r => r.levels.contains .hubEgress) = true
    ∧ ((backedOff 0 true).req 4).any (fun r => r.stage == .backoff 2) = true ∧ routeGoes 0 = some true ∧ routeGoes 0x300000000000 = some false
    ∧ (backedOff 0 false).holds_ (.tile 0 0) (.tileEgress 0 0) = 0 ∧ (backedOff 0 true).holds_ (.tile 0 0) (.tileEgress 0 0) = 1
    ∧ ((oneReq (.lane c0 0 0) .load (.replied (.line Line.zero)) []).req 4).isSome = true
    ∧ ((oneReq (.bucker (.tile 0 0 3) 7) .store (.replied .ok) []).req 4).any (fun r => r.kind.writes && !(AccResult.ok).fails) = true
    ∧ Line.zero.pmask = 0 ∧ ((crewState 0).tile 0 0).launch = some 0 := by decide +kernel

/-- Witnesses for AdmissionCommandsComplete: ports and bounds. -/
theorem test_ports_met :
    booted.up = true ∧ ({ booted with cols := [(0, { state := 1, mods := 9 }), (1, { state := 1, mods := 8 })] }).colUp 0 = true
    ∧ ({ booted with cols := [(0, { state := 1, mods := 9 }), (1, { state := 1, mods := 8 })] }).colUp 1 = true
    ∧ (booted.colPort 3).state ≠ 3
    ∧ ((oneReq (.lane c0 0 0) .load .sent [.ridge 7]).req 4).any (fun r => r.stage == .sent && ridgeOf r.levels == some 7) = true
    ∧ booted.homeHere 0x400000000 = false := by decide +kernel

/-- A message on its way. -/
def aMsg (op : MsgOp) (src dst : Nat) : CMsg :=
  { op := op, src := src, dst := dst, line := 32, rq := 0, dsrc := 0, invset := [], stale := false, line' := Line.zero }

/-- The home of line 32 with a busy record that waits for agent 1, and a message to it. -/
def homeWith (op : MsgOp) (why : BusyWhy) : State :=
  { booted with msgs := [aMsg op 1 0x7F] }.setBusyRec 32 (some { addr := 32, why := why, acks := [1], due := some 1, cack := true })

/-- Witnesses for CoherenceMessagesComplete. -/
theorem test_messages_met :
    (let s : State := { booted with msgs := [aMsg .rds 0 0x7F] }
     s.msgs.find? (sameFlow (aMsg .rds 0 0x7F)) = some (aMsg .rds 0 0x7F) ∧ s.serves = true ∧ s.homeHere 32 = true ∧ 0 ∉ s.dead
     ∧ s.partOf 32 0 = true ∧ s.busyRec 32 = none ∧ s.waitOf 32 = [] ∧ hostLine 32 = false ∧ (s.lineSlice 32).fills = [])
    ∧ (let s : State := { booted with msgs := [aMsg .inv 0x7F 0] }
       s.msgs.find? (sameFlow (aMsg .inv 0x7F 0)) = some (aMsg .inv 0x7F 0) ∧ s.ownAgent 0 = true ∧ s.fqFull 0 (aMsg .inv 0x7F 0) = false
       ∧ s.partOf 32 0x7F = true) := by decide +kernel

/-- Witnesses for CoherenceMessagesComplete at a busy line. -/
theorem test_answers_met :
    ((homeWith .fwddone (.coherent (aMsg .rds 1 0x7F) none)).busyRec 32).any (fun b => b.due == some 1) = true
    ∧ ((homeWith .wbd .recall).homeData? 32 1 (some Line.zero)).isSome = true
    ∧ ((homeWith .rspi .recall).homeData? 32 1 none).isSome = true
    ∧ ((homeWith .cack (.coherent (aMsg .rds 1 0x7F) none)).busyRec 32).any (fun b => b.cack) = true := by decide +kernel

/-- A state long silent, with a dead agent whose notice is out and another that is reclaimed. -/
def silent_ : State :=
  { booted with
    time := { booted.time with fine := 20000000000 }, dead := [3, 4, 5], reclaimed := [(3, 2)], notices := [(4, 0x7F), (4, 0)]
    cfg := { booted.cfg with cohSet := some 3 } }

/-- Witnesses for DeadAgentsAndHostComplete. -/
theorem test_dead_met :
    silent_.serves = true ∧ alGet 0 silent_.beats 7 + 8000 ≤ silent_.now ∧ silent_.coherentSet = true
    ∧ bitOf (silent_.cfg.cohSet.getD 0) 1 = true ∧ 1 ≠ silent_.mySlot ∧ alGet 0 silent_.beats 17 + 200000 ≤ silent_.now
    ∧ (4, 0x7F) ∈ silent_.notices ∧ (4, 0) ∈ silent_.notices ∧ alFind silent_.reclaimed 3 = some 2
    ∧ silent_.agentId 2 ∉ silent_.dead ∧ silent_.agentId 5 ∈ silent_.dead ∧ alFind silent_.reclaimed 5 = none ∧ (5, 0x7F) ∉ silent_.notices
    ∧ booted.coherentSet = false ∧ 6 ∉ booted.dead := by decide +kernel

/-- Host memory's first line in the host-line cache with a request of each half. -/
def hostWith (a b : Option D2H) : State := { booted with host := [(devLine 0, { HostLine.new (devLine 0) with d0 := a, d1 := b })] }

/-- Witnesses for DeadAgentsAndHostComplete at the host-line cache. -/
theorem test_host_met :
    booted.runs = true ∧ booted.plat.hpState = 1 ∧ booted.snoopQ = [] ∧ booted.snoopReady 5 = true
    ∧ (({ booted with snoopQ := [(2, 5)], snoopIn := 1 } : State).snoopAct 2 5).snoopQ = []
    ∧ (alFind (hostWith (some { op := 0, go := some .grantS }) (some { op := 4, go := none })).host (devLine 0)).any (fun h =>
        (h.d2h 0).any (fun d => decide (d.op ≤ 1) && d.go.isSome) && (h.d2h 1).any (fun d => decide (4 ≤ d.op))) = true
    ∧ (alFind (hostWith (some { op := 2, go := none }) (some { op := 3, go := none })).host (devLine 0)).any (fun h =>
        (h.d2h 0).any (fun d => d.op == 2) && (h.d2h 1).any (fun d => d.op == 3)) = true
    ∧ (alFind (hostWith none none).host (devLine 0)).any (fun h =>
        h.d0.isNone && h.d1.isNone && h.waiters.isEmpty && ((hostWith none none).busyRec (devLine 0)).isNone) = true := by decide +kernel

/-- Slice of line 32 with a fill of it, behind nothing. -/
def fillState : State :=
  booted.setLineSlice 32 { booted.lineSlice 32 with fills := [{ addr := 32, way := 3, behind := false, waiters := [] }] }

/-- Witnesses for HomesAndCachesComplete: accesses and fills. -/
theorem test_homes_met :
    (let s := oneReq (.lane c0 0 0) .load .sent []
     s.serves = true ∧ (s.req 4).any (fun r => s.homeHere (r.pa / 128) && !(s.earlier r) && !(hostLine (r.pa / 128)) && !r.kind.writes
       && (s.busyRec (r.pa / 128)).isNone && (s.waitOf (r.pa / 128)).isEmpty && ((s.uncachedAct r).busyOf (r.pa / 128)).length ≤ 64) = true)
    ∧ ((fillState.lineSlice 32).fills.find? (fun f => f.addr == 32)).isSome = true ∧ (fillState.lineSlice 32).evIndex 32 = none
    ∧ (fillState.lineSlice 32).enabled 3 = true := by decide +kernel

/-- Witnesses for HomesAndCachesComplete: entries, victims, ways and reads. -/
theorem test_caches_met :
    (let v := booted.lineSlice 32
     let s := booted.setLineSlice 32 { v with evb := [{ addr := 32, line := Line.zero, issued := false, coh := false },
                                                      { addr := 33, line := Line.zero, issued := true, coh := false }] }
     ((s.lineSlice 32).evb.find? (fun e => e.addr == 32 && !e.issued)).isSome = true ∧ s.memBlocked 32 = false)
    ∧ booted.isMem (32 * 128) = true ∧ booted.busyRec 32 = none ∧ booted.dirOf 32 = none ∧ (booted.lineSlice 32).fills = []
    ∧ (booted.lineSlice 32).way 32 = none ∧ (booted.lineSlice 32).evb = [] ∧ (booted.lineSlice 32).choose (setOf 32) = some 0
    ∧ alFind (booted.lineSlice 32).lines (setOf 32 * 16) = none ∧ (booted.slice 0 0).errors 3 < 16
    ∧ (alGet ({} : Stack) booted.hbm 0).temp ≤ 0 := by decide +kernel

/-- Links 0 DOWN, 1 training, 2 retraining, 3 up. -/
def linked : State :=
  { booted with plat := { booted.plat with ridgeClk := true }, cfg := { booted.cfg with ridgeLinks := some (2 ^ 64 - 1), ridgeAddr := some 1 }
                links := [(1, { state := 1 }), (2, { state := 4 }), (3, { state := 2, lanes := 15, peer := 0 })], rdgRoute := [(0, 3 + 512)] }

/-- The 256 bytes of an empty flit of a type and sequence number, with their CRC. -/
def flitBytes (typ seq : Nat) : List Byte :=
  let b := leBytes 12 (typ + 4 * seq) ++ List.replicate 240 0
  b ++ leBytes 4 (crc32c b)

/-- Witnesses for RidgeLinksComplete. -/
theorem test_ridge_met :
    linked.trains 0 = true ∧ (linked.link 0).state = 0 ∧ linked.trains 1 = true ∧ upState 7 = some 3 ∧ upState 15 = some 2 ∧ upState 3 = none
    ∧ linked.trains 2 = true ∧ (linked.link 2).replay = [] ∧ (linked.link 3).up = true ∧ linked.serves = true ∧ (linked.link 0).up = false
    ∧ linked.myAddr / 1024 = 8 ∧ unitListed 0 127 = false ∧ unitListed 0 0 = true ∧ linked.egress 0 none = some 3
    ∧ linked.on = true ∧ linked.plat.ridgeClk = true
    ∧ ({ linked with plat := { linked.plat with ridgeClk := false } }).on = true := by decide +kernel

/-- Flits of every type with a good CRC, and one without. -/
theorem test_flit_met :
    [0, 1, 2].all (fun k => (flitOf (flitBytes k 0)).crcOk && (flitOf (flitBytes k 0)).typ == k) = true
    ∧ (flitOf (flitBytes 0 0)).seq = (linked.link 3).rx ∧ (flitOf (flitBytes 0 5)).seq = 5 ∧ (linked.link 3).nak = none
    ∧ (flitOf (List.replicate 256 1)).crcOk = false := by decide +kernel

/-- A broadcast of five members with fan-out 2, its root here or not, child 1 in a state, member 3 re-fed to member 4 in a state. -/
def casting (root : Option (Nat × Nat)) (st rst : Nat) : State :=
  { booted with
    time := { booted.time with fine := 20000000000 }
    bcasts := [{
      bid := 7, root := root, parents := [1024], index := 0, n := 5, f := 2, members := [0, 1024, 2048, 3072, 4096], payload := [1],
      children := [{ index := 1, state := st, since := 0 }, { index := 2, state := 3, since := 0 }]
      refeeds := [{ sub := 3, alt := 4, state := rst, since := 0 }], acked := [], unreached := [], refed := [],
      doneSent := false, dbuf := 0, space := 0 }] }

/-- Witnesses for JobStartsComplete. -/
theorem test_starts_met :
    (casting none 0 0).serves = true ∧ (casting none 0 0).bcastOf 8 = none
    ∧ [0, 1, 2].all (fun st => ((casting none st 0).bcastOf 7).any (fun b => b.childState 1 == some st
        && b.silent 1 (casting none st 0).now b.tack 0 && b.silent 1 (casting none st 0).now b.tdone 1)) = true
    ∧ ((casting none 0 0).bcastOf 7).any (fun b => (b.childState 4).isNone && b.silent 4 (casting none 0 0).now b.tack 0
        && (indexWhere (fun (r : Refeed) => r.alt == 4 && r.state == 0) b.refeeds).isSome) = true
    ∧ ((casting none 0 1).bcastOf 7).any (fun b => b.silent 4 (casting none 0 1).now b.tdone 1 && b.refeeds.any (fun r => r.alt == 4 && r.state == 1)) = true
    ∧ ((casting (some (5, 64)) 0 0).bcastOf 7).any (fun b => b.root.isSome && decide (1 < b.n)) = true := by decide +kernel

/-- The start ring's writes are two requests that H makes: both outcomes of asking are met. -/
theorem test_start_ring_met :
    (let s : State := { booted with cfg := { booted.cfg with startRing := some (0x40000, 2) } }
     s.cfg.startRing = some (0x40000, 2) ∧ (s.ringWrite .hub 3 0x40000 [1]).1 = false
     ∧ ((answered (s.ringWrite .hub 3 0x40000 [1]).2 .ok ((s.ringWrite .hub 3 0x40000 [1]).2.reqs.map (·.2))).ringWrite .hub 3 0x40000 [1]).1 = true)
      := by decide +kernel

/-- MAINT_START of an activity on die 1, target 3 and 2. -/
def maintPkt (code : Nat) : Packet := pkt 0x0701 ([BitVec.ofNat 8 code, 1, 0, 0, 3, 2] ++ List.replicate 6 0)

/-- A target of every activity on die 1 that Table 18.6 admits; HBM stacks end at 2. -/
def maintOpen (code t4 : Nat) : Bool :=
  booted.accepts 0x0701 .b (pkt 0x0701 ([BitVec.ofNat 8 code, 1, 0, 0, BitVec.ofNat 8 t4, 2] ++ List.replicate 6 0)) && targetOk code 1 t4 2

/-- Witnesses for MaintenanceStartsComplete: every activity opens on port B, and as firmware's. -/
theorem test_maint_open :
    maintOpen 1 3 && maintOpen 2 2 && maintOpen 3 3 && maintOpen 4 3 && maintOpen 5 3 && maintOpen 6 3 && maintOpen 7 3 && maintOpen 8 3
      && maintOpen 9 3 = true := by decide +kernel

theorem test_maint_opens_port : booted.opens (.port .b (maintPkt 7)) (maintAct 7 1)
    { booted.began 0x0701 .b (maintPkt 7) with acts := [maintAct 7 1], actNum := 1 } := by
  refine ⟨⟨by decide +kernel, by decide, by decide, by decide, by decide, by decide, by decide, by decide +kernel, by decide +kernel,
    by decide +kernel, by decide +kernel, rfl⟩, by decide, by decide, by decide, by decide, by decide, by decide, by decide⟩

theorem test_maint_opens_firmware : booted.opens (.firmware 1 3 2) (maintAct 7 3) { booted with acts := [maintAct 7 3], actNum := 1 } := by
  refine ⟨⟨by decide, by decide, by decide, by decide, by decide, rfl⟩, by decide, by decide, by decide, by decide, by decide, by decide,
    by decide⟩

theorem test_maint_targets :
    (let s := booted.setChan 1 (chanIx 3 (spareOf 3)) { state := 1, logical := 15 }
     (s.remapOf 1 3).split = false ∧ (s.chan 1 (chanIx 3 (spareOf 3))).state = 1 ∧ (s.chan 1 (chanIx 3 2)).state = 0)
    ∧ (booted.tile 1 3).retired = false ∧ booted.accepts 0x0801 .n (pkt 0x0801 [3]) = true ∧ byteFld (pktData (pkt 0x0801 [3])) 0 1 = 3 := by
  decide +kernel

/-- An activity that runs, or waits, on die 1, target 3 and 2. -/
def acting (code state : Nat) : State := { booted with acts := [{ maintAct code 3 with state := state, begun := state == 0 }], actNum := 1 }

/-- Witnesses for MaintenanceEndsComplete. -/
theorem test_maint_ends :
    [1, 2, 3, 4, 5, 6, 7, 8].all (fun c => decide ((acting c 0).actOf 1 = some (maintAct c 3))) = true ∧ (acting 8 1).serves = true
    ∧ (acting 4 0).link 19 = {} ∧ ((acting 4 0).link 19).state = 0 ∧ ((acting 7 0).tile 1 3).stands = []
    ∧ (acting 5 0).remapOf 1 3 = {} ∧ ((acting 6 0).slice 1 3).lines = [] ∧ bitOf ((acting 6 0).slice 1 3).dis.toNat 2 = false
    ∧ ((acting 1 1).actOf 1).map (·.state) = some 1
    ∧ (let s := (acting 3 0).setChan 1 99 { retrain := true }
       (s.chan 1 99).retrain = true ∧ s.chanBusy 1 99 = false ∧ (s.acts.find? (fun a => (a.code == 2 || a.code == 3) && a.die == 1 && a.begun
         && actGroup a.code a.t4 == (if 96 ≤ 99 then 3 else 99 / 32))).isSome = true)
    ∧ (let s : State := { acting 5 0 with remap := [(7, { target := 2, evac := true })] }
       (s.remapOf 1 3).evac = true ∧ (s.remapOf 1 3).wmark + 16 < chanUnits 3)
    ∧ (let s := (acting 7 0).setTile 1 3 { retiring := true }
       (s.tile 1 3).retiring = true ∧ (s.acts.find? (fun a => a.code == 7 && a.die == 1 && a.t4 == 3 && a.begun && a.state == 0
         && a.result.isEmpty && ({ s with time := { s.time with fine := 20000000000000 } } : State).due (a.time + 100000000))).isSome = true)
    ∧ (let s : State := { acting 9 0 with plat := { booted.plat with resetting := [1] } }
       s.drainedDie 1 = true ∧ ((s.resetDone 1 0).acts.find? (fun a => a.code == 9 && a.die == 1 && a.begun)).isSome = true)
    ∧ (let s : State := { booted with plat := { booted.plat with resetting := [1] } }
       s.drainedDie 1 = true ∧ (s.resetDone 1 0).acts = []) := by decide +kernel

/-- Witnesses for DieLossAndThresholdsComplete. -/
theorem test_loss_met :
    booted.serves = true ∧ booted.plat.lostC = [] ∧ booted.plat.lostF = [] ∧ booted.plat.resetting = [] ∧ booted.dieLive 3 = true
    ∧ (booted.tile 3 67).retired = false ∧ booted.inFlight 3 111 5 = false ∧ booted.plat.memUp = true ∧ (booted.chan 3 111).retrain = false
    ∧ (booted.chan 3 111).early = [] ∧ ((booted.setChan 3 111 { early := [5, 9], state := 3 }).chan 3 111).early = [5, 9]
    ∧ ((booted.setChan 3 111 { early := [5, 9], state := 3 }).chan 3 111).state = 3
    ∧ ({ booted with plat := { booted.plat with stopped := [2] } } : State).plat.stopped.contains 2 = true
    ∧ booted.spareIdle 3 3 = false ∧ (booted.setChan 3 (chanIx 3 (spareOf 3)) { state := 1 }).spareIdle 3 3 = true ∧ (booted.chan 3 96).state = 0
    ∧ [(0, 3, 95), (1, 3, 111), (2, 3, 111), (9, 4, 35), (3, 0, 511), (4, 3, 0), (5, 0, 67), (6, 0, 15), (7, 0, 255), (8, 0, 63), (10, 0, 7)].all
        (fun x => objectOk x.1 x.2.1 x.2.2) = true ∧ (booted.link 63).state ≠ 5 := by decide +kernel

/-- Node core 9 runs, with its cluster. -/
def coreRunning : State := { booted with cores := [(9, { running := true, apEn := true })] }

/-- Witnesses for RegistersAndInterruptsComplete. -/
theorem test_registers_met :
    coreRunning.coreRuns 9 = true ∧ bitOf (0x8000000000000000#64).toNat 63 = true ∧ coreRunning.portN.busy = false
    ∧ booted.reach .h = true ∧ booted.portH.busy = false ∧ booted.cairn.restarting = false
    ∧ bitOf (setFld (2 ^ 96) 64 64 0) 96 = false ∧ booted.serves = true
    ∧ bitOf (alGet 0 booted.routes 127).toNat 32 = false
    ∧ bitOf (alGet 0 [(127, 0x0000000100001000#64)] 127).toNat 32 = true
    ∧ bitOf ((0x80001000#64) &&& 0x00000000807FF73F#64).toNat 31 = true ∧ wfld ((0x80001000#64) &&& 0x00000000807FF73F#64) 12 11 ≠ 0
    ∧ wfld (alGet 0 [(79, 0x80001000#64)] 79) 12 11 ≠ 0 := by decide +kernel

/-- Core 9 runs; its cluster holds lines 2 and 3 in a state; window 3 is open; space 0 has a table. -/
def accessing (st : ASt) : State :=
  let s : State := { booted with
    cfg := { booted.cfg with cohSet := some 0 }, cores := [(9, { running := true, apEn := true })], rdgWin := [(3, 1)], xlt := { booted.xlt with root := [(0, 1)] } }
  { s with agents := [(s.agentId 1, { lines := [(2, { s.alineOr (s.agentId 1) 2 with st := st }), (3, { s.alineOr (s.agentId 1) 3 with st := st })] })] }

/-- The same with a token of every level from H to line 2. -/
def accessingToken (st : ASt) : State :=
  let s := { accessing st with cols := (List.range 16).map (fun k => (k, { state := 1, mods := 9 })) }
  match s.route .hub 256 with | .go l => l.foldl (fun t l => t.setHeld .hub l [0]) s | .answer _ _ => s

/-- An access of core 9. -/
def nodeAcc (k : NodeKind) (addr size : Nat) : NodeAccess := { kind := k, addr := addr, size := size, data := 0, sub := 0 }

/-- Witnesses for NodeAccessesComplete. -/
theorem test_node_met :
    (accessing .i).coreRuns 9 = true ∧ (accessing .i).coreMay 9 (nodeAcc .load 0x0F0800900008 8) = true ∧ (accessing .i).region 0x0F0800900008 = .regs
    ∧ (accessing .e).region 0x100 = .near ((accessing .e).homeDie 0x100) ∧ (accessing .e).plat.lostF = []
    ∧ (accessing .e).dead = [] ∧ (accessing .e).ast ((accessing .e).agentId 1) 2 = .e
    ∧ nodeRequest .load .e = none ∧ nodeRequest .store .i = some (.rdu, .imAD)
    ∧ (alGet {} (accessing .i).agents ((accessing .i).agentId 1)).open_ < 48
    ∧ (match (accessingToken .i).gate .hub 256 with | .go _ => true | _ => false) = true
    ∧ (match ({ accessing .i with cols := (List.range 16).map (fun k => (k, { state := 1, mods := 9 })) } : State).gate .hub 256 with
        | .refused _ => true | _ => false) = true
    ∧ (accessing .i).region (0x100000000000 + 3 * 0x004000000000) = .window 3 ∧ (accessing .i).coreBusy 9 = false
    ∧ (alGet {} (accessing .i).cores 9).apEn = true ∧ ((accessing .i).look none 0 0x2000000 1).1 = .miss ∧ (booted.look none 0 0x2000000 1).1 = .refused
    ∧ (accessing .i).region 0x200000000000 = .unmapped ∧ NodeAccess.regShape (nodeAcc .load 0x0F0800900002 2) = false := by decide +kernel

/-- A load and a store that cross from line 2 to line 3. -/
theorem test_crossing_met :
    (accessing .m).faultsAt (nodeAcc .load 0x17C 8) = false ∧ (accessing .m).coreMay 9 (nodeAcc .load 0x17C 8) = true
    ∧ NodeAccess.parts (nodeAcc .load 0x17C 8) = [(some 0, nodeAcc .load 0x17C 4), (some 4, nodeAcc .load 0x180 4)]
    ∧ (((accessing .m).coreValue 9 0).partsRun 9 (NodeAccess.parts (nodeAcc .load 0x17C 8))).1 = true
    ∧ ((accessing .m).partsRun 9 (NodeAccess.parts (nodeAcc .store 0x17C 8))).1 = true
    ∧ ((accessing .i).partsRun 9 (NodeAccess.parts (nodeAcc .store 0x17C 8))).1 = false := by decide +kernel

/-- Debug open at a level. -/
def debugging (level : Nat) : State :=
  { booted with cairn := { booted.cairn with dbg := level }, dbgUnit := { booted.dbgUnit with data := 1, bk := [(8, 64)] } }

/-- A request of core 9. -/
def dbgq (die unit space addr : Nat) : DbgReq := { core := 9, die := die, unit := unit, space := space, addr := addr }

/-- Witnesses for DebugRequestsComplete: file 3 of slot 47, u63 of slot 0, a local store, a landing store and memory at their ends. -/
theorem test_debug_met :
    (debugging 2).serves = true ∧ (debugging 2).dbgTarget (dbgq 1 67 0 (47 + 3 * 2 ^ 11)) = none
    ∧ dbgRegOk (dbgq 1 67 0 (47 + 3 * 2 ^ 11)) 4 = true ∧ dbgOnCluster (dbgq 1 67 0 0) = false
    ∧ dbgRegOk (dbgq 1 67 0 (2 ^ 11 + 63 * 2 ^ 14)) 2 = true ∧ dbgOnTile (dbgq 3 127 0 0) true = true ∧ dbgOnTile (dbgq 3 67 0 47) false = true
    ∧ (debugging 2).dbgStore (dbgq 1 67 1 1310712) = true ∧ (debugging 2).dbgStore (dbgq 1 0 2 402653176) = true
    ∧ (debugging 2).dbgStore (dbgq 0 0 3 0x008B7FFFFFF8) = true
    ∧ (debugging 2).dbgTarget (dbgq 1 67 1 1310712) = none ∧ (debugging 2).dbgTarget (dbgq 1 0 2 402653176) = none
    ∧ (debugging 2).dbgTarget (dbgq 0 0 3 0x008B7FFFFFF8) = none
    ∧ (((debugging 2).setTile 1 67 { halted := true }).tile 1 67).halted = true
    ∧ alFind (debugging 2).dbgUnit.bk 9 = none ∧ alFind (debugging 2).dbgUnit.bk 8 ≠ none ∧ wfld (debugging 2).dbgUnit.data 0 2 = 1
    ∧ dbgOnCluster (dbgq 4 2 0 5) = true ∧ (debugging 2).dbgTarget (dbgq 4 2 0 5) = none ∧ dbgFile (dbgq 1 67 0 (47 + 3 * 2 ^ 11)) = 3 ∧ (debugging 1).dbgTarget (dbgq 1 67 0 (47 + 3 * 2 ^ 11)) = none := by decide +kernel

/-- Witness for StepRunsFrontCommand: a queue of two. -/
theorem test_step_front : ({ State.reset with pending := [.vddCairnLoss, .thermTrip] } : State).pending = .vddCairnLoss :: [.thermTrip] := rfl

/-- Witnesses for IdleStepTicks. -/
theorem test_tick_met : booted.pending = [] ∧ booted.up = true ∧ 2 ≤ booted.plat.stage ∧ booted.time.slew = 0 ∧ booted.time.rate = 0
    ∧ State.reset.up = false ∧ 0 < ({ booted with time := { booted.time with slew := 5 } } : State).time.slew := by decide

/-- Witness for StepKeepsInvariant: a state with a listed byte, and a step of it. -/
theorem test_inv_met : ({ booted with dram := booted.dram.writeBytes 5 [7] } : State).Inv
    ∧ (match step { booted with dram := booted.dram.writeBytes 5 [7] } with | .next _ => true | _ => false) = true := by decide

/-- Witness for ExecLeavesTheQueue, FusesOnlyBurn and SealHolds: commands that answer a next state. -/
theorem test_exec_met : answers (exec .vddCairnLoss { booted with pending := [.thermTrip] }) = true
    ∧ answers (exec (.tileRetireDeadline 0 0) booted) = true := by decide +kernel

/-- Witness for UnpoweredBlockIsStill. -/
theorem test_unpowered_met : State.reset.on = false ∧ ({ booted with plat := { booted.plat with thermTrip := true } } : State).on = false := by decide

/-- Witnesses for CrewsThatMayNotIssueDoNothing: tile (0, 0) halted by the debug block. -/
theorem test_halted_met : (({ crewState 0 with tiles := (crewState 0).tiles.map (fun e => (e.1, { e.2 with halted := true })) } : State).tile 0 0).halted = true
    ∧ (({ crewState 0 with tiles := (crewState 0).tiles.map (fun e => (e.1, { e.2 with halted := true })) } : State).tile 0 0).stepping ≠ some 0 := by
  decide +kernel

/-- IADD on u and g registers below 128 issues at the test crew. -/
theorem test_issues_met :
    (let w := wordA 8 3 4 5 0 12
     let s := crewState w
     (s.crew c0).any (fun v => v.parked.isNone && v.fence.isNone && v.groups.isEmpty && v.subLeft.isNone && v.replay.isNone
       && (v.paths[v.cur]?).any (fun p => p.wait == .none) && v.pc % 8 == 0 && decide (v.pc < 2 ^ 52)
       && (s.tile 0 0).ibuf.find? (fun e => e.1 == v.pc) == some (v.pc, w) && v.part w != 0 && (s.breakAt 0 v.pc).isNone) = true
     ∧ (s.launchOf c0).any (fun l => (regTrap l.nreg (namesOf w)).isNone) = true ∧ listed (opKey w) = true ∧ illegalOp w = false
     ∧ wfld w 0 3 = 0 ∧ (namesOf w).all (fun e => !(s.pendingReg c0 e.1 e.2.1 e.2.2)) = true ∧ runs w = true) := by decide +kernel

/-- Witnesses for EventLogKeepsItsEntries: a full log, and a read of it. -/
theorem test_log_met : booted.log.length < 1024
    ∧ ({ booted with log := List.replicate 1024 { seq := 0, time := 0, code := 0, die := 0, sev := 0, data := [] }, logSeq := 1030 } : State).log.length = 1024
    ∧ booted.accepts 0x0602 .b (pkt 0x0602 (List.replicate 8 0)) = true := by decide +kernel

/-- Witnesses for MeasurementLogFolds: 63 and 64 entries. -/
theorem test_measure_met :
    (List.replicate 63 ({ typ := 1, arg := 0, dtime := 0, value := [] } : Meas)).length = 63
    ∧ (List.replicate 64 ({ typ := 1, arg := 0, dtime := 0, value := [] } : Meas))[63]? = some { typ := 1, arg := 0, dtime := 0, value := [] } := by decide

/-- Witness for CrewsStartAtZero. -/
theorem test_start_met : ∃ l : Launch, alFind (crewState 0).launches 0 = some l ∧ 0 < l.crews := ⟨_, rfl, by decide⟩

/-- Witness for RegisterFilesHoldWhatIsWritten: the last pair below register 255, and the highest lane and predicate. -/
theorem test_files_met : 2 ≤ 2 ∧ 253 + 2 ≤ 255 ∧ 254 < 255 ∧ 31 < 32 ∧ 6 < 7
    ∧ ((newCrew 0 0 0).setN false 31 253 2 (5 * 2 ^ 32 + 9)).getN false 31 253 2 = 5 * 2 ^ 32 + 9 := by decide +kernel

/-- Witness for PlacesAreDistinct: the address of the worked example of chapter 11, on F2, stack 1, logical channel 27, unit 821,021. -/
theorem test_place_met : placeOf 0 0x001234567880 = some (true, { die := 2, group := 1, logical := 27, unit := 821021 }) := by decide +kernel

/-- Witness for ArithmeticFrame: an IADD to g5 that issues. -/
theorem test_frame_a_met : (answers (exec (.iadd c0 (wordA 8 5 1 2 0 12)) (crewState (wordA 8 5 1 2 0 12)))
    && runs (wordA 8 5 1 2 0 12) && (({ crewState 0 with pending := [] } : State).crew c0).isSome) = true := by decide +kernel

/-- Witness for MemoryInstructionFrame: a local store of four bytes that issues, with its lanes' addresses. -/
theorem test_frame_m_met : (match issued (wordM 1 5 1 0 2 0) with
    | some (i, _) => (i.ldst 4).length == 32 && (i.ldst 4).all (fun x => x.addr == 0) | none => false) = true
    ∧ (({ crewState 0 with pending := [] } : State).crew c0).all (fun v => v.subLeft.isNone) = true := by decide +kernel

/-- Witness for ControlAndCoherenceFrame: a NOP that issues. -/
theorem test_frame_c_met : (answers (exec (.nop c0 (word 4 0 0)) (crewState (word 4 0 0))) && runs (word 4 0 0)) = true := by decide +kernel

/-- Witness for UnitsChangeOnlyTheirOwnState: a query and a JTAG instruction that run. -/
theorem test_frame_u_met : (answers (exec (.queryIdentity .n (pkt 0x0401 [])) booted) && answers (exec .idcode booted)) = true := by decide +kernel

/-! What well-formedness refuses: a term for each check. -/

/-- Packets, packet bodies and requests. -/
theorem test_wellFormed_packets :
    (pkt 0x0105 []).Ok = true ∧ ({ pkt 0x0105 [] with flags := 65536 } : Packet).Ok = false
    ∧ ({ pkt 0x0105 [] with plen := 65536 } : Packet).Ok = false ∧ ({ pkt 0x0105 [] with seq := 65536 } : Packet).Ok = false
    ∧ ({ pkt 0x0105 [] with body := List.replicate 4081 0 } : Packet).Ok = false
    ∧ WellFormed (.attest .h { pkt 0x0104 [] with flags := 65536 }) = false
    ∧ (ActReq.firmware 5 0 0).Ok = false ∧ (ActReq.firmware 0 256 0).Ok = false ∧ (ActReq.firmware 0 0 256).Ok = false
    ∧ (DieResetReq.command .h { pkt 0x0701 [] with plen := 65536 }).Ok = false := by decide +kernel

/-- Units: crews, tiles, slots, Buckers, cores, links, levels. -/
theorem test_wellFormed_units :
    c0.Ok = true ∧ ({ c0 with die := 4 } : CrewId).Ok = false ∧ ({ c0 with tile := 68 } : CrewId).Ok = false ∧ ({ c0 with slot := 48 } : CrewId).Ok = false
    ∧ (BuckerId.tile 4 0 0).Ok = false ∧ (BuckerId.tile 0 68 0).Ok = false ∧ (BuckerId.tile 0 0 16).Ok = false ∧ (BuckerId.heavy 0 8).Ok = false
    ∧ WellFormed (.standEnd 0 0 16) = false ∧ WellFormed (.wayDisable 0 32 0) = false ∧ WellFormed (.wayDisable 0 0 16) = false
    ∧ WellFormed (.hintStart 0 8) = false ∧ WellFormed (.lanePermanentFault 64 0) = false ∧ WellFormed (.lanePermanentFault 0 4) = false
    ∧ WellFormed (.portSevered 16) = false ∧ WellFormed (.interruptEvent 128) = false ∧ WellFormed (.clusterReset 8) = false
    ∧ WellFormed (.patrolScrubVisit 0 112 0 []) = false ∧ WellFormed (.walkComplete 512) = false ∧ WellFormed (.streamWake 64) = false
    ∧ (Level.slice 0 32).Ok = false ∧ (Level.bank 0 64).Ok = false ∧ (Level.hbm 0 3 0).Ok = false ∧ (Level.lpddr 0 16).Ok = false
    ∧ (Level.ridge 64).Ok = false ∧ (Level.col 0 3).Ok = false := by decide +kernel

/-- Addresses, records, accesses and coherence messages. -/
theorem test_wellFormed_addresses :
    ({ addr := 2 ^ 56, kind := .load, size := 4, sub := 0, data := 0 } : NodeAccess).Ok = false
    ∧ ({ addr := 0, kind := .load, size := 9, sub := 0, data := 0 } : NodeAccess).Ok = false
    ∧ ({ addr := 4, kind := .amo, size := 8, sub := 0, data := 0 } : NodeAccess).Ok = false
    ∧ ({ addr := 8, kind := .amo, size := 8, sub := 7, data := 0 } : NodeAccess).Ok = false
    ∧ ({ addr := 8, kind := .amo, size := 8, sub := 9, data := 0 } : NodeAccess).Ok = true
    ∧ WellFormed (.flitReceive 0 [] 0 0) = false ∧ WellFormed (.snpinv (2 ^ 41)) = false ∧ WellFormed (.deadNotice 127 0) = false
    ∧ WellFormed (.recordComplete 0 (2 ^ 52)) = false := by decide +kernel

/-! Worked examples and tables of the spec. -/

/-- Table 3.3's worked example: CREWS 8, NREG 72, LS_SPLIT 8, 200 KiB, EE 1 fits 4 stands; so do LS_SPLIT 7 and NREG 128; NREG 136 fits 3. -/
theorem test_occupancy : occupancy 8 72 8 200 0 true = 4 ∧ occupancy 8 128 7 200 0 true = 4 ∧ occupancy 8 136 8 200 0 true = 3 := by decide

/-- Chapter 11's worked example: address 0x0012_3456_7880 is homed in slice 24, its neighbour in slice 25. -/
theorem test_slice : sliceOf (0x001234567880 / 128) = 24 ∧ sliceOf (0x001234567800 / 128) = 25 := by decide

/-- Table 10.8: the request record of pending entry 37, generation 5, for page 0x4301 of space 3. -/
theorem test_request_record :
    (let e : PEntry := { st := .ringWait, space := 3, page := 0x4301, need := 1, aperture := 0, waiters := [1, 2], src := 3, cause := 1,
                         level := 1, entry := 0, restart := false }
     let s := { crewState 0 with xlt := { (crewState 0).xlt with gen := [(37, 5)] },
                                 reqs := [(1, { laneReq c0 0 .load 0 4 { lane := 0, addr := 0, data := 0, cmp := 0 } with id := 1 }),
                                         (2, { laneReq c0 0 .load 0 4 { lane := 0, addr := 0, data := 0, cmp := 0 } with
                                               id := 2, who := .bucker (.heavy 0 3) 0 })] }
     (s.requestWords 37 e).take 3) = [0x0003000201130A25, 0x0000000008004301, 0] := by decide +kernel

/-- Chapter 10's worked example: the page number of its virtual address. -/
theorem test_page : pageOf false 0x0000008602000000 = 0x4301 := by decide

/-- A die whose phase entry predicts the table's powers at OP0, OP5, OP6. -/
def feedDie (op5 op6 : Nat) (hint : Bool) : DieFb :=
  { entry := some 0, phase := [(0, { sig := 0, pw := [150, 200, 250, 300, 350, op5, op6, 2000], wr := [10, 20, 30, 40, 50, 60, 100, 100], obs := [], used := 0 })],
    hints := if hint then [{ stream := 0, t := 0, dur := 800, opmin := 6, pwr := 470, inForce := false, marked := true, raised := false }] else [] }

/-- The memory-bound die: OP3 is best. -/
def feedDie1 (hint : Bool) : DieFb :=
  { feedDie 0 0 hint with
    phase := [(0, { sig := 0, pw := [150, 200, 250, 290, 350, 400, 470, 2000], wr := [10, 20, 30, 100, 100, 100, 100, 100], obs := [], used := 0 })] }

/-- Table 16.10: the grants in whole watts, before the hint and with it. -/
theorem test_grants :
    grants 2500 655 10 0 [(0, feedDie 395 440 false, 7), (1, feedDie1 false, 7), (2, feedDie 395 440 false, 7), (3, feedDie 388 430 false, 7)]
      = [(0, 446), (1, 296), (2, 446), (3, 436)]
    ∧ grants 2500 655 10 0 [(0, feedDie 395 440 false, 7), (1, feedDie1 true, 7), (2, feedDie 395 440 false, 7), (3, feedDie 388 430 false, 7)]
      = [(1, 470), (0, 402), (2, 402), (3, 394)] := by decide +kernel

/-- Chapter 13's worked example: in a tree of 40 members with F = 4, the children of members 2 and 9. -/
theorem test_tree : kidsOf 4 40 2 = [9, 10, 11, 12] ∧ kidsOf 4 40 9 = [37, 38, 39] ∧ kidsOf 4 40 10 = [] := by decide

/-- CRC-32C of the ASCII digits 1 to 9, the check value of its published parameters. -/
theorem test_crc : crc32c [0x31, 0x32, 0x33, 0x34, 0x35, 0x36, 0x37, 0x38, 0x39] = 0xE3069283 := by decide +kernel

/-- The first bytes of SHAKE256 of nothing, from FIPS 202's test values. -/
theorem test_shake : shake 8 [] = [0x46, 0xB9, 0xDD, 0x2B, 0x0B, 0xA8, 0x8D, 0x13] := by decide +kernel

/-- Chapter 5: k0 = 2⁻¹¹ in FP32, and its square in BF16. -/
theorem test_fp : fFP32.decode 0x3A000000 = .fin false (2 ^ 23) (-34) ∧ (fBF16.arith (vmul (fFP32.decode 0x3A000000) (fFP32.decode 0x3A000000))).1 = 0x3480 := by
  decide +kernel

/-- R271, R272: a codeword is read as it was written, with POISON in M; one wrong symbol, of data or check, is corrected; two are found; M with a
bit of [7:1] set is uncorrectable. -/
theorem test_codeword :
    (let d : List Byte := (List.range 32).map (fun k => BitVec.ofNat 8 (7 * k + 1))
     let w := codeword d true
     let info := d.map (fun b => b.toNat) ++ [1]
     w.length = 36 ∧ readCode w = .sector info false ∧ readCode (w.set 5 0x5A) = .sector info true ∧ readCode (w.set 34 0) = .sector info true
     ∧ readCode ((w.set 5 0x5A).set 20 0) = .uncorrectable
     ∧ readCode (d.map (fun b => b.toNat) ++ [2] ++ rsCheck (d.map (fun b => b.toNat) ++ [2])) = .uncorrectable) := by decide +kernel

/-- No row of the table gives bits, so no word spells a command. -/
theorem test_decode_none : decodeTableWord 32 0 = none := by decide
/-- R215, R216: an uncorrectable sector of a clean L2 line drops the line, of a dirty line marks the sector; both count for the way. -/
theorem test_l2_errors :
    (let mk := fun (d : Bool) =>
       booted.setLineSlice 32 { booted.lineSlice 32 with lines := [(setOf 32 * 16 + 3, { addr := 32, line := Line.zero, dirty := d })] }
     let c := (mk false).l2Errs 32 [0, 2, 1]
     let d := (mk true).l2Errs 32 [0, 2, 1]
     (c.lineSlice 32).way 32 = none ∧ (c.lineSlice 32).ce = [(24 * 3, 2)] ∧ (d.sliceData 32).pmask = 2#4
     ∧ (((mk false).l2Errs 32 [0, 0, 1]).sliceData 32).pmask = 0) := by decide +kernel

/-- R277: four failures are retried and counted; a fifth loses the sector. -/
theorem test_link_crc :
    crcLost [4, 5, 0, 9] = 0b1010#4 ∧ (booted.linkRead 32 [4, 5]).chans.map (fun e => (e.2.crcr, e.2.ue)) = [(8, 1)] := by decide +kernel

end Sys2Proof.Tests
end

section
/-! SUPPORT. The vault (queue, fuses, safety registers) through every operation of the model: each operation leaves it as it was, but for
those that answer a cold reset, an image's end, a debug unlock or a seal. -/

namespace Sys2Proof.Machine

@[simp] theorem State.vault_mk pending plat fuses portH portB portN cfg cairn time tally log logSeq acts actNum routes imsic trapTail trapHead
    trapWait streams launches launchNum tiles heavy serial landing dram reqs reqNum ansNum slices msgs agents dead notices rejoin reclaimed beats
    host hostBusy hostQ snoopQ snoopIn hostOut xlt chans remap hbm tmax cols tokens held asks colSat links rdgRoute rdgWin plans holds chunkOut
    chunkRsp bcasts bcOut starts rdgIn rdgOut power fb cores dbgUnit jtag fresh :
    State.vault (State.mk pending plat fuses portH portB portN cfg cairn time tally log logSeq acts actNum routes imsic trapTail trapHead trapWait
    streams launches launchNum tiles heavy serial landing dram reqs reqNum ansNum slices msgs agents dead notices rejoin reclaimed beats host
    hostBusy hostQ snoopQ snoopIn hostOut xlt chans remap hbm tmax cols tokens held asks colSat links rdgRoute rdgWin plans holds chunkOut chunkRsp
    bcasts bcOut starts rdgIn rdgOut power fb cores dbgUnit jtag fresh) = { queue := pending, fuses := fuses, safety := cairn.safety } := rfl
/-- A fold of steps each of which keeps a view of what it carries keeps it. -/
theorem foldl_fixes {σ α β : Type} (F : σ → β) (f : σ → α → σ) (h : ∀ t x, F (f t x) = F t) (l : List α) (s : σ) :
    F (l.foldl f s) = F s := by
  induction l generalizing s with
  | nil => rfl
  | cons a r ih => rw [List.foldl_cons, ih, h]

@[simp] theorem State.vault_foldl {α : Type} (f : State → α → State) (h : ∀ t x, (f t x).vault = t.vault) (l : List α) (s : State) :
    (l.foldl f s).vault = s.vault := foldl_keeps State.vault f h l s
@[simp] theorem State.vault_ite (c : Prop) [Decidable c] (s t : State) : (if c then s else t).vault = if c then s.vault else t.vault :=
  apply_ite State.vault c s t
@[simp] theorem Cairn.safety_mk tjTrip hbmTrip powerCeil coolantAction supplyAction armed pending lc dbg dkey mism refc mismTimes restarting log
    report idErased challenge session keyslot fwVersion cfgSession waiting commitWait :
    Cairn.safety (Cairn.mk tjTrip hbmTrip powerCeil coolantAction supplyAction armed pending lc dbg dkey mism refc mismTimes restarting log report
    idErased challenge session keyslot fwVersion cfgSession waiting commitWait) =
      { tjTrip := tjTrip, hbmTrip := hbmTrip, ceil := powerCeil, cool := coolantAction, supply := supplyAction, armed := armed } := (rfl)
@[simp] theorem Cairn.safety_default (c : Cairn) :
    ({ tjTrip := c.tjTrip, hbmTrip := c.hbmTrip, ceil := c.powerCeil, cool := c.coolantAction, supply := c.supplyAction, armed := c.armed } : Sealed)
    = c.safety := (rfl)
@[simp] theorem State.vault_default (s : State) : ({ queue := s.pending, fuses := s.fuses, safety := s.cairn.safety } : Vault) = s.vault := (rfl)

/-- The vault of the state that an outcome of an operation carries; likewise for the outcome types below. -/
def EbOut.vault : EbOut → Vault | .reply _ _ s => s.vault | .hold s => s.vault
def WordsOut.vault : WordsOut → Vault | .ok _ s => s.vault | .fail _ _ s => s.vault | .wait s => s.vault
def BytesOut.vault : BytesOut → Vault | .ok _ _ _ s => s.vault | .fail _ _ s => s.vault | .wait s => s.vault
def XOut.vault : XOut → Vault | .hit _ s => s.vault | .fail s => s.vault | .wait s => s.vault
def SpanOut.vault : SpanOut → Vault | .ok _ _ s => s.vault | .fail _ _ s => s.vault | .wait s => s.vault
def RecOut.vault : RecOut → Vault | .done _ s => s.vault | .fail _ s => s.vault | .wait s => s.vault
def FetchOut.vault : FetchOut → Vault | .ok s => s.vault | .fail s => s.vault | .wait s => s.vault
def UnitOut.vault : UnitOut → Vault | .done _ s => s.vault | .wait s => s.vault
def ChunkOut.vault : ChunkOut → Vault | .taken s => s.vault | .held s => s.vault
def ApOut.vault : ApOut → Vault | .hits _ s => s.vault | .fault _ _ s => s.vault
def Gate.vault : Gate → Vault | .go s => s.vault | .answer _ s => s.vault | .refused s => s.vault
@[simp] theorem EbOut.vault_reply {st res} (s : State) : (EbOut.reply st res s).vault = s.vault := (rfl)
@[simp] theorem EbOut.vault_hold (s : State) : (EbOut.hold s).vault = s.vault := (rfl)
@[simp] theorem WordsOut.vault_ok {l} (s : State) : (WordsOut.ok l s).vault = s.vault := (rfl)
@[simp] theorem WordsOut.vault_fail {w a} (s : State) : (WordsOut.fail w a s).vault = s.vault := (rfl)
@[simp] theorem WordsOut.vault_wait (s : State) : (WordsOut.wait s).vault = s.vault := (rfl)
@[simp] theorem BytesOut.vault_ok {l p xs} (s : State) : (BytesOut.ok l p xs s).vault = s.vault := (rfl)
@[simp] theorem BytesOut.vault_fail {c a} (s : State) : (BytesOut.fail c a s).vault = s.vault := (rfl)
@[simp] theorem BytesOut.vault_wait (s : State) : (BytesOut.wait s).vault = s.vault := (rfl)
@[simp] theorem XOut.vault_hit {pa} (s : State) : (XOut.hit pa s).vault = s.vault := (rfl)
@[simp] theorem XOut.vault_fail (s : State) : (XOut.fail s).vault = s.vault := (rfl)
@[simp] theorem XOut.vault_wait (s : State) : (XOut.wait s).vault = s.vault := (rfl)
@[simp] theorem SpanOut.vault_ok {v p} (s : State) : (SpanOut.ok v p s).vault = s.vault := (rfl)
@[simp] theorem SpanOut.vault_fail {c a} (s : State) : (SpanOut.fail c a s).vault = s.vault := (rfl)
@[simp] theorem SpanOut.vault_wait (s : State) : (SpanOut.wait s).vault = s.vault := (rfl)
@[simp] theorem RecOut.vault_done {old} (s : State) : (RecOut.done old s).vault = s.vault := (rfl)
@[simp] theorem RecOut.vault_fail {c} (s : State) : (RecOut.fail c s).vault = s.vault := (rfl)
@[simp] theorem RecOut.vault_wait (s : State) : (RecOut.wait s).vault = s.vault := (rfl)
@[simp] theorem FetchOut.vault_ok (s : State) : (FetchOut.ok s).vault = s.vault := (rfl)
@[simp] theorem FetchOut.vault_fail (s : State) : (FetchOut.fail s).vault = s.vault := (rfl)
@[simp] theorem FetchOut.vault_wait (s : State) : (FetchOut.wait s).vault = s.vault := (rfl)
@[simp] theorem UnitOut.vault_done {l} (s : State) : (UnitOut.done l s).vault = s.vault := (rfl)
@[simp] theorem UnitOut.vault_wait (s : State) : (UnitOut.wait s).vault = s.vault := (rfl)
@[simp] theorem ChunkOut.vault_taken (s : State) : (ChunkOut.taken s).vault = s.vault := (rfl)
@[simp] theorem ChunkOut.vault_held (s : State) : (ChunkOut.held s).vault = s.vault := (rfl)
@[simp] theorem ApOut.vault_hits {l} (s : State) : (ApOut.hits l s).vault = s.vault := (rfl)
@[simp] theorem ApOut.vault_fault {va c} (s : State) : (ApOut.fault va c s).vault = s.vault := (rfl)
@[simp] theorem Gate.vault_go (s : State) : (Gate.go s).vault = s.vault := (rfl)
@[simp] theorem Gate.vault_answer {r} (s : State) : (Gate.answer r s).vault = s.vault := (rfl)
@[simp] theorem Gate.vault_refused (s : State) : (Gate.refused s).vault = s.vault := (rfl)
@[simp] theorem Gate.state_vault (g : Gate) : g.state.vault = g.vault := by cases g <;> rfl
@[simp] theorem State.vault_queue (s : State) : s.vault.queue = s.pending := (rfl)
@[simp] theorem State.vault_fuses (s : State) : s.vault.fuses = s.fuses := (rfl)
@[simp] theorem State.vault_safety (s : State) : s.vault.safety = s.cairn.safety := (rfl)

/-! ### Operations of Machine/Ops.lean -/

@[simp] theorem State.drawn_vault (s : State) : s.drawn.vault = s.vault := (rfl)

@[simp] theorem State.count_vault (s : State) (k n : Nat) : (s.count k n).vault = s.vault := by
  simp [State.count]

@[simp] theorem State.countReal_vault (s : State) (c u : Nat) : (s.countReal c u).vault = s.vault := by
  simp [State.countReal]

@[simp] theorem State.level_vault (s : State) (k : Nat) (v : Int) : (s.level k v).vault = s.vault := (rfl)

@[simp] theorem State.imsicSet_vault (s : State) (core file id : Nat) : (s.imsicSet core file id).vault = s.vault := by
  simp [State.imsicSet]

@[simp] theorem State.sendRoute_vault (s : State) (e : W64) : (s.sendRoute e).vault = s.vault := by
  simp [State.sendRoute]

@[simp] theorem State.raise_vault (s : State) (src : Nat) : (s.raise src).vault = s.vault := by
  simp [State.raise]

@[simp] theorem State.logEv_vault (s : State) (code die sev : Nat) (data : List Nat) : (s.logEv code die sev data).vault = s.vault := by
  simp [State.logEv]

@[simp] theorem Cairn.measure_safety (c : Cairn) (now typ arg : Nat) (value : List Byte) : (c.measure now typ arg value).safety = c.safety := by
  unfold Cairn.measure
  dsimp only
  split <;> rfl

@[simp] theorem State.measure_safety (s : State) (typ arg : Nat) (value : List Byte) :
    (s.measure typ arg value).cairn.safety = s.cairn.safety := s.cairn.measure_safety _ _ _ _

@[simp] theorem State.measure_vault (s : State) (typ arg : Nat) (value : List Byte) : (s.measure typ arg value).vault = s.vault := by
  simp [State.measure]

@[simp] theorem State.setPort_vault (s : State) (p : Port) (v : PortSt) : (s.setPort p v).vault = s.vault := by
  unfold State.setPort
  split <;> simp

@[simp] theorem State.finish_vault (s : State) (p : Port) (status : Nat) (results : List Byte) : (s.finish p status results).vault = s.vault := by
  unfold State.finish
  split <;> simp

@[simp] theorem State.setStream_vault (s : State) (n : Nat) (v : Stream) : (s.setStream n v).vault = s.vault := (rfl)
@[simp] theorem State.setTile_vault (s : State) (die t : Nat) (v : Tile) : (s.setTile die t v).vault = s.vault := (rfl)
@[simp] theorem State.setDie_vault (s : State) (n : Nat) (v : DieFb) : (s.setDie n v).vault = s.vault := (rfl)
@[simp] theorem State.setLink_vault (s : State) (l : Nat) (v : Link) : (s.setLink l v).vault = s.vault := (rfl)
@[simp] theorem State.setChan_vault (s : State) (die k : Nat) (v : Chan) : (s.setChan die k v).vault = s.vault := (rfl)
@[simp] theorem State.setSlice_vault (s : State) (die k : Nat) (v : Slice) : (s.setSlice die k v).vault = s.vault := (rfl)
@[simp] theorem State.window_vault (s : State) (row obj n : Nat) : (s.window row obj n).vault = s.vault := (rfl)

/-! ### Operations of Machine/PowerOps.lean -/

@[simp] theorem State.setOp_vault (s : State) (n k : Nat) : (s.setOp n k).vault = s.vault := by
  simp [State.setOp]

@[simp] theorem State.moveClock_vault (s : State) (n : Nat) : (s.moveClock n).vault = s.vault := by
  simp [State.moveClock]

@[simp] theorem State.unmetHints_vault (s : State) (n : Nat) : (s.unmetHints n).vault = s.vault := by
  simp [State.unmetHints]

@[simp] theorem State.decideOp_vault (s : State) (n : Nat) : (s.decideOp n).vault = s.vault := by
  simp [State.decideOp]

@[simp] theorem State.decideAll_vault (s : State) : s.decideAll.vault = s.vault := by
  simp [State.decideAll]

@[simp] theorem State.ceilingFell_vault (s : State) (n old : Nat) : (s.ceilingFell n old).vault = s.vault := by
  simp [State.ceilingFell]

@[simp] theorem State.limitReplies_vault (s : State) : s.limitReplies.vault = s.vault := by
  simp [State.limitReplies]

@[simp] theorem State.halt_vault (s : State) (cause : Nat) : (s.halt cause).vault = s.vault := by
  simp [State.halt]

@[simp] theorem State.dropHints_vault (s : State) (n : Nat) : (s.dropHints n).vault = s.vault := (rfl)

/-! ### Operations of Machine/Xlate.lean -/

@[simp] theorem State.look_vault (s : State) (pair : Option Nat) (space va need : Nat) : (s.look pair space va need).2.vault = s.vault := by
  simp [State.look]

@[simp] theorem State.invalNow_vault (s : State) (i : Nat × Nat × Nat) : (s.invalNow i).vault = s.vault := (rfl)

@[simp] theorem State.invalAccept_vault (s : State) (i : Nat × Nat × Nat) : (s.invalAccept i).vault = s.vault := by
  simp [State.invalAccept]

@[simp] theorem State.invalRetire_vault (s : State) : s.invalRetire.vault = s.vault := by
  unfold State.invalRetire
  dsimp only
  split <;> simp

/-! ### Operations of Machine/Admit.lean -/

@[simp] theorem State.setIssued_vault (s : State) (l : Level) (n : Nat) : (s.setIssued l n).vault = s.vault := (rfl)
@[simp] theorem State.setHeld_vault (s : State) (q : Source) (l : Level) (ts : List Nat) : (s.setHeld q l ts).vault = s.vault := (rfl)
@[simp] theorem State.addHeld_vault (s : State) (q : Source) (l : Level) (n : Nat) : (s.addHeld q l n).vault = s.vault := (rfl)
@[simp] theorem State.useHeld_vault (s : State) (q : Source) (l : Level) (n : Nat) : (s.useHeld q l n).vault = s.vault := (rfl)

@[simp] theorem State.ask_vault (s : State) (q : Source) (l : Level) : (s.ask q l).vault = s.vault := by
  simp [State.ask]

@[simp] theorem State.giveBack_vault (s : State) (l : Level) : (s.giveBack l).vault = s.vault := (rfl)

@[simp] theorem State.countRefusal_vault (s : State) (l : Level) : (s.countRefusal l).vault = s.vault := by
  unfold State.countRefusal
  split <;> simp

@[simp] theorem State.setReq_vault (s : State) (r : Req) : (s.setReq r).vault = s.vault := (rfl)
@[simp] theorem State.answered_vault (s : State) (r : Req) (res : AccResult) : (s.answered r res).vault = s.vault := (rfl)

@[simp] theorem State.dropReq_vault (s : State) (id : Nat) : (s.dropReq id).vault = s.vault := by
  unfold State.dropReq
  split <;> simp

@[simp] theorem State.refuse_vault (s : State) (r : Req) (l : Level) : (s.refuse r l).vault = s.vault := by
  simp [State.refuse]

@[simp] theorem State.takeTokens_vault (s : State) (q : Source) (ls : List Level) : (s.takeTokens q ls).vault = s.vault := by
  simp [State.takeTokens]

@[simp] theorem State.enter_vault (s : State) (q : Source) (ls : List Level) : (s.enter q ls).2.vault = s.vault := by
  unfold State.enter
  split <;> simp

@[simp] theorem State.ridgeSend_vault (s : State) (l : Nat) (m : RMsg) : (s.ridgeSend l m).vault = s.vault := (rfl)

@[simp] theorem State.respond_vault (s : State) (src req line : Nat) (a : RAns) : (s.respond src req line a).vault = s.vault := by
  unfold State.respond
  split <;> simp

@[simp] theorem State.countDecode_vault (s : State) (q : Source) (res : AccResult) : (s.countDecode q res).vault = s.vault := by
  unfold State.countDecode
  split <;> simp

@[simp] theorem State.gateBy_vault (s : State) (q : Source) (rt : Route) : (s.gateBy q rt).vault = s.vault := by
  unfold State.gateBy
  dsimp only
  repeat' split
  all_goals simp

@[simp] theorem State.gateIf_vault (s : State) (ask : Bool) (q : Source) (rt : Route) : (s.gateIf ask q rt).vault = s.vault := by
  unfold State.gateIf
  split
  · exact State.gateBy_vault s q rt
  · split <;> rfl

@[simp] theorem State.gate_vault (s : State) (q : Source) (pa : Nat) : (s.gate q pa).vault = s.vault := s.gateBy_vault q _

@[simp] theorem State.tryAdmit_vault (s : State) (id : Nat) : (s.tryAdmit id).vault = s.vault := by
  unfold State.tryAdmit
  dsimp only
  repeat' split
  all_goals simp

@[simp] theorem State.newReq_vault (s : State) (r : Req) : (s.newReq r).1.vault = s.vault := (rfl)

@[simp] theorem State.reply_vault (s : State) (id : Nat) (res : AccResult) : (s.reply id res).vault = s.vault := by
  unfold State.reply
  split <;> simp

/-! ### Operations of Machine/Homes.lean -/

@[simp] theorem State.setLineSlice_vault (s : State) (line : Nat) (v : Slice) : (s.setLineSlice line v).vault = s.vault := (rfl)

@[simp] theorem State.countCe_vault (s : State) (p : Place) : (s.countCe p).vault = s.vault := by
  simp [State.countCe]

@[simp] theorem State.countUe_vault (s : State) (p : Place) : (s.countUe p).vault = s.vault := by
  simp [State.countUe]

@[simp] theorem State.countRead_vault (s : State) (line : Nat) : (s.countRead line).vault = s.vault := by
  simp [State.countRead]

@[simp] theorem State.countCrc_vault (s : State) (p : Place) (n : Nat) : (s.countCrc p n).vault = s.vault := by
  simp [State.countCrc]

@[simp] theorem State.linkRead_vault (s : State) (line : Nat) (crc : List Nat) : (s.linkRead line crc).vault = s.vault := by
  simp [State.linkRead]

@[simp] theorem State.linkWrite_vault (s : State) (line : Nat) (crc : List Nat) : (s.linkWrite line crc).vault = s.vault := by
  simp [State.linkWrite]

@[simp] theorem State.putMem_vault (s : State) (line : Nat) (l : Line) : (s.putMem line l).vault = s.vault := by
  simp [State.putMem]

@[simp] theorem State.setBusyOf_vault (s : State) (line : Nat) (b : List Busy) : (s.setBusyOf line b).vault = s.vault := by
  simp [State.setBusyOf]

@[simp] theorem State.setWaitOf_vault (s : State) (line : Nat) (q : List Waiting) : (s.setWaitOf line q).vault = s.vault := by
  simp [State.setWaitOf]

@[simp] theorem State.setBusyRec_vault (s : State) (line : Nat) (b : Option Busy) : (s.setBusyRec line b).vault = s.vault := by
  simp [State.setBusyRec]

@[simp] theorem State.setDir_vault (s : State) (line : Nat) (owner : Option Nat) (pres : List Nat) : (s.setDir line owner pres).vault = s.vault := by
  unfold State.setDir
  dsimp only
  repeat' split
  all_goals simp

@[simp] theorem State.send_vault (s : State) (m : CMsg) : (s.send m).vault = s.vault := by
  unfold State.send
  dsimp only
  repeat' split
  all_goals simp

@[simp] theorem State.snoopAll_vault (s : State) (op : MsgOp) (line rq : Nat) (dsts : List Nat) (tag : Nat) :
    (s.snoopAll op line rq dsts tag).vault = s.vault := by
  simp [State.snoopAll]

/-! ### Operations of Machine/HomeActs.lean -/

@[simp] theorem State.performed_vault (s : State) (r : Req) (res : AccResult) (discarded : Nat) : (s.performed r res discarded).vault = s.vault := by
  simp [State.performed]

/-- The state in which an access has its token of a memory controller. -/
theorem State.toMemory_vault {s t : State} {r q : Req} (h : s.toMemory r = .ok (t, q)) : t.vault = s.vault := by
  unfold State.toMemory at h
  dsimp only at h
  split at h
  · cases h
  · obtain ⟨rfl, -⟩ : s.useHeld _ _ = t ∧ _ = q := by simpa using h
    simp

@[simp] theorem State.allocFill_vault (s : State) (r : Req) (behind : Bool) : (s.allocFill r behind).vault = s.vault := by
  unfold State.allocFill
  dsimp only
  split
  · simp
  · next h => split <;> simp [State.toMemory_vault h]

@[simp] theorem State.onMemory_vault (s : State) (r : Req) : (s.onMemory r).vault = s.vault := by
  unfold State.onMemory
  dsimp only
  split
  · simp
  · next h => split <;> simp [State.toMemory_vault h]

@[simp] theorem State.drainWays_vault (s : State) (die k : Nat) : (s.drainWays die k).vault = s.vault := by
  simp [State.drainWays]

@[simp] theorem State.disableWay_vault (s : State) (die k way : Nat) : (s.disableWay die k way).vault = s.vault := by
  simp [State.disableWay]

@[simp] theorem State.wayLimit_vault (s : State) (die k way : Nat) : (s.wayLimit die k way).vault = s.vault := by
  simp [State.wayLimit]

@[simp] theorem State.l2Errs_vault (s : State) (line : Nat) (l2 : List Nat) : (s.l2Errs line l2).vault = s.vault := by
  unfold State.l2Errs
  dsimp only
  split <;> simp

@[simp] theorem State.waitAt_vault (s : State) (line : Nat) (r : Req) : (s.waitAt line r).vault = s.vault := by
  simp [State.waitAt]

@[simp] theorem State.flushMem_vault (s : State) (line : Nat) (d : Line) : (s.flushMem line d).vault = s.vault := by
  simp [State.flushMem]

@[simp] theorem State.flushSlice_vault (s : State) (r : Req) : (s.flushSlice r).vault = s.vault := by
  unfold State.flushSlice
  dsimp only
  split
  · simp
  split
  · split
    · split
      · simp
      · next h => simp [State.toMemory_vault h]
    · simp
  · simp

@[simp] theorem State.performSlice_vault (s0 : State) (r0 : Req) : (s0.performSlice r0).vault = s0.vault := by
  unfold State.performSlice
  dsimp only
  repeat' split
  all_goals simp

@[simp] theorem State.toHost_vault (s : State) (m : HostMsg) : (s.toHost m).vault = s.vault := (rfl)
@[simp] theorem State.d2hSend_vault (s : State) (line i op : Nat) (ids : List Nat) : (s.d2hSend line i op ids).vault = s.vault := (rfl)

@[simp] theorem State.askHost_vault (s : State) (line id : Nat) (w0 w1 : Option Nat) : (s.askHost line id w0 w1).vault = s.vault := by
  refine foldl_keeps State.vault _ (fun t i => ?_) _ s
  split
  · split
    · rfl
    · split
      · simp
      · split <;> rfl
  · rfl

@[simp] theorem State.flushHost_vault (s : State) (line : Nat) : (s.flushHost line).vault = s.vault := by
  refine foldl_keeps State.vault _ (fun t i => ?_) _ s
  split
  · split <;> simp
  · rfl

@[simp] theorem State.performHost_vault (s : State) (r : Req) : (s.performHost r).vault = s.vault := by
  unfold State.performHost
  dsimp only
  split <;> simp

@[simp] theorem State.perform_vault (s : State) (r : Req) : (s.perform r).vault = s.vault := by
  simp [State.perform]

@[simp] theorem State.uncachedAct_vault (s : State) (r : Req) : (s.uncachedAct r).vault = s.vault := by
  unfold State.uncachedAct
  dsimp only
  repeat' split
  all_goals simp

@[simp] theorem State.startRecall_vault (s : State) (line : Nat) (w : Waiting) : (s.startRecall line w).vault = s.vault := by
  unfold State.startRecall
  dsimp only
  repeat' split
  all_goals simp

@[simp] theorem State.sendData_vault (s : State) (op : MsgOp) (m : CMsg) : (s.sendData op m).vault = s.vault := by
  simp [State.sendData]

@[simp] theorem State.sendCmp_vault (s : State) (m : CMsg) (dsrc : Nat) (invs : List Nat) (fwd : Option Nat) :
    (s.sendCmp m dsrc invs fwd).vault = s.vault := by
  simp [State.sendCmp]

@[simp] theorem State.readAct_vault (s : State) (m : CMsg) (shared : Bool) : (s.readAct m shared).vault = s.vault := by
  unfold State.readAct
  split <;> simp

@[simp] theorem State.ownAct_vault (s : State) (m : CMsg) : (s.ownAct m).vault = s.vault := by
  unfold State.ownAct
  split <;> simp

@[simp] theorem State.upgAct_vault (s : State) (m : CMsg) : (s.upgAct m).vault = s.vault := by
  unfold State.upgAct
  split <;> simp

@[simp] theorem State.sendVcmp_vault (s : State) (m : CMsg) (stale : Bool) : (s.sendVcmp m stale).vault = s.vault := by
  simp [State.sendVcmp]

@[simp] theorem State.bounce_vault (s : State) (m : CMsg) : (s.bounce m).vault = s.vault := by
  simp [State.bounce]

/-- A victim that its home takes. -/
theorem State.sliceVictim_vault {s t : State} {line : Nat} {l : Line} (h : s.sliceVictim line l = some t) : t.vault = s.vault := by
  unfold State.sliceVictim at h
  dsimp only at h
  split at h
  · split at h
    · simp only [Option.bind_eq_some_iff, Option.map_eq_some_iff] at h
      obtain ⟨_, -, _, -, rfl⟩ := h
      simp
    · cases h
      simp
  · split at h
    · cases h
      simp
    · simp only [Option.bind_eq_some_iff, Option.map_eq_some_iff] at h
      obtain ⟨_, -, _, -, rfl⟩ := h
      simp

theorem State.homeVictim_vault {s t : State} {line : Nat} {l : Line} (h : s.homeVictim line l = some t) : t.vault = s.vault := by
  unfold State.homeVictim at h
  split at h
  · cases h
    rfl
  · exact State.sliceVictim_vault h

@[simp] theorem State.vicdAct_vault (s : State) (m : CMsg) : (s.vicdAct m).vault = s.vault := by
  unfold State.vicdAct
  split
  · split
    · split
      · next h => simp [State.homeVictim_vault h]
      · simp
    · simp
  · simp

@[simp] theorem State.offerClean_vault (s : State) (line : Nat) (l : Line) : (s.offerClean line l).vault = s.vault := by
  unfold State.offerClean
  dsimp only
  repeat' split
  all_goals simp

@[simp] theorem State.viccAct_vault (s : State) (m : CMsg) : (s.viccAct m).vault = s.vault := by
  unfold State.viccAct
  split <;> simp

@[simp] theorem State.coherentAct_vault (s0 : State) (m0 : CMsg) : (s0.coherentAct m0).vault = s0.vault := by
  unfold State.coherentAct
  dsimp only
  repeat' split
  all_goals simp

@[simp] theorem State.dropEmpty_vault (s : State) (line : Nat) : (s.dropEmpty line).vault = s.vault := by
  unfold State.dropEmpty
  split <;> simp

@[simp] theorem State.snoopAnswer_vault (s : State) (op half : Nat) : (s.snoopAnswer op half).vault = s.vault := by
  unfold State.snoopAnswer
  dsimp only
  split
  · split <;> simp
  · split
    · rw [State.dropEmpty_vault]
      refine foldl_keeps State.vault _ (fun t k => ?_) _ s
      split <;> simp
    · simp

@[simp] theorem State.snoopAct_vault (s : State) (op half : Nat) : (s.snoopAct op half).vault = s.vault := by
  unfold State.snoopAct
  dsimp only
  repeat' split
  all_goals simp

@[simp] theorem State.snoopsRun_vault (k : Nat) (s : State) : (State.snoopsRun k s).vault = s.vault := by
  induction k generalizing s with
  | zero => rfl
  | succ k ih =>
    unfold State.snoopsRun
    split
    · rfl
    · split
      · dsimp only
        split <;> simp [ih]
      · rfl

@[simp] theorem State.goSnoops_vault (s : State) : s.goSnoops.vault = s.vault := State.snoopsRun_vault _ s

@[simp] theorem State.homeAct_vault (s : State) (w : Waiting) : (s.homeAct w).vault = s.vault := by
  unfold State.homeAct
  repeat' split
  all_goals simp

@[simp] theorem State.enqueue_vault (s : State) (line : Nat) (w : Waiting) : (s.enqueue line w).vault = s.vault := by
  unfold State.enqueue
  repeat' split
  all_goals simp

@[simp] theorem State.homeTry_vault (s : State) (line : Nat) (w : Waiting) : (s.homeTry line w).vault = s.vault := by
  unfold State.homeTry
  repeat' split
  all_goals simp

@[simp] theorem State.homeStep_vault (s : State) (w : Waiting) : (s.homeStep w).vault = s.vault := by
  unfold State.homeStep
  dsimp only
  repeat' split
  all_goals simp

@[simp] theorem State.drainHome_vault (s : State) (line : Nat) : (s.drainHome line).vault = s.vault := by
  simp [State.drainHome]

@[simp] theorem State.drainHost_vault (s : State) (line : Nat) : (s.drainHost line).vault = s.vault := by
  unfold State.drainHost
  split <;> simp

@[simp] theorem State.busyDone_vault (s : State) (line : Nat) : (s.busyDone line).vault = s.vault := by
  unfold State.busyDone
  dsimp only
  repeat' split
  all_goals simp

@[simp] theorem State.homeAck_vault (s : State) (line a : Nat) : (s.homeAck line a).vault = s.vault := by
  unfold State.homeAck
  split <;> simp

@[simp] theorem State.flushData_vault (s : State) (r : Req) (l : Line) : (s.flushData r l).vault = s.vault := by
  unfold State.flushData
  dsimp only
  repeat' split
  all_goals simp

/-! ### Operations of Machine/CrewOps.lean -/

@[simp] theorem State.setCrew_vault (s : State) (c : CrewId) (v : Crew) : (s.setCrew c v).vault = s.vault := (rfl)

@[simp] theorem State.onCrew_vault (s : State) (c : CrewId) (f : Crew → Crew) : (s.onCrew c f).vault = s.vault := by
  unfold State.onCrew
  split <;> simp

@[simp] theorem State.parkCrew_vault (s : State) (c : CrewId) (t : Trap) : (s.parkCrew c t).vault = s.vault := by
  unfold State.parkCrew
  split <;> simp

@[simp] theorem State.noInstall_vault (s : State) (die tile : Nat) (p : Req → Bool) : (s.noInstall die tile p).vault = s.vault := (rfl)
@[simp] theorem State.flushL1_vault (s : State) (die tile : Nat) : (s.flushL1 die tile).vault = s.vault := (rfl)

@[simp] theorem State.l1Write_vault (s : State) (r : Req) : (s.l1Write r).vault = s.vault := by
  unfold State.l1Write
  dsimp only
  repeat' split
  all_goals simp

@[simp] theorem State.l1Lost_vault (s : State) (die tile key : Nat) : (s.l1Lost die tile key).vault = s.vault := by
  simp [State.l1Lost]

@[simp] theorem State.proceed_vault (s : State) (id : Nat) : (s.proceed id).vault = s.vault := by
  unfold State.proceed
  dsimp only
  repeat' split
  all_goals simp

@[simp] theorem State.startReq_vault (s : State) (r : Req) : (s.startReq r).1.vault = s.vault := by
  unfold State.startReq
  dsimp only
  split <;> simp

@[simp] theorem State.tryFence_vault (s : State) (c : CrewId) : (s.tryFence c).vault = s.vault := by
  unfold State.tryFence
  split <;> simp

@[simp] theorem State.raiseGroup_vault (s : State) (c : CrewId) : (s.raiseGroup c).vault = s.vault := by
  unfold State.raiseGroup
  dsimp only
  repeat' split
  all_goals simp

@[simp] theorem State.deliverLane_vault (s : State) (c : CrewId) (lane grp : Nat) (r : Req) (res : AccResult) :
    (s.deliverLane c lane grp r res).vault = s.vault := by
  unfold State.deliverLane
  dsimp only
  split <;> simp

@[simp] theorem State.tryBar_vault (s : State) (c : CrewId) (stand n : Nat) : (s.tryBar c stand n).vault = s.vault := by
  simp [State.tryBar]

@[simp] theorem State.tryBars_vault (s : State) (c : CrewId) (stand : Nat) : (s.tryBars c stand).vault = s.vault :=
  foldl_keeps State.vault _ (fun t n => t.tryBar_vault c stand n) _ s

@[simp] theorem State.accstStep_vault (s : State) (die tile : Nat) : (s.accstStep die tile).vault = s.vault := by
  unfold State.accstStep
  dsimp only
  split <;> simp

@[simp] theorem State.readLs_vault (s0 : State) (die tile a n : Nat) : (s0.readLs die tile a n).2.2.vault = s0.vault := by
  simp [State.readLs]

@[simp] theorem State.readLand_vault (s : State) (die a n : Nat) : (s.readLand die a n).2.2.vault = s.vault := by
  simp [State.readLand]

@[simp] theorem State.putLsAt_vault (s : State) (die tile a : Nat) (l : List Byte) : (s.putLsAt die tile a l).vault = s.vault := (rfl)

@[simp] theorem State.writeLs_vault (s : State) (die tile a : Nat) (l : List Byte) : (s.writeLs die tile a l).vault = s.vault := by
  simp [State.writeLs]

/-! ### Operations of Machine/Agents.lean -/

@[simp] theorem State.setAline_vault (s : State) (a line : Nat) (l : ALine) : (s.setAline a line l).vault = s.vault := (rfl)
@[simp] theorem State.toSt_vault (s : State) (a line : Nat) (st : ASt) : (s.toSt a line st).vault = s.vault := (rfl)

@[simp] theorem State.agentData_vault (s : State) (op : MsgOp) (m : CMsg) (a dst : Nat) : (s.agentData op m a dst).vault = s.vault := by
  simp [State.agentData]

@[simp] theorem State.loseResv_vault (s : State) (a line : Nat) : (s.loseResv a line).vault = s.vault := by
  simp [State.loseResv]

@[simp] theorem State.fwdDone_vault (s : State) (m : CMsg) (a : Nat) : (s.fwdDone m a).vault = s.vault := by
  simp [State.fwdDone]

@[simp] theorem State.endWatch_vault (s : State) (line : Nat) : (s.endWatch line).vault = s.vault := (rfl)

@[simp] theorem State.protocolError_vault (s : State) (a : Nat) (m : CMsg) : (s.protocolError a m).vault = s.vault := by
  simp [State.protocolError]

@[simp] theorem State.queueFwd_vault (s : State) (a : Nat) (m : CMsg) : (s.queueFwd a m).vault = s.vault := by
  simp [State.queueFwd]

@[simp] theorem State.agentSnoop_vault (s : State) (a : Nat) (m : CMsg) : (s.agentSnoop a m).vault = s.vault := by
  unfold State.agentSnoop
  dsimp only
  repeat' split
  all_goals simp

@[simp] theorem State.coreValue_vault (s : State) (core : Nat) (v : W64) : (s.coreValue core v).vault = s.vault := (rfl)

@[simp] theorem State.corePut_vault (s : State) (core : Nat) (off : Option Nat) (n : Nat) (v : W64) : (s.corePut core off n v).vault = s.vault := by
  unfold State.corePut
  split <;> simp

@[simp] theorem State.storeResv_vault (s : State) (a line core : Nat) (own : Bool) : (s.storeResv a line core own).vault = s.vault := (rfl)

@[simp] theorem State.coreOn_vault (s : State) (a line core : Nat) (off : Option Nat) (x : NodeAccess) :
    (s.coreOn a line core off x).vault = s.vault := by
  unfold State.coreOn
  split <;> simp

@[simp] theorem State.serveQueue_vault (s : State) (a line : Nat) : (s.serveQueue a line).vault = s.vault := by
  simp [State.serveQueue]

@[simp] theorem State.tryFinish_vault (s : State) (a line : Nat) : (s.tryFinish a line).vault = s.vault := by
  unfold State.tryFinish
  dsimp only
  repeat' split
  all_goals simp

@[simp] theorem State.agentRecv_vault (s : State) (a : Nat) (m : CMsg) : (s.agentRecv a m).vault = s.vault := by
  unfold State.agentRecv
  dsimp only
  repeat' split
  all_goals simp

@[simp] theorem State.sendReq_vault (s : State) (a line : Nat) (op : MsgOp) (st : ASt) (acc : Option (Nat × Option Nat × NodeAccess)) :
    (s.sendReq a line op st acc).vault = s.vault := by
  simp [State.sendReq]

@[simp] theorem State.agentReq_vault (s : State) (a line : Nat) (op : MsgOp) (st : ASt) (acc : Option (Nat × Option Nat × NodeAccess)) :
    (s.agentReq a line op st acc).vault = s.vault := by
  unfold State.agentReq
  generalize (if a % 16 = 8 then 64 else 48) = room
  dsimp only
  split
  · rfl
  · split
    · next h => simpa using (congrArg Gate.vault h).symm
    · simp

@[simp] theorem State.setWatch_vault (s : State) (n line : Nat) : (s.setWatch n line).vault = s.vault := by
  unfold State.setWatch
  dsimp only
  split
  · rw [Gate.state_vault, State.agentReq_vault, State.setStream_vault]
  · simp

/-- A stream whose watch must be asked for first. -/
theorem State.watchOpen_vault {s t : State} {n : Nat} (h : s.watchOpen n = some t) : t.vault = s.vault := by
  unfold State.watchOpen at h
  split at h
  · cases h
  · split at h
    · cases h
    · cases h
      simp
    · cases h
      rfl

@[simp] theorem State.dropWatch_vault (s : State) (n : Nat) : (s.dropWatch n).vault = s.vault := by
  unfold State.dropWatch
  split
  · rfl
  dsimp only
  split
  · simp
  · split
    · rw [Gate.state_vault, State.agentReq_vault, State.setStream_vault]
    · simp

@[simp] theorem State.loseLine_vault (s : State) (a line : Nat) : (s.loseLine a line).vault = s.vault := by
  unfold State.loseLine
  repeat' split
  all_goals simp

@[simp] theorem State.unreached_vault (s : State) (a line : Nat) : (s.unreached a line).vault = s.vault := by
  simp [State.unreached]

/-! ### Operations of Machine/UnitXlate.lean -/

@[simp] theorem State.unitStart_vault (s : State) (x : Req) : (s.unitStart x).vault = s.vault := by
  simp [State.unitStart]

@[simp] theorem State.unitAll_vault (s : State) (xs : List Req) : (s.unitAll xs).vault = s.vault := by
  unfold State.unitAll
  dsimp only
  split <;> simp

@[simp] theorem State.unitEnd_vault (s : State) (xs : List Req) : (s.unitEnd xs).vault = s.vault := by
  refine foldl_keeps State.vault _ (fun t x => ?_) xs s
  split <;> simp

@[simp] theorem State.withdrawn_vault (t : State) (id : Nat) : (t.withdrawn id).vault = t.vault := (rfl)

@[simp] theorem State.unitQuit_vault (s : State) (p : Who → Bool) : (s.unitQuit p).vault = s.vault := by
  refine foldl_keeps State.vault _ (fun t e => ?_) s.reqs s
  split
  · split
    · rfl
    · split <;> simp
  · rfl

@[simp] theorem State.unitRead_vault (s : State) (who : Who) (kind : AccKind) (space va n : Nat) :
    (s.unitRead who kind space va n).vault = s.vault := by
  unfold State.unitRead
  dsimp only
  split
  · next h => simpa using (congrArg UnitOut.vault h).symm
  · next h => split <;> simpa using (congrArg UnitOut.vault h).symm

@[simp] theorem State.unitWrites_vault (s : State) (xs : List Req) : (s.unitWrites xs).vault = s.vault := by
  unfold State.unitWrites
  split
  · next h => simpa using (congrArg UnitOut.vault h).symm
  · next h => split <;> simpa using (congrArg UnitOut.vault h).symm

@[simp] theorem State.ringWrite_vault (s : State) (q : Source) (n pa : Nat) (l : List Byte) : (s.ringWrite q n pa l).2.vault = s.vault := by
  unfold State.ringWrite
  split <;> next h => simpa using (congrArg BytesOut.vault h).symm

@[simp] theorem State.unitXlat_vault (s : State) (who : Who) (kind : AccKind) (space va : Nat) : (s.unitXlat who kind space va).vault = s.vault := by
  unfold State.unitXlat
  dsimp only
  repeat' split
  all_goals simp

@[simp] theorem State.readKeep_vault (s : State) (who : Who) (space va n : Nat) : (s.readKeep who space va n).vault = s.vault := by
  unfold State.readKeep
  split <;> rename_i h
  case h_5 => split <;> simpa using (congrArg BytesOut.vault h).symm
  all_goals simpa using (congrArg BytesOut.vault h).symm

@[simp] theorem State.readEnd_vault (s : State) (who : Who) (space va n : Nat) : (s.readEnd who space va n).vault = s.vault := by
  simp [State.readEnd]

@[simp] theorem State.readWords_vault (s : State) (who : Who) (space va n : Nat) : (s.readWords who space va n).vault = s.vault := by
  unfold State.readWords
  split
  · next h => simpa using (congrArg WordsOut.vault h).symm
  · simp

/-! ### Operations of Machine/CrewIssue.lean -/

@[simp] theorem State.stepped_vault (s : State) (c : CrewId) : (s.stepped c).vault = s.vault := by
  simp [State.stepped]

@[simp] theorem State.fetched_vault (s : State) (c : CrewId) (r : Req) (l : Line) : (s.fetched c r l).vault = s.vault := by
  simp [State.fetched]

@[simp] theorem State.fetch_vault (s : State) (c : CrewId) (space pc lid : Nat) (w : W64) : (s.fetch c space pc lid w).vault = s.vault := by
  unfold State.fetch
  dsimp only
  split
  · rfl
  split
  · split <;> rfl
  split
  · next h => simpa using (congrArg UnitOut.vault h).symm
  · next h =>
    split
    · split
      · simpa using (congrArg UnitOut.vault h).symm
      · split <;> simpa using (congrArg UnitOut.vault h).symm
    · simpa using (congrArg UnitOut.vault h).symm

@[simp] theorem State.trap_vault (s : State) (i : Issue) (fault : LaneMask) (cause : Nat) (detail : W64) :
    (s.trap i fault cause detail).vault = s.vault := by
  simp [State.trap]

@[simp] theorem State.done_vault (s : State) (i : Issue) (v : Crew) : (s.done i v).vault = s.vault := by
  simp [State.done]

@[simp] theorem State.checked_vault {f : State → Issue → State} (hf : ∀ u i, (f u i).vault = u.vault) (s : State) (i : Issue) (l : Launch) :
    (s.checked i l f).vault = s.vault := by
  unfold State.checked
  split
  · simp
  · split
    · simp
    · simp [hf]

/-- A crew instruction keeps the vault when its effect does. -/
@[simp] theorem State.issueIf_vault {f : State → Issue → State} (hf : ∀ u i, (f u i).vault = u.vault) (s : State) (c : CrewId) (w : W64) (key : Nat)
    (ready : State → Crew → Bool) : (s.issueIf c w key ready f).vault = s.vault := by
  unfold State.issueIf
  split
  · rfl
  split
  · simp
  split
  · rfl
  split
  · split <;> simp [hf]
  · split <;> simp [State.checked_vault hf]
  · split <;> rename_i h
    · simpa using (congrArg FetchOut.vault h).symm
    · simpa using (congrArg FetchOut.vault h).symm
    · have hv := by simpa using (congrArg FetchOut.vault h).symm
      dsimp only
      split
      · simpa using hv
      · split <;> simpa [State.checked_vault hf] using hv

@[simp] theorem State.issue_vault {f : State → Issue → State} (hf : ∀ u i, (f u i).vault = u.vault) (s : State) (c : CrewId) (w : W64) (key : Nat) :
    (s.issue c w key f).vault = s.vault := State.issueIf_vault hf s c w key _

/-! ### Operations of Machine/XlateCmds.lean -/

@[simp] theorem State.wake_vault (s : State) (id pa : Nat) : (s.wake id pa).vault = s.vault := by
  unfold State.wake
  split <;> simp

@[simp] theorem State.walkGo_vault (s : State) (k : Nat) (root : W64) (page n : Nat) (es : List W64) :
    (s.walkGo k root page n es).2.vault = s.vault := by
  induction n generalizing s es with
  | zero => rfl
  | succ n ih =>
    unfold State.walkGo
    split
    · rfl
    split
    · next h => simpa using (congrArg UnitOut.vault h).symm
    · next h => split <;> simpa [ih] using (congrArg UnitOut.vault h).symm

@[simp] theorem State.walkEnd_vault (s : State) (k : Nat) : (s.walkEnd_ k).vault = s.vault := by
  simp [State.walkEnd_]

@[simp] theorem State.walkLeaf_vault (s : State) (k : Nat) (e : PEntry) (l : W64) (big : Bool) (level : Nat) :
    (s.walkLeaf k e l big level).vault = s.vault := by
  simp [State.walkLeaf]

@[simp] theorem State.failEntry_vault (s : State) (k : Nat) (e : PEntry) : (s.failEntry k e).vault = s.vault := by
  simp [State.failEntry]

/-! ### Operations of Machine/AdmitCmds.lean -/

@[simp] theorem State.retryNow_vault (s : State) (q : Source) (l : Level) : (s.retryNow q l).vault = s.vault := by
  refine foldl_keeps State.vault _ (fun t e => ?_) s.reqs s
  split
  · split
    · split <;> simp
    · rfl
  · rfl

@[simp] theorem State.granted_vault (s : State) (src : Source) (l : Level) : (s.granted src l).vault = s.vault := (rfl)
@[simp] theorem State.olderFills_vault (s : State) (die tile : Nat) (r : Req) : (s.olderFills die tile r).vault = s.vault := (rfl)
@[simp] theorem State.accessFault_vault (s : State) (core : Nat) : (s.accessFault core).vault = s.vault := (rfl)
@[simp] theorem State.apertureFault_vault (s : State) (core va cause : Nat) : (s.apertureFault core va cause).vault = s.vault := (rfl)

@[simp] theorem State.deliverCore_vault (s : State) (core : Nat) (r : Req) (res : AccResult) : (s.deliverCore core r res).vault = s.vault := by
  unfold State.deliverCore
  dsimp only
  split <;> simp

@[simp] theorem State.forget_vault (s : State) (id : Nat) : (s.forget id).vault = s.vault := (rfl)

@[simp] theorem State.answerAll_vault (s : State) (p : Req → Bool) (res : AccResult) : (s.answerAll p res).vault = s.vault := by
  simp [State.answerAll]

@[simp] theorem State.setPorts_vault (s : State) (k : Nat) (f : ColPort → ColPort) : (s.setPorts k f).vault = s.vault := (rfl)

@[simp] theorem State.sever_vault (s : State) (k : Nat) : (s.sever k).vault = s.vault := by
  simp [State.sever]

/-! ### Operations of Machine/Ebior.lean -/

/-- A packet served keeps the vault, or its own part has run. -/
theorem State.serve_vault (s : State) (op : Nat) (p : Port) (k : Packet) (own : State → EbOut) :
    (s.serve op p k own).vault = s.vault ∨ (ebCheck op p k s.plat.stage = none ∧ (s.serve op p k own).vault = (own s).vault) := by
  unfold State.serve
  split
  · simp
  · next hc => exact .inr ⟨hc, by split <;> rename_i h <;> simp [h]⟩

/-- An Ebior packet keeps the vault, or its own part has run with only its port changed. -/
theorem State.ebior_vault (s : State) (op : Nat) (p : Port) (k : Packet) (own : State → EbOut) :
    (s.ebior op p k own).vault = s.vault ∨ ∃ v, (s.ebior op p k own).vault = (own (s.setPort p v)).vault := by
  unfold State.ebior
  split
  · exact .inl rfl
  dsimp only
  split
  · left
    split <;> simp
  split
  · exact .inl (s.setPort_vault p _)
  · rcases State.serve_vault (s.setPort p _) op p k own with h | ⟨-, h⟩
    · exact .inl (by simpa using h)
    · exact .inr ⟨_, h⟩

/-- An Ebior packet keeps the vault when its own part does. -/
@[simp] theorem State.ebior_keeps {own : State → EbOut} (ho : ∀ u, (own u).vault = u.vault) (s : State) (op : Nat) (p : Port) (k : Packet) :
    (s.ebior op p k own).vault = s.vault := by
  rcases s.ebior_vault op p k own with h | ⟨v, h⟩
  · exact h
  · simp [h, ho]

/-! ### Operations of Machine/Boot.lean -/

/-- A cold reset keeps the queue and the fuses, and returns the safety registers to their reset values. -/
@[simp] theorem State.coldReset_vault (s : State) :
    s.coldReset.vault = { queue := s.pending, fuses := s.fuses, safety := State.reset.cairn.safety } := rfl

@[simp] theorem State.dropImage_vault (s : State) : s.dropImage.vault = s.vault := (rfl)

@[simp] theorem State.windowReset_vault (s : State) : s.windowReset.vault = s.vault := by
  unfold State.windowReset
  dsimp only
  split
  · rw [State.dropImage_vault]
    split <;> rfl
  · split <;> rfl

@[simp] theorem doImageBegin_vault (p : Port) (k : Packet) (s : State) : (doImageBegin p k s).vault = s.vault := by
  have hd (n : Nat) : ({ s.dropImage with cairn := { s.dropImage.cairn with session := some (p, n, 0) } } : State).vault = s.vault :=
    s.dropImage_vault
  unfold doImageBegin
  dsimp only
  split
  · rfl
  split
  · split
    · rfl
    split
    · rfl
    · split
      · rfl
      · exact hd _
  · split
    · rfl
    · split
      · rfl
      · exact hd _

@[simp] theorem doImageData_vault (p : Port) (k : Packet) (s : State) : (doImageData p k s).vault = s.vault := by
  unfold doImageData
  dsimp only
  split
  · rfl
  split
  · rfl
  split
  · rfl
  · split <;> rfl

@[simp] theorem doConfigWrite_vault (p : Port) (k : Packet) (s : State) : (doConfigWrite p k s).vault = s.vault := by
  unfold doConfigWrite
  split
  · rfl
  · split <;> rfl

@[simp] theorem doConfigRead_vault (_p : Port) (k : Packet) (s : State) : (doConfigRead _p k s).vault = s.vault := by
  unfold doConfigRead
  dsimp only
  repeat' split
  all_goals simp

@[simp] theorem State.badWay_vault (s : State) (die sl way : Nat) : (s.badWay die sl way).vault = s.vault := by
  simp [State.badWay]

@[simp] theorem State.commit_vault (s : State) (bad : List (Nat × Nat × Nat)) : (s.commit bad).vault = s.vault := by
  unfold State.commit
  extract_lets s1
  have h1 : s1.vault = s.vault := by simp [s1]
  rw [← h1]
  clear_value s1
  rw [State.measure_vault]
  rfl

@[simp] theorem State.logFailedGroups_vault (s : State) : s.logFailedGroups.vault = s.vault := by
  simp [State.logFailedGroups]

@[simp] theorem commitSteps_vault (bad : List (Nat × Nat × Nat)) (s : State) : (commitSteps bad s).2.2.vault = s.vault := by
  unfold commitSteps
  dsimp only
  repeat' split
  all_goals simp

@[simp] theorem doConfigCommit_vault (bad : List (Nat × Nat × Nat)) (p : Port) (k : Packet) (s : State) :
    (doConfigCommit bad p k s).vault = s.vault := by
  unfold doConfigCommit
  split
  · rfl
  split
  · rfl
  split
  · simp
  · split <;> rfl

@[simp] theorem State.trainGroup_vault (s : State) (outs : List ChanOutcome) (die g : Nat) : (s.trainGroup outs die g).vault = s.vault := by
  simp [State.trainGroup]

/-! ### Operations of Machine/CrewMem.lean -/

@[simp] theorem State.laneEnd_vault (s : State) (i : Issue) (v : Crew) (faults : List (Nat × Nat × W64)) :
    (s.laneEnd i v faults).vault = s.vault := by
  simp [State.laneEnd]

@[simp] theorem State.ordered_vault (s : State) (l : List LaneAcc) : (s.ordered l).vault = s.vault := by
  simp [State.ordered]

@[simp] theorem State.globalAccs_vault (s : State) (i : Issue) (whole : LaneMask) (n : Nat) (l : List LaneAcc) (mk : Nat → LaneAcc → Req) :
    (s.globalAccs i whole n l mk).vault = s.vault := by
  simp [State.globalAccs]

theorem localLoad_vault (i : Issue) (n : Nat) (x : State × Crew × List (Nat × Nat × W64)) (a : LaneAcc) :
    (localLoad i n x a).1.vault = x.1.vault := by
  unfold localLoad
  dsimp only
  split <;> simp

theorem localAtom_vault (i : Issue) (returns : Bool) (x : State × Crew × List (Nat × Nat × W64)) (a : LaneAcc) :
    (localAtom i returns x a).1.vault = x.1.vault := by
  unfold localAtom
  dsimp only
  split <;> simp

@[simp] theorem State.atomOrRed_vault (s : State) (i : Issue) (returns : Bool) : (s.atomOrRed i returns).vault = s.vault := by
  unfold State.atomOrRed
  dsimp only
  split
  · simp
  · rw [State.laneEnd_vault]
    exact (foldl_fixes (fun x : State × Crew × List (Nat × Nat × W64) => x.1.vault) _ (localAtom_vault i returns) _ _).trans
      (s.ordered_vault i.atoms)

/-! ### Operations of Machine/CrewControl.lean -/

@[simp] theorem State.branch_vault (s : State) (i : Issue) (tgt : Nat → Nat) : (s.branch i tgt).vault = s.vault := by
  unfold State.branch
  repeat' split
  all_goals simp

@[simp] theorem State.logCopyErr_vault (s : State) (c : CrewId) (cause : Nat) (d : W64) : (s.logCopyErr c cause d).vault = s.vault := by
  unfold State.logCopyErr
  split <;> simp

@[simp] theorem State.crewGone_vault (s : State) (c : CrewId) : (s.crewGone c).vault = s.vault := by
  unfold State.crewGone
  split <;> simp

@[simp] theorem State.fenceOf_vault (s : State) (i : Issue) (kind : Nat) : (s.fenceOf i kind).vault = s.vault := by
  simp [State.fenceOf]

/-! ### Operations of Machine/Matrix.lean -/

@[simp] theorem State.countSram_vault (s : State) (die : Nat) (e : (Nat × Nat) × Nat × Nat) : (s.countSram die e).vault = s.vault := by
  simp [State.countSram]

/-! ### Operations of Machine/Element.lean -/

@[simp] theorem State.elementDone_vault (s : State) (die tile : Nat) (e : EInstr) : (s.elementDone die tile e).vault = s.vault := (rfl)

@[simp] theorem State.countProgram_vault (s : State) (pid : Nat) : (s.countProgram pid).vault = s.vault := by
  simp [State.countProgram]

@[simp] theorem State.eprunEnd_vault (s0 : State) (die tile : Nat) (e : EInstr) (bad : Bool) : (s0.eprunEnd die tile e bad).vault = s0.vault := by
  simp [State.eprunEnd]

/-! ### Operations of Machine/Traps.lean -/

@[simp] theorem State.resumed_vault (s : State) (c : CrewId) (v : Crew) : (s.resumed c v).vault = s.vault := by
  unfold State.resumed
  rw [State.tryBars_vault, State.raiseGroup_vault]
  exact s.setCrew_vault c v

@[simp] theorem State.withdraw_vault (s : State) (p : Req → Bool) : (s.withdraw p).vault = s.vault := by
  simp [State.withdraw]

@[simp] theorem State.killStand_vault (s : State) (die tile stand : Nat) : (s.killStand die tile stand).vault = s.vault := by
  simp [State.killStand]

/-! ### Operations of Machine/Bucker.lean -/

@[simp] theorem State.setDescs_vault (s : State) (b : BuckerId) (l : List Desc) : (s.setDescs b l).vault = s.vault := by
  unfold State.setDescs
  split <;> simp

@[simp] theorem State.putDesc_vault (s : State) (b : BuckerId) (d : Desc) : (s.putDesc b d).vault = s.vault := by
  simp [State.putDesc]

@[simp] theorem State.submit_vault (s : State) (c : CrewId) (v : Crew) (ch addr : Nat) : (s.submit c v ch addr).1.vault = s.vault := by
  unfold State.submit
  dsimp only
  repeat' split
  all_goals simp

@[simp] theorem State.submitLanes_vault (s : State) (i : Issue) (ch : Nat) (l : List Nat) (faults : List (Nat × Nat × W64)) (n : Nat) :
    (s.submitLanes i ch l faults n).1.vault = s.vault := by
  induction l generalizing s faults n with
  | nil => rfl
  | cons k rest ih =>
    unfold State.submitLanes
    split
    · dsimp only
      split <;> simp [ih]
    · rfl

@[simp] theorem State.landGate_vault (s : State) (b : BuckerId) (ask : Bool) (m off : Nat) : (s.landGate b ask m off).vault = s.vault :=
  s.gateIf_vault ask _ _

@[simp] theorem State.copyRead_vault (s : State) (b : BuckerId) (got : List (Req × AccResult)) (known : List (Nat × Nat × Nat)) (sp die : Nat)
    (off : Int) (n : Nat) : (s.copyRead b got known sp die off n).vault = s.vault := by
  unfold State.copyRead
  split
  · split <;> simp
  · split <;> next h => simpa using (congrArg Gate.vault h).symm
  · refine foldl_fixes (fun x : SpanOut × Nat => x.1.vault) _ (fun x e => ?_) _ _
    split
    · next h => split <;> simp [h]
    · rfl

@[simp] theorem Moving.read_vault (m : Moving) (b : BuckerId) (sp die : Nat) (off : Int) (n : Nat) :
    (m.read b sp die off n).1.s.vault = m.s.vault := by
  unfold Moving.read
  dsimp only
  split <;> next h => simpa using (congrArg SpanOut.vault h).symm

@[simp] theorem Moving.source_vault (m : Moving) (b : BuckerId) (d : Desc) (e : Nat) : (m.source b d e).1.s.vault = m.s.vault := by
  unfold Moving.source
  dsimp only
  split
  · rfl
  split
  · split
    · simp
    · split <;> simp
  · simp

@[simp] theorem Moving.one_vault (m : Moving) (b : BuckerId) (d : Desc) (draw e : Nat) : (m.one b d draw e).s.vault = m.s.vault := by
  unfold Moving.one
  dsimp only
  split
  · rfl
  split
  · split
    · split <;> rfl
    · rfl
  split
  · split <;> rfl
  split
  · simp
  split
  · simp
  · split <;> simp

@[simp] theorem Moving.block_vault (m : Moving) (b : BuckerId) (d : Desc) (draw e : Nat) : (m.block b d draw e).s.vault = m.s.vault := by
  have hf (x : Moving × List (Option Val)) : ((List.range 32).foldl (fun (acc : Moving × List (Option Val)) k =>
      if acc.1.wait then acc
      else
        let x := acc.1.source b d (e + k)
        (x.1, acc.2 ++ [x.2.1])) x).1.s.vault = x.1.s.vault := by
    refine foldl_fixes (fun x : Moving × List (Option Val) => x.1.s.vault) _ (fun x k => ?_) _ _
    dsimp only
    split <;> simp
  unfold Moving.block
  dsimp only
  split
  · rfl
  · split <;> exact hf (m, [])

@[simp] theorem State.putRun_vault (s : State) (b : BuckerId) (d : Desc) (x : CopyW) : (s.putRun b d x).vault = s.vault := by
  simp [State.putRun]

@[simp] theorem State.putSectors_vault (s : State) (b : BuckerId) (l : List CopyW) : (s.putSectors b l).vault = s.vault := by
  refine foldl_keeps State.vault _ (fun t k => ?_) _ s
  dsimp only
  split
  · simp
  · rfl
  · split <;> rfl

@[simp] theorem State.landEnter_vault (s : State) (b : BuckerId) (l : List CopyW) : (s.landEnter b l).2.vault = s.vault := by
  refine foldl_fixes (fun x : Bool × State => x.2.vault) _ (fun x k => ?_) _ _
  split
  · split <;> next h => simpa using (congrArg Gate.vault h).symm
  · rfl

@[simp] theorem State.putRed_vault (s : State) (b : BuckerId) (d : Desc) (x : CopyW) : (s.putRed b d x).vault = s.vault := by
  simp [State.putRed]

@[simp] theorem State.putWrites_vault (s : State) (b : BuckerId) (d : Desc) (l : List CopyW) : (s.putWrites b d l).vault = s.vault := by
  simp [State.putWrites]

@[simp] theorem State.copyErrAt_vault (s : State) (b : BuckerId) (d : Desc) (cause detail : Nat) :
    (s.copyErrAt b d cause detail).vault = s.vault := by
  unfold State.copyErrAt
  dsimp only
  repeat' split
  all_goals simp

@[simp] theorem State.moves_vault (s : State) (b : BuckerId) (d : Desc) (fin : Nat) (got : List (Req × AccResult)) :
    (s.moves b d fin got).s.vault = s.vault := by
  unfold State.moves
  dsimp only
  split
  · rw [foldl_fixes (fun m : Moving => m.s.vault) _ (fun m e => m.block_vault b d s.fresh e)]
  · rw [foldl_fixes (fun m : Moving => m.s.vault) _ (fun m e => m.one_vault b d s.fresh e)]

@[simp] theorem State.readsOver_vault (s : State) (b : BuckerId) (serial : Nat) : (s.readsOver b serial).vault = s.vault := by
  refine foldl_keeps State.vault _ (fun t e => ?_) s.reqs s
  split
  · split
    · split <;> simp
    · rfl
  · rfl

@[simp] theorem State.turnMove_vault (s : State) (b : BuckerId) (d : Desc) (fin : Nat) (got : List (Req × AccResult)) :
    (s.turnMove b d fin got).vault = s.vault := by
  unfold State.turnMove
  extract_lets m all whole out go new d1 s0 s1 n s2 s3 s4
  have hm : m.s.vault = s.vault := s.moves_vault b d fin got
  have hgo : go.2.vault = s.vault := (m.s.landEnter_vault b out).trans hm
  have h1 : s1.vault = s.vault := by simpa [s1, s0] using hgo
  have h2 : s2.vault = s.vault := by simpa [s2] using h1
  have h3 : s3.vault = s.vault := by simpa [s3] using h2
  have h4 : s4.vault = s.vault := by
    unfold s4
    split <;> simpa using h3
  split
  · exact hm
  split
  · exact hgo
  · split
    · simpa using h4
    · exact h4

@[simp] theorem State.idxRead_vault (s : State) (b : BuckerId) (d : Desc) : (s.idxRead b d).2.2.vault = s.vault := by
  unfold State.idxRead
  dsimp only
  split
  · simp
  · refine foldl_fixes (fun x : Option (List (Option W32)) × Option (Nat × Nat) × State => x.2.2.vault) _ (fun x k => ?_) _ _
    split
    · rfl
    · split <;> next h => simpa using (congrArg Gate.vault h).symm
  · split <;> next h => simpa using (congrArg UnitOut.vault h).symm

@[simp] theorem State.onCopy_vault (s : State) (stream addr : Nat) (g : Flight → Flight) : (s.onCopy stream addr g).vault = s.vault := (rfl)

@[simp] theorem State.descRead_vault (s : State) (n : Nat) (v : Stream) (f : Flight) : (s.descRead n v f).vault = s.vault :=
  s.readWords_vault _ _ _ _

/-! ### Operations of Machine/Cairn.lean -/

@[simp] theorem doSafetyProfile_vault (p : Port) (k : Packet) (s : State) : (doSafetyProfile p k s).vault = s.vault := by
  unfold doSafetyProfile
  dsimp only
  split <;> rfl

@[simp] theorem doQueryIdentity_vault (_p : Port) (_k : Packet) (s : State) : (doQueryIdentity _p _k s).vault = s.vault := (rfl)

@[simp] theorem doAttest_vault (p : Port) (k : Packet) (s : State) : (doAttest p k s).vault = s.vault := by
  unfold doAttest
  dsimp only
  split
  · rfl
  split
  · rfl
  split
  · split <;> rfl
  · rfl

@[simp] theorem State.releaseDebug_vault (s : State) : s.releaseDebug.vault = s.vault := (rfl)
@[simp] theorem State.refuseUnlock_vault (s : State) : s.refuseUnlock.vault = s.vault := (rfl)

@[simp] theorem doDebugLock_vault (p : Port) (k : Packet) (s : State) : (doDebugLock p k s).vault = s.vault := by
  simp [doDebugLock]

@[simp] theorem doPowerLimitSet_vault (p : Port) (k : Packet) (s : State) : (doPowerLimitSet p k s).vault = s.vault := by
  unfold doPowerLimitSet
  dsimp only
  repeat' split
  all_goals simp

@[simp] theorem State.scanDrive_vault (s : State) (code : Nat) (dr : Option Nat) : (s.scanDrive code dr).vault = s.vault := by
  simp [State.scanDrive]

/-! ### Operations of Machine/CohCmds.lean -/

@[simp] theorem State.noticesHere_vault (s : State) (l : List Nat) : (s.noticesHere l).vault = s.vault := (rfl)

@[simp] theorem State.sendMgt_vault (s : State) (slot : Nat) (dead : Option Nat) : (s.sendMgt slot dead).vault = s.vault := by
  unfold State.sendMgt
  split <;> simp

@[simp] theorem State.declareDead_vault (s : State) (l : List Nat) : (s.declareDead l).vault = s.vault := by
  simp [State.declareDead]

@[simp] theorem State.dropRequests_vault (s : State) (x : Nat) : (s.dropRequests x).vault = s.vault := (rfl)

@[simp] theorem State.homePoison_vault (s : State) (line : Nat) : (s.homePoison line).vault = s.vault := by
  unfold State.homePoison
  split
  · next h => exact State.homeVictim_vault h
  · simp

@[simp] theorem State.reclaimBusy_vault (s : State) (x : Nat) (b : Busy) : (s.reclaimBusy x b).1.vault = s.vault := by
  unfold State.reclaimBusy
  dsimp only
  repeat' split
  all_goals simp

@[simp] theorem State.reclaimDir_vault (s : State) (x line : Nat) : (s.reclaimDir x line).1.vault = s.vault := by
  unfold State.reclaimDir
  dsimp only
  repeat' split
  all_goals simp

@[simp] theorem State.reclaim_vault (s : State) (x : Nat) : (s.reclaim x).vault = s.vault := by
  simp only [State.reclaim, State.goSnoops_vault, State.vault_mk, State.vault_default]
  rw [foldl_fixes (fun y : State × Nat => y.1.vault) _ (fun y n => by simp),
    foldl_fixes (fun y : State × Nat => y.1.vault) _ (fun y b => by simp), State.dropRequests_vault]

@[simp] theorem State.halfDone_vault (s : State) (half : Nat) (h : HostLine) : (s.halfDone half h).vault = s.vault := by
  simp [State.halfDone]

@[simp] theorem State.evictGo_vault (s : State) (half : Nat) (h : HostLine) (d : D2H) : (s.evictGo half h d).vault = s.vault := by
  simp [State.evictGo]

@[simp] theorem State.emptyHost_vault (s : State) : s.emptyHost.vault = s.vault := (rfl)

/-! ### Operations of Machine/StreamCmds.lean -/

@[simp] theorem doStreamOpen_vault (p : Port) (k : Packet) (s : State) : (doStreamOpen p k s).vault = s.vault := by
  unfold doStreamOpen
  dsimp only
  repeat' split
  all_goals simp

@[simp] theorem doStreamClose_vault (p : Port) (k : Packet) (s : State) : (doStreamClose p k s).vault = s.vault := by
  unfold doStreamClose
  dsimp only
  repeat' split
  all_goals simp

@[simp] theorem doStreamMigrate_vault (p : Port) (k : Packet) (s : State) : (doStreamMigrate p k s).vault = s.vault := by
  unfold doStreamMigrate
  dsimp only
  repeat' split
  all_goals simp

@[simp] theorem doPackagePark_vault (p : Port) (k : Packet) (s : State) : (doPackagePark p k s).vault = s.vault := by
  unfold doPackagePark
  dsimp only
  repeat' split
  all_goals simp

@[simp] theorem State.endPark_vault (s : State) : s.endPark.vault = s.vault := by
  unfold State.endPark
  split <;> simp

@[simp] theorem doResume_vault (p : Port) (_k : Packet) (s : State) : (doResume p _k s).vault = s.vault := by
  unfold doResume
  repeat' split
  all_goals simp

/-! ### Operations of Machine/Dispatcher.lean -/

@[simp] theorem State.nextRead_vault (s : State) (n : Nat) : (s.nextRead n).vault = s.vault := by
  simp [State.nextRead]

@[simp] theorem State.start_vault (s : State) (n : Nat) (f : Flight) : (s.start n f).vault = s.vault := by
  simp [State.start]

@[simp] theorem State.reject_vault (s : State) (n : Nat) (ws : List W64) (reason : Nat) (stop : Bool) :
    (s.reject n ws reason stop).vault = s.vault := by
  simp [State.reject]

@[simp] theorem State.pass_vault (s : State) (n next : Nat) (irq : Bool) : (s.pass n next irq).vault = s.vault := by
  simp [State.pass]

/-- A record that a stream takes keeps the vault when its own part does. -/
@[simp] theorem State.take_vault {f : State → List W64 → State} (hf : ∀ u ws, (f u ws).vault = u.vault) (s : State) (n typ : Nat) :
    (s.take n typ f).vault = s.vault := by
  unfold State.take
  split
  · rfl
  split
  · next h => exact State.watchOpen_vault h
  dsimp only
  split
  · next h => simpa using (congrArg WordsOut.vault h).symm
  · next h => simpa using (congrArg WordsOut.vault h).symm
  · next h =>
    have hv := by simpa using (congrArg WordsOut.vault h).symm
    split
    · exact hv
    split
    · simpa using hv
    split
    · exact hv
    · split <;> simpa [hf] using hv

@[simp] theorem State.finFlight_vault (s : State) (n addr status : Nat) (detail : W64) : (s.finFlight n addr status detail).vault = s.vault := (rfl)

@[simp] theorem State.recAccess_vault (s : State) (x : Req) : (s.recAccess x).vault = s.vault := by
  unfold State.recAccess
  split <;> rename_i h
  · simpa using (congrArg UnitOut.vault h).symm
  · split
    · simpa using (congrArg UnitOut.vault h).symm
    · split <;> simpa using (congrArg UnitOut.vault h).symm

@[simp] theorem State.parkAt_vault (s : State) (n : Nat) : (s.parkAt n).vault = s.vault := by
  unfold State.parkAt
  dsimp only
  split <;> rename_i h
  · simpa using (congrArg XOut.vault h).symm
  · simpa using (congrArg XOut.vault h).symm
  · split
    · simpa using (congrArg XOut.vault h).symm
    · split <;> simpa using (congrArg XOut.vault h).symm

@[simp] theorem State.releaseWatches_vault (s : State) : s.releaseWatches.vault = s.vault := by
  refine foldl_keeps State.vault _ (fun t line => ?_) _ s
  split
  · rw [Gate.state_vault, State.agentReq_vault]
  · rfl

@[simp] theorem State.forgetLaunch_vault (s : State) (n addr : Nat) : (s.forgetLaunch n addr).vault = s.vault := (rfl)
@[simp] theorem State.worked_vault (s : State) : s.worked.vault = s.vault := (rfl)

@[simp] theorem State.dropWatchIf_vault (s : State) (n : Nat) (c : Bool) : (s.dropWatchIf n c).vault = s.vault := by
  simp [State.dropWatchIf]

@[simp] theorem State.setEhead_vault (s : State) (n h : Nat) : (s.setEhead n h).vault = s.vault := by
  simp [State.setEhead]

@[simp] theorem State.contStream_vault (s : State) (n : Nat) : (s.contStream n).vault = s.vault := by
  simp [State.contStream]

/-! ### Operations of Machine/Power.lean -/

@[simp] theorem State.takeLimit_vault (s : State) : s.takeLimit.vault = s.vault := by
  unfold State.takeLimit
  repeat' split
  all_goals simp

@[simp] theorem State.markHints_vault (s : State) : s.markHints.vault = s.vault := by
  simp [State.markHints]

@[simp] theorem State.sendGrants_vault (s : State) (gs : List (Nat × Int)) : (s.sendGrants gs).vault = s.vault := by
  simp [State.sendGrants]

@[simp] theorem State.hintForce_vault (s : State) (die i : Nat) : (s.hintForce die i).vault = s.vault := by
  simp [State.hintForce]

/-! ### Operations of Machine/Records.lean -/

@[simp] theorem State.readyTile_vault (s : State) (lid : Nat) (progs : List (List W64)) (e : Nat × Nat) :
    (s.readyTile lid progs e).vault = s.vault := (rfl)

@[simp] theorem State.launchGo_vault (s : State) (n : Nat) (ws : List W64) (l : Launch) : (s.launchGo n ws l).vault = s.vault := by
  unfold State.launchGo
  dsimp only
  split <;> rename_i h
  · simpa using (congrArg WordsOut.vault h).symm
  · simpa using (congrArg WordsOut.vault h).symm
  · split
    · simpa using (congrArg WordsOut.vault h).symm
    · split <;> simpa using (congrArg WordsOut.vault h).symm

@[simp] theorem State.placeStand_vault (s : State) (lid : Nat) (l : Launch) (die tile slot : Nat) :
    (s.placeStand lid l die tile slot).vault = s.vault := by
  simp [State.placeStand]

@[simp] theorem State.launchDone_vault (s : State) (lid : Nat) : (s.launchDone lid).vault = s.vault := by
  unfold State.launchDone
  split <;> simp

@[simp] theorem State.freeStand_vault (s : State) (die tile slot : Nat) : (s.freeStand die tile slot).vault = s.vault := by
  unfold State.freeStand
  dsimp only
  split <;> simp

@[simp] theorem State.attempt_vault {go : State → Flight → State} (hg : ∀ u f, (go u f).vault = u.vault) (s : State) (n typ : Nat)
    (ok : List W64 → Bool) : (s.attempt n typ ok go).vault = s.vault := by
  unfold State.attempt
  split
  · dsimp only
    rw [State.take_vault]
    · split <;> simp [hg]
    · intro u ws
      split <;> simp [hg]
  · rfl

@[simp] theorem State.recordWrite_vault (s : State) (n : Nat) (f : Flight) (v : W64) (add : Bool) :
    (s.recordWrite n f v add).vault = s.vault := by
  unfold State.recordWrite
  dsimp only
  split <;> next h => simpa using (congrArg RecOut.vault h).symm

@[simp] theorem State.waitDue_vault (s : State) (n : Nat) (f : Flight) (due : Nat) : (s.waitDue n f due).vault = s.vault := by
  simp [State.waitDue]

@[simp] theorem State.waitRead_vault (s : State) (n : Nat) (f : Flight) (va : Nat) : (s.waitRead n f va).vault = s.vault := by
  unfold State.waitRead
  split <;> next h => simpa using (congrArg RecOut.vault h).symm

@[simp] theorem State.waitGo_vault (s : State) (n : Nat) (f : Flight) : (s.waitGo n f).vault = s.vault := by
  unfold State.waitGo
  dsimp only
  split
  · simp
  split <;> rename_i h
  · simpa using (congrArg XOut.vault h).symm
  · simpa using (congrArg XOut.vault h).symm
  · split
    · simpa using (congrArg XOut.vault h).symm
    split
    · simpa using (congrArg XOut.vault h).symm
    · split <;> simpa using (congrArg XOut.vault h).symm

@[simp] theorem State.takeHint_vault (s : State) (h : Hint) (die : Nat) : (s.takeHint h die).vault = s.vault := by
  simp [State.takeHint]

@[simp] theorem State.onFlush_vault (s : State) (n : Nat) (f : Flight) (g : Flight → Flight) : (s.onFlush n f g).vault = s.vault := (rfl)

@[simp] theorem State.flushFind_vault (s : State) (n : Nat) (f : Flight) (past : Nat) : (s.flushFind n f past).vault = s.vault := by
  unfold State.flushFind
  split <;> rename_i h
  · simpa using (congrArg XOut.vault h).symm
  · simpa using (congrArg XOut.vault h).symm
  · dsimp only
    split <;> simpa using (congrArg XOut.vault h).symm

@[simp] theorem State.flushGo_vault (s : State) (n : Nat) (f : Flight) : (s.flushGo n f).vault = s.vault := by
  unfold State.flushGo
  dsimp only
  split
  · simp
  split
  · simp
  split
  · simp
  split <;> rename_i h
  · simpa using (congrArg UnitOut.vault h).symm
  · split <;> simpa using (congrArg UnitOut.vault h).symm

/-! ### Operations of Machine/Ridge.lean -/

@[simp] theorem State.linkState_vault (s : State) (l : Nat) (v : Link) : (s.linkState l v).vault = s.vault := by
  simp [State.linkState]

@[simp] theorem State.laneEvent_vault (s : State) (l left : Nat) : (s.laneEvent l left).vault = s.vault := by
  simp [State.laneEvent]

@[simp] theorem State.goesNoFurther_vault (s : State) (m : RMsg) : (s.goesNoFurther m).vault = s.vault := by
  unfold State.goesNoFurther
  repeat' split
  all_goals simp

@[simp] theorem State.failoverOne_vault (s : State) (l : Nat) (e : Nat × Nat × RMsg) : (s.failoverOne l e).vault = s.vault := by
  unfold State.failoverOne
  dsimp only
  repeat' split
  all_goals simp

@[simp] theorem State.failover_vault (s : State) (l : Nat) : (s.failover l).vault = s.vault := by
  simp [State.failover]

@[simp] theorem State.linkDown_vault (s : State) (l : Nat) : (s.linkDown l).vault = s.vault := by
  simp [State.linkDown]

@[simp] theorem State.linkRetrain_vault (s : State) (l : Nat) : (s.linkRetrain l).vault = s.vault := by
  simp [State.linkRetrain]

@[simp] theorem State.linkRetire_vault (s : State) (l : Nat) : (s.linkRetire l).vault = s.vault := by
  simp [State.linkRetire]

@[simp] theorem State.nakOn_vault (s : State) (l last : Nat) : (s.nakOn l last).vault = s.vault := by
  simp [State.nakOn]

@[simp] theorem State.laneFault_vault (s : State) (l lane : Nat) : (s.laneFault l lane).vault = s.vault := by
  simp [State.laneFault]

@[simp] theorem State.ridgeAgain_vault (s : State) (l : Nat) : (s.ridgeAgain l).vault = s.vault := by
  simp [State.ridgeAgain]

@[simp] theorem State.remoteStart_vault (s : State) (link : Nat) (m : RMsg) (a : RAcc) : (s.remoteStart link m a).vault = s.vault := by
  simp [State.remoteStart]

@[simp] theorem State.cohArrive_vault (s : State) (c : CMsg) : (s.cohArrive c).vault = s.vault := (rfl)

/-! ### Operations of Machine/Collective.lean -/

@[simp] theorem State.setPlan_vault (s : State) (die : Nat) (p : Plan) : (s.setPlan die p).vault = s.vault := (rfl)
@[simp] theorem State.dropPlan_vault (s : State) (die cid : Nat) : (s.dropPlan die cid).vault = s.vault := (rfl)

@[simp] theorem State.poke_vault (s : State) (line o n d : Nat) : (s.poke line o n d).vault = s.vault := by
  simp [State.poke]

@[simp] theorem State.ruin_vault (s : State) (die space va n : Nat) : (s.ruin die space va n).vault = s.vault := by
  refine foldl_keeps State.vault _ (fun t e => ?_) _ s.drawn
  split
  · split <;> simp
  · rfl

@[simp] theorem State.chunkBack_vault (s : State) (o : OutChunk) : (s.chunkBack o).vault = s.vault := by
  unfold State.chunkBack
  split <;> simp

@[simp] theorem State.planError_vault (s : State) (die cid cause : Nat) : (s.planError die cid cause).vault = s.vault := by
  unfold State.planError
  split <;> simp

/-- What a chunk sent leaves, when its peer can be reached. -/
@[simp] def SendOut.keeps (v : Vault) : SendOut → Prop
  | .sent _ s => s.vault = v
  | .refused s => s.vault = v
  | .unreachable => True

theorem State.sendChunk_vault (s : State) (die peer : Nat) (k : Chunk) : (s.sendChunk die peer k).keeps s.vault := by
  unfold State.sendChunk
  dsimp only
  split
  · rfl
  split
  · trivial
  · split
    · simp
    · rw [SendOut.keeps, State.ridgeSend_vault]
      simp

@[simp] theorem State.stepSend_vault (s : State) (die cid k j : Nat) : (s.stepSend die cid k j).vault = s.vault := by
  unfold State.stepSend
  split
  · rfl
  split
  · rfl
  next t _ =>
  dsimp only
  split
  · rfl
  split
  · next h => simpa using (congrArg BytesOut.vault h).symm
  · next h => simpa using (congrArg BytesOut.vault h).symm
  · next l bad xs u h =>
    have hv : u.vault = s.vault := by simpa using (congrArg BytesOut.vault h).symm
    have hs := u.sendChunk_vault die t.peer (u.chunkOf die cid { step := k, chunk := t.dfirst + j, try_ := 0, payload := l, psn := !bad.isEmpty })
    split <;> next hk =>
      rw [hk] at hs
      simp_all

@[simp] theorem State.stepLocal_vault (s : State) (die cid k j : Nat) : (s.stepLocal die cid k j).vault = s.vault := by
  unfold State.stepLocal
  split
  · rfl
  split
  · rfl
  dsimp only
  split
  · rfl
  split <;> rename_i h
  · simpa using (congrArg BytesOut.vault h).symm
  · simpa using (congrArg BytesOut.vault h).symm
  · have hv := by simpa using (congrArg BytesOut.vault h).symm
    split <;> next hw => simpa [hv] using (congrArg BytesOut.vault hw).symm

@[simp] theorem State.answerChunk_vault (s : State) (die : Nat) (k : Chunk) (a : ChunkAns) : (s.answerChunk die k a).vault = s.vault := by
  unfold State.answerChunk
  repeat' split
  all_goals simp

@[simp] theorem State.landChunk_vault (s : State) (die : Nat) (k : Chunk) : (s.landChunk die k).vault = s.vault := by
  unfold State.landChunk
  split
  · rfl
  split
  · split <;> simp
  split
  · rfl
  dsimp only
  split
  · split <;> next h => simpa using (congrArg BytesOut.vault h).symm
  split <;> rename_i h
  · simpa using (congrArg BytesOut.vault h).symm
  · simpa using (congrArg BytesOut.vault h).symm
  · have hv := by simpa using (congrArg BytesOut.vault h).symm
    split <;> next hw => simpa [hv] using (congrArg BytesOut.vault hw).symm

@[simp] theorem State.drainHolds_vault (s : State) (die : Nat) : (s.drainHolds die).vault = s.vault := by
  refine foldl_keeps State.vault _ (fun t e => ?_) _ s
  split <;> next h => simpa using (congrArg ChunkOut.vault h).symm

@[simp] theorem State.stepsGo_vault (s : State) (die cid : Nat) : (s.stepsGo die cid).vault = s.vault := by
  unfold State.stepsGo
  split
  · rfl
  refine foldl_keeps State.vault _ (fun t k => ?_) _ s
  split
  · rfl
  · refine foldl_keeps State.vault _ (fun u j => ?_) _ t
    split
    · simp
    · split <;> simp

@[simp] theorem State.sendAgain_vault (s : State) (die cid : Nat) (o : OutChunk) : (s.sendAgain die cid o).vault = s.vault := by
  unfold State.sendAgain
  split
  · rfl
  split
  · rfl
  rename_i t _
  have hs := s.sendChunk_vault die t.peer (s.chunkOf die cid o)
  dsimp only
  split <;> rename_i hk <;> rw [hk] at hs
  · simp
  · simpa using hs
  · simpa using hs

@[simp] theorem State.planGo_vault (s : State) (die cid : Nat) : (s.planGo die cid).vault = s.vault := by
  simp [State.planGo]

@[simp] theorem State.resend_vault (s : State) (die cid step chunk : Nat) (busy : Bool) : (s.resend die cid step chunk busy).vault = s.vault := by
  unfold State.resend
  repeat' split
  all_goals simp

/-! ### Operations of Machine/JobStart.lean -/

@[simp] theorem State.setBcast_vault (s : State) (b : Bcast) : (s.setBcast b).vault = s.vault := (rfl)
@[simp] theorem State.addBcast_vault (s : State) (b : Bcast) : (s.addBcast b).vault = s.vault := (rfl)

@[simp] theorem State.bcSend_vault (s : State) (bid kind dest index : Nat) : (s.bcSend bid kind dest index).vault = s.vault := by
  unfold State.bcSend
  repeat' split
  all_goals simp

@[simp] theorem State.sendStart_vault (s : State) (b : Bcast) (i : Nat) : (s.sendStart b i).vault = s.vault := by
  simp [State.sendStart]

@[simp] theorem State.startError_vault (s : State) (b : Bcast) (n addr : Nat) : (s.startError b n addr).vault = s.vault := by
  simp [State.startError]

@[simp] theorem State.startFinish_vault (s : State) (b : Bcast) (n addr : Nat) : (s.startFinish b n addr).vault = s.vault := by
  unfold State.startFinish
  split <;> next h => simpa using (congrArg BytesOut.vault h).symm

@[simp] theorem State.settle_vault (s : State) (bid : Nat) : (s.settle bid).vault = s.vault := by
  unfold State.settle
  repeat' split
  all_goals simp

@[simp] theorem State.refeedOne_vault (s : State) (bid u sub : Nat) : (s.refeedOne bid u sub).vault = s.vault := by
  unfold State.refeedOne
  dsimp only
  repeat' split
  all_goals simp

@[simp] theorem State.rootUnreached_vault (s : State) (bid u : Nat) : (s.rootUnreached bid u).vault = s.vault := by
  unfold State.rootUnreached
  split <;> simp

@[simp] theorem State.childEnd_vault (s : State) (b : Bcast) (i st : Nat) : (s.childEnd b i st).vault = s.vault := by
  simp [State.childEnd]

@[simp] theorem State.lose_vault (s : State) (b : Bcast) (i : Nat) : (s.lose b i).vault = s.vault := by
  simp [State.lose]

@[simp] theorem State.startGo_vault (s : State) (n : Nat) (ws w : List W64) : (s.startGo n ws w).vault = s.vault := by
  unfold State.startGo
  dsimp only
  split
  · simp
  split <;> rename_i h <;> have hv := by simpa using (congrArg BytesOut.vault h).symm
  · simpa using hv
  · simpa using hv
  · simpa using hv
  split
  · simpa using hv
  split <;> next hw => simpa [hv] using (congrArg BytesOut.vault hw).symm

@[simp] theorem State.planStart_vault (s : State) (n : Nat) (ws w : List W64) : (s.planStart n ws w).vault = s.vault := by
  unfold State.planStart
  dsimp only
  repeat' split
  all_goals simp

@[simp] theorem State.collectiveTake_vault (s : State) (n : Nat) (ws : List W64) : (s.collectiveTake n ws).vault = s.vault := by
  unfold State.collectiveTake
  dsimp only
  split
  · simp
  split <;> rename_i h <;> have hv := by simpa using (congrArg WordsOut.vault h).symm
  · simpa using hv
  · simpa using hv
  split
  · split <;> simpa using hv
  · split <;> next hw => simpa [hv] using (congrArg WordsOut.vault hw).symm

@[simp] theorem State.collectiveGo_vault (s : State) (n : Nat) : (s.collectiveGo n).vault = s.vault := by
  refine foldl_keeps State.vault _ (fun t f => ?_) _ s
  have hp : (t.plans.foldl (fun (u : State) e => e.2.foldl (fun (x : State) p =>
      if p.stream = n ∧ p.addr = f.addr then x.planGo e.1 p.cid else x) u) t).vault = t.vault := by simp
  dsimp only
  split
  · rw [State.settle_vault, hp]
  · exact hp

/-! ### Operations of Machine/DieOps.lean -/

@[simp] theorem State.setAct_vault (s : State) (a : Act) : (s.setAct a).vault = s.vault := (rfl)

@[simp] theorem State.endAct_vault (s : State) (a : Act) (status : Nat) (result : List Byte) : (s.endAct a status result).vault = s.vault := by
  unfold State.endAct
  dsimp only
  split <;> simp

@[simp] theorem State.failActs_vault (s : State) (p : Act → Bool) : (s.failActs p).vault = s.vault := by
  simp [State.failActs]

@[simp] theorem State.returnHeld_vault (s0 : State) (p : Source → Bool) : (s0.returnHeld p).vault = s0.vault := by
  simp [State.returnHeld]

@[simp] theorem State.dropRefused_vault (s : State) (p : Req → Bool) : (s.dropRefused p).vault = s.vault := (rfl)

@[simp] theorem State.loseStands_vault (s : State) (die tile : Nat) : (s.loseStands die tile).vault = s.vault := by
  simp [State.loseStands]

@[simp] theorem State.launchesCheck_vault (s : State) : s.launchesCheck.vault = s.vault := by
  simp [State.launchesCheck]

@[simp] theorem State.resetDie_vault (s : State) (n : Nat) : (s.resetDie n).vault = s.vault := by
  simp [State.resetDie]

@[simp] theorem State.resetDone_vault (s : State) (n kind : Nat) : (s.resetDone n kind).vault = s.vault := by
  simp [State.resetDone]

@[simp] theorem State.dieGone_vault (s : State) (n kind : Nat) : (s.dieGone n kind).vault = s.vault := by
  unfold State.dieGone
  dsimp only
  split <;> simp

@[simp] theorem State.tileGone_vault (s : State) (die tile : Nat) : (s.tileGone die tile).vault = s.vault := by
  simp [State.tileGone]

@[simp] theorem State.dropAgentLine_vault (s : State) (a line : Nat) : (s.dropAgentLine a line).vault = s.vault := by
  simp [State.dropAgentLine]

@[simp] theorem State.homesGone_vault (s : State) (n : Nat) : (s.homesGone n).vault = s.vault := by
  simp [State.homesGone]

/-! ### Operations of Machine/Maint.lean -/

@[simp] theorem State.chanState_vault (s : State) (die k st logical : Nat) : (s.chanState die k st logical).vault = s.vault := by
  simp [State.chanState]

@[simp] theorem State.flagF_vault (s : State) (die : Nat) : (s.flagF die).vault = s.vault := (rfl)

@[simp] theorem State.evacBegin_vault (s : State) (a : Act) : (s.evacBegin a).vault = s.vault := by
  simp [State.evacBegin]

@[simp] theorem State.retireBegin_vault (s : State) (a : Act) : (s.retireBegin a).vault = s.vault := by
  simp [State.retireBegin]

@[simp] theorem State.actBegin_vault (s : State) (a0 : Act) : (s.actBegin a0).vault = s.vault := by
  unfold State.actBegin
  dsimp only
  repeat' split
  all_goals simp

@[simp] theorem State.actAccept_vault (s : State) (code die t4 t5 origin hold : Nat) (bare : Bool) :
    (s.actAccept code die t4 t5 origin hold bare).vault = s.vault := by
  simp [State.actAccept]

@[simp] theorem State.firmAct_vault (s : State) (code die t4 t5 : Nat) : (s.firmAct code die t4 t5).vault = s.vault := by
  simp [State.firmAct]

@[simp] theorem State.portAct_vault (s : State) (p : Port) (code die t4 t5 : Nat) (bare : Bool) :
    (s.portAct p code die t4 t5 bare).vault = s.vault := by
  unfold State.portAct
  repeat' split
  all_goals simp

@[simp] theorem doMaintStart_vault (p : Port) (k : Packet) (s : State) : (doMaintStart p k s).vault = s.vault := by
  unfold doMaintStart
  dsimp only
  split
  · rfl
  split
  · rfl
  · split
    · rfl
    · exact s.portAct_vault p _ _ _ _ _

@[simp] theorem State.maintStart_vault (s : State) (code : Nat) (p : Port) (k : Packet) : (s.maintStart code p k).vault = s.vault := by
  unfold State.maintStart
  dsimp only
  split
  · rfl
  · exact State.ebior_keeps (doMaintStart_vault p k) s _ p k

@[simp] theorem State.activity_vault (s : State) (code : Nat) (fw : State → Bool) (q : ActReq) : (s.activity code fw q).vault = s.vault := by
  unfold State.activity
  split
  · simp
  · split <;> simp

@[simp] theorem doDieReset_vault (p : Port) (k : Packet) (s : State) : (doDieReset p k s).vault = s.vault := by
  unfold doDieReset
  dsimp only
  split
  · rfl
  · exact s.portAct_vault p _ _ _ _ _

@[simp] theorem doMaintAbort_vault (k : Packet) (s : State) : (doMaintAbort k s).vault = s.vault := by
  unfold doMaintAbort
  repeat' split
  all_goals simp

@[simp] theorem State.countFix_vault (s : State) (p : Place) (b : Nat) : (s.countFix p b).vault = s.vault := by
  simp [State.countFix]

@[simp] theorem State.scrubWhere_vault (s : State) (p : Place → Bool) : (s.scrubWhere p).1.vault = s.vault := by
  refine foldl_fixes (fun x : State × Nat × Nat => x.1.vault) _ (fun x e => ?_) _ _
  dsimp only
  split
  · split <;> simp
  · rfl

@[simp] theorem State.wayTestEnd_vault (s : State) (a : Act) (passed : Bool) : (s.wayTestEnd a passed).vault = s.vault := by
  simp [State.wayTestEnd]

@[simp] theorem State.evacEnd_vault (s : State) (a : Act) : (s.evacEnd a).vault = s.vault := by
  simp [State.evacEnd]

@[simp] theorem State.actEnd_vault (s : State) (a : Act) (passed : Bool) (result : List Byte) : (s.actEnd a passed result).vault = s.vault := by
  unfold State.actEnd
  split <;> simp

@[simp] theorem State.chanFaulty_vault (s : State) (die k : Nat) : (s.chanFaulty die k).vault = s.vault := by
  simp [State.chanFaulty]

@[simp] theorem State.permanent_vault (s : State) (row die obj : Nat) : (s.permanent row die obj).vault = s.vault := by
  unfold State.permanent
  split <;> simp

@[simp] theorem State.visitCrc_vault (s : State) (p : Place → Bool) (crc : List (Nat × Nat)) : (s.visitCrc p crc).vault = s.vault := by
  simp [State.visitCrc]

/-! ### Operations of Machine/DebugCmds.lean -/

@[simp] theorem State.dbgEnd_vault (s : State) (err : Nat) : (s.dbgEnd err).vault = s.vault := (rfl)
@[simp] theorem State.dbgData_vault (s : State) (v : W64) : (s.dbgData v).vault = s.vault := (rfl)

@[simp] theorem State.dbgLoad_vault (s : State) (q : DbgReq) : (s.dbgLoad q).vault = s.vault := by
  unfold State.dbgLoad
  split <;> simp

@[simp] theorem State.dbgSetReg_vault (s : State) (q : DbgReq) (v : W64) : (s.dbgSetReg q v).vault = s.vault := by
  simp [State.dbgSetReg]

@[simp] theorem State.dbgTiles_vault (s : State) (q : DbgReq) (f : Tile → Tile) : (s.dbgTiles q f).vault = s.vault := by
  simp [State.dbgTiles]

/-! ### Operations of Machine/Tally.lean -/

@[simp] theorem doTelemetryRead_vault (_p : Port) (k : Packet) (s : State) : (doTelemetryRead _p k s).vault = s.vault := by
  unfold doTelemetryRead
  dsimp only
  repeat' split
  all_goals simp

@[simp] theorem doEventLogRead_vault (_p : Port) (k : Packet) (s : State) : (doEventLogRead _p k s).vault = s.vault := (rfl)

@[simp] theorem doTimeSet_vault (_p : Port) (k : Packet) (s : State) : (doTimeSet _p k s).vault = s.vault := by
  unfold doTimeSet
  dsimp only
  repeat' split
  all_goals simp

@[simp] theorem doTimeRead_vault (_p : Port) (_k : Packet) (s : State) : (doTimeRead _p _k s).vault = s.vault := (rfl)

/-! ### Operations of Machine/Regs.lean -/

@[simp] theorem State.regReadEffect_vault (s : State) (pa : Nat) : (s.regReadEffect pa).vault = s.vault := by
  simp [State.regReadEffect]

@[simp] theorem State.onCore_vault (s : State) (core : Nat) (f : NCore → NCore) : (s.onCore core f).vault = s.vault := (rfl)

@[simp] theorem State.csrWrite_vault (s : State) (core num : Nat) (v : W64) : (s.csrWrite core num v).vault = s.vault := by
  simp [State.csrWrite]

@[simp] theorem State.windowWrite_vault (s : State) (p : Port) (o : Nat) (v : W64) : (s.windowWrite p o v).vault = s.vault := by
  simp [State.windowWrite]

@[simp] theorem State.regWrite_vault (s : State) (machine : Bool) (pa : Nat) (v : W64) : (s.regWrite machine pa v).vault = s.vault := by
  simp [State.regWrite]

/-! ### Operations of Machine/NodeCmds.lean -/

@[simp] theorem State.fenceOn_vault (s : State) (core : Nat) (f : CoreFence) : (s.fenceOn core f).vault = s.vault := (rfl)
@[simp] theorem State.coreFence_vault (s : State) (core sets : Nat) : (s.coreFence core sets).vault = s.vault := (rfl)

@[simp] theorem State.afterAq_vault (s : State) (core : Nat) (a : NodeAccess) : (s.afterAq core a).vault = s.vault := by
  simp [State.afterAq]

@[simp] theorem State.coreAccess_vault (s : State) (core space va pa : Nat) (kind : AccKind) (off : Option Nat) (a : NodeAccess) :
    (s.coreAccess core space va pa kind off a).vault = s.vault := by
  simp [State.coreAccess]

@[simp] theorem State.coherentAccess_vault (s : State) (core : Nat) (off : Option Nat) (a : NodeAccess) :
    (s.coherentAccess core off a).vault = s.vault := by
  unfold State.coherentAccess
  dsimp only
  split
  · rfl
  · split <;> simp

@[simp] theorem State.strayAccess_vault (s : State) (core : Nat) (off : Option Nat) (a : NodeAccess) :
    (s.strayAccess core off a).vault = s.vault := by
  simp [State.strayAccess]

@[simp] theorem State.regLoad_vault (s : State) (core : Nat) (a : NodeAccess) : (s.regLoad core a).vault = s.vault := by
  simp [State.regLoad]

@[simp] theorem State.regStore_vault (s : State) (a : NodeAccess) : (s.regStore a).vault = s.vault := by
  simp [State.regStore]

@[simp] theorem State.coreAnswer_vault (s : State) (core : Nat) (off : Option Nat) (a : NodeAccess) (res : AccResult) :
    (s.coreAnswer core off a res).vault = s.vault := by
  unfold State.coreAnswer
  split <;> simp

@[simp] theorem State.cachedPart_vault (s : State) (core : Nat) (off : Option Nat) (a : NodeAccess) :
    (s.cachedPart core off a).2.vault = s.vault := by
  have hg : (match s.coherentAccess core off a with
      | .go t => (true, t)
      | .answer res t => (true, t.coreAnswer core off a res)
      | .refused t => (false, t)).2.vault = s.vault := by
    split <;> next h => simpa using (congrArg Gate.vault h).symm
  unfold State.cachedPart
  dsimp only
  split
  · split
    · simp
    · exact hg
  · split
    · simp
    · exact hg
  · split
    · simp
    · exact hg
  · exact hg
  · split <;> simp
  · rfl
  · rfl

@[simp] theorem State.partsRun_vault (s : State) (core : Nat) (ps : List (Option Nat × NodeAccess)) :
    (s.partsRun core ps).2.vault = s.vault := by
  refine foldl_fixes (fun x : Bool × State => x.2.vault) _ (fun x p => ?_) ps _
  split <;> simp

@[simp] theorem State.refusedAs_vault (s t : State) : (s.refusedAs t).vault = s.vault := (rfl)

@[simp] theorem State.coreMemory_vault (s : State) (core : Nat) (a : NodeAccess) : (s.coreMemory core a).vault = s.vault := by
  simp [State.coreMemory]

@[simp] theorem State.aperturePend_vault (s : State) (va : Nat) (need : BitVec 3) : (s.aperturePend va need).vault = s.vault := by
  unfold State.aperturePend
  dsimp only
  repeat' split
  all_goals simp

@[simp] theorem State.apertureXlat_vault (s : State) (need : Nat) (vas : List Nat) : (s.apertureXlat need vas).vault = s.vault := by
  refine foldl_fixes ApOut.vault _ (fun x va => ?_) vas _
  dsimp only
  split
  · rfl
  · split
    · simp
    · simp
    · split <;> simp

/-! ### Operations of Machine/ResumeCmds.lean -/

@[simp] theorem State.actsResume_vault (s : State) : s.actsResume.vault = s.vault := by
  simp [State.actsResume]

@[simp] theorem State.lateHints_vault (s : State) : s.lateHints.vault = s.vault := (rfl)

@[simp] theorem State.ridgeResume_vault (s : State) : s.ridgeResume.vault = s.vault := by
  simp [State.ridgeResume]

@[simp] theorem State.leaveHalt_vault (s : State) : s.leaveHalt.vault = s.vault := by
  simp [State.leaveHalt]

/-! ### Operations of Machine/TimeCmds.lean -/

@[simp] theorem State.steer_vault (s : State) (e : Int) : (s.steer e).vault = s.vault := by
  simp [State.steer]

@[simp] theorem State.takeBeacon_vault (s : State) (b : Beacon) : (s.takeBeacon b).vault = s.vault := by
  simp [State.takeBeacon]

@[simp] theorem State.skipPeriod_vault (s : State) : s.skipPeriod.vault = s.vault := by
  simp [State.skipPeriod]

@[simp] theorem State.telemetryLanded_vault (s : State) (used thr : Nat) : (s.telemetryLanded used thr).vault = s.vault := by
  simp [State.telemetryLanded]

end Sys2Proof.Machine
end

section
/-! SUPPORT. The vault through every command. -/

namespace Sys2Proof.Machine

/-- An answer keeps the vault: the queue, the fuses and the safety registers stand in it as before. -/
def KeepsVault (s : State) (o : Host.Outcome State Fault Refusal) : Prop := ∀ t, o = .next t → t.vault = s.vault

@[simp] theorem keepsVault_next (s t : State) : KeepsVault s (.next t) ↔ t.vault = s.vault := by simp [KeepsVault]
@[simp] theorem keepsVault_fault (s : State) (r : Fault) : KeepsVault s (.fault r) := by simp [KeepsVault]
@[simp] theorem keepsVault_when (c : Bool) (f : State → State) (s : State) : KeepsVault s (when_ c f s) ↔ (c = true → (f s).vault = s.vault) := by
  unfold when_
  cases c <;> simp

/-! ### Commands of Machine/CrewIssue.lean -/

@[simp] theorem State.formatA_keepsVault (s : State) (c : CrewId) (w : W64) (op : Nat) (f : Nat → Nat → Nat → Nat → Nat) :
    KeepsVault s (s.formatA c w op f) := by
  simp [State.formatA]

@[simp] theorem State.formatP_keepsVault (s : State) (c : CrewId) (w : W64) (op : Nat) (f : Nat → Nat → Nat → Nat → Bool) :
    KeepsVault s (s.formatP c w op f) := by
  simp [State.formatP]

/-! ### Commands of Machine/XlateCmds.lean -/

theorem execTranslationMiss_keepsVault (id : Nat) (s : State) : KeepsVault s (execTranslationMiss id s) := by
  refine (keepsVault_when _ _ s).2 fun _ => ?_
  dsimp only
  repeat' split
  all_goals simp

theorem execWalkComplete_keepsVault (index : Nat) (s : State) : KeepsVault s (execWalkComplete index s) := by
  refine (keepsVault_when _ _ s).2 fun _ => ?_
  dsimp only
  repeat' split
  all_goals simp

theorem execRequestRecordWrite_keepsVault (index : Nat) (s : State) : KeepsVault s (execRequestRecordWrite index s) := by
  refine (keepsVault_when _ _ s).2 fun _ => ?_
  dsimp only
  split <;> simp

theorem execFillComplete_keepsVault (index : Nat) (s : State) : KeepsVault s (execFillComplete index s) := by
  refine (keepsVault_when _ _ s).2 fun _ => ?_
  split
  · rfl
  · split
    · rfl
    · refine foldl_keeps State.vault _ (fun t w => ?_) _ _
      split <;> simp

@[simp] theorem State.xltReply_keepsVault {f : State → Nat → PEntry → State} (hf : ∀ u k e, (f u k e).vault = u.vault) (s : State)
    (pid : BitVec 16) : KeepsVault s (s.xltReply pid f) := by
  refine (keepsVault_when _ _ s).2 fun _ => ?_
  dsimp only
  split
  · split <;> simp [hf]
  · simp

theorem execInvalidationComplete_keepsVault (s : State) : KeepsVault s (execInvalidationComplete s) := by
  refine (keepsVault_when _ _ s).2 fun _ => ?_
  split <;> simp

/-! ### Commands of Machine/AdmitCmds.lean -/

theorem execTokenReturn_keepsVault (id : Nat) (l : Level) (s : State) : KeepsVault s (execTokenReturn id l s) := by
  refine (keepsVault_when _ _ s).2 fun _ => ?_
  repeat' split
  all_goals simp

theorem execRetryBackoffExpiry_keepsVault (id : Nat) (s : State) : KeepsVault s (execRetryBackoffExpiry id s) := by
  refine (keepsVault_when _ _ s).2 fun _ => ?_
  repeat' split
  all_goals simp

theorem execL1FillReturn_keepsVault (id : Nat) (s : State) : KeepsVault s (execL1FillReturn id s) := by
  refine (keepsVault_when _ _ s).2 fun _ => ?_
  repeat' split
  all_goals simp

theorem execAccessCompletionReceive_keepsVault (id : Nat) (s : State) : KeepsVault s (execAccessCompletionReceive id s) := by
  refine (keepsVault_when _ _ s).2 fun _ => ?_
  repeat' split
  all_goals simp

theorem execRidgeRequestBoundExpiry_keepsVault (q : Overdue) (s : State) : KeepsVault s (execRidgeRequestBoundExpiry q s) := by
  refine (keepsVault_when _ _ s).2 fun _ => ?_
  repeat' split
  all_goals simp

/-! ### Commands of Machine/Boot.lean -/

theorem execPortLinkBringup_keepsVault (offers : List LinkOffer) (s : State) : KeepsVault s (execPortLinkBringup offers s) := by
  refine (keepsVault_when _ _ s).2 fun _ => ?_
  split <;> simp

theorem execMemoryBringupEnd_keepsVault (outcomes : List ChanOutcome) (s : State) : KeepsVault s (execMemoryBringupEnd outcomes s) := by
  refine (keepsVault_when _ _ s).2 fun _ => ?_
  dsimp only
  split <;> simp

/-! ### Commands of Machine/CrewMem.lean -/

theorem execLd_keepsVault (c : CrewId) (w : W64) (lost : List Nat) (s : State) : KeepsVault s (execLd c w lost s) := by
  refine (keepsVault_next s _).2 (State.issue_vault (fun u i => ?_) s c w _)
  dsimp only
  split
  · simp
  · rw [State.laneEnd_vault]
    exact foldl_fixes (fun x : State × Crew × List (Nat × Nat × W64) => x.1.vault) _ (localLoad_vault i _) _ _

/-! ### Commands of Machine/CrewControl.lean -/

theorem execCall_keepsVault (c : CrewId) (w : W64) (s : State) : KeepsVault s (execCall c w s) := by
  refine (keepsVault_next s _).2 (State.issue_vault (fun u i => ?_) s c w _)
  dsimp only
  split <;> simp

theorem execRet_keepsVault (c : CrewId) (w : W64) (s : State) : KeepsVault s (execRet c w s) := by
  refine (keepsVault_next s _).2 (State.issue_vault (fun u i => ?_) s c w _)
  split <;> simp

theorem execBwait_keepsVault (c : CrewId) (w : W64) (s : State) : KeepsVault s (execBwait c w s) := by
  refine (keepsVault_next s _).2 (State.issue_vault (fun u i => ?_) s c w _)
  split <;> simp

theorem execWaitf_keepsVault (c : CrewId) (w : W64) (s : State) : KeepsVault s (execWaitf c w s) := by
  refine (keepsVault_next s _).2 (State.issue_vault (fun u i => ?_) s c w _)
  dsimp only
  split <;> simp

theorem execWaitConditionMet_keepsVault (c : CrewId) (s : State) : KeepsVault s (execWaitConditionMet c s) := by
  refine (keepsVault_next s _).2 ?_
  dsimp only
  repeat' split
  all_goals simp

/-! ### Commands of Machine/Matrix.lean -/

@[simp] theorem State.matrixIssue_keepsVault (s : State) (c : CrewId) (w : W64) (op : Nat) : KeepsVault s (s.matrixIssue c w op) := by
  refine (keepsVault_next s _).2 (State.issueIf_vault (fun u i => ?_) s c w _ _)
  dsimp only
  split
  · simp
  · split
    · simp
    · split <;> simp

theorem execMatrixStart_keepsVault (die tile : Nat) (transfer : Bool) (s : State) : KeepsVault s (execMatrixStart die tile transfer s) := by
  refine (keepsVault_when _ _ s).2 fun _ => ?_
  dsimp only
  repeat' split
  all_goals simp

theorem execMatrixComplete_keepsVault (die tile : Nat) (transfer : Bool) (s : State) : KeepsVault s (execMatrixComplete die tile transfer s) := by
  refine (keepsVault_when _ _ s).2 fun _ => ?_
  dsimp only
  split <;> simp

/-! ### Commands of Machine/Element.lean -/

@[simp] theorem State.elementIssue_keepsVault (s : State) (c : CrewId) (w : W64) (op : Nat)
    (check : State → Issue → EInstr → Option (Nat × Nat)) : KeepsVault s (s.elementIssue c w op check) := by
  refine (keepsVault_next s _).2 (State.issueIf_vault (fun u i => ?_) s c w _ _)
  dsimp only
  split <;> simp

theorem execElementStart_keepsVault (die tile : Nat) (s : State) : KeepsVault s (execElementStart die tile s) := by
  refine (keepsVault_when _ _ s).2 fun _ => ?_
  dsimp only
  split <;> simp

theorem execElementComplete_keepsVault (die tile : Nat) (bad : Bool) (s : State) : KeepsVault s (execElementComplete die tile bad s) := by
  refine (keepsVault_when _ _ s).2 fun _ => ?_
  dsimp only
  repeat' split
  all_goals simp

/-! ### Commands of Machine/Traps.lean -/

@[simp] theorem State.answer_keepsVault {f : State → CrewId → Crew → Trap → State} (hf : ∀ u c v t, (f u c v t).vault = u.vault) (s : State)
    (die : Nat) (id : BitVec 17) : KeepsVault s (s.answer die id f) := by
  refine (keepsVault_next s _).2 ?_
  dsimp only
  split
  · rfl
  split
  · split
    · split <;> simp [hf]
    · simp
  · simp

theorem execTrapRecordWrite_keepsVault (die : Nat) (s : State) : KeepsVault s (execTrapRecordWrite die s) := by
  refine (keepsVault_when _ _ s).2 fun _ => ?_
  repeat' split
  all_goals simp

/-! ### Commands of Machine/Bucker.lean -/

theorem execBuckerTurn_keepsVault (b : BuckerId) (count : Nat) (s : State) : KeepsVault s (execBuckerTurn b count s) := by
  refine (keepsVault_when _ _ s).2 fun _ => ?_
  split
  · rfl
  · dsimp only
    split <;> next h => simpa using (congrArg UnitOut.vault h).symm

theorem execIndexListRead_keepsVault (b : BuckerId) (s : State) : KeepsVault s (execIndexListRead b s) := by
  refine (keepsVault_when _ _ s).2 fun _ => ?_
  dsimp only
  repeat' split
  all_goals simp

theorem execFlaggedFinalWrite_keepsVault (b : BuckerId) (serial : Nat) (s : State) : KeepsVault s (execFlaggedFinalWrite b serial s) := by
  refine (keepsVault_when _ _ s).2 fun _ => ?_
  split <;> simp

theorem execDescriptorComplete_keepsVault (b : BuckerId) (serial : Nat) (s : State) : KeepsVault s (execDescriptorComplete b serial s) := by
  refine (keepsVault_when _ _ s).2 fun _ => ?_
  repeat' split
  all_goals simp

theorem execCopyDataPathError_keepsVault (b : BuckerId) (serial cause addr : Nat) (s : State) :
    KeepsVault s (execCopyDataPathError b serial cause addr s) := by
  refine (keepsVault_when _ _ s).2 fun _ => ?_
  dsimp only
  split <;> simp

theorem execHeavyBuckerTake_keepsVault (die b n addr : Nat) (s : State) : KeepsVault s (execHeavyBuckerTake die b n addr s) := by
  refine (keepsVault_when _ _ s).2 fun _ => ?_
  dsimp only
  split
  · rfl
  split
  · rfl
  split <;> rename_i h <;> have hv := (congrArg WordsOut.vault h).symm
  case h_5 => split <;> simpa using hv
  all_goals simpa using hv

/-! ### Commands of Machine/CacheCmds.lean -/

theorem execHomeAccess_keepsVault (id : Nat) (errs : AccErrs) (s : State) : KeepsVault s (execHomeAccess id errs s) := by
  refine (keepsVault_when _ _ s).2 fun _ => ?_
  split <;> simp

theorem execL2FillReturn_keepsVault (line : Nat) (crc : List Nat) (s : State) : KeepsVault s (execL2FillReturn line crc s) := by
  refine (keepsVault_when _ _ s).2 fun _ => ?_
  dsimp only
  repeat' split
  all_goals simp

theorem execEvictionWriteIssue_keepsVault (line : Nat) (crc : List Nat) (s : State) : KeepsVault s (execEvictionWriteIssue line crc s) := by
  refine (keepsVault_when _ _ s).2 fun _ => ?_
  dsimp only
  split <;> simp

/-! ### Commands of Machine/CohCmds.lean -/

/-- A message that comes leaves the vault to what its receiver does. -/
@[simp] theorem State.onMsg_keepsVault {s : State} {f : State → State} (hf : ∀ t, t.vault = s.vault → (f t).vault = s.vault) (m : CMsg)
    (ok : Bool) : KeepsVault s (s.onMsg m ok f) := by
  unfold State.onMsg
  split
  · next t h =>
    have ht : t.vault = s.vault := by
      unfold State.takeMsg at h
      split at h
      · cases h
        rfl
      · cases h
    exact (keepsVault_when _ _ s).2 fun _ => hf t ht
  · simp

@[simp] theorem State.homeMsg_keepsVault (s : State) (op : MsgOp) (m : CMsg) (errs : AccErrs) : KeepsVault s (s.homeMsg op m errs) := by
  simp [State.homeMsg]

@[simp] theorem State.agentMsg_keepsVault {s : State} {f : State → State} (hf : ∀ t, t.vault = s.vault → (f t).vault = s.vault) (m : CMsg)
    (ok : Bool) : KeepsVault s (s.agentMsg m ok f) := State.onMsg_keepsVault hf m _

theorem execInvack_keepsVault (m : CMsg) (s : State) : KeepsVault s (execInvack m s) := by
  unfold execInvack
  split <;> simp

theorem execFwddone_keepsVault (m : CMsg) (s : State) : KeepsVault s (execFwddone m s) := by
  refine State.onMsg_keepsVault (fun t ht => ?_) m _
  split
  · split <;> simp [ht]
  · exact ht

/-- What a home leaves when data it waited for comes. -/
theorem State.homeData_vault {s t : State} {line a : Nat} {d : Option Line} (h : s.homeData? line a d = some t) : t.vault = s.vault := by
  unfold State.homeData? at h
  split at h
  · cases h
    rfl
  split at h
  · cases h
    rfl
  dsimp only at h
  split at h
  · split at h
    · split at h
      · obtain ⟨u, hu, rfl⟩ := Option.map_eq_some_iff.1 h
        simp [State.homeVictim_vault hu]
      · split at h <;> cases h <;> simp
    · obtain ⟨u, hu, rfl⟩ := Option.map_eq_some_iff.1 h
      simp [State.homeVictim_vault hu]
  · obtain ⟨u, hu, rfl⟩ := Option.map_eq_some_iff.1 h
    simp [State.homeVictim_vault hu]
  · cases h
    simp

theorem State.homeData_getD_vault {s t u : State} {line a : Nat} {d : Option Line} (ht : t.vault = s.vault) (hu : u.vault = s.vault) :
    ((t.homeData? line a d).getD u).vault = s.vault := by
  cases h : t.homeData? line a d with
  | none => exact hu
  | some x => exact (State.homeData_vault h).trans ht

theorem execWbd_keepsVault (m : CMsg) (s : State) : KeepsVault s (execWbd m s) :=
  State.onMsg_keepsVault (fun _ ht => State.homeData_getD_vault ht rfl) m _

theorem execRspi_keepsVault (m : CMsg) (s : State) : KeepsVault s (execRspi m s) :=
  State.onMsg_keepsVault (fun _ ht => State.homeData_getD_vault ht ht) m _

theorem execCack_keepsVault (m : CMsg) (s : State) : KeepsVault s (execCack m s) := by
  refine State.onMsg_keepsVault (fun t ht => ?_) m _
  split
  · split
    · split <;> simp [ht]
    · exact ht
  · exact ht

@[simp] theorem State.hostSnoop_keepsVault (s : State) (op half : Nat) : KeepsVault s (s.hostSnoop op half) := by
  simp [State.hostSnoop]

theorem execGoReceive_keepsVault (half : Nat) (g : Go) (s : State) : KeepsVault s (execGoReceive half g s) := by
  refine (keepsVault_when _ _ s).2 fun _ => ?_
  dsimp only
  repeat' split
  all_goals simp

theorem execHostDataReceive_keepsVault (half : Nat) (data : BitVec 512) (poisoned : Bool) (s : State) :
    KeepsVault s (execHostDataReceive half data poisoned s) := by
  refine (keepsVault_when _ _ s).2 fun _ => ?_
  dsimp only
  repeat' split
  all_goals simp

/-! ### Commands of Machine/StreamCmds.lean -/

theorem execStreamCloseDrained_keepsVault (n : Nat) (s : State) : KeepsVault s (execStreamCloseDrained n s) := by
  refine (keepsVault_when _ _ s).2 fun _ => ?_
  split <;> simp

theorem execMigrateDrained_keepsVault (n : Nat) (s : State) : KeepsVault s (execMigrateDrained n s) := by
  refine (keepsVault_when _ _ s).2 fun _ => ?_
  dsimp only
  split <;> simp

theorem execStreamDrainTimeout_keepsVault (n : Nat) (s : State) : KeepsVault s (execStreamDrainTimeout n s) := by
  refine (keepsVault_when _ _ s).2 fun _ => ?_
  dsimp only
  split <;> simp

theorem execParkEntry_keepsVault (s : State) : KeepsVault s (execParkEntry s) := by
  refine (keepsVault_when _ _ s).2 fun _ => ?_
  split <;> simp

/-! ### Commands of Machine/Dispatcher.lean -/

theorem execRecordComplete_keepsVault (n addr : Nat) (s : State) : KeepsVault s (execRecordComplete n addr s) := by
  refine (keepsVault_when _ _ s).2 fun _ => ?_
  dsimp only
  split
  · rfl
  split
  · split <;> simp
  split
  · rfl
  split <;> rename_i h <;> have hv := (congrArg BytesOut.vault h).symm
  case h_2 => split <;> simpa using hv
  case h_3 => split <;> simpa using hv
  all_goals simpa using hv

/-! ### Commands of Machine/Power.lean -/

theorem execMarginLow_keepsVault (die tile : Nat) (covered : Bool) (s : State) : KeepsVault s (execMarginLow die tile covered s) := by
  unfold execMarginLow
  repeat' split
  all_goals simp

/-! ### Commands of Machine/Records.lean -/

theorem execLaunch_keepsVault (n : Nat) (s : State) : KeepsVault s (execLaunch n s) := by
  refine (keepsVault_next s _).2 (State.take_vault (fun u ws => ?_) s n _)
  split <;> simp

theorem execStandPlace_keepsVault (launch die tile : Nat) (s : State) : KeepsVault s (execStandPlace launch die tile s) := by
  refine (keepsVault_when _ _ s).2 fun _ => ?_
  repeat' split
  all_goals simp

theorem execCopy_keepsVault (n : Nat) (s : State) : KeepsVault s (execCopy n s) := by
  refine (keepsVault_next s _).2 (State.take_vault (fun u ws => ?_) s n _)
  dsimp only
  split
  · simp
  · split <;> simp

theorem execWaitTimeout_keepsVault (n : Nat) (s : State) : KeepsVault s (execWaitTimeout n s) := by
  refine (keepsVault_when _ _ s).2 fun _ => ?_
  split <;> simp

theorem execPhaseHint_keepsVault (n : Nat) (s : State) : KeepsVault s (execPhaseHint n s) := by
  refine (keepsVault_next s _).2 (State.take_vault (fun u ws => ?_) s n _)
  dsimp only
  split
  · simp
  split
  · simp
  · split <;> simp

theorem execOpRequest_keepsVault (n : Nat) (s : State) : KeepsVault s (execOpRequest n s) := by
  refine (keepsVault_next s _).2 (State.take_vault (fun u ws => ?_) s n _)
  dsimp only
  split
  · simp
  · split <;> simp

/-! ### Commands of Machine/Ridge.lean -/

theorem execLinkTrainingEnd_keepsVault (link : Nat) (lanes : BitVec 4) (peer : Nat) (s : State) :
    KeepsVault s (execLinkTrainingEnd link lanes peer s) := by
  refine (keepsVault_when _ _ s).2 fun _ => ?_
  dsimp only
  split <;> simp

theorem execLinkRetrainEnd_keepsVault (link : Nat) (lanes : BitVec 4) (s : State) : KeepsVault s (execLinkRetrainEnd link lanes s) := by
  refine (keepsVault_when _ _ s).2 fun _ => ?_
  dsimp only
  split <;> simp

theorem execRidgeMessageArrive_keepsVault (link : Nat) (m : RMsg) (s : State) : KeepsVault s (execRidgeMessageArrive link m s) := by
  refine (keepsVault_when _ _ s).2 fun _ => ?_
  repeat' split
  all_goals simp

/-! ### Commands of Machine/Collective.lean -/

theorem execChunkReceive_keepsVault (die : Nat) (bytes : List Byte) (s : State) : KeepsVault s (execChunkReceive die bytes s) := by
  refine (keepsVault_when _ _ s).2 fun _ => ?_
  dsimp only
  split
  · simp
  split <;> rename_i h <;> have hv := (congrArg ChunkOut.vault h).symm
  · simpa using hv
  · split <;> simpa using hv

theorem execChunkHoldExpiry_keepsVault (die cid chunk : Nat) (s : State) : KeepsVault s (execChunkHoldExpiry die cid chunk s) := by
  refine (keepsVault_when _ _ s).2 fun _ => ?_
  split <;> simp

theorem execChunkAnswer_keepsVault (die cid step chunk : Nat) (a : ChunkAns) (s : State) : KeepsVault s (execChunkAnswer die cid step chunk a s) := by
  refine (keepsVault_when _ _ s).2 fun _ => ?_
  repeat' split
  all_goals simp

theorem execStepTimeout_keepsVault (die cid step : Nat) (s : State) : KeepsVault s (execStepTimeout die cid step s) := by
  refine (keepsVault_when _ _ s).2 fun _ => ?_
  repeat' split
  all_goals simp

theorem execPlanComplete_keepsVault (die cid : Nat) (s : State) : KeepsVault s (execPlanComplete die cid s) := by
  refine (keepsVault_when _ _ s).2 fun _ => ?_
  split <;> simp

/-! ### Commands of Machine/JobStart.lean -/

theorem execStartMsg_keepsVault (m : StartMsg) (s : State) : KeepsVault s (execStartMsg m s) := by
  refine (keepsVault_when _ _ s).2 fun _ => ?_
  repeat' split
  all_goals simp

theorem execStartAck_keepsVault (bid child : Nat) (s : State) : KeepsVault s (execStartAck bid child s) := by
  refine (keepsVault_when _ _ s).2 fun _ => ?_
  repeat' split
  all_goals simp

theorem execDoneMsg_keepsVault (bid child : Nat) (s : State) : KeepsVault s (execDoneMsg bid child s) := by
  refine (keepsVault_when _ _ s).2 fun _ => ?_
  split <;> simp

theorem execUnreached_keepsVault (bid member : Nat) (s : State) : KeepsVault s (execUnreached bid member s) := by
  refine (keepsVault_when _ _ s).2 fun _ => ?_
  split <;> simp

theorem execRefeed_keepsVault (m : StartMsg) (s : State) : KeepsVault s (execRefeed m s) := by
  refine (keepsVault_when _ _ s).2 fun _ => ?_
  repeat' split
  all_goals simp

theorem execRefeedDone_keepsVault (bid alt member : Nat) (s : State) : KeepsVault s (execRefeedDone bid alt member s) := by
  refine (keepsVault_when _ _ s).2 fun _ => ?_
  split <;> simp

theorem execTackTimeout_keepsVault (bid child : Nat) (s : State) : KeepsVault s (execTackTimeout bid child s) := by
  refine (keepsVault_when _ _ s).2 fun _ => ?_
  repeat' split
  all_goals simp

theorem execTdoneTimeout_keepsVault (bid child : Nat) (s : State) : KeepsVault s (execTdoneTimeout bid child s) := by
  refine (keepsVault_when _ _ s).2 fun _ => ?_
  split <;> simp

/-! ### Commands of Machine/DieOps.lean -/

theorem execDieResetDrainEnd_keepsVault (die : Nat) (s : State) : KeepsVault s (execDieResetDrainEnd die s) := by
  refine (keepsVault_when _ _ s).2 fun _ => ?_
  dsimp only
  split <;> simp

/-! ### Commands of Machine/Maint.lean -/

theorem execDieReset_keepsVault (q : DieResetReq) (s : State) : KeepsVault s (execDieReset q s) := by
  unfold execDieReset
  split <;> simp

theorem execMaintStatus_keepsVault (p : Port) (k : Packet) (s : State) : KeepsVault s (execMaintStatus p k s) := by
  simp [execMaintStatus]

theorem execWaitingActivityStart_keepsVault (num : Nat) (s : State) : KeepsVault s (execWaitingActivityStart num s) := by
  refine (keepsVault_when _ _ s).2 fun _ => ?_
  split <;> simp

theorem execChannelRetrainComplete_keepsVault (die chan lrep : Nat) (s : State) : KeepsVault s (execChannelRetrainComplete die chan lrep s) := by
  refine (keepsVault_when _ _ s).2 fun _ => ?_
  dsimp only
  split <;> simp

theorem execTileRetireDeadline_keepsVault (die tile : Nat) (s : State) : KeepsVault s (execTileRetireDeadline die tile s) := by
  refine (keepsVault_when _ _ s).2 fun _ => ?_
  split <;> simp

theorem execActivityEnd_keepsVault (num : Nat) (passed : Bool) (result : List Byte) (s : State) :
    KeepsVault s (execActivityEnd num passed result s) := by
  refine (keepsVault_when _ _ s).2 fun _ => ?_
  split <;> simp

/-! ### Commands of Machine/DebugCmds.lean -/

@[simp] theorem State.dbg_keepsVault {f : State → State} (hf : ∀ u, (f u).vault = u.vault) (s : State) (q : DbgReq) (level : Nat) (ok : Bool) :
    KeepsVault s (s.dbg q level ok f) := by
  refine (keepsVault_when _ _ s).2 fun _ => ?_
  split
  · simp
  split
  · simp
  · split <;> simp [hf]

theorem execDbgWrite_keepsVault (q : DbgReq) (s : State) : KeepsVault s (execDbgWrite q s) := by
  refine State.dbg_keepsVault (fun u => ?_) s q _ _
  dsimp only
  rw [State.dbgEnd_vault]
  split
  · split <;> simp
  · simp
  · rfl
  · rfl

theorem execBkset_keepsVault (q : DbgReq) (s : State) : KeepsVault s (execBkset q s) := by
  refine State.dbg_keepsVault (fun u => ?_) s q _ _
  split <;> simp

theorem execInject_keepsVault (q : DbgReq) (s : State) : KeepsVault s (execInject q s) := by
  refine State.dbg_keepsVault (fun u => ?_) s q _ _
  dsimp only
  rw [State.dbgEnd_vault, State.count_vault]
  split
  · simp
  · rfl
  · rfl

/-! ### Commands of Machine/Tally.lean -/

theorem execAvsbusSample_keepsVault (rail : Nat) (f : AvsFrame) (s : State) : KeepsVault s (execAvsbusSample rail f s) := by
  refine (keepsVault_when _ _ s).2 fun _ => ?_
  split <;> simp

/-! ### Commands of Machine/Regs.lean -/

theorem execRegisterWrite_keepsVault (by_ : RegWriter) (addr : Nat) (v : W64) (s : State) : KeepsVault s (execRegisterWrite by_ addr v s) := by
  unfold execRegisterWrite
  split <;> simp

/-! ### Commands of Machine/NodeCmds.lean -/

theorem execNodeCoreAccess_keepsVault (core : Nat) (a : NodeAccess) (s : State) : KeepsVault s (execNodeCoreAccess core a s) := by
  refine (keepsVault_when _ _ s).2 fun _ => ?_
  repeat' split
  all_goals simp

theorem execApertureAccess_keepsVault (core : Nat) (a : NodeAccess) (s : State) : KeepsVault s (execApertureAccess core a s) := by
  refine (keepsVault_when _ _ s).2 fun _ => ?_
  dsimp only
  split
  · simp
  split
  · simp
  split <;> rename_i h <;> have hv := (congrArg ApOut.vault h).symm
  · simpa using hv
  · rw [State.afterAq_vault, State.vault_foldl _ (fun t x => by simp)]
    split <;> simpa using hv

/-! ### Commands of Machine/ResumeCmds.lean -/

theorem execResumeComplete_keepsVault (s : State) : KeepsVault s (execResumeComplete s) := by
  refine (keepsVault_when _ _ s).2 fun _ => ?_
  split <;> simp

/-! ### Commands of Machine/TimeCmds.lean -/

theorem execBeaconReceive_keepsVault (b : Beacon) (s : State) : KeepsVault s (execBeaconReceive b s) := by
  refine (keepsVault_when _ _ s).2 fun _ => ?_
  split <;> simp

theorem execTelemetryPeriodEnd_keepsVault (s : State) : KeepsVault s (execTelemetryPeriodEnd s) := by
  refine (keepsVault_when _ _ s).2 fun _ => ?_
  split <;> simp

/-! What the few commands that may change the vault do to it. -/

/-- What a fuse can do (R11, R364, R409): hashes, identity seed and enabled tiles stay, and a blown fuse stays blown. -/
def Fuses.Burns (f g : Fuses) : Prop :=
  g.keyHash = f.keyHash ∧ g.debugHash = f.debugHash ∧ g.identity = f.identity ∧ g.enabled = f.enabled
    ∧ g.revoked &&& f.revoked = f.revoked ∧ (f.dev = true → g.dev = true) ∧ (f.fld = true → g.fld = true) ∧ (f.scr = true → g.scr = true)

theorem Fuses.burns_refl (f : Fuses) : f.Burns f := ⟨rfl, rfl, rfl, rfl, BitVec.and_self, id, id, id⟩

theorem Fuses.burns_revoke (f : Fuses) (x : BitVec 4) : f.Burns { f with revoked := f.revoked ||| x } :=
  ⟨rfl, rfl, rfl, rfl, by
    ext k
    simp only [BitVec.getElem_and, BitVec.getElem_or]
    cases f.revoked[k] <;> simp, id, id, id⟩

/-- Between two vaults only fuses were blown. -/
def Vault.Burns (v w : Vault) : Prop := w.safety = v.safety ∧ v.fuses.Burns w.fuses

theorem Vault.burns_refl (v : Vault) : v.Burns v := ⟨rfl, v.fuses.burns_refl⟩

/-- IMAGE_END blows at most the revocation fuses of an accepted image (R364). -/
theorem doImageEnd_burns (p : Port) (k : Packet) (s : State) : s.vault.Burns (doImageEnd p k s).vault := by
  unfold doImageEnd
  split
  · exact s.vault.burns_refl
  split
  · exact s.vault.burns_refl
  split
  · exact s.vault.burns_refl
  dsimp only
  split
  · rw [EbOut.vault_reply, State.dropImage_vault]
    exact s.vault.burns_refl
  · rw [EbOut.vault_reply, State.measure_vault]
    exact ⟨rfl, s.fuses.burns_revoke _⟩

theorem Fuses.burns_dev (f : Fuses) : f.Burns { f with dev := true } := ⟨rfl, rfl, rfl, rfl, BitVec.and_self, fun _ => rfl, id, id⟩
theorem Fuses.burns_fld (f : Fuses) : f.Burns { f with fld := true } := ⟨rfl, rfl, rfl, rfl, BitVec.and_self, id, fun _ => rfl, id⟩
theorem Fuses.burns_scr (f : Fuses) : f.Burns { f with scr := true } := ⟨rfl, rfl, rfl, rfl, BitVec.and_self, id, id, fun _ => rfl⟩

/-- Debug access granted at a lifecycle level blows that level's fuse; at another level none (R410, R412). -/
theorem State.grantDebug_burns (s : State) (c : Challenge) : s.vault.Burns (s.grantDebug c).vault := by
  unfold State.grantDebug
  dsimp only
  split
  · have h : ((if s.cairn.dbg = 2 ∧ c.level = 1 then State.releaseDebug { s with cairn := { s.cairn with challenge := none } }
        else { s with cairn := { s.cairn with challenge := none } }) : State).vault = s.vault := by split <;> rfl
    simpa [h] using s.vault.burns_refl
  · split
    · exact ⟨by simp, by simpa using s.fuses.burns_dev⟩
    split
    · exact ⟨by simp, by simpa using s.fuses.burns_fld⟩
    · exact ⟨by simp [State.releaseDebug], by simpa [State.releaseDebug] using s.fuses.burns_scr⟩

/-- DEBUG_UNLOCK blows at most the lifecycle fuse of the level it grants (R410 to R413). -/
theorem doDebugUnlock_burns (rand : List Byte) (p : Port) (k : Packet) (s : State) : s.vault.Burns (doDebugUnlock rand p k s).vault := by
  unfold doDebugUnlock
  dsimp only
  split
  · split
    · exact s.vault.burns_refl
    split
    · exact s.vault.burns_refl
    split
    · exact s.vault.burns_refl
    · split <;> exact s.vault.burns_refl
  · split
    · exact s.vault.burns_refl
    split
    · split <;> exact s.vault.burns_refl
    · exact s.vault.burns_refl
  · split
    · exact s.vault.burns_refl
    split
    · split
      · exact s.grantDebug_burns _
      · exact s.vault.burns_refl
    · exact s.vault.burns_refl
  · exact s.vault.burns_refl

/-- The registers that a profile seals (R406). -/
def Profile.sealed (q : Profile) : Sealed :=
  { tjTrip := q.tj, hbmTrip := q.hbm, ceil := q.ceil, cool := q.cool, supply := q.supply, armed := true }

/-- SAFETY_ARM seals the pending profile, if there is one (R406, R408). -/
theorem State.seal_vault (s : State) (q : Profile) : (s.seal q).vault = { s.vault with
    safety := q.sealed } := by
  unfold State.seal
  dsimp only
  split <;> simp [Profile.sealed]

/-- Between two vaults nothing changed, or the profile that was pending was sealed. -/
def Vault.Seals (pending : Option Profile) (v w : Vault) : Prop := w = v ∨ ∃ q, pending = some q ∧ w = { v with safety := q.sealed }

theorem doSafetyArm_seals (p : Port) (k : Packet) (s : State) : s.vault.Seals s.cairn.pending (doSafetyArm p k s).vault := by
  unfold doSafetyArm
  split
  · exact .inl rfl
  · next q h => exact .inr ⟨q, h, s.seal_vault q⟩

/-- An Ebior packet blows at most the fuses that its own part blows. -/
theorem State.ebior_burns {own : State → EbOut} (ho : ∀ u : State, u.vault.Burns (own u).vault) (s : State) (op : Nat) (p : Port) (k : Packet) :
    s.vault.Burns (s.ebior op p k own).vault := by
  rcases s.ebior_vault op p k own with h | ⟨v, h⟩
  · exact h ▸ s.vault.burns_refl
  · simpa [h] using ho (s.setPort p v)

/-- An Ebior packet seals at most what its own part seals. -/
theorem State.ebior_seals {own : State → EbOut} (ho : ∀ u : State, u.vault.Seals u.cairn.pending (own u).vault) (s : State) (op : Nat) (p : Port)
    (k : Packet) : s.vault.Seals s.cairn.pending (s.ebior op p k own).vault := by
  rcases s.ebior_vault op p k own with h | ⟨v, h⟩
  · exact .inl h
  · simpa [h] using ho (s.setPort p v)

/-- The own part of every opcode but IMAGE_END, SAFETY_ARM and DEBUG_UNLOCK keeps the vault. -/
theorem ownPart_vault {op : Nat} (hi : op ≠ 0x0103) (ha : op ≠ 0x0302) (hd : op ≠ 0x0A01) (p : Port) (k : Packet) (s t : State) :
    (ownPart op p k s t).vault = t.vault := by
  unfold ownPart
  split
  case h_3 => exact absurd rfl hi
  case h_8 => exact absurd rfl ha
  case h_24 => exact absurd rfl hd
  all_goals simp

/-- A packet served on port N keeps the vault: none of the opcodes that may change it is taken there (Table 14.6). -/
theorem State.serve_n_vault (s u : State) (op : Nat) (k : Packet) : (s.serve op .n k (ownPart op .n k u)).vault = s.vault := by
  rcases s.serve_vault op .n k (ownPart op .n k u) with h | ⟨hc, h⟩
  · exact h
  · have hn (o : Nat) (ho : ebPorts o = some [.h, .b]) : op ≠ o := by
      rintro rfl
      unfold ebCheck at hc
      rw [ho] at hc
      split at hc <;> simp at hc
    rw [h, ownPart_vault (hn _ (by decide)) (hn _ (by decide)) (hn _ (by decide))]

theorem execCairnRestartComplete_keepsVault (s : State) : KeepsVault s (execCairnRestartComplete s) := by
  refine (keepsVault_when _ _ s).2 fun _ => ?_
  dsimp only
  split
  · rw [State.serve_n_vault]
    rfl
  · rfl

/-- A message on port B that carries an opcode's packet. -/
theorem execPortBMessage_vault {s t : State} {op : Nat} {vendorOk : Bool} {k : Packet} (h : execPortBMessage op vendorOk k s = .next t) :
    t.vault = s.vault ∨ t.vault = (s.drawn.ebior op .b k (ownPart op .b k s)).vault := by
  unfold execPortBMessage when_ at h
  cases h
  split
  · dsimp only
    split
    · exact .inl (s.count_vault _ _)
    · split
      · exact .inr rfl
      · exact .inl rfl
  · exact .inl rfl

/-- The commands that may blow a fuse (R364, R410). -/
def Instr.MayBurn (c : Instr) : Prop :=
  (∃ p k, c = .imageEnd p k) ∨ (∃ p k r, c = .debugUnlockChallenge p k r) ∨ (∃ p k, c = .debugUnlockKey p k)
    ∨ (∃ p k, c = .debugUnlockSignature p k) ∨ (∃ op v k, c = .portBMessage op v k ∧ (op = 0x0103 ∨ op = 0x0A01))

/-- The commands that may seal the safety registers (R406). -/
def Instr.MaySeal (c : Instr) : Prop := (∃ p k, c = .safetyArm p k) ∨ (∃ v k, c = .portBMessage 0x0302 v k)

/-- The commands that may be a cold reset (R395). -/
def Instr.MayReset (c : Instr) : Prop := (∃ n, c = .pwrGoodLoss n) ∨ c = .vddCairnLoss ∨ (∃ x, c = .pwrGoodAssert x)

/-- What a command can do to the vault. -/
def VaultStep (s : State) (c : Instr) (w : Vault) : Prop :=
  w = s.vault ∨ (Instr.MayBurn c ∧ s.vault.Burns w) ∨ (Instr.MaySeal c ∧ s.vault.Seals s.cairn.pending w)
    ∨ (Instr.MayReset c ∧ w = { s.vault with safety := State.reset.cairn.safety })

theorem VaultStep.of_keeps {s t : State} {c : Instr} {o : Host.Outcome State Fault Refusal} (h : KeepsVault s o) (ht : o = .next t) :
    VaultStep s c t.vault := .inl (h t ht)

theorem execPortBMessage_vaultStep {s t : State} {op : Nat} {vendorOk : Bool} {k : Packet}
    (h : execPortBMessage op vendorOk k s = .next t) : VaultStep s (.portBMessage op vendorOk k) t.vault := by
  rcases execPortBMessage_vault h with h | h
  · exact .inl h
  have hs : s.drawn.vault = s.vault := s.drawn_vault
  by_cases hi : op = 0x0103
  · subst hi
    refine .inr (.inl ⟨by simp [Instr.MayBurn], ?_⟩)
    rw [h, ← hs]
    exact State.ebior_burns (doImageEnd_burns .b k) _ _ _ _
  by_cases hd : op = 0x0A01
  · subst hd
    refine .inr (.inl ⟨by simp [Instr.MayBurn], ?_⟩)
    rw [h, ← hs]
    exact State.ebior_burns (doDebugUnlock_burns _ .b k) _ _ _ _
  by_cases ha : op = 0x0302
  · subst ha
    refine .inr (.inr (.inl ⟨by simp [Instr.MaySeal], ?_⟩))
    rw [h, ← hs]
    exact State.ebior_seals (doSafetyArm_seals .b k) s.drawn _ _ _
  · left
    rw [h, State.ebior_keeps (fun u => ownPart_vault hi ha hd .b k s u), hs]

theorem coldReset_vaultStep {s t : State} {c : Instr} {b : Bool} {f : State → State} (hc : Instr.MayReset c)
    (hf : (f s).vault = s.coldReset.vault) (h : when_ b f s = .next t) : VaultStep s c t.vault := by
  unfold when_ at h
  cases h
  split
  · exact .inr (.inr (.inr ⟨hc, hf⟩))
  · exact .inl rfl

/-- What each of the 317 commands can do to the vault. -/
theorem exec_vaultStep {s t : State} {c : Instr} (h : exec c s = .next t) : VaultStep s c t.vault := by
  unfold exec at h
  cases c with
  | pwrGoodAssert straps => exact coldReset_vaultStep (by simp [Instr.MayReset]) (by simp) h
  | pwrGoodLoss ns => exact coldReset_vaultStep (by simp [Instr.MayReset]) rfl h
  | vddCairnLoss =>
    refine coldReset_vaultStep (by simp [Instr.MayReset]) ?_ h
    rfl
  | refclkCoreLoss => exact .of_keeps (by simp [execRefclkCoreLoss]) h
  | refclkRidgeLoss => exact .of_keeps (by simp [execRefclkRidgeLoss]) h
  | refclkPcieLoss => exact .of_keeps (by simp [execRefclkPcieLoss]) h
  | portLinkBringup offers => exact .of_keeps (execPortLinkBringup_keepsVault offers s) h
  | portLinkRetrain _ => exact .of_keeps (by simp [execPortLinkRetrain]) h
  | perstNAssert => exact .of_keeps (by simp [execPerstNAssert]) h
  | perstNDeassert => exact .of_keeps (by simp [execPerstNDeassert]) h
  | functionLevelReset => exact .of_keeps (by simp [execFunctionLevelReset]) h
  | cacheEnableClear => exact .of_keeps (by simp [execCacheEnableClear]) h
  | cacheEnableSet => exact .of_keeps (by simp [execCacheEnableSet]) h
  | imageBegin _ _ => exact .of_keeps (by simp [execImageBegin]) h
  | imageData _ _ => exact .of_keeps (by simp [execImageData]) h
  | imageEnd p k =>
    cases h
    exact .inr (.inl ⟨by simp [Instr.MayBurn], State.ebior_burns (doImageEnd_burns p k) s _ p k⟩)
  | memoryBringupEnd outcomes => exact .of_keeps (execMemoryBringupEnd_keepsVault outcomes s) h
  | configWrite _ _ => exact .of_keeps (by simp [execConfigWrite]) h
  | configRead _ _ => exact .of_keeps (by simp [execConfigRead]) h
  | configCommit _ _ _ => exact .of_keeps (by simp [execConfigCommit]) h
  | safetyProfile _ _ => exact .of_keeps (by simp [execSafetyProfile]) h
  | safetyArm p k =>
    cases h
    exact .inr (.inr (.inl ⟨by simp [Instr.MaySeal], State.ebior_seals (doSafetyArm_seals p k) s _ p k⟩))
  | queryIdentity _ _ => exact .of_keeps (by simp [execQueryIdentity]) h
  | attest _ _ => exact .of_keeps (by simp [execAttest]) h
  | timeSet _ _ => exact .of_keeps (by simp [execTimeSet]) h
  | timeRead _ _ => exact .of_keeps (by simp [execTimeRead]) h
  | telemetryRead _ _ => exact .of_keeps (by simp [execTelemetryRead]) h
  | eventLogRead _ _ => exact .of_keeps (by simp [execEventLogRead]) h
  | maintStatus p k => exact .of_keeps (execMaintStatus_keepsVault p k s) h
  | maintAbort _ _ => exact .of_keeps (by simp [execMaintAbort]) h
  | scrub _ => exact .of_keeps (by simp [execScrub]) h
  | hbmRetrain _ => exact .of_keeps (by simp [execHbmRetrain]) h
  | lpRetrain _ => exact .of_keeps (by simp [execLpRetrain]) h
  | ridgeRetrain _ => exact .of_keeps (by simp [execRidgeRetrain]) h
  | chanEvac _ => exact .of_keeps (by simp [execChanEvac]) h
  | chanEvacBlockWritten _ _ => exact .of_keeps (by simp [execChanEvacBlockWritten]) h
  | wayTest _ => exact .of_keeps (by simp [execWayTest]) h
  | tileRetire _ => exact .of_keeps (by simp [execTileRetire]) h
  | tileRetireDeadline die tile => exact .of_keeps (execTileRetireDeadline_keepsVault die tile s) h
  | sensorCal _ => exact .of_keeps (by simp [execSensorCal]) h
  | dieReset q => exact .of_keeps (execDieReset_keepsVault q s) h
  | dieResetDrainEnd die => exact .of_keeps (execDieResetDrainEnd_keepsVault die s) h
  | activityEnd num passed result => exact .of_keeps (execActivityEnd_keepsVault num passed result s) h
  | waitingActivityStart num => exact .of_keeps (execWaitingActivityStart_keepsVault num s) h
  | packagePark _ _ => exact .of_keeps (by simp [execPackagePark]) h
  | parkEntry => exact .of_keeps (execParkEntry_keepsVault s) h
  | parkTimeout => exact .of_keeps (by simp [execParkTimeout]) h
  | resume _ _ => exact .of_keeps (by simp [execResume]) h
  | resumeComplete => exact .of_keeps (execResumeComplete_keepsVault s) h
  | streamOpen _ _ => exact .of_keeps (by simp [execStreamOpen]) h
  | streamClose _ _ => exact .of_keeps (by simp [execStreamClose]) h
  | streamCloseDrained n => exact .of_keeps (execStreamCloseDrained_keepsVault n s) h
  | streamMigrate _ _ => exact .of_keeps (by simp [execStreamMigrate]) h
  | migrateDrained n => exact .of_keeps (execMigrateDrained_keepsVault n s) h
  | streamDrainTimeout n => exact .of_keeps (execStreamDrainTimeout_keepsVault n s) h
  | debugUnlockChallenge p k rand =>
    cases h
    exact .inr (.inl ⟨by simp [Instr.MayBurn], State.ebior_burns (doDebugUnlock_burns _ p k) s _ p k⟩)
  | debugUnlockKey p k =>
    cases h
    exact .inr (.inl ⟨by simp [Instr.MayBurn], State.ebior_burns (doDebugUnlock_burns _ p k) s _ p k⟩)
  | debugUnlockSignature p k =>
    cases h
    exact .inr (.inl ⟨by simp [Instr.MayBurn], State.ebior_burns (doDebugUnlock_burns _ p k) s _ p k⟩)
  | challengeExpiry => exact .of_keeps (by simp [execChallengeExpiry]) h
  | debugLock _ _ => exact .of_keeps (by simp [execDebugLock]) h
  | powerLimitSet _ _ => exact .of_keeps (by simp [execPowerLimitSet]) h
  | portBMessage op v k => exact execPortBMessage_vaultStep h
  | registerWrite by_ addr v => exact .of_keeps (execRegisterWrite_keepsVault by_ addr v s) h
  | routeEntryWrite _ _ => exact .of_keeps (by simp [execRouteEntryWrite]) h
  | interruptEvent _ => exact .of_keeps (by simp [execInterruptEvent]) h
  | apertureAccess core a => exact .of_keeps (execApertureAccess_keepsVault core a s) h
  | deviceRegisterAccessFault _ _ => exact .of_keeps (by simp [execDeviceRegisterAccessFault]) h
  | trapAnswerReplay _ _ => exact .of_keeps (by simp [execTrapAnswerReplay]) h
  | trapAnswerSkip _ _ => exact .of_keeps (by simp [execTrapAnswerSkip]) h
  | trapAnswerKill _ _ => exact .of_keeps (by simp [execTrapAnswerKill]) h
  | trapHeadWrite _ _ => exact .of_keeps (by simp [execTrapHeadWrite]) h
  | trapRecordWrite die => exact .of_keeps (execTrapRecordWrite_keepsVault die s) h
  | xltReplyWalk _ => exact .of_keeps (by simp [execXltReplyWalk]) h
  | xltReplyError _ _ => exact .of_keeps (by simp [execXltReplyError]) h
  | xltRingHeadWrite _ => exact .of_keeps (by simp [execXltRingHeadWrite]) h
  | xltInvalPage _ _ => exact .of_keeps (by simp [execXltInvalPage]) h
  | xltInvalSpace _ => exact .of_keeps (by simp [execXltInvalSpace]) h
  | xltInvalAll => exact .of_keeps (by simp [execXltInvalAll]) h
  | invalidationComplete => exact .of_keeps (execInvalidationComplete_keepsVault s) h
  | streamEheadWrite _ _ => exact .of_keeps (by simp [execStreamEheadWrite]) h
  | streamCont _ => exact .of_keeps (by simp [execStreamCont]) h
  | talTelHeadWrite _ => exact .of_keeps (by simp [execTalTelHeadWrite]) h
  | memL2WayRead _ _ => exact .of_keeps (by simp [execMemL2WayRead]) h
  | memStackTempRead _ => exact .of_keeps (by simp [execMemStackTempRead]) h
  | colSatRead _ _ => exact .of_keeps (by simp [execColSatRead]) h
  | dbgRead _ => exact .of_keeps (by simp [execDbgRead]) h
  | dbgWrite q => exact .of_keeps (execDbgWrite_keepsVault q s) h
  | dbgHalt _ => exact .of_keeps (by simp [execDbgHalt]) h
  | dbgRun _ => exact .of_keeps (by simp [execDbgRun]) h
  | dbgStep _ => exact .of_keeps (by simp [execDbgStep]) h
  | bkset q => exact .of_keeps (execBkset_keepsVault q s) h
  | bkclr _ => exact .of_keeps (by simp [execBkclr]) h
  | inject q => exact .of_keeps (execInject_keepsVault q s) h
  | sample _ => exact .of_keeps (by simp [execSample]) h
  | extest => exact .of_keeps (by simp [execExtest]) h
  | idcode => exact .of_keeps (by simp [execIdcode]) h
  | samplePreload => exact .of_keeps (by simp [execSamplePreload]) h
  | clamp => exact .of_keeps (by simp [execClamp]) h
  | highz => exact .of_keeps (by simp [execHighz]) h
  | bypass _ => exact .of_keeps (by simp [execBypass]) h
  | launch n => exact .of_keeps (execLaunch_keepsVault n s) h
  | standPlace launch die tile => exact .of_keeps (execStandPlace_keepsVault launch die tile s) h
  | standEnd _ _ _ => exact .of_keeps (by simp [execStandEnd]) h
  | copy n => exact .of_keeps (execCopy_keepsVault n s) h
  | signal _ => exact .of_keeps (by simp [execSignal]) h
  | wait _ => exact .of_keeps (by simp [execWait]) h
  | waitTimeout n => exact .of_keeps (execWaitTimeout_keepsVault n s) h
  | phaseHint n => exact .of_keeps (execPhaseHint_keepsVault n s) h
  | opRequest n => exact .of_keeps (execOpRequest_keepsVault n s) h
  | flushRange _ => exact .of_keeps (by simp [execFlushRange]) h
  | collective _ => exact .of_keeps (by simp [execCollective]) h
  | epoch _ => exact .of_keeps (by simp [execEpoch]) h
  | link _ => exact .of_keeps (by simp [execLink]) h
  | empty _ => exact .of_keeps (by simp [execEmpty]) h
  | streamWake _ => exact .of_keeps (by simp [execStreamWake]) h
  | recordComplete n addr => exact .of_keeps (execRecordComplete_keepsVault n addr s) h
  | mov _ _ => exact .of_keeps (by simp [execMov]) h
  | sel _ _ => exact .of_keeps (by simp [execSel]) h
  | sread _ _ => exact .of_keeps (by simp [execSread]) h
  | iadd _ _ => exact .of_keeps (by simp [execIadd]) h
  | isub _ _ => exact .of_keeps (by simp [execIsub]) h
  | imul _ _ => exact .of_keeps (by simp [execImul]) h
  | imulhi _ _ => exact .of_keeps (by simp [execImulhi]) h
  | imulhu _ _ => exact .of_keeps (by simp [execImulhu]) h
  | imad _ _ => exact .of_keeps (by simp [execImad]) h
  | imin _ _ => exact .of_keeps (by simp [execImin]) h
  | imax _ _ => exact .of_keeps (by simp [execImax]) h
  | umin _ _ => exact .of_keeps (by simp [execUmin]) h
  | umax _ _ => exact .of_keeps (by simp [execUmax]) h
  | and _ _ => exact .of_keeps (by simp [execAnd]) h
  | or _ _ => exact .of_keeps (by simp [execOr]) h
  | xor _ _ => exact .of_keeps (by simp [execXor]) h
  | not _ _ => exact .of_keeps (by simp [execNot]) h
  | shl _ _ => exact .of_keeps (by simp [execShl]) h
  | shr _ _ => exact .of_keeps (by simp [execShr]) h
  | sar _ _ => exact .of_keeps (by simp [execSar]) h
  | popc _ _ => exact .of_keeps (by simp [execPopc]) h
  | clz _ _ => exact .of_keeps (by simp [execClz]) h
  | bfx _ _ => exact .of_keeps (by simp [execBfx]) h
  | isetp _ _ => exact .of_keeps (by simp [execIsetp]) h
  | fadd _ _ => exact .of_keeps (by simp [execFadd]) h
  | fsub _ _ => exact .of_keeps (by simp [execFsub]) h
  | fmul _ _ => exact .of_keeps (by simp [execFmul]) h
  | ffma _ _ => exact .of_keeps (by simp [execFfma]) h
  | fmin _ _ => exact .of_keeps (by simp [execFmin]) h
  | fmax _ _ => exact .of_keeps (by simp [execFmax]) h
  | fsetp _ _ => exact .of_keeps (by simp [execFsetp]) h
  | cvt _ _ => exact .of_keeps (by simp [execCvt]) h
  | ld c w lost => exact .of_keeps (execLd_keepsVault c w lost s) h
  | st _ _ => exact .of_keeps (by simp [execSt]) h
  | bcopy _ _ => exact .of_keeps (by simp [execBcopy]) h
  | nop _ _ => exact .of_keeps (by simp [execNop]) h
  | bra _ _ => exact .of_keeps (by simp [execBra]) h
  | brx _ _ => exact .of_keeps (by simp [execBrx]) h
  | call c w => exact .of_keeps (execCall_keepsVault c w s) h
  | ret c w => exact .of_keeps (execRet_keepsVault c w s) h
  | exit _ _ => exact .of_keeps (by simp [execExit]) h
  | trap _ _ => exact .of_keeps (by simp [execTrap]) h
  | brk _ _ => exact .of_keeps (by simp [execBrk]) h
  | bar _ _ => exact .of_keeps (by simp [execBar]) h
  | fenceAcq _ _ => exact .of_keeps (by simp [execFenceAcq]) h
  | fenceRel _ _ => exact .of_keeps (by simp [execFenceRel]) h
  | fenceAr _ _ => exact .of_keeps (by simp [execFenceAr]) h
  | atom _ _ => exact .of_keeps (by simp [execAtom]) h
  | red _ _ => exact .of_keeps (by simp [execRed]) h
  | redl _ _ => exact .of_keeps (by simp [execRedl]) h
  | shfl _ _ => exact .of_keeps (by simp [execShfl]) h
  | vote _ _ => exact .of_keeps (by simp [execVote]) h
  | bwait c w => exact .of_keeps (execBwait_keepsVault c w s) h
  | waitf c w => exact .of_keeps (execWaitf_keepsVault c w s) h
  | pause _ _ => exact .of_keeps (by simp [execPause]) h
  | waitConditionMet c => exact .of_keeps (execWaitConditionMet_keepsVault c s) h
  | mma _ _ => exact .of_keeps (by simp [execMma]) h
  | mmap _ _ => exact .of_keeps (by simp [execMmap]) h
  | accld _ _ => exact .of_keeps (by simp [execAccld]) h
  | accst _ _ => exact .of_keeps (by simp [execAccst]) h
  | mwait _ _ => exact .of_keeps (by simp [execMwait]) h
  | matrixStart die tile transfer => exact .of_keeps (execMatrixStart_keepsVault die tile transfer s) h
  | matrixComplete die tile transfer => exact .of_keeps (execMatrixComplete_keepsVault die tile transfer s) h
  | eprun _ _ => exact .of_keeps (by simp [execEprun]) h
  | vget _ _ => exact .of_keeps (by simp [execVget]) h
  | vput _ _ => exact .of_keeps (by simp [execVput]) h
  | vflags _ _ => exact .of_keeps (by simp [execVflags]) h
  | vwait _ _ => exact .of_keeps (by simp [execVwait]) h
  | elementStart die tile => exact .of_keeps (execElementStart_keepsVault die tile s) h
  | elementComplete die tile bad => exact .of_keeps (execElementComplete_keepsVault die tile bad s) h
  | buckerTurn b count => exact .of_keeps (execBuckerTurn_keepsVault b count s) h
  | heavyBuckerTake die b n addr => exact .of_keeps (execHeavyBuckerTake_keepsVault die b n addr s) h
  | indexListRead b => exact .of_keeps (execIndexListRead_keepsVault b s) h
  | flaggedFinalWrite b serial => exact .of_keeps (execFlaggedFinalWrite_keepsVault b serial s) h
  | descriptorComplete b serial => exact .of_keeps (execDescriptorComplete_keepsVault b serial s) h
  | copyDataPathError b serial cause addr => exact .of_keeps (execCopyDataPathError_keepsVault b serial cause addr s) h
  | homeAccess id errs => exact .of_keeps (execHomeAccess_keepsVault id errs s) h
  | l2FillReturn line crc => exact .of_keeps (execL2FillReturn_keepsVault line crc s) h
  | l1FillReturn id => exact .of_keeps (execL1FillReturn_keepsVault id s) h
  | evictionWriteIssue line crc => exact .of_keeps (execEvictionWriteIssue_keepsVault line crc s) h
  | evictionWriteAck _ => exact .of_keeps (by simp [execEvictionWriteAck]) h
  | cleanVictimOffer _ _ _ => exact .of_keeps (by simp [execCleanVictimOffer]) h
  | wayDisable _ _ _ => exact .of_keeps (by simp [execWayDisable]) h
  | hourBucketAdvance => exact .of_keeps (by simp [execHourBucketAdvance]) h
  | nodeCoreAccess core a => exact .of_keeps (execNodeCoreAccess_keepsVault core a s) h
  | rds _ _ => exact .of_keeps (by simp [execRds]) h
  | rdw _ _ => exact .of_keeps (by simp [execRdw]) h
  | rdu _ _ => exact .of_keeps (by simp [execRdu]) h
  | upg _ _ => exact .of_keeps (by simp [execUpg]) h
  | vicd _ => exact .of_keeps (by simp [execVicd]) h
  | vicc _ => exact .of_keeps (by simp [execVicc]) h
  | rdc _ => exact .of_keeps (by simp [execRdc]) h
  | wrReq _ => exact .of_keeps (by simp [execWrReq]) h
  | atReq _ => exact .of_keeps (by simp [execAtReq]) h
  | fwds _ => exact .of_keeps (by simp [execFwds]) h
  | fwdu _ => exact .of_keeps (by simp [execFwdu]) h
  | inv _ => exact .of_keeps (by simp [execInv]) h
  | cur _ => exact .of_keeps (by simp [execCur]) h
  | rcl _ => exact .of_keeps (by simp [execRcl]) h
  | dataReceive _ => exact .of_keeps (by simp [execDataReceive]) h
  | cmp _ => exact .of_keeps (by simp [execCmp]) h
  | invack m => exact .of_keeps (execInvack_keepsVault m s) h
  | vcmp _ => exact .of_keeps (by simp [execVcmp]) h
  | fwddone m => exact .of_keeps (execFwddone_keepsVault m s) h
  | wbd m => exact .of_keeps (execWbd_keepsVault m s) h
  | rspi m => exact .of_keeps (execRspi_keepsVault m s) h
  | cack m => exact .of_keeps (execCack_keepsVault m s) h
  | clusterHeartbeatTimeout _ => exact .of_keeps (by simp [execClusterHeartbeatTimeout]) h
  | packageHeartbeatTimeout _ => exact .of_keeps (by simp [execPackageHeartbeatTimeout]) h
  | clusterReset _ => exact .of_keeps (by simp [execClusterReset]) h
  | deadNotice _ _ => exact .of_keeps (by simp [execDeadNotice]) h
  | reclamationComplete _ => exact .of_keeps (by simp [execReclamationComplete]) h
  | snpinv _ => exact .of_keeps (by simp [execSnpinv]) h
  | snpdata _ => exact .of_keeps (by simp [execSnpdata]) h
  | snpcur _ => exact .of_keeps (by simp [execSnpcur]) h
  | goReceive half g => exact .of_keeps (execGoReceive_keepsVault half g s) h
  | hostDataReceive half data poisoned => exact .of_keeps (execHostDataReceive_keepsVault half data poisoned s) h
  | hostLineEvict _ => exact .of_keeps (by simp [execHostLineEvict]) h
  | translationMiss id => exact .of_keeps (execTranslationMiss_keepsVault id s) h
  | walkComplete index => exact .of_keeps (execWalkComplete_keepsVault index s) h
  | requestRecordWrite index => exact .of_keeps (execRequestRecordWrite_keepsVault index s) h
  | fillComplete index => exact .of_keeps (execFillComplete_keepsVault index s) h
  | tokenGrant _ _ _ => exact .of_keeps (by simp [execTokenGrant]) h
  | tokenIdleReturn _ _ _ => exact .of_keeps (by simp [execTokenIdleReturn]) h
  | tokenReturn id l => exact .of_keeps (execTokenReturn_keepsVault id l s) h
  | retryBackoffExpiry id => exact .of_keeps (execRetryBackoffExpiry_keepsVault id s) h
  | colModuleRetire _ _ => exact .of_keeps (by simp [execColModuleRetire]) h
  | portSevered _ => exact .of_keeps (by simp [execPortSevered]) h
  | serviceClockStop _ => exact .of_keeps (by simp [execServiceClockStop]) h
  | computeDieLost _ => exact .of_keeps (by simp [execComputeDieLost]) h
  | tileLost _ _ => exact .of_keeps (by simp [execTileLost]) h
  | foundationLost _ => exact .of_keeps (by simp [execFoundationLost]) h
  | flitReceive _ _ _ _ => exact .of_keeps (by simp [execFlitReceive]) h
  | nakReceive _ _ => exact .of_keeps (by simp [execNakReceive]) h
  | linkTrainingStart _ => exact .of_keeps (by simp [execLinkTrainingStart]) h
  | linkTrainingEnd link lanes peer => exact .of_keeps (execLinkTrainingEnd_keepsVault link lanes peer s) h
  | linkRetrainEnd link lanes => exact .of_keeps (execLinkRetrainEnd_keepsVault link lanes s) h
  | lanePermanentFault _ _ => exact .of_keeps (by simp [execLanePermanentFault]) h
  | linkFailover _ => exact .of_keeps (by simp [execLinkFailover]) h
  | ridgeMessageArrive link m => exact .of_keeps (execRidgeMessageArrive_keepsVault link m s) h
  | chunkReceive die bytes => exact .of_keeps (execChunkReceive_keepsVault die bytes s) h
  | chunkHoldExpiry die cid chunk => exact .of_keeps (execChunkHoldExpiry_keepsVault die cid chunk s) h
  | chunkAnswer die cid step chunk a => exact .of_keeps (execChunkAnswer_keepsVault die cid step chunk a s) h
  | chunkTimeout _ _ _ _ => exact .of_keeps (by simp [execChunkTimeout]) h
  | stepTimeout die cid step => exact .of_keeps (execStepTimeout_keepsVault die cid step s) h
  | planComplete die cid => exact .of_keeps (execPlanComplete_keepsVault die cid s) h
  | startMsg m => exact .of_keeps (execStartMsg_keepsVault m s) h
  | startAck bid child => exact .of_keeps (execStartAck_keepsVault bid child s) h
  | doneMsg bid child => exact .of_keeps (execDoneMsg_keepsVault bid child s) h
  | unreached bid member => exact .of_keeps (execUnreached_keepsVault bid member s) h
  | refeed m => exact .of_keeps (execRefeed_keepsVault m s) h
  | refeedDone bid alt member => exact .of_keeps (execRefeedDone_keepsVault bid alt member s) h
  | tackTimeout bid child => exact .of_keeps (execTackTimeout_keepsVault bid child s) h
  | tdoneTimeout bid child => exact .of_keeps (execTdoneTimeout_keepsVault bid child s) h
  | beaconSend _ => exact .of_keeps (by simp [execBeaconSend]) h
  | beaconReceive b => exact .of_keeps (execBeaconReceive_keepsVault b s) h
  | delayExchange _ _ => exact .of_keeps (by simp [execDelayExchange]) h
  | beaconLoss => exact .of_keeps (by simp [execBeaconLoss]) h
  | stackTempSample _ _ _ => exact .of_keeps (by simp [execStackTempSample]) h
  | stackLevelExit _ _ => exact .of_keeps (by simp [execStackLevelExit]) h
  | lpddrTempSample _ _ _ => exact .of_keeps (by simp [execLpddrTempSample]) h
  | patrolScrubVisit _ _ _ _ => exact .of_keeps (by simp [execPatrolScrubVisit]) h
  | thresholdCrossed _ _ _ _ => exact .of_keeps (by simp [execThresholdCrossed]) h
  | signatureSample _ _ => exact .of_keeps (by simp [execSignatureSample]) h
  | voltageStep _ => exact .of_keeps (by simp [execVoltageStep]) h
  | voltageReported _ _ => exact .of_keeps (by simp [execVoltageReported]) h
  | budgetExchange => exact .of_keeps (by simp [execBudgetExchange]) h
  | grantReceive _ => exact .of_keeps (by simp [execGrantReceive]) h
  | grantRaiseEffect _ => exact .of_keeps (by simp [execGrantRaiseEffect]) h
  | grantTimeout _ => exact .of_keeps (by simp [execGrantTimeout]) h
  | hintPrepare _ _ _ => exact .of_keeps (by simp [execHintPrepare]) h
  | hintStart _ _ => exact .of_keeps (by simp [execHintStart]) h
  | hintEnd _ _ => exact .of_keeps (by simp [execHintEnd]) h
  | explorationSample _ => exact .of_keeps (by simp [execExplorationSample]) h
  | marginLow die tile covered => exact .of_keeps (execMarginLow_keepsVault die tile covered s) h
  | stretchEnd _ _ => exact .of_keeps (by simp [execStretchEnd]) h
  | stretchInterval _ _ _ => exact .of_keeps (by simp [execStretchInterval]) h
  | supplyWarnAssert => exact .of_keeps (by simp [execSupplyWarnAssert]) h
  | supplyWarnDeassert => exact .of_keeps (by simp [execSupplyWarnDeassert]) h
  | supplyEpisodeEnd => exact .of_keeps (by simp [execSupplyEpisodeEnd]) h
  | junctionSample _ _ => exact .of_keeps (by simp [execJunctionSample]) h
  | junctionLevelExit _ => exact .of_keeps (by simp [execJunctionLevelExit]) h
  | thermTrip => exact .of_keeps (by simp [execThermTrip]) h
  | coolantOkDeassert => exact .of_keeps (by simp [execCoolantOkDeassert]) h
  | coolantHalt => exact .of_keeps (by simp [execCoolantHalt]) h
  | coolantOkAssert => exact .of_keeps (by simp [execCoolantOkAssert]) h
  | idleEntry => exact .of_keeps (by simp [execIdleEntry]) h
  | idleExit => exact .of_keeps (by simp [execIdleExit]) h
  | powerSafetyNet => exact .of_keeps (by simp [execPowerSafetyNet]) h
  | lockstepMismatch => exact .of_keeps (by simp [execLockstepMismatch]) h
  | cairnRestartComplete => exact .of_keeps (execCairnRestartComplete_keepsVault s) h
  | tallySample _ => exact .of_keeps (by simp [execTallySample]) h
  | telemetryPeriodEnd => exact .of_keeps (execTelemetryPeriodEnd_keepsVault s) h
  | avsbusSample rail f => exact .of_keeps (execAvsbusSample_keepsVault rail f s) h
  | avsbusFrameTimeout _ => exact .of_keeps (by simp [execAvsbusFrameTimeout]) h
  | heartbeat _ => exact .of_keeps (by simp [execHeartbeat]) h
  | accessCompletionReceive id => exact .of_keeps (execAccessCompletionReceive_keepsVault id s) h
  | ridgeRequestBoundExpiry q => exact .of_keeps (execRidgeRequestBoundExpiry_keepsVault q s) h
  | refclkRidgeReturn => exact .of_keeps (by simp [execRefclkRidgeReturn]) h
  | refclkPcieReturn => exact .of_keeps (by simp [execRefclkPcieReturn]) h
  | channelRetrainComplete die chan lrep => exact .of_keeps (execChannelRetrainComplete_keepsVault die chan lrep s) h

end Sys2Proof.Machine
end

section
/-! The obligations about the vault. -/

namespace Sys2Proof.Machine

/-- Settles O48: by what each command can do to the vault, only commands that may burn differ from it in the fuses, and they only burn. -/
theorem fusesOnlyBurn : Obligations.FusesOnlyBurn := by
  unfold Obligations.FusesOnlyBurn
  intro s t c h
  have same (hf : t.fuses = s.fuses) : s.fuses.Burns t.fuses ∧ (t.fuses ≠ s.fuses → Instr.MayBurn c) :=
    ⟨hf ▸ s.fuses.burns_refl, fun hne => absurd hf hne⟩
  have key : s.fuses.Burns t.fuses ∧ (t.fuses ≠ s.fuses → Instr.MayBurn c) := by
    rcases exec_vaultStep h with hv | ⟨hc, -, hb⟩ | ⟨-, hv | ⟨q, -, hv⟩⟩ | ⟨-, hv⟩
    · exact same (congrArg Vault.fuses hv)
    · exact ⟨hb, fun _ => hc⟩
    · exact same (congrArg Vault.fuses hv)
    · exact same (congrArg Vault.fuses hv)
    · exact same (congrArg Vault.fuses hv)
  obtain ⟨⟨hkey, hdebug, hid, hen, hrev, hdev, hfld, hscr⟩, hmay⟩ := key
  exact ⟨hkey, hdebug, hid, hen, hrev, hdev, hfld, hscr, hmay⟩

/-- Settles O49: by what each command can do to the vault, the safety registers differ only when a profile is sealed or in a cold reset. -/
theorem sealHolds : Obligations.SealHolds := by
  unfold Obligations.SealHolds
  intro s t c h
  rcases exec_vaultStep h with hv | ⟨-, hs, -⟩ | ⟨hc, hv | ⟨q, hq, hv⟩⟩ | ⟨hc, hv⟩
  · exact .inl (congrArg Vault.safety hv)
  · exact .inl hs
  · exact .inl (congrArg Vault.safety hv)
  · exact .inr (.inl ⟨hc, q, hq, congrArg Vault.safety hv⟩)
  · exact .inr (.inr ⟨hc, congrArg Vault.safety hv⟩)

end Sys2Proof.Machine
end

section
/-! SUPPORT. Device registers as node cores read them, by the block that holds them, and their values at reset. -/

namespace Sys2Proof.Machine

/-- An offset of block `b` lies in one of the ranges that hold registers. -/
abbrev InRegRange (b o : Nat) : Prop := (regRanges b).any (fun e => decide (e.1 ≤ o) && decide (o < e.2)) = true

theorem inRegRange_of_mem {b o : Nat} (e : Nat × Nat) (he : e ∈ regRanges b) (lo : e.1 ≤ o) (hi : o < e.2) : InRegRange b o :=
  List.any_eq_true.2 ⟨e, he, by simp [lo, hi]⟩

theorem State.regRead_C (s : State) {pa n o : Nat} (hpa : pa = 0x0F0000000000 + n * 2 ^ 32 + o) (hn : n < 4) (ho : o < 2 ^ 32)
    (hr : InRegRange n o) (hl : n ∉ s.plat.lostC) : s.regRead pa = BitVec.ofNat 64 (s.regC n o) := by
  have hb : (pa - 0x0F0000000000) / 2 ^ 32 = n := by omega
  have hm : pa % 2 ^ 32 = o := by omega
  have hs : s.stray pa = false := by
    simp only [State.stray, hb, hm, hr]
    simp [hl]
    omega
  simp only [State.regRead, hs, hb, hm, hn, if_true, Bool.false_eq_true, if_false]

theorem State.regRead_F (s : State) {pa n o : Nat} (hpa : pa = 0x0F0000000000 + (4 + n) * 2 ^ 32 + o) (hn : n < 4) (ho : o < 2 ^ 32)
    (hr : InRegRange (4 + n) o) (hl : n ∉ s.plat.lostF) : s.regRead pa = BitVec.ofNat 64 (s.regF n o) := by
  have hb : (pa - 0x0F0000000000) / 2 ^ 32 = 4 + n := by omega
  have hm : pa % 2 ^ 32 = o := by omega
  have hs : s.stray pa = false := by
    simp only [State.stray, hb, hm, hr]
    simp [hl]
    omega
  have h4 : ¬ (4 + n < 4) := by omega
  have h8 : 4 + n < 8 := by omega
  simp only [State.regRead, hs, hb, hm, h4, h8, if_true, Bool.false_eq_true, if_false, Nat.add_sub_cancel_left]

theorem State.regRead_H (s : State) {pa o : Nat} (hpa : pa = 0x0F0800000000 + o) (ho : o < 2 ^ 32) (hr : InRegRange 8 o)
    (hf : o < 0x700000 ∨ 0x700800 ≤ o ∨ o % 32 / 8 ≠ 3) : s.regRead pa = BitVec.ofNat 64 (s.regH o) := by
  have hb : (pa - 0x0F0000000000) / 2 ^ 32 = 8 := by omega
  have hm : pa % 2 ^ 32 = o := by omega
  have hs : s.stray pa = false := by
    simp only [State.stray, hb, hm, hr]
    simp
    omega
  have h4 : ¬ (8 < 4) := by decide
  have h8 : ¬ (8 < 8) := by decide
  simp only [State.regRead, hs, hb, hm, h4, h8, Bool.false_eq_true, if_false]

theorem alGet_nil {α : Type} (d : α) (n : Nat) : alGet d [] n = d := rfl

theorem reset_regC_traps (n : Nat) : ∀ o ∈ [0x1000, 0x1008, 0x1010, 0x1018], State.reset.regC n o = 0 := by
  have hp : State.reset.parkedOn n = 0 := rfl
  have hw : State.reset.trapWait = [] := rfl
  have hz : State.reset.trapSize n = 64 := rfl
  have ht : State.reset.trapTail = [] := rfl
  have hh : State.reset.trapHead = [] := rfl
  have hu : State.reset.trapUsed n = 0 := by simp [State.trapUsed, ht, hh, alGet_nil]
  simp [State.regC, hp, hw, hu, hz, ht, hh, alGet_nil, b2n]

theorem reset_regC_link (n : Nat) {o : Nat} (lo : 0x50000 ≤ o) (hi : o < 0x50080) : State.reset.regC n o = 0 := by
  have hl : ∀ l, State.reset.link l = {} := fun _ => rfl
  simp (disch := omega) only [State.regC, if_neg, if_pos, hl]
  decide

theorem reset_regC_firebreak (n : Nat) : State.reset.regC n 0x60000 = 0x1C0 := by
  have hl : State.reset.die n = {} := rfl
  have hc : State.reset.ceiling n = 7 := rfl
  have hs : State.reset.stackCeiling n = 7 := rfl
  simp (disch := omega) only [State.regC, if_neg, hl, hc, hs]
  decide

theorem reset_regF_channel (n : Nat) {o : Nat} (lo : 0x10000 ≤ o) (hi : o < 0x10380) : State.reset.regF n o = 0 := by
  have hc : ∀ k, State.reset.chan n k = {} := fun _ => rfl
  simp (disch := omega) only [State.regF, if_neg, if_pos, hc]
  decide

theorem reset_regF_remap (n : Nat) {o : Nat} (lo : 0x10400 ≤ o) (hi : o < 0x10420) : State.reset.regF n o = 31 := by
  have hr : ∀ g, State.reset.remapOf n g = {} := fun _ => rfl
  simp (disch := omega) only [State.regF, if_neg, if_pos, hr]
  decide

theorem reset_regF_stacks (n : Nat) : State.reset.regF n 0x10500 = 0 := by
  have hb : State.reset.hbm = [] := rfl
  have ht : State.reset.tmax = [] := rfl
  simp (disch := omega) only [State.regF, if_neg, hb, ht, alGet_nil]
  decide

theorem reset_regF_slice (n : Nat) {o : Nat} (lo : 0x20000 ≤ o) (hi : o < 0x20100) : State.reset.regF n o = 0 := by
  have hs : ∀ k, State.reset.slice n k = {} := fun _ => rfl
  simp (disch := omega) only [State.regF, if_neg, if_pos, hs]
  decide

theorem reset_pool_col (n k : Nat) : State.reset.pool (.col n k) = 0 := rfl
theorem reset_pool_colHub (k : Nat) : State.reset.pool (.colHub k) = 0 := rfl

theorem reset_regF_col (n : Nat) {o : Nat} (lo : 0x30000 ≤ o) (hi : o < 0x30018) : State.reset.regF n o = 0 := by
  have hp : ∀ k, State.reset.colPort k = {} := fun _ => rfl
  simp (disch := omega) only [State.regF, if_neg, if_pos, hp, reset_pool_col]
  decide

theorem reset_regF_colTraffic (n : Nat) {o : Nat} (lo : 0x30100 ≤ o) (hi : o < 0x30150) : State.reset.regF n o = 0 := by
  have hc : State.reset.colSat = [] := rfl
  simp (disch := omega) only [State.regF, if_neg, if_pos, hc, alGet_nil]
  decide

theorem reset_regH_routes {o : Nat} (lo : 0x100000 ≤ o) (hi : o < 0x100400) : State.reset.regH o = 0 := by
  have hr : State.reset.routes = [] := rfl
  simp (disch := omega) only [State.regH, if_neg, if_pos, hr, alGet_nil]
  rfl

theorem reset_regH_xltRoots {o : Nat} (lo : 0x300000 ≤ o) (hi : o < 0x300080) : State.reset.regH o = 0 := by
  have hx : State.reset.xlt = {} := rfl
  simp (disch := omega) only [State.regH, if_neg, if_pos, hx, alGet_nil]
  rfl

theorem reset_regH_ridge {o : Nat} (lo : 0x500000 ≤ o) (hi : o < 0x502200) : State.reset.regH o = 0 := by
  have hr : State.reset.rdgRoute = [] := rfl
  have hw : State.reset.rdgWin = [] := rfl
  by_cases h : o < 0x502000
  · simp (disch := omega) only [State.regH, if_neg, if_pos, hr, alGet_nil]
    rfl
  · simp (disch := omega) only [State.regH, if_neg, if_pos, hw, alGet_nil]
    rfl

theorem reset_streamReg (n o : Nat) : State.reset.streamReg n o = 0 := by
  have hs : State.reset.stream n = {} := rfl
  simp only [State.streamReg, hs]
  by_cases h0 : o = 0
  · exact (if_pos h0).trans rfl
  · by_cases h8 : o = 8
    · exact (if_neg h0).trans ((if_pos h8).trans rfl)
    · by_cases h16 : o = 0x10
      · exact (if_neg h0).trans ((if_neg h8).trans ((if_pos h16).trans rfl))
      · exact (if_neg h0).trans ((if_neg h8).trans (if_neg h16))

theorem reset_regH_streams {o : Nat} (lo : 0x700000 ≤ o) (hi : o < 0x700800) : State.reset.regH o = 0 := by
  simp (disch := omega) only [State.regH, if_neg, if_pos]
  exact reset_streamReg _ _

theorem reset_tally_read (k : Nat) : State.reset.tally.read k = 0 := by
  have ht : State.reset.tally = {} := rfl
  rw [ht, Tally.read]
  split
  · rfl
  · simp [alGet_nil]

theorem reset_regH_tally {o : Nat} (lo : 0xA10000 ≤ o) (hi : o < 0xA14000) : State.reset.regH o = 0 := by
  simp (disch := omega) only [State.regH, if_neg, if_pos, reset_tally_read]
  rfl


theorem reset_regH_single : ∀ o ∈ [0x300108, 0x300110, 0x300118, 0x300128, 0x400000, 0x400008, 0x400010, 0x400018, 0x400020, 0x600010,
    0x800000, 0x900018, 0x900020, 0x900028, 0x910008, 0x910010, 0xA00000, 0xA00008],
    (∃ e ∈ regRanges 8, e.1 ≤ o ∧ o < e.2) ∧ (o < 0x700000 ∨ 0x700800 ≤ o ∨ o % 32 / 8 ≠ 3) ∧ State.reset.regH o = 0 := by
  decide

theorem reset_csr (core : Nat) (hc : core < 64) : State.reset.csr core 0xFC0 = BitVec.ofNat 64 core ∧ State.reset.csr core 0xCC0 = 0
    ∧ State.reset.csr core 0x5C0 = 0 ∧ State.reset.csr core 0x5C1 = 0 := by
  have hid : core % 8 + core / 8 % 8 * 8 = core := by omega
  have hcores : State.reset.cores = [] := rfl
  have hnow : State.reset.now = 0 := rfl
  refine ⟨?_, ?_, ?_, ?_⟩
  · simp [State.csr, hid]
  · simp [State.csr, hnow]
  · simp [State.csr, hcores, alGet_nil, b2n]
  · simp [State.csr, hcores, alGet_nil, b2n]

theorem regRanges_of_lt_four {b : Nat} (hb : b < 4) : regRanges b = regRanges 0 := by simp [regRanges, hb]

theorem regRanges_four_add {b : Nat} (hb : b < 4) : regRanges (4 + b) = regRanges 4 := by
  have h8 : 4 + b < 8 := by omega
  simp [regRanges, h8]

/-- A register of Cn's block at reset, its offset given by the range `e` it lies in. -/
theorem reset_regRead_C {pa n o v : Nat} (e : Nat × Nat) (hv : State.reset.regC n o = v) (hn : n < 4)
    (hpa : pa = 0x0F0000000000 + n * 2 ^ 32 + o) (lo : e.1 ≤ o := by omega) (hi : o < e.2 := by omega)
    (he : e ∈ regRanges 0 := by decide) : State.reset.regRead pa = BitVec.ofNat 64 v := by
  have ho : e.2 ≤ 2 ^ 32 := (by decide : ∀ e ∈ regRanges 0, e.2 ≤ 2 ^ 32) e he
  have hr : InRegRange n o := inRegRange_of_mem e (by rwa [regRanges_of_lt_four hn]) lo hi
  rw [State.regRead_C _ hpa hn (by omega) hr (by simp [State.reset]), hv]

/-- A register of Fn's block at reset, its offset given by the range `e` it lies in. -/
theorem reset_regRead_F {pa n o v : Nat} (e : Nat × Nat) (hv : State.reset.regF n o = v) (hn : n < 4)
    (hpa : pa = 0x0F0000000000 + (4 + n) * 2 ^ 32 + o) (lo : e.1 ≤ o := by omega) (hi : o < e.2 := by omega)
    (he : e ∈ regRanges 4 := by decide) : State.reset.regRead pa = BitVec.ofNat 64 v := by
  have ho : e.2 ≤ 2 ^ 32 := (by decide : ∀ e ∈ regRanges 4, e.2 ≤ 2 ^ 32) e he
  have hr : InRegRange (4 + n) o := inRegRange_of_mem e (by rwa [regRanges_four_add hn]) lo hi
  rw [State.regRead_F _ hpa hn (by omega) hr (by simp [State.reset]), hv]

/-- A register of the block of H at reset, its offset given by the range `e` it lies in. -/
theorem reset_regRead_H {pa o v : Nat} (e : Nat × Nat) (hv : State.reset.regH o = v) (hpa : pa = 0x0F0800000000 + o)
    (lo : e.1 ≤ o := by omega) (hi : o < e.2 := by omega)
    (hf : o < 0x700000 ∨ 0x700800 ≤ o ∨ o % 32 / 8 ≠ 3 := by omega) (he : e ∈ regRanges 8 := by decide) :
    State.reset.regRead pa = BitVec.ofNat 64 v := by
  have ho : e.2 ≤ 2 ^ 32 := (by decide : ∀ e ∈ regRanges 8, e.2 ≤ 2 ^ 32) e he
  rw [State.regRead_H _ hpa (by omega) (inRegRange_of_mem e he lo hi) hf, hv]

theorem reset_regRead_Cn (n : Nat) (hn : n < 4) :
    (∀ o ∈ [0x1000, 0x1008, 0x1010, 0x1018], State.reset.regRead (0x0F0000000000 + n * 2 ^ 32 + o) = 0)
    ∧ (∀ k < 16, State.reset.regRead (0x0F0000000000 + n * 2 ^ 32 + 0x50000 + 8 * k) = 0)
    ∧ State.reset.regRead (0x0F0000000000 + n * 2 ^ 32 + 0x60000) = 0x1C0 := by
  refine ⟨fun o ho => ?_, fun k hk => ?_, ?_⟩
  · have hb : 0x1000 ≤ o ∧ o < 0x1020 :=
      (by decide : ∀ o ∈ [0x1000, 0x1008, 0x1010, 0x1018], 0x1000 ≤ o ∧ o < 0x1020) o ho
    exact reset_regRead_C (0x1000, 0x1020) (reset_regC_traps n o ho) hn rfl
  · exact reset_regRead_C (o := 0x50000 + 8 * k) (0x50000, 0x50080) (reset_regC_link n (by omega) (by omega)) hn (by omega)
  · exact reset_regRead_C (0x60000, 0x60008) (reset_regC_firebreak n) hn rfl

theorem reset_regRead_Fn (n : Nat) (hn : n < 4) :
    (∀ k < 112, State.reset.regRead (0x0F0000000000 + (4 + n) * 2 ^ 32 + 0x10000 + 8 * k) = 0)
    ∧ (∀ g < 4, State.reset.regRead (0x0F0000000000 + (4 + n) * 2 ^ 32 + 0x10400 + 8 * g) = 31)
    ∧ State.reset.regRead (0x0F0000000000 + (4 + n) * 2 ^ 32 + 0x10500) = 0
    ∧ (∀ k < 32, State.reset.regRead (0x0F0000000000 + (4 + n) * 2 ^ 32 + 0x20000 + 8 * k) = 0)
    ∧ (∀ k < 3, State.reset.regRead (0x0F0000000000 + (4 + n) * 2 ^ 32 + 0x30000 + 8 * k) = 0)
    ∧ (∀ l < 10, State.reset.regRead (0x0F0000000000 + (4 + n) * 2 ^ 32 + 0x30100 + 8 * l) = 0) := by
  refine ⟨fun k hk => ?_, fun g hg => ?_, ?_, fun k hk => ?_, fun k hk => ?_, fun l hl => ?_⟩
  · exact reset_regRead_F (o := 0x10000 + 8 * k) (0x10000, 0x10380) (reset_regF_channel n (by omega) (by omega)) hn (by omega)
  · exact reset_regRead_F (o := 0x10400 + 8 * g) (0x10400, 0x10420) (reset_regF_remap n (by omega) (by omega)) hn (by omega)
  · exact reset_regRead_F (0x10500, 0x10508) (reset_regF_stacks n) hn rfl
  · exact reset_regRead_F (o := 0x20000 + 8 * k) (0x20000, 0x20100) (reset_regF_slice n (by omega) (by omega)) hn (by omega)
  · exact reset_regRead_F (o := 0x30000 + 8 * k) (0x30000, 0x30018) (reset_regF_col n (by omega) (by omega)) hn (by omega)
  · exact reset_regRead_F (o := 0x30100 + 8 * l) (0x30100, 0x30150) (reset_regF_colTraffic n (by omega) (by omega)) hn (by omega)

theorem reset_regRead_H_single : ∀ o ∈ [0x300108, 0x300110, 0x300118, 0x300128, 0x400000, 0x400008, 0x400010, 0x400018, 0x400020, 0x600010,
    0x800000, 0x900018, 0x900020, 0x900028, 0x910008, 0x910010, 0xA00000, 0xA00008],
    State.reset.regRead (0x0F0800000000 + o) = 0 := by
  intro o ho
  obtain ⟨⟨e, he, lo, hi⟩, hf, hv⟩ := reset_regH_single o ho
  exact reset_regRead_H e hv rfl lo hi hf he

theorem reset_regRead_stream (n : Nat) (hn : n < 64) : ∀ o ∈ [0, 8, 16], State.reset.regRead (0x0F0800700000 + 32 * n + o) = 0 := by
  intro o ho
  have hb : o % 8 = 0 ∧ o < 24 := (by decide : ∀ o ∈ [0, 8, 16], o % 8 = 0 ∧ o < 24) o ho
  exact reset_regRead_H (o := 0x700000 + 32 * n + o) (0x700000, 0x700800) (reset_regH_streams (by omega) (by omega)) (by omega)

end Sys2Proof.Machine
end

section
/-! The obligations about reset. -/

namespace Sys2Proof.Machine

/-- Settles O43, block by block: a read of a register that exists gives the register's function of the state, which every table's reset
entry makes its Reset column. That the queue and memory are empty and the registers for which the spec gives no reset value are zero
is the model's reading (log entries 1, 4 and 5). -/
theorem resetState : Obligations.ResetState := by
  unfold Obligations.ResetState
  refine ⟨rfl, rfl, rfl, rfl, rfl, fun n hn => ?_, fun i hi => ?_, fun i hi => ?_, reset_regRead_H_single, fun i hi => ?_, fun w hw => ?_,
    reset_regRead_stream, fun k hk => ?_, ?_, ?_, ?_, ?_, ?_, reset_csr⟩
  · obtain ⟨htraps, hlinks, hfb⟩ := reset_regRead_Cn n hn
    exact ⟨htraps, hlinks, hfb, reset_regRead_Fn n hn⟩
  · exact reset_regRead_H (o := 0x100000 + 8 * i) (0x100000, 0x100400) (reset_regH_routes (by omega) (by omega)) (by omega)
  · exact reset_regRead_H (o := 0x300000 + 8 * i) (0x300000, 0x300080) (reset_regH_xltRoots (by omega) (by omega)) (by omega)
  · exact reset_regRead_H (o := 0x500000 + 8 * i) (0x500000, 0x502200) (reset_regH_ridge (by omega) (by omega)) (by omega)
  · exact reset_regRead_H (o := 0x502000 + 8 * w) (0x500000, 0x502200) (reset_regH_ridge (by omega) (by omega)) (by omega)
  · exact reset_regRead_H (o := 0xA10000 + 8 * k) (0xA10000, 0xA14000) (reset_regH_tally (by omega) (by omega)) (by omega)
  · exact reset_regRead_H (o := 0x600000) (0x600000, 0x604000) (by decide) rfl
  · exact reset_regRead_H (o := 0x900000) (0x900000, 0x900038) (by decide) rfl
  · exact reset_regRead_H (o := 0x900008) (0x900000, 0x900038) (by decide) rfl
  · exact reset_regRead_H (o := 0x900010) (0x900000, 0x900038) (by decide) rfl
  · exact reset_regRead_H (o := 0x900030) (0x900000, 0x900038) (by decide) rfl

/-- Settles O44: the reset state holds no memory but the empty one, and both logs are empty. -/
theorem invariantAtReset : Obligations.InvariantAtReset := by
  unfold Obligations.InvariantAtReset
  decide

end Sys2Proof.Machine
end

section
/-! SUPPORT. Register writes, by the register that the address names. -/

namespace Sys2Proof.Machine

theorem when_of_true {c : Bool} (h : c = true) (f : State → State) (s : State) : when_ c f s = .next (f s) := by rw [when_, if_pos h]

theorem exec_registerWrite_node (m : Bool) (core addr : Nat) (v : W64) (s : State) : exec (.registerWrite (.node m core) addr v) s =
    when_ (s.coreRuns core) (fun s =>
      if addr < 4096 then s.csrWrite core addr v
      else if decide (addr % 8 = 0) && s.region addr == .regs then s.regWrite m addr v
      else s) s := rfl

theorem exec_csrWrite {s : State} {core : Nat} (hr : s.coreRuns core = true) (m : Bool) {num : Nat} (hn : num < 4096) (v : W64) :
    exec (.registerWrite (.node m core) num v) s = .next (s.csrWrite core num v) := by
  rw [exec_registerWrite_node, when_of_true hr, if_pos hn]

/-- The block of H holds device registers only. -/
theorem State.region_of_H (s : State) {o : Nat} (ho : o < 2 ^ 32) : s.region (0x0F0800000000 + o) = .regs := by
  have h1 : ¬ (0x800000000000 ≤ 0x0F0800000000 + o) := by omega
  have h2 : 0x0F0000000000 ≤ 0x0F0800000000 + o ∧ 0x0F0800000000 + o < 0x0F1000000000 := by omega
  have h3 : 0x0F0800000000 + o < 0x0F0A00000000 := by omega
  rw [State.region, if_neg h1, if_pos h2, if_pos h3]

theorem exec_regWrite {s : State} {core : Nat} (hr : s.coreRuns core = true) (m : Bool) {pa o : Nat} (hpa : pa = 0x0F0800000000 + o)
    (ho : o < 2 ^ 32) (ha : o % 8 = 0) (v : W64) : exec (.registerWrite (.node m core) pa v) s = .next (s.regWrite m pa v) := by
  have hc : ¬ (pa < 4096) := by omega
  have hal : pa % 8 = 0 := by omega
  have hreg : s.region pa = .regs := by rw [hpa, s.region_of_H ho]
  rw [exec_registerWrite_node, when_of_true hr, if_neg hc, if_pos (by simp [hal, hreg])]

section
variable (s : State) (m : Bool) (v : W64)

/-- The block of H at an offset, as `State.regWrite` takes an address apart. -/
theorem hub_address {pa o : Nat} (hpa : pa = 0x0F0800000000 + o) (ho : o < 2 ^ 32) :
    (pa - 0x0F0000000000) / 2 ^ 32 = 8 ∧ pa % 2 ^ 32 = o := by omega

theorem State.regWrite_xltRoot {i : Nat} (hi : i < 16) :
    s.regWrite m (0x0F0800300000 + 8 * i) v =
      { s with xlt := if ({ s.xlt with root := alPut s.xlt.root i (v &&& 0x00007FFFFFFFE007#64) } : Xlt).on i then
          { s.xlt with root := alPut s.xlt.root i (v &&& 0x00007FFFFFFFE007#64) }
        else ({ s.xlt with root := alPut s.xlt.root i (v &&& 0x00007FFFFFFFE007#64) } : Xlt).purge i } := by
  obtain ⟨hb, ho⟩ := hub_address (pa := 0x0F0800300000 + 8 * i) (o := 0x300000 + 8 * i) (by omega) (by omega)
  have hk : (0x300000 + 8 * i - 0x300000) / 8 = i := by rw [Nat.add_sub_cancel_left, Nat.mul_div_cancel_left i (by decide)]
  simp (disch := omega) only [State.regWrite, hb, ho, ne_eq, not_true_eq_false, if_false, if_pos, hk]

theorem State.regWrite_rdgRoute {i : Nat} (hi : i < 1024) :
    s.regWrite m (0x0F0800500000 + 8 * i) v = { s with rdgRoute := alPut s.rdgRoute i (v &&& 0x000003FFFFFFFFFF#64) } := by
  obtain ⟨hb, ho⟩ := hub_address (pa := 0x0F0800500000 + 8 * i) (o := 0x500000 + 8 * i) (by omega) (by omega)
  have hk : (0x500000 + 8 * i - 0x500000) / 8 = i := by rw [Nat.add_sub_cancel_left, Nat.mul_div_cancel_left i (by decide)]
  simp (disch := omega) only [State.regWrite, hb, ho, ne_eq, not_true_eq_false, if_false, if_neg, if_pos, hk]

theorem State.regWrite_rdgWin {i : Nat} (hi : i < 64) :
    s.regWrite m (0x0F0800502000 + 8 * i) v = { s with rdgWin := alPut s.rdgWin i (v &&& 0x0000000003FF07FF#64) } := by
  obtain ⟨hb, ho⟩ := hub_address (pa := 0x0F0800502000 + 8 * i) (o := 0x502000 + 8 * i) (by omega) (by omega)
  have hk : (0x502000 + 8 * i - 0x502000) / 8 = i := by rw [Nat.add_sub_cancel_left, Nat.mul_div_cancel_left i (by decide)]
  simp (disch := omega) only [State.regWrite, hb, ho, ne_eq, not_true_eq_false, if_false, if_neg, if_pos, hk]

theorem State.regWrite_window {o : Nat} (ho : o < 0x4000) : s.regWrite m (0x0F0800600000 + o) v = s.windowWrite .n o v := by
  obtain ⟨hb, hm⟩ := hub_address (pa := 0x0F0800600000 + o) (o := 0x600000 + o) (by omega) (by omega)
  have hk : 0x600000 + o - 0x600000 = o := by omega
  simp (disch := omega) only [State.regWrite, hb, hm, ne_eq, not_true_eq_false, if_false, if_neg, if_pos, hk]

/-- The safety registers are read only: a write is counted (R406). -/
theorem State.regWrite_safe {k : Nat} (hk : k < 7) : s.regWrite m (0x0F0800900000 + 8 * k) v = s.count (svc 13) := by
  obtain ⟨hb, ho⟩ := hub_address (pa := 0x0F0800900000 + 8 * k) (o := 0x900000 + 8 * k) (by omega) (by omega)
  simp (disch := omega) only [State.regWrite, hb, ho, ne_eq, not_true_eq_false, if_false, if_neg, if_pos]

theorem State.regWrite_dbgData : s.regWrite true 0x0F0800910008 v = { s with dbgUnit := { s.dbgUnit with data := v } } := by
  obtain ⟨hb, ho⟩ := hub_address (pa := 0x0F0800910008) (o := 0x910008) rfl (by decide)
  simp [State.regWrite]

theorem State.windowWrite_state (p : Port) : s.windowWrite p 0x10 v =
    s.setPort p { s.port p with done := (s.port p).done && !(bitOf v.toNat 1), ien := bitOf v.toNat 2 } := by
  simp only [State.windowWrite, if_true]

theorem State.windowWrite_request (p : Port) {o : Nat} (ho : o < 512) (hb : (s.port p).busy = false)
    (hr : s.cairn.restarting = false ∨ p = .n) : s.windowWrite p (0x1000 + 8 * o) v =
    s.setPort p { s.port p with request := putRequest (s.port p).request (8 * o) v } := by
  have hq : ((s.port p).busy || (s.cairn.restarting && p != .n)) = false := by rcases hr with h | rfl <;> simp [*]
  have hk : 0x1000 + 8 * o - 0x1000 = 8 * o := by omega
  simp (disch := omega) only [State.windowWrite, if_neg, if_pos, hq, hk, Bool.false_eq_true, if_false]

/-- A busy port ignores a write to its request buffer and counts it. -/
theorem State.windowWrite_busy (p : Port) {o : Nat} (ho : o < 512) (hb : (s.port p).busy = true) :
    s.windowWrite p (0x1000 + 8 * o) v = s.setPort p { s.port p with ign := satAdd (2 ^ 32 - 1) (s.port p).ign 1 } := by
  simp (disch := omega) only [State.windowWrite, if_neg, if_pos, hb, Bool.true_or, if_true]

/-- Unmasking the MSI-X entry sends a pending message (Table 14.3). -/
theorem State.windowWrite_unmask (hp : s.portH.msixPending = true)
    (hm : bitOf (setFld s.portH.msixTable 64 64 v.toNat) 96 = false) : s.windowWrite .h 0x3008 v =
    { s with portH := { s.portH with
        msixTable := setFld s.portH.msixTable 64 64 v.toNat, msixPending := false, msixSent := s.portH.msixSent + 1 } } := by
  simp [State.windowWrite, State.port, State.setPort, hp, hm]

end

theorem exec_hostWrite {s : State} (hr : s.reach .h = true) {o : Nat} (ha : o % 8 = 0) (v : W64) :
    exec (.registerWrite .host o v) s = .next (s.windowWrite .h o v) := by
  have he : exec (.registerWrite .host o v) s =
    when_ (s.reach .h && decide (o % 8 = 0)) (fun s => s.windowWrite .h o v) s := rfl
  rw [he, when_of_true (by simp [hr, ha])]

/-! The interrupt routes (R32 to R35). -/

section
variable {s : State} {i : Nat} (v : W64) (hs : s.serves = true) (hi : i < 128)

theorem exec_routeEntryWrite : exec (.routeEntryWrite i v) s = execRouteEntryWrite i v s := rfl

include hs hi

theorem execRouteEntryWrite_quiet (hp : bitOf (alGet 0 s.routes i).toNat 32 = false) :
    execRouteEntryWrite i v s = .next { s with routes := alPut s.routes i (v &&& 0x00000000807FF73F#64) } := by
  rw [execRouteEntryWrite, when_of_true (by simp [hs, hi])]
  simp only [hp, Bool.false_and, Bool.false_eq_true, if_false]

theorem execRouteEntryWrite_pending (hp : bitOf (alGet 0 s.routes i).toNat 32 = true)
    (he : bitOf (v &&& 0x00000000807FF73F#64).toNat 31 = false) : execRouteEntryWrite i v s =
    .next { s with routes := alPut s.routes i ((v &&& 0x00000000807FF73F#64) ||| (1#64 <<< 32)) } := by
  rw [execRouteEntryWrite, when_of_true (by simp [hs, hi])]
  simp only [hp, he, Bool.and_false, Bool.false_eq_true, if_false, if_true]

theorem execRouteEntryWrite_enable (hp : bitOf (alGet 0 s.routes i).toNat 32 = true)
    (he : bitOf (v &&& 0x00000000807FF73F#64).toNat 31 = true) (hid : wfld (v &&& 0x00000000807FF73F#64) 12 11 ≠ 0) :
    execRouteEntryWrite i v s =
      .next ({ s with routes := alPut s.routes i (v &&& 0x00000000807FF73F#64) }.sendRoute (v &&& 0x00000000807FF73F#64)) := by
  rw [execRouteEntryWrite, when_of_true (by simp [hs, hi])]
  simp only [hp, he, Bool.and_true, if_true, if_neg hid]

end

theorem exec_interruptEvent {s : State} (src : Nat) (hs : s.serves = true) : exec (.interruptEvent src) s = .next (s.raise src) := by
  have he : exec (.interruptEvent src) s = when_ s.serves (fun s => s.raise src) s := rfl
  rw [he, when_of_true hs]

/-- A source whose route has an interrupt file and is enabled sends its message. -/
theorem State.raise_enabled {s : State} {src : Nat} (hsrc : src < 80) (hid : wfld (alGet 0 s.routes src) 12 11 ≠ 0)
    (he : bitOf (alGet 0 s.routes src).toNat 31 = true) : s.raise src = s.sendRoute (alGet 0 s.routes src) := by
  rw [State.raise, if_neg (by omega)]
  simp only [if_neg hid, he, if_true]

/-- A source whose route has an interrupt file and is disabled notes the event in PEND. -/
theorem State.raise_disabled {s : State} {src : Nat} (hsrc : src < 80) (hid : wfld (alGet 0 s.routes src) 12 11 ≠ 0)
    (he : bitOf (alGet 0 s.routes src).toNat 31 = false) :
    s.raise src = { s with routes := alPut s.routes src (alGet 0 s.routes src ||| (1#64 <<< 32)) } := by
  rw [State.raise, if_neg (by omega)]
  simp only [if_neg hid, he, Bool.false_eq_true, if_false]

end Sys2Proof.Machine
end

section
/-! The obligation about register writes, route writes and interrupt events. -/

namespace Sys2Proof.Machine

/-- Settles O38, register by register: each write is `State.regWrite`, `State.windowWrite` or `execRouteEntryWrite` at the branch that
its address or its route's PEND and EN select. That routes 80 to 127 keep what is written is log entry 43. -/
theorem registersAndInterruptsComplete : Obligations.RegistersAndInterruptsComplete := by
  unfold Obligations.RegistersAndInterruptsComplete
  refine ⟨fun s m core v hr => ⟨?_, fun hv => ?_, fun i hi => ?_, fun i hi => ?_, fun i hi => ?_, fun k hk => ?_, ?_, ?_, fun o ho hb => ?_,
      fun o ho hb => ?_⟩, fun s v hr => ⟨?_, fun o ho hb hc => ?_, fun hp hm => ?_⟩, fun s i v e hs hi he => ?_,
    fun s src hs hsrc hid => ⟨fun he => ?_, fun he => ?_⟩⟩
  · rw [exec_csrWrite hr m (by decide)]
    rfl
  · rw [exec_csrWrite hr m (by decide)]
    simp [State.csrWrite, hv]
  · rw [exec_regWrite hr m (o := 0x300000 + 8 * i) (by omega) (by omega) (by omega), s.regWrite_xltRoot m v hi]
  · rw [exec_regWrite hr m (o := 0x500000 + 8 * i) (by omega) (by omega) (by omega), s.regWrite_rdgRoute m v hi]
  · rw [exec_regWrite hr m (o := 0x502000 + 8 * i) (by omega) (by omega) (by omega), s.regWrite_rdgWin m v hi]
  · rw [exec_regWrite hr m (o := 0x900000 + 8 * k) (by omega) (by omega) (by omega), s.regWrite_safe m v hk]
  · rw [exec_regWrite hr true (o := 0x910008) rfl (by decide) rfl, s.regWrite_dbgData v]
  · rw [exec_regWrite hr m (o := 0x600010) rfl (by decide) rfl, s.regWrite_window m v (o := 0x10) (by decide), s.windowWrite_state v]
    rfl
  · rw [exec_regWrite hr m (o := 0x601000 + 8 * o) (by omega) (by omega) (by omega),
      Nat.add_assoc 0x0F0800600000 0x1000, s.regWrite_window m v (by omega), s.windowWrite_request v .n ho hb (.inr rfl)]
    rfl
  · rw [exec_regWrite hr m (o := 0x601000 + 8 * o) (by omega) (by omega) (by omega),
      Nat.add_assoc 0x0F0800600000 0x1000, s.regWrite_window m v (by omega), s.windowWrite_busy v .n ho hb]
    rfl
  · rw [exec_hostWrite hr rfl, s.windowWrite_state v]
    rfl
  · rw [exec_hostWrite hr (by omega), s.windowWrite_request v .h ho hb (.inl hc)]
    rfl
  · rw [exec_hostWrite hr rfl, s.windowWrite_unmask v hp hm]
  · subst he
    exact ⟨execRouteEntryWrite_quiet v hs hi, execRouteEntryWrite_pending v hs hi, execRouteEntryWrite_enable v hs hi⟩
  · rw [exec_interruptEvent src hs, State.raise_enabled hsrc hid he]
  · rw [exec_interruptEvent src hs, State.raise_disabled hsrc hid he]

end Sys2Proof.Machine
end

section
/-! SUPPORT. What SIGNAL, EPOCH, WAIT, hints, requests, links, empties and completions of records do, branch by branch. -/

namespace Sys2Proof.Machine

/-! The write of a SIGNAL or EPOCH. -/

section
variable {w t : State} {n : Nat} {f : Flight} {v : W64} {add : Bool}

theorem State.recordWrite_of_done {old : W64}
    (h : w.recAccess (recWr n f.addr (w.stream n).space (wfld (nth 0 f.words 1) 0 52) v add) = .done old t) :
    w.recordWrite n f v add = t.finFlight n f.addr 0 0 := by simp only [State.recordWrite, h]

theorem State.recordWrite_of_fail {k : Nat}
    (h : w.recAccess (recWr n f.addr (w.stream n).space (wfld (nth 0 f.words 1) 0 52) v add) = .fail k t) :
    w.recordWrite n f v add = t.finFlight n f.addr 10 (accessDetail (wfld (nth 0 f.words 1) 0 52) k) := by
  simp only [State.recordWrite, h]

theorem State.recordWrite_of_wait
    (h : w.recAccess (recWr n f.addr (w.stream n).space (wfld (nth 0 f.words 1) 0 52) v add) = .wait t) :
    w.recordWrite n f v add = t := by simp only [State.recordWrite, h]

end

/-- A SIGNAL (`sg`) or EPOCH that the stream works on, and takes no other record after, makes its write: of VALUE, added when ADD says so, or
of the placement epoch. -/
theorem exec_signal_or_epoch {s w : State} {n : Nat} {sg : Bool} {f : Flight}
    (hw : s.worksOn n (if sg then 3 else 9) (fun ws => wfld (nth 0 ws 1) 0 3 == 0) = some (f, w)) {r : State}
    (hr : w.recordWrite n f (if sg then nth 0 f.words 2 else BitVec.ofNat 64 (w.stream n).epoch) (sg && bitOf (nth 0 f.words 3).toNat 0) = r)
    (hn : s.openFlight n (if sg then 3 else 9) = none ∨ r.takes n = false) : exec (if sg then .signal n else .epoch n) s = .next r := by
  subst hr
  cases sg with
  | true => exact congrArg _ (State.attempt_of_worksOn hw (fun u f => u.recordWrite n f (nth 0 f.words 2) (bitOf (nth 0 f.words 3).toNat 0)) hn)
  | false => exact congrArg _ (State.attempt_of_worksOn hw (fun u f => u.recordWrite n f (BitVec.ofNat 64 (u.stream n).epoch) false) hn)

/-! WAIT. -/

theorem exec_wait {s w r : State} {n : Nat} {f : Flight}
    (hw : s.worksOn n 4 (fun ws => wfld (nth 0 ws 1) 0 3 == 0 && wfld (nth 0 ws 3) 0 2 != 3) = some (f, w)) (hr : w.waitGo n f = r)
    (hn : s.openFlight n 4 = none ∨ r.takes n = false) : exec (.wait n) s = .next r := by
  subst hr
  exact congrArg _ (State.attempt_of_worksOn hw (fun u f => u.waitGo n f) hn)

section
variable {w v : State} {n pa : Nat} {f : Flight} (hd : f.due = none)
  (hx : w.unitXlat (.stream n f.addr) .bread (w.stream n).space (wfld (nth 0 f.words 1) 0 52) = .hit pa v)
include hd hx

/-- A WAIT reads its word when its line cannot be watched, or is watched and held. -/
theorem State.waitGo_reads (h : v.watchable pa = none
    ∨ ∃ line, v.watchable pa = some line ∧ (v.stream n).watch = some line ∧ v.ast (v.agentId 8) line = .s) :
    w.waitGo n f = v.waitRead n f (wfld (nth 0 f.words 1) 0 52) := by
  rcases h with h | ⟨line, hl, hwatch, hast⟩
  · simp only [State.waitGo, hd, hx, h]
  · simp only [State.waitGo, hd, hx, hl, hwatch, hast, and_self, if_true]

/-- A WAIT without its watch asks for it. -/
theorem State.waitGo_watches {line : Nat} {l : List Level} (hl : v.watchable pa = some line) (hwatch : (v.stream n).watch ≠ some line)
    (hr : v.route .hub pa = .go l) : w.waitGo n f = v.setWatch n line := by
  simp only [State.waitGo, hd, hx, hl, hwatch, false_and, if_false, hr]

end

section
variable {v t : State} {n : Nat} {f : Flight} {va : Nat} {x : W64}
  (h : v.recAccess (unitReq (.stream n f.addr) .bread (v.stream n).space va 8) = .done x t)
include h

theorem State.waitRead_met (hc : condMet f.words x = true) (hs : t.snoopIn ≤ t.snoopOut) :
    v.waitRead n f va = t.finFlight n f.addr 0 0 := by
  simp only [State.waitRead, h, hc, if_true, State.waitDue, if_pos hs]

theorem State.waitRead_notMet (hc : condMet f.words x = false) : v.waitRead n f va = t.setStream n { t.stream n with
    flights := (t.stream n).flights.map (fun g => if g.addr = f.addr then { g with last := x } else g) } := by
  simp only [State.waitRead, h, hc, Bool.false_eq_true, if_false]

end

theorem exec_waitTimeout {s : State} {n : Nat} {f : Flight} (hs : s.serves = true) (hn : n < 64) (hf : s.openFlight n 4 = some f)
    (hz : wfld (nth 0 f.words 3) 32 32 ≠ 0) (hd : f.since + 1000 * wfld (nth 0 f.words 3) 32 32 ≤ s.now) :
    exec (.waitTimeout n) s = .next (s.finFlight n f.addr 9 f.last) := by
  have he : exec (.waitTimeout n) s = execWaitTimeout n s := rfl
  rw [he, execWaitTimeout, when_of_true (by simp [hs, hn])]
  simp only [hf, if_pos (And.intro hz hd)]

/-! PHASE_HINT and OP_REQUEST. -/

section
variable {s u : State} {n : Nat} {ws : List W64}

theorem exec_phaseHint_wrongClass (h : s.recordFor n 5 = some (ws, u)) (hc : (u.stream n).cls ≠ 0) :
    exec (.phaseHint n) s = .next ((u.pass n ((u.stream n).next + 64) false).count (svc 0)) := by
  have he : exec (.phaseHint n) s = execPhaseHint n s := rfl
  rw [he, execPhaseHint, State.take_of_recordFor h]
  simp only [if_pos hc]

theorem exec_phaseHint_taken (h : s.recordFor n 5 = some (ws, u)) (hc : (u.stream n).cls = 0) (hd : wfld (nth 0 ws 1) 16 16 ≠ 0)
    (ht : (nth 0 ws 2).toNat ≤ u.now + 2000000) (hm : (u.stream n).smaskBad (wfld (nth 0 ws 1) 0 4) = none) :
    exec (.phaseHint n) s = .next (((u.stream n).diesOf (wfld (nth 0 ws 1) 0 4)).foldl
      (fun (x : State) d => x.takeHint {
        stream := n, t := (nth 0 ws 2).toNat, dur := wfld (nth 0 ws 1) 16 16, opmin := wfld (nth 0 ws 1) 4 3,
        pwr := wfld (nth 0 ws 3) 0 12, inForce := false, marked := false, raised := false } d)
      (u.pass n ((u.stream n).next + 64) (bitOf (nth 0 ws 0).toNat 10))) := by
  have he : exec (.phaseHint n) s = execPhaseHint n s := rfl
  have hbad : ¬ (wfld (nth 0 ws 1) 16 16 = 0 ∨ u.now + 2000000 < (nth 0 ws 2).toNat) := by
    rintro (h | h)
    · exact hd h
    · omega
  rw [he, execPhaseHint, State.take_of_recordFor h]
  simp only [hc, ne_eq, not_true_eq_false, if_false, if_neg hbad, hm]

theorem exec_opRequest_wrongClass (h : s.recordFor n 6 = some (ws, u)) (hc : (u.stream n).cls ≠ 1) :
    exec (.opRequest n) s = .next ((u.pass n ((u.stream n).next + 64) false).count (svc 0)) := by
  have he : exec (.opRequest n) s = execOpRequest n s := rfl
  rw [he, execOpRequest, State.take_of_recordFor h]
  simp only [if_pos hc]

theorem exec_opRequest_taken (h : s.recordFor n 6 = some (ws, u)) (hc : (u.stream n).cls = 1)
    (hm : (u.stream n).smaskBad (wfld (nth 0 ws 1) 0 4) = none) :
    exec (.opRequest n) s = .next (((u.stream n).diesOf (wfld (nth 0 ws 1) 0 4)).foldl
      (fun (x : State) d => x.setDie d { x.die d with
        reqs := if wfld (nth 0 ws 1) 7 1 = 1 then alDel (x.die d).reqs n else alPut (x.die d).reqs n (wfld (nth 0 ws 1) 4 3 + 1) })
      (u.pass n ((u.stream n).next + 64) (bitOf (nth 0 ws 0).toNat 10))) := by
  have he : exec (.opRequest n) s = execOpRequest n s := rfl
  rw [he, execOpRequest, State.take_of_recordFor h]
  simp only [hc, ne_eq, not_true_eq_false, if_false, hm]

end

/-! LINK, EMPTY and the record a stream parks at. -/

section
variable {s u : State} {n : Nat} {ws : List W64}

theorem exec_link_moves (h : s.recordFor n 10 = some (ws, u)) (hz : wfld (nth 0 ws 1) 0 52 ≠ 0) (ha : wfld (nth 0 ws 1) 0 52 % 64 = 0) :
    exec (.link n) s = .next (u.pass n (wfld (nth 0 ws 1) 0 52) (bitOf (nth 0 ws 0).toNat 10)) := by
  have he : exec (.link n) s = execLink n s := rfl
  rw [he, execLink, State.take_of_recordFor h]
  simp only [hz, ha, ne_eq, not_true_eq_false, if_false]

/-- A LINK (`lk`) whose NEXT is zero and an EMPTY park the stream. -/
theorem exec_link_or_empty_parks {lk : Bool} (h : s.recordFor n (if lk then 10 else 0) = some (ws, u))
    (hz : lk = true → wfld (nth 0 ws 1) 0 52 = 0) : exec (if lk then .link n else .empty n) s = .next (u.parkAt n) := by
  cases lk with
  | true =>
    have he : exec (.link n) s = execLink n s := rfl
    rw [if_pos rfl, he, execLink, State.take_of_recordFor (typ := 10) h]
    simp only [hz rfl, if_true]
  | false =>
    have he : exec (.empty n) s = execEmpty n s := rfl
    rw [if_neg Bool.false_ne_true, he, execEmpty, State.take_of_recordFor (typ := 0) h]

end

section
variable {u v : State} {n pa : Nat} (hx : u.unitXlat (.stream n (u.stream n).next) .bread (u.stream n).space (u.stream n).next = .hit pa v)
include hx

theorem State.parkAt_unwatchable (h : v.watchable pa = none) :
    u.parkAt n = (v.nextRead n).setStream n { v.stream n with state := 2, watch := none, woken := false } := by
  simp only [State.parkAt, hx, h]

theorem State.parkAt_watched {line : Nat} (h : v.watchable pa = some line) (hwatch : (v.stream n).watch = some line)
    (hast : v.ast (v.agentId 8) line = .s) :
    u.parkAt n = (v.nextRead n).setStream n { v.stream n with state := 2, woken := false } := by
  simp only [State.parkAt, hx, h, if_pos (And.intro hwatch hast)]

theorem State.parkAt_watches {line : Nat} (h : v.watchable pa = some line) (hwatch : (v.stream n).watch ≠ some line) :
    u.parkAt n = (v.nextRead n).setWatch n line := by
  simp only [State.parkAt, hx, h, hwatch, false_and, if_false]

end

/-! RECORD_COMPLETE. -/

/-- The record of flight `f` leaves its stream, which stops when `stop` says so: what RECORD_COMPLETE does on every path that completes. -/
def State.recordLeaves (n addr : Nat) (f : Flight) (t : State) (stop : Bool) : State :=
  ((t.worked.dropWatchIf n (f.typ == 4)).setStream n
    (((t.worked.dropWatchIf n (f.typ == 4)).stream n).completed addr stop)).forgetLaunch n addr

section
variable {s : State} {n addr : Nat} {f : Flight} {st : Nat} {d : W64} (hs : s.serves = true) (hn : n < 64)
  (hf : (s.stream n).flights.find? (fun f => f.addr == addr && f.fin.isSome) = some f) (hfin : f.fin = some (st, d))
include hs hn hf hfin

/-- A record with status OK leaves, and raises its source when IRQ says so. -/
theorem exec_recordComplete_ok (hz : st = 0) : exec (.recordComplete n addr) s =
    .next (if f.irq then (State.recordLeaves n addr f s false).raise n else State.recordLeaves n addr f s false) := by
  have he : exec (.recordComplete n addr) s = execRecordComplete n addr s := rfl
  rw [he, execRecordComplete, when_of_true (by simp [hs, hn])]
  simp only [hf, hfin, Option.getD_some, if_pos hz]
  rfl

/-- A status record waits while the ring is full. -/
theorem exec_recordComplete_ringFull (hz : st ≠ 0) (hr : 2 ^ (s.stream n).srsz ≤ (s.stream n).ringUsed) :
    exec (.recordComplete n addr) s = .next s := by
  have he : exec (.recordComplete n addr) s = execRecordComplete n addr s := rfl
  rw [he, execRecordComplete, when_of_true (by simp [hs, hn])]
  simp only [hf, hfin, Option.getD_some, if_neg hz, if_pos hr]

section
variable {t : State} {xs : List Req} (hz : st ≠ 0) (hr : (s.stream n).ringUsed < 2 ^ (s.stream n).srsz)
  (hxs : xs = writeReqs (.stream n f.addr) .store (s.stream n).space
    ((s.stream n).sring + (s.stream n).etail % 2 ^ (s.stream n).srsz * 32) ((statusWords f st d s.now).flatMap (leBytes 8)) false)
include hz hr hxs

/-- A status record that has landed advances ETAIL and raises the stream's source. -/
theorem exec_recordComplete_landed {b : List Byte} {p : List Nat} {ys : List Req} (hw : s.unitWrites xs = .ok b p ys t) :
    exec (.recordComplete n addr) s = .next (((State.recordLeaves n addr f t f.stop).setStream n
      { (State.recordLeaves n addr f t f.stop).stream n with etail := ((s.stream n).etail + 1) % 2 ^ 32 }).raise n) := by
  have he : exec (.recordComplete n addr) s = execRecordComplete n addr s := rfl
  subst hxs
  rw [he, execRecordComplete, when_of_true (by simp [hs, hn])]
  simp only [hf, hfin, Option.getD_some, if_neg hz, if_neg (Nat.not_le.2 hr), hw]
  rfl

/-- A status record that cannot be written, for want of a translation or of permission, is logged and stops the stream. -/
theorem exec_recordComplete_lost {k a : Nat} (hk : k = 6 ∨ k = 7) (hw : s.unitWrites xs = .fail k a t) :
    exec (.recordComplete n addr) s =
      .next (if f.irq then ((State.recordLeaves n addr f t true).logEv 0x0017 4 1 [n, f.addr, st, k]).raise n
        else (State.recordLeaves n addr f t true).logEv 0x0017 4 1 [n, f.addr, st, k]) := by
  have he : exec (.recordComplete n addr) s = execRecordComplete n addr s := rfl
  subst hxs
  rw [he, execRecordComplete, when_of_true (by simp [hs, hn])]
  rcases hk with rfl | rfl
  all_goals
    simp only [hf, hfin, Option.getD_some, if_neg hz, if_neg (Nat.not_le.2 hr), hw]
    rfl

end

end

end Sys2Proof.Machine
end

section
/-! The obligation about records. -/

namespace Sys2Proof.Machine

/-- Settles O17, record by record: an attempt or a take runs the record's own part, and each clause is the branch of it that the clause's
hypotheses select. That a hint or a request of the wrong class raises no source, whatever its IRQ says, is log entry 67. -/
theorem recordsComplete : Obligations.RecordsComplete := by
  unfold Obligations.RecordsComplete
  refine ⟨fun s w n sg f hw x hx => ⟨fun old t hd hn => ?_, fun k t r hd hr hn => ?_, fun t hd hn => ?_⟩,
    fun s w v n pa f hw hd hx => ⟨fun x t hread ha => ⟨fun hc hs hn => ?_, fun r hc hr hn => ?_⟩, fun line l hl hwatch hr hn => ?_⟩,
    fun s n f hs hn hf hz hd => exec_waitTimeout hs hn hf hz hd,
    fun s u n ws h hc => exec_phaseHint_wrongClass h hc,
    fun s u n ws h hc hd ht hm => exec_phaseHint_taken h hc hd ht hm,
    fun s u n ws h hc hm => exec_opRequest_taken h hc hm,
    fun s u n ws h hc => exec_opRequest_wrongClass h hc,
    fun s u n ws h hz ha => exec_link_moves h hz ha,
    fun s u v n pa ws lk h hz hx => ?_,
    fun s n addr f st d leave hs hn hf hfin hleave => ?_⟩
  · subst hx
    exact exec_signal_or_epoch hw (State.recordWrite_of_done hd) hn
  · subst hx hr
    exact exec_signal_or_epoch hw (State.recordWrite_of_fail hd) hn
  · subst hx
    exact exec_signal_or_epoch hw (State.recordWrite_of_wait hd) hn
  · exact exec_wait hw ((State.waitGo_reads hd hx hread).trans (State.waitRead_met ha hc hs)) hn
  · subst hr
    exact exec_wait hw ((State.waitGo_reads hd hx hread).trans (State.waitRead_notMet ha hc)) hn
  · exact exec_wait hw (State.waitGo_watches hd hx hl hwatch hr) hn
  · rw [exec_link_or_empty_parks h hz]
    refine ⟨fun hl => ?_, fun line hl => ⟨fun hwatch hast => ?_, fun hwatch => ?_⟩⟩
    · rw [State.parkAt_unwatchable hx hl]
    · rw [State.parkAt_watched hx hl hwatch hast]
    · rw [State.parkAt_watches hx hl hwatch]
  · obtain rfl : leave = State.recordLeaves n addr f := hleave
    refine ⟨exec_recordComplete_ok hs hn hf hfin, exec_recordComplete_ringFull hs hn hf hfin, fun xs hz hr hxs =>
      ⟨fun t b p ys hw => ?_, fun t k a hk hw => ?_⟩⟩
    · exact exec_recordComplete_landed hs hn hf hfin hz hr hxs hw
    · exact exec_recordComplete_lost hs hn hf hfin hz hr hxs hk hw

end Sys2Proof.Machine
end

section
/-! SUPPORT. R270's placement as a bijection: memory is a set of zones (the whole of near or of capacity memory in global mode, one
die's part of it in die-local mode), and a zone's units are spread over its channels by a rotation of each row of units. -/

namespace Sys2Proof.Machine

/-! The rotation of a row of units. -/

/-- Turning on by what is missing to a full turn leads back. -/
theorem turn_back {n a : Nat} (h : Nat) (ha : a < n) : ((a + h) % n + (n - h % n)) % n = a := by
  have hh : h % n < n := Nat.mod_lt _ (by omega)
  have hd := Nat.div_add_mod h n
  have hfull : a + h + (n - h % n) = a + n * (h / n + 1) := by rw [Nat.mul_add, Nat.mul_one]; omega
  rw [Nat.mod_add_mod, hfull, Nat.add_mul_mod_self_left, Nat.mod_eq_of_lt ha]

/-- Turning by `h` positions moves no two of `n` to one. -/
theorem turn_injective {n h a b : Nat} (ha : a < n) (hb : b < n) (he : (a + h) % n = (b + h) % n) : a = b := by
  rw [← turn_back h ha, he, turn_back h hb]

/-- Every one of `n` positions is reached by a turn of `h`. -/
theorem turn_surjective {n c : Nat} (h : Nat) (hc : c < n) : ∃ a < n, (a + h) % n = c := by
  have hn : 0 < n := by omega
  refine ⟨(c + (n - h % n)) % n, Nat.mod_lt _ hn, ?_⟩
  calc ((c + (n - h % n)) % n + h) % n = ((c + h) % n + (n - h % n)) % n := by
        rw [Nat.mod_add_mod, Nat.mod_add_mod, Nat.add_right_comm]
    _ = c := turn_back h hc

/-- The turn of row `q` of units: R270's fold of the row's number. -/
def rowTurn (q : Nat) : Nat := (fld q 0 8) ^^^ (fld q 8 8) ^^^ (fld q 16 8) ^^^ (fld q 24 2)

/-- The channel that unit `u` of a zone of `n` channels lies in. -/
def unitChan (n u : Nat) : Nat := (u % n + rowTurn (u / n)) % n

/-- A unit is known by its row and its channel. -/
theorem unit_eq_of_row_chan {n u v : Nat} (hn : 0 < n) (hq : u / n = v / n) (hc : unitChan n u = unitChan n v) : u = v := by
  rw [unitChan, unitChan, hq] at hc
  have hr : u % n = v % n := turn_injective (Nat.mod_lt _ hn) (Nat.mod_lt _ hn) hc
  rw [← Nat.div_add_mod u n, ← Nat.div_add_mod v n, hq, hr]

/-- Every row has a unit in every channel. -/
theorem exists_unit_of_row_chan {n c : Nat} (q : Nat) (hc : c < n) : ∃ u, u / n = q ∧ unitChan n u = c := by
  obtain ⟨a, ha, hac⟩ := turn_surjective (rowTurn q) hc
  have hq : (n * q + a) / n = q := by rw [Nat.mul_add_div (by omega), Nat.div_eq_of_lt ha, Nat.add_zero]
  have hm : (n * q + a) % n = a := by rw [Nat.mul_add_mod, Nat.mod_eq_of_lt ha]
  exact ⟨n * q + a, hq, by rw [unitChan, hm, hq, hac]⟩

/-! The channels of a zone. -/

/-- The place in row `q` of the zone's channel `c`: as in R270, a global zone deals its channels over the four dies, and near memory's
channels fill the stacks in turn. -/
def chanPlace (global nearMem : Bool) (die c q : Nat) : Place :=
  let i := if global then c / 4 else c
  { die := if global then c % 4 else die, group := if nearMem then i / 31 else 3, logical := if nearMem then i % 31 else i, unit := q }

/-- Channels of a die that a kind of memory uses. -/
def dieChans (nearMem : Bool) : Nat := if nearMem then 93 else 15

/-- Channels of a zone. -/
def zoneChans (global nearMem : Bool) : Nat := if global then 4 * dieChans nearMem else dieChans nearMem

/-- Units of each channel of a kind of memory. -/
def kindUnits (nearMem : Bool) : Nat := chanUnits (if nearMem then 0 else 3)

theorem zoneChans_pos (global nearMem : Bool) : 0 < zoneChans global nearMem := by
  cases global <;> cases nearMem <;> decide

theorem placeAt_eq_chanPlace (pa base n : Nat) (global nearMem : Bool) (die : Nat) :
    placeAt pa base n global nearMem die = chanPlace global nearMem die (unitChan n ((pa - base) / 256)) ((pa - base) / 256 / n) := by
  cases nearMem <;> rfl

theorem chanPlace_injective {global nearMem : Bool} {die c d q r : Nat}
    (h : chanPlace global nearMem die c q = chanPlace global nearMem die d r) : c = d ∧ q = r := by
  simp only [chanPlace, Place.mk.injEq] at h
  obtain ⟨hd, hg, hl, hq⟩ := h
  refine ⟨?_, hq⟩
  cases global <;> cases nearMem <;> simp only [if_true, if_false, Bool.false_eq_true] at hd hg hl <;> omega

/-- A place lies within the channels of a kind of memory. -/
structure Place.InKind (p : Place) (nearMem : Bool) : Prop where
  die : p.die < 4
  group : p.group < 4
  kind : nearMem = decide (p.group < 3)
  logical : p.logical < if p.group = 3 then 15 else 31
  unit : p.unit < chanUnits p.group

theorem chanUnits_of_kind {nearMem : Bool} {g : Nat} (hg : g < 4) (hk : nearMem = decide (g < 3)) : chanUnits g = kindUnits nearMem := by
  subst hk
  by_cases h : g < 3
  · simp [chanUnits, kindUnits, h, show g ≠ 3 by omega]
  · simp [chanUnits, kindUnits, show g = 3 by omega]

theorem chanPlace_inKind {global nearMem : Bool} {die c q : Nat} (hd : die < 4) (hc : c < zoneChans global nearMem)
    (hq : q < kindUnits nearMem) : (chanPlace global nearMem die c q).InKind nearMem := by
  have hi : (if global then c / 4 else c) < dieChans nearMem := by
    cases global <;> simp only [zoneChans, if_true, if_false, Bool.false_eq_true] at hc ⊢ <;> omega
  have hdie : (chanPlace global nearMem die c q).die < 4 := by
    cases global
    · exact hd
    · exact Nat.mod_lt _ (by decide)
  generalize hp : chanPlace global nearMem die c q = p at hdie ⊢
  simp only [chanPlace] at hp
  generalize (if global then c / 4 else c) = i at hi hp
  subst hp
  cases nearMem
  · exact ⟨hdie, Nat.lt_succ_self 3, rfl, hi, hq⟩
  · have hg : i / 31 < 3 := by simp only [dieChans, if_true] at hi; omega
    have hg3 : i / 31 ≠ 3 := by omega
    have hk : true = decide (i / 31 < 3) := (decide_eq_true hg).symm
    refine ⟨hdie, Nat.lt_succ_of_lt hg, hk, ?_, ?_⟩
    · simp only [if_true, if_neg hg3]
      exact Nat.mod_lt _ (by decide)
    · exact (chanUnits_of_kind (Nat.lt_succ_of_lt hg) hk).symm ▸ hq

/-- The channel of a zone that a place of its kind lies in. -/
def placeChan (global nearMem : Bool) (p : Place) : Nat :=
  let i := if nearMem then 31 * p.group + p.logical else p.logical
  if global then 4 * i + p.die else i

theorem Place.InKind.exists_chan {p : Place} {nearMem : Bool} (h : p.InKind nearMem) (global : Bool) :
    ∃ c < zoneChans global nearMem, chanPlace global nearMem p.die c p.unit = p := by
  obtain ⟨die, g, l, u⟩ := p
  obtain ⟨hd, hg, hk, hl, -⟩ := h
  simp only at hd hg hk hl
  refine ⟨placeChan global nearMem ⟨die, g, l, u⟩, ?_⟩
  by_cases hg3 : g = 3
  · subst hg3
    obtain rfl : nearMem = false := hk
    simp only [if_true] at hl
    cases global <;> simp [zoneChans, dieChans, placeChan, chanPlace] <;> omega
  · have hn : nearMem = true := by rw [hk]; exact decide_eq_true (by omega)
    subst hn
    rw [if_neg hg3] at hl
    cases global <;> simp [zoneChans, dieChans, placeChan, chanPlace] <;> omega

/-! The zones of the map. -/

/-- First address of a zone (R22, R23; Table 1.6). -/
def zoneBase (mode : Nat) (nearMem : Bool) (die : Nat) : Nat :=
  (if nearMem then 0 else 0x010000000000) + (if mode = 0 then 0 else die * 0x004000000000)

/-- Size of a zone: its channels filled. -/
def zoneBytes (global nearMem : Bool) : Nat := 256 * zoneChans global nearMem * kindUnits nearMem

/-- An address lies in a zone. -/
def InZone (mode : Nat) (nearMem : Bool) (die pa : Nat) : Prop :=
  zoneBase mode nearMem die ≤ pa ∧ pa < zoneBase mode nearMem die + zoneBytes (mode = 0) nearMem

/-- The place that a zone gives an address. -/
def zonePlace (mode : Nat) (nearMem : Bool) (die pa : Nat) : Place :=
  chanPlace (mode = 0) nearMem die (unitChan (zoneChans (mode = 0) nearMem) ((pa - zoneBase mode nearMem die) / 256))
    ((pa - zoneBase mode nearMem die) / 256 / zoneChans (mode = 0) nearMem)

theorem localDie_eq_some_iff {off size d : Nat} (hs : size ≤ 0x004000000000) :
    localDie off size = some d ↔ d < 4 ∧ d * 0x004000000000 ≤ off ∧ off < d * 0x004000000000 + size := by
  have h : off / 0x004000000000 < 4 ∧ off % 0x004000000000 < size ∧ off / 0x004000000000 = d
      ↔ d < 4 ∧ d * 0x004000000000 ≤ off ∧ off < d * 0x004000000000 + size := by omega
  rw [← h]
  simp only [localDie, Option.ite_none_right_eq_some, Option.some.injEq, and_assoc]

section
variable {mode : Nat} (hm : mode ≠ 0) (nearMem : Bool) (die pa : Nat)
include hm

theorem zoneBase_local : zoneBase mode nearMem die = (if nearMem then 0 else 0x010000000000) + die * 0x004000000000 := by
  rw [zoneBase, if_neg hm]

theorem zonePlace_local : zonePlace mode nearMem die pa =
    placeAt pa ((if nearMem then 0 else 0x010000000000) + die * 0x004000000000) (dieChans nearMem) false nearMem die := by
  rw [placeAt_eq_chanPlace, zonePlace, zoneBase_local hm, decide_eq_false hm]
  rfl

theorem zonePlace_die : (zonePlace mode nearMem die pa).die = die := by
  rw [zonePlace, decide_eq_false hm]
  rfl

theorem inZone_local : InZone mode nearMem die pa ↔ (if nearMem then 0 else 0x010000000000) + die * 0x004000000000 ≤ pa
    ∧ pa < (if nearMem then 0 else 0x010000000000) + die * 0x004000000000 + zoneBytes false nearMem := by
  rw [InZone, zoneBase_local hm, decide_eq_false hm]

theorem near_local_iff : die < 4 ∧ InZone mode true die pa ↔ pa < 0x010000000000 ∧ localDie pa 0x0022E0000000 = some die := by
  rw [inZone_local hm, localDie_eq_some_iff (by decide), show zoneBytes false true = 0x0022E0000000 by decide, if_pos rfl]
  omega

theorem capacity_local_iff : die < 4 ∧ InZone mode false die pa ↔
    ¬ pa < 0x010000000000 ∧ localDie (pa - 0x010000000000) 0x002D00000000 = some die := by
  rw [inZone_local hm, localDie_eq_some_iff (by decide), show zoneBytes false false = 0x002D00000000 by decide, if_neg Bool.false_ne_true]
  omega

end

theorem inZone_global (nearMem : Bool) (die pa : Nat) : InZone 0 nearMem die pa ↔
    (if nearMem then 0 else 0x010000000000) ≤ pa ∧ pa < (if nearMem then 0 else 0x010000000000) + zoneBytes true nearMem := by
  rw [InZone, zoneBase, if_pos rfl, Nat.add_zero, decide_eq_true rfl]

theorem near_global_iff (die pa : Nat) : InZone 0 true die pa ↔ pa < 0x008B80000000 := by
  rw [inZone_global, show zoneBytes true true = 0x008B80000000 by decide, if_pos rfl, Nat.zero_add]
  exact and_iff_right (Nat.zero_le pa)

theorem capacity_global_iff (die pa : Nat) : InZone 0 false die pa ↔ 0x010000000000 ≤ pa ∧ pa < 0x01B400000000 := by
  rw [inZone_global, show zoneBytes true false = 0x00B400000000 by decide, if_neg Bool.false_ne_true]

theorem zonePlace_global (nearMem : Bool) (die pa : Nat) : zonePlace 0 nearMem die pa =
    placeAt pa (if nearMem then 0 else 0x010000000000) (4 * dieChans nearMem) true nearMem 0 := by
  rw [placeAt_eq_chanPlace]
  rfl

/-- Memory is mapped exactly where a zone is, and placed as its zone places it. -/
theorem placeOf_eq_some_iff {mode pa : Nat} {x : Bool × Place} : placeOf mode pa = some x ↔
    ∃ nearMem die, die < 4 ∧ InZone mode nearMem die pa ∧ x = (nearMem, zonePlace mode nearMem die pa) := by
  rw [placeOf]
  by_cases hm : mode = 0
  · subst hm
    rw [if_pos rfl]
    constructor
    · intro h
      by_cases hn : pa < 0x008B80000000
      · rw [if_pos hn] at h
        exact ⟨true, 0, by decide, (near_global_iff 0 pa).2 hn, by rw [zonePlace_global]; exact (Option.some.inj h).symm⟩
      · rw [if_neg hn] at h
        obtain ⟨hc, hx⟩ := Option.ite_none_right_eq_some.1 h
        exact ⟨false, 0, by decide, (capacity_global_iff 0 pa).2 hc, by rw [zonePlace_global]; exact (Option.some.inj hx).symm⟩
    · rintro ⟨nearMem, die, -, hz, rfl⟩
      rw [zonePlace_global]
      cases nearMem with
      | true => rw [if_pos ((near_global_iff die pa).1 hz)]; rfl
      | false =>
        have hc := (capacity_global_iff die pa).1 hz
        rw [if_neg (by omega), if_pos hc]; rfl
  · rw [if_neg hm]
    constructor
    · intro h
      by_cases hp : pa < 0x010000000000
      · rw [if_pos hp] at h
        obtain ⟨d, hld, rfl⟩ := Option.map_eq_some_iff.1 h
        obtain ⟨hd, hz⟩ := (near_local_iff hm d pa).2 ⟨hp, hld⟩
        exact ⟨true, d, hd, hz, by rw [zonePlace_local hm, if_pos rfl, Nat.zero_add]; rfl⟩
      · rw [if_neg hp] at h
        obtain ⟨d, hld, rfl⟩ := Option.map_eq_some_iff.1 h
        obtain ⟨hd, hz⟩ := (capacity_local_iff hm d pa).2 ⟨hp, hld⟩
        exact ⟨false, d, hd, hz, by rw [zonePlace_local hm, if_neg Bool.false_ne_true]; rfl⟩
    · rintro ⟨nearMem, d, hd, hz, rfl⟩
      rw [zonePlace_local hm]
      cases nearMem with
      | true =>
        obtain ⟨hp, hld⟩ := (near_local_iff hm d pa).1 ⟨hd, hz⟩
        rw [if_pos hp, hld, Option.map_some, if_pos rfl, Nat.zero_add]; rfl
      | false =>
        obtain ⟨hp, hld⟩ := (capacity_local_iff hm d pa).1 ⟨hd, hz⟩
        rw [if_neg hp, hld, Option.map_some, if_neg Bool.false_ne_true]; rfl

/-! The bijection. -/

theorem zoneBase_mod (mode : Nat) (nearMem : Bool) (die : Nat) : zoneBase mode nearMem die % 256 = 0 := by
  unfold zoneBase
  split <;> split <;> omega

/-- An address lies in a zone of `n` channels of `k` units when its row is one of the `k`. -/
theorem row_lt_iff {base pa n k : Nat} (hn : 0 < n) (hlo : base ≤ pa) : (pa - base) / 256 / n < k ↔ pa < base + 256 * n * k := by
  rw [Nat.div_div_eq_div_mul, Nat.div_lt_iff_lt_mul (by omega), Nat.mul_comm k, Nat.sub_lt_iff_lt_add' hlo]

theorem exists_byte_of_unit {base : Nat} (u : Nat) {b : Nat} (hbase : base % 256 = 0) (hb : b < 256) :
    ∃ pa, base ≤ pa ∧ (pa - base) / 256 = u ∧ pa % 256 = b :=
  ⟨base + 256 * u + b, by omega, by omega, by omega⟩

theorem eq_of_unit_of_byte {base pa pb : Nat} (hbase : base % 256 = 0) (ha : base ≤ pa) (hb : base ≤ pb)
    (hu : (pa - base) / 256 = (pb - base) / 256) (hbyte : pa % 256 = pb % 256) : pa = pb := by omega

theorem InZone.inKind {mode die pa : Nat} {nearMem : Bool} (h : InZone mode nearMem die pa) (hd : die < 4) :
    (zonePlace mode nearMem die pa).InKind nearMem :=
  chanPlace_inKind hd (Nat.mod_lt _ (zoneChans_pos _ _)) ((row_lt_iff (zoneChans_pos _ _) h.1).2 h.2)

/-- Within a zone an address is known by its place and its byte. -/
theorem zonePlace_injective {mode pa pb die : Nat} {nearMem : Bool} (ha : InZone mode nearMem die pa) (hb : InZone mode nearMem die pb)
    (hp : zonePlace mode nearMem die pa = zonePlace mode nearMem die pb) (hbyte : pa % 256 = pb % 256) : pa = pb := by
  obtain ⟨hc, hq⟩ := chanPlace_injective hp
  exact eq_of_unit_of_byte (zoneBase_mod mode nearMem die) ha.1 hb.1 (unit_eq_of_row_chan (zoneChans_pos _ _) hq hc) hbyte

/-- A place tells the zone of its kind: in global mode there is one, and else it is that of the place's die. -/
theorem InZone.of_place_eq {mode pa pb die die' : Nat} {nearMem : Bool} (hb : InZone mode nearMem die' pb)
    (hp : zonePlace mode nearMem die pa = zonePlace mode nearMem die' pb) :
    InZone mode nearMem die pb ∧ zonePlace mode nearMem die' pb = zonePlace mode nearMem die pb := by
  by_cases hm : mode = 0
  · subst hm
    exact ⟨by rwa [inZone_global] at hb ⊢, by rw [zonePlace_global, zonePlace_global]⟩
  · obtain rfl : die = die' := by rw [← zonePlace_die hm nearMem die pa, hp, zonePlace_die hm]
    exact ⟨hb, rfl⟩

/-- Every place of a kind of memory is that of an address, whatever the byte. -/
theorem Place.InKind.exists_address {p : Place} {nearMem : Bool} (h : p.InKind nearMem) (mode : Nat) {b : Nat} (hb : b < 256) :
    ∃ pa, InZone mode nearMem p.die pa ∧ zonePlace mode nearMem p.die pa = p ∧ pa % 256 = b := by
  obtain ⟨c, hc, hcp⟩ := h.exists_chan (mode = 0)
  obtain ⟨u, hq, hu⟩ := exists_unit_of_row_chan p.unit hc
  obtain ⟨pa, hlo, hun, hpb⟩ := exists_byte_of_unit u (zoneBase_mod mode nearMem p.die) hb
  refine ⟨pa, ⟨hlo, (row_lt_iff (zoneChans_pos _ _) hlo).1 ?_⟩, ?_, hpb⟩
  · rw [hun, hq, ← chanUnits_of_kind h.group h.kind]
    exact h.unit
  · rw [zonePlace, hun, hu, hq, hcp]

/-- Settles O56, zone by zone: a place tells its zone, within a zone place and byte tell the address, and every place of a kind lies in one. -/
theorem placesAreDistinct : Obligations.PlacesAreDistinct := by
  unfold Obligations.PlacesAreDistinct
  refine ⟨fun mode pa pb x y hx hy hxy hbyte => ?distinct, fun mode pa x hx => ?within, fun mode p b hd hg hl hu hb => ?reached⟩
  case distinct =>
    obtain ⟨nearMem, die, hd, ha, rfl⟩ := placeOf_eq_some_iff.1 hx
    obtain ⟨nearMem', die', hd', hb, rfl⟩ := placeOf_eq_some_iff.1 hy
    simp only at hxy
    obtain rfl : nearMem = nearMem' := by rw [(ha.inKind hd).kind, (hb.inKind hd').kind, hxy]
    obtain ⟨hb, hp⟩ := hb.of_place_eq hxy
    exact zonePlace_injective ha hb (hxy.trans hp) hbyte
  case within =>
    obtain ⟨nearMem, die, hd, hz, rfl⟩ := placeOf_eq_some_iff.1 hx
    obtain ⟨hdie, hgroup, hkind, hlogical, hunit⟩ := hz.inKind hd
    exact ⟨hdie, hgroup, hkind, hlogical, hunit⟩
  case reached =>
    obtain ⟨pa, hz, hp, hpb⟩ := (Place.InKind.mk hd hg rfl hl hu).exists_address mode hb
    exact ⟨pa, placeOf_eq_some_iff.2 ⟨_, p.die, hd, hz, by rw [hp]⟩, hpb⟩

end Sys2Proof.Machine
end

section
/-! SUPPORT. What a node-core access does, by what its address names and by whether its cluster holds the line. -/

namespace Sys2Proof.Machine

/-! The parts of an access and the faults of Table 1.8. -/

theorem NodeAccess.parts_of_fits {a : NodeAccess} (h : a.addr % 128 + a.size ≤ 128) : NodeAccess.parts a = [(none, a)] :=
  if_pos (show a.size ≤ 128 - a.addr % 128 by omega)

theorem NodeAccess.regShape_of_aligned {a : NodeAccess} (hs : a.size = 8 ∨ a.size = 4) (ha : a.addr % a.size = 0) :
    NodeAccess.regShape a = true := by
  have hs : a.size = 4 ∨ a.size = 8 := hs.symm
  simpa [NodeAccess.regShape, ha] using hs

theorem State.faultsAt_of_evict (s : State) {a : NodeAccess} (he : a.kind = .evict) : s.faultsAt a = false := by
  simp [State.faultsAt, he]

section
variable {s : State} {a : NodeAccess} (he : a.kind ≠ .evict) (hf : a.kind ≠ .fence)
include he hf

/-- Neither the aperture nor an eviction or a FENCE keeps the access from faulting. -/
theorem NodeAccess.mayFault (hap : a.addr / 2 ^ 52 ≠ 8) : (a.addr / 2 ^ 52 = 8 || a.kind == .evict || a.kind == .fence) = false := by
  rw [decide_eq_false hap]
  simp [he, hf]

theorem State.faultsAt_of_outside (hap : a.addr / 2 ^ 52 ≠ 8) (hv : 2 ^ 48 ≤ a.addr) : s.faultsAt a = true := by
  simp only [State.faultsAt, NodeAccess.mayFault he hf hap, if_pos hv]
  rfl

/-- An access to a device register, or one within a line, faults as its one part does. -/
theorem State.faultsAt_eq_faultsPart (hv : a.addr < 2 ^ 48) (h : s.region a.addr = .regs ∨ a.addr % 128 + a.size ≤ 128) :
    s.faultsAt a = s.faultsPart a := by
  have hskip := NodeAccess.mayFault he hf (show a.addr / 2 ^ 52 ≠ 8 by omega)
  simp only [State.faultsAt, hskip, if_neg (Nat.not_le.2 hv), Bool.false_eq_true, if_false]
  split
  · rfl
  · next hreg =>
    have hfit := h.resolve_left hreg
    simpa [NodeAccess.parts_of_fits hfit] using fun h => (hreg h).elim

end

section
variable {s : State} {a : NodeAccess} (hv : a.addr < 2 ^ 48)
include hv

theorem State.faultsPart_of_regs (h : s.region a.addr = .regs) :
    s.faultsPart a = (!(NodeAccess.regShape a) || a.kind == .amo || a.kind == .lr || a.kind == .sc) := by
  rw [State.faultsPart, if_neg (Nat.not_le.2 hv), h]

theorem State.faultsPart_of_window {w : Nat} (h : s.region a.addr = .window w) : s.faultsPart a = (a.kind == .lr || a.kind == .sc) := by
  rw [State.faultsPart, if_neg (Nat.not_le.2 hv), h]

theorem State.faultsPart_of_unmapped (h : s.region a.addr = .unmapped) : s.faultsPart a = true := by
  rw [State.faultsPart, if_neg (Nat.not_le.2 hv), h]

theorem State.faultsPart_of_mem {n : Nat} (h : s.region a.addr = .near n ∨ s.region a.addr = .capacity n) : s.faultsPart a = false := by
  rw [State.faultsPart, if_neg (Nat.not_le.2 hv)]
  rcases h with h | h <;> rw [h]

/-- A load or store of a device register that has its size and alignment is no access fault. -/
theorem State.faultsAt_of_register (h : s.region a.addr = .regs) (hs : NodeAccess.regShape a = true) (hk : a.kind = .load ∨ a.kind = .store) :
    s.faultsAt a = false := by
  rcases hk with hk | hk
  all_goals
    rw [State.faultsAt_eq_faultsPart (by simp [hk]) (by simp [hk]) hv (.inl h), State.faultsPart_of_regs hv h]
    simp [hs, hk]

end

/-! The command, by what the address names. -/

/-- A core's access within the physical space that neither faults nor waits for a fence is made. -/
theorem State.access_is_made {s : State} {core : Nat} {a : NodeAccess} (hv : a.addr < 2 ^ 48) (hm : s.coreMay core a = true)
    (hf : s.faultsAt a = false) : ¬ (2 ^ 48 ≤ a.addr ∨ s.faultsAt a ∨ !(s.coreMay core a)) := by
  rw [hf, hm]
  exact not_or.2 ⟨Nat.not_le.2 hv, by decide⟩

section
variable {s : State} {core : Nat} {a : NodeAccess} (hr : s.coreRuns core = true) (hv : a.addr < 2 ^ 48) (hm : s.coreMay core a = true)
include hr hv hm

theorem exec_nodeCoreAccess_memory {n : Nat} (hk : a.kind ≠ .fence) (h : s.region a.addr = .near n ∨ s.region a.addr = .capacity n)
    (hf : s.faultsAt a = false) : exec (.nodeCoreAccess core a) s = .next (s.coreMemory core a) := by
  have he : exec (.nodeCoreAccess core a) s = execNodeCoreAccess core a s := rfl
  rw [he, execNodeCoreAccess, when_of_true hr, if_neg hk, if_neg (State.access_is_made hv hm hf)]
  rcases h with h | h <;> rw [h]

theorem exec_nodeCoreAccess_window {w : Nat} (hk : a.kind ≠ .fence) (h : s.region a.addr = .window w) (hf : s.faultsAt a = false)
    (hb : s.coreBusy core = false) : exec (.nodeCoreAccess core a) s = .next (s.coreMemory core a) := by
  have he : exec (.nodeCoreAccess core a) s = execNodeCoreAccess core a s := rfl
  rw [he, execNodeCoreAccess, when_of_true hr, if_neg hk, if_neg (State.access_is_made hv hm hf), h]
  simp [hb]

theorem exec_nodeCoreAccess_regLoad (h : s.region a.addr = .regs) (hk : a.kind = .load) (hs : NodeAccess.regShape a = true) :
    exec (.nodeCoreAccess core a) s = .next (s.regLoad core a) := by
  have he : exec (.nodeCoreAccess core a) s = execNodeCoreAccess core a s := rfl
  have hf := State.faultsAt_of_register hv h hs (by simp [hk])
  rw [he, execNodeCoreAccess, when_of_true hr, if_neg (by simp [hk]), if_neg (State.access_is_made hv hm hf), h]
  simp [hk]

theorem exec_nodeCoreAccess_regStore (h : s.region a.addr = .regs) (hk : a.kind = .store) (hs : NodeAccess.regShape a = true) :
    exec (.nodeCoreAccess core a) s = .next (s.regStore a) := by
  have he : exec (.nodeCoreAccess core a) s = execNodeCoreAccess core a s := rfl
  have hf := State.faultsAt_of_register hv h hs (by simp [hk])
  rw [he, execNodeCoreAccess, when_of_true hr, if_neg (by simp [hk]), if_neg (State.access_is_made hv hm hf), h]
  simp [hk]

end

/-! An access to memory through the caches, whole or in two parts. -/

section
variable {s t : State} {core : Nat} {a : NodeAccess}

theorem State.afterAq_of_not_aq (h : a.aq = false) : s.afterAq core a = s := by simp [State.afterAq, h]

theorem State.coreMemory_of_fits_done (hfit : a.addr % 128 + a.size ≤ 128) (ha : a.aq = false) (h : s.cachedPart core none a = (true, t)) :
    s.coreMemory core a = t := by
  simp [State.coreMemory, State.partsRun, NodeAccess.parts_of_fits hfit, h, State.afterAq_of_not_aq ha]

theorem State.coreMemory_of_fits_waits (hfit : a.addr % 128 + a.size ≤ 128) (h : s.cachedPart core none a = (false, t)) :
    s.coreMemory core a = s.refusedAs t := by
  simp [State.coreMemory, State.partsRun, NodeAccess.parts_of_fits hfit, h]

/-- An access that crosses a line: its first part done, the second decides for both (R185). -/
theorem State.coreMemory_of_crossing {p q : NodeAccess} {m : Nat} {u v : State} {done : Bool} (hk : a.kind = .load ∨ a.kind = .store)
    (ha : a.aq = false) (hp : NodeAccess.parts a = [(some 0, p), (some m, q)])
    (h0 : (if a.kind = .load then s.coreValue core 0 else s).cachedPart core (some 0) p = (true, u))
    (h1 : u.cachedPart core (some m) q = (done, v)) : s.coreMemory core a = if done then v else s.refusedAs v := by
  have hreads : (1 < (NodeAccess.parts a).length ∧ nodeReads a.kind = true) ↔ a.kind = .load := by
    rcases hk with hk | hk <;> simp [hp, hk, nodeReads]
  simp only [State.coreMemory, hreads, State.partsRun]
  simp only [hp, List.foldl_cons, List.foldl_nil, if_true, h0, h1, State.afterAq_of_not_aq ha]

theorem State.faultsAt_of_fits_memory {n : Nat} (hv : a.addr < 2 ^ 48) (hk : a.kind ≠ .fence) (hfit : a.addr % 128 + a.size ≤ 128)
    (h : s.region a.addr = .near n ∨ s.region a.addr = .capacity n) : s.faultsAt a = false := by
  by_cases he : a.kind = .evict
  · exact s.faultsAt_of_evict he
  · rw [State.faultsAt_eq_faultsPart he hk hv (.inr hfit), State.faultsPart_of_mem hv h]

section
variable {n : Nat} (h : s.region a.addr = .near n ∨ s.region a.addr = .capacity n) (hn : n ∉ s.plat.lostF)
  (hd : s.homeDie a.addr ∉ s.plat.lostF) (off : Option Nat)
include h hn hd

theorem State.cachedPart_of_go (hc : s.coherentAccess core off a = .go t) : s.cachedPart core off a = (true, t) := by
  rcases h with h | h <;> simp [State.cachedPart, h, hn, hd, hc]

theorem State.cachedPart_of_refused (hc : s.coherentAccess core off a = .refused t) : s.cachedPart core off a = (false, t) := by
  rcases h with h | h <;> simp [State.cachedPart, h, hn, hd, hc]

end

/-- An access within a line of memory whose dies live is what `State.coherentAccess` makes of it: done, or a refusal that it waits after. -/
theorem exec_nodeCoreAccess_coherent (hr : s.coreRuns core = true) (hv : a.addr < 2 ^ 48) (hm : s.coreMay core a = true)
    (hk : a.kind ≠ .fence) (hfit : a.addr % 128 + a.size ≤ 128) (haq : a.aq = false) {n : Nat}
    (h : s.region a.addr = .near n ∨ s.region a.addr = .capacity n) (hn : n ∉ s.plat.lostF) (hd : s.homeDie a.addr ∉ s.plat.lostF) :
    (s.coherentAccess core none a = .go t → exec (.nodeCoreAccess core a) s = .next t)
    ∧ (s.coherentAccess core none a = .refused t → exec (.nodeCoreAccess core a) s = .next (s.refusedAs t)) := by
  rw [exec_nodeCoreAccess_memory hr hv hm hk h (State.faultsAt_of_fits_memory hv hk hfit h)]
  refine ⟨fun hc => ?_, fun hc => ?_⟩
  · rw [State.coreMemory_of_fits_done hfit haq (State.cachedPart_of_go h hn hd none hc)]
  · rw [State.coreMemory_of_fits_waits hfit (State.cachedPart_of_refused h hn hd none hc)]

/-! Table 9.7: the request of a line that the cluster does not hold as needed. -/

section
variable {ag line : Nat} {op : MsgOp} {st : ASt} {off : Option Nat} (hag : ag = s.agentId (core / 8)) (hl : line = a.addr / 128)
  (hdead : ag ∉ s.dead) (hst : (s.ast ag line).stable = true)
include hag hl hdead hst

theorem State.coherentAccess_of_held (hq : nodeRequest a.kind (s.ast ag line) = none) (hk : a.kind ≠ .evict) :
    s.coherentAccess core off a = .go (s.coreOn ag line core off a) := by
  subst hag hl
  simp [State.coherentAccess, hdead, hst, hq, hk]

theorem State.coherentAccess_of_request (hq : nodeRequest a.kind (s.ast ag line) = some (op, st)) :
    s.coherentAccess core off a = s.agentReq ag line op st (if a.kind = .evict then none else some (core, off, a)) := by
  subst hag hl
  simp [State.coherentAccess, hdead, hst, hq]

end

/-- A cluster with a place free among its requests and its lines asks the gate of H alone (R229). -/
theorem State.agentReq_of_free {ag line : Nat} {op : MsgOp} {st : ASt} {acc : Option (Nat × Option Nat × NodeAccess)} (hc : ag % 16 < 8)
    (ho : (alGet {} s.agents ag).open_ < 48) (hl : (alGet {} s.agents ag).lines.length < 65536) :
    (s.gate .hub (line * 128) = .go t → s.agentReq ag line op st acc = .go (t.sendReq ag line op st acc))
    ∧ (s.gate .hub (line * 128) = .refused t → s.agentReq ag line op st acc = .refused t) := by
  have hfree : ¬ ((if ag % 16 = 8 then 64 else 48) ≤ (alGet {} s.agents ag).open_
      ∨ (ag % 16 < 8 ∧ 65536 ≤ (alGet {} s.agents ag).lines.length ∧ (alFind (alGet {} s.agents ag).lines line).isNone)) := by
    rw [if_neg (by omega)]; omega
  constructor <;> intro hg <;> simp only [State.agentReq, if_neg hfree, hg]

theorem State.agentId_cluster (hc : core < 64) : s.agentId (core / 8) % 16 < 8 := by
  rw [State.agentId]; omega

end

/-! A Ridge window. -/

theorem State.cachedPart_of_window {s : State} {core w : Nat} {a : NodeAccess} {k : AccKind} (off : Option Nat)
    (h : s.region a.addr = .window w) (hk : NodeKind.uncached a.kind = some k) :
    s.cachedPart core off a = (true, s.coreAccess core noSpace a.addr a.addr k off a) := by
  simp [State.cachedPart, h, hk]

/-- An uncached access is a load, a fetch, a store or an AMO. -/
theorem NodeKind.uncached_eq_some {x : NodeKind} {k : AccKind} (h : NodeKind.uncached x = some k) :
    x ≠ .lr ∧ x ≠ .sc ∧ x ≠ .evict ∧ x ≠ .fence := by
  cases x <;> simp_all [NodeKind.uncached]

/-! The aperture: space 0 through the translation of H (R31). -/

section
variable {s u : State} {va need pa : Nat}

theorem State.apertureXlat_of_miss (h : s.look none 0 va need = (.miss, u)) :
    s.apertureXlat need [va] = .fault va 1 (u.aperturePend va (BitVec.ofNat 3 need)) := by
  simp [State.apertureXlat, h]

theorem State.apertureXlat_of_refused (h : s.look none 0 va need = (.refused, u)) : s.apertureXlat need [va] = .fault va 2 u := by
  simp [State.apertureXlat, h]

theorem State.apertureXlat_of_hit (h : s.look none 0 va need = (.hit pa, u)) (hr : u.region pa ≠ .regs) (hu : u.region pa ≠ .unmapped) :
    s.apertureXlat need [va] = .hits [pa] u := by
  cases hreg : u.region pa <;> simp_all [State.apertureXlat]

theorem State.apertureXlat_of_noMemory (h : s.look none 0 va need = (.hit pa, u)) (hr : u.region pa = .regs ∨ u.region pa = .unmapped) :
    s.apertureXlat need [va] = .fault va 4 u := by
  rcases hr with hr | hr <;> simp [State.apertureXlat, h, hr]

end

section
variable {s t : State} {core : Nat} {a : NodeAccess} {k : AccKind} (hr : s.coreRuns core = true) (hap : a.addr / 2 ^ 52 = 8)
  (hk : NodeKind.uncached a.kind = some k) (hm : s.coreMay core a = true) (hb : s.coreBusy core = false)
include hr hap hk hm hb

theorem State.apertureAccess_begins : (s.coreRuns core && decide (a.addr / 2 ^ 52 = 8) && a.kind != .evict && a.kind != .fence
    && s.coreMay core a && !(s.coreBusy core)) = true := by
  obtain ⟨-, -, he, hf⟩ := NodeKind.uncached_eq_some hk
  rw [hr, decide_eq_true hap, hm, hb]
  simp [he, hf]

theorem exec_apertureAccess_closed (hen : (alGet {} s.cores core).apEn = false) :
    exec (.apertureAccess core a) s = .next (s.apertureFault core (a.addr % 2 ^ 52) 3) := by
  have hx : exec (.apertureAccess core a) s = execApertureAccess core a s := rfl
  rw [hx, execApertureAccess, when_of_true (State.apertureAccess_begins hr hap hk hm hb)]
  simp only [hen, Bool.not_false, if_true]

variable (hen : (alGet {} s.cores core).apEn = true) (hfit : a.addr % 128 + a.size ≤ 128)
include hen hfit

theorem exec_apertureAccess_fault {v c : Nat} (ht : s.apertureXlat k.need [a.addr % 2 ^ 52] = .fault v c t) :
    exec (.apertureAccess core a) s = .next (t.apertureFault core v c) := by
  have hx : exec (.apertureAccess core a) s = execApertureAccess core a s := rfl
  rw [hx, execApertureAccess, when_of_true (State.apertureAccess_begins hr hap hk hm hb)]
  simp only [hen, hk, NodeAccess.parts_of_fits hfit, List.map_cons, List.map_nil, ht]
  rfl

theorem exec_apertureAccess_hit {pa : Nat} (ha : a.aq = false) (ht : s.apertureXlat k.need [a.addr % 2 ^ 52] = .hits [pa] t) :
    exec (.apertureAccess core a) s = .next (t.coreAccess core 0 (a.addr % 2 ^ 52) pa k none a) := by
  have hx : exec (.apertureAccess core a) s = execApertureAccess core a s := rfl
  rw [hx, execApertureAccess, when_of_true (State.apertureAccess_begins hr hap hk hm hb)]
  simp only [hen, hk, NodeAccess.parts_of_fits hfit, List.map_cons, List.map_nil, ht, State.afterAq_of_not_aq ha]
  rfl

end

/-- The command of an access fault counts it where Table 1.8 has the access fault. -/
theorem exec_deviceRegisterAccessFault {s : State} {core : Nat} {a : NodeAccess} (hr : s.coreRuns core = true) (hf : s.faultsAt a = true) :
    exec (.deviceRegisterAccessFault core a) s = .next (s.accessFault core) := by
  have hx : exec (.deviceRegisterAccessFault core a) s = execDeviceRegisterAccessFault core a s := rfl
  rw [hx, execDeviceRegisterAccessFault, when_of_true (by simp [hr, hf])]

/-! The command, whole, for the accesses that the obligation tells apart. -/

/-- A crossing access of two parts: done when its second part is, and else it waits (R185, log entry 21). -/
theorem exec_nodeCoreAccess_crossing {s u v : State} {core m n : Nat} {a p q : NodeAccess} {done : Bool} (hr : s.coreRuns core = true)
    (hv : a.addr < 2 ^ 48) (hm : s.coreMay core a = true) (hreg : s.region a.addr = .near n ∨ s.region a.addr = .capacity n)
    (hk : a.kind = .load ∨ a.kind = .store) (haq : a.aq = false) (hf : s.faultsAt a = false)
    (hp : NodeAccess.parts a = [(some 0, p), (some m, q)])
    (h0 : (if a.kind = .load then s.coreValue core 0 else s).cachedPart core (some 0) p = (true, u))
    (h1 : u.cachedPart core (some m) q = (done, v)) :
    exec (.nodeCoreAccess core a) s = .next (if done then v else s.refusedAs v) := by
  rw [exec_nodeCoreAccess_memory hr hv hm (by rcases hk with hk | hk <;> simp [hk]) hreg hf, State.coreMemory_of_crossing hk haq hp h0 h1]

/-- A load, fetch, store or AMO of a Ridge window goes out uncached when none of the core's is out (R30, log entry 21). -/
theorem exec_nodeCoreAccess_ridge {s : State} {core w : Nat} {a : NodeAccess} {k : AccKind} (hr : s.coreRuns core = true)
    (hv : a.addr < 2 ^ 48) (hm : s.coreMay core a = true) (hreg : s.region a.addr = .window w) (hk : NodeKind.uncached a.kind = some k)
    (hfit : a.addr % 128 + a.size ≤ 128) (haq : a.aq = false) (hb : s.coreBusy core = false) :
    exec (.nodeCoreAccess core a) s = .next (s.coreAccess core noSpace a.addr a.addr k none a) := by
  obtain ⟨hlr, hsc, he, hf⟩ := NodeKind.uncached_eq_some hk
  have hfault : s.faultsAt a = false := by
    rw [State.faultsAt_eq_faultsPart he hf hv (.inr hfit), State.faultsPart_of_window hv hreg]
    simp [hlr, hsc]
  rw [exec_nodeCoreAccess_window hr hv hm hf hreg hfault hb, State.coreMemory_of_fits_done hfit haq (State.cachedPart_of_window none hreg hk)]

theorem exec_nodeCoreAccess_fence {s : State} {core : Nat} {a : NodeAccess} (hr : s.coreRuns core = true) (hk : a.kind = .fence) :
    exec (.nodeCoreAccess core a) s = .next (s.coreFence core a.sub) := by
  have he : exec (.nodeCoreAccess core a) s = execNodeCoreAccess core a s := rfl
  rw [he, execNodeCoreAccess, when_of_true hr, if_pos hk]

/-- Table 1.8's access faults of accesses that are no eviction and no FENCE. -/
theorem State.faultsAt_of_table {s : State} {a : NodeAccess} (hap : a.addr / 2 ^ 52 ≠ 8) (he : a.kind ≠ .evict) (hf : a.kind ≠ .fence)
    (h : 2 ^ 48 ≤ a.addr ∨ (a.addr % 128 + a.size ≤ 128 ∧ s.region a.addr = .unmapped)
      ∨ (s.region a.addr = .regs ∧ (NodeAccess.regShape a = false ∨ a.kind = .amo ∨ a.kind = .lr ∨ a.kind = .sc))
      ∨ (∃ w, a.addr % 128 + a.size ≤ 128 ∧ s.region a.addr = .window w ∧ (a.kind = .lr ∨ a.kind = .sc))) : s.faultsAt a = true := by
  rcases Nat.lt_or_ge a.addr (2 ^ 48) with hv | hv
  · have hpart := State.faultsAt_eq_faultsPart (s := s) he hf hv
    rcases h with h | ⟨hfit, hreg⟩ | ⟨hreg, hbad⟩ | ⟨w, hfit, hreg, hbad⟩
    · exact absurd h (Nat.not_le.2 hv)
    · rw [hpart (.inr hfit), State.faultsPart_of_unmapped hv hreg]
    · rw [hpart (.inl hreg), State.faultsPart_of_regs hv hreg]
      rcases hbad with h | h | h | h <;> simp [h]
    · rw [hpart (.inr hfit), State.faultsPart_of_window hv hreg]
      rcases hbad with h | h <;> simp [h]
  · exact State.faultsAt_of_outside he hf hap hv

end Sys2Proof.Machine
end

section
/-! The obligation about node-core and aperture accesses. -/

namespace Sys2Proof.Machine

/-- Settles O39, clause by clause, each by the branch that its hypotheses select. That both parts of a crossing access are made or neither, and
that a core has one uncached access out at a time, is log entry 21; what a 4-byte store makes of a register is log entry 43. -/
theorem nodeAccessesComplete : Obligations.NodeAccessesComplete := by
  unfold Obligations.NodeAccessesComplete
  refine ⟨fun s core a hr hv hm => ⟨fun hreg hk hs ha => ?load, fun hreg hk hs ha => ?store,
      fun n ag line hreg hfit haq hk hn hd hag hl hdead hst => ?coherent,
      fun n m p q u v hreg hk haq hf hp h0 => ⟨fun h1 => ?crossed, fun h1 => ?waits⟩,
      fun w k hreg hk hfit haq hb => exec_nodeCoreAccess_ridge hr hv hm hreg hk hfit haq hb⟩,
    fun s core a hr hk => exec_nodeCoreAccess_fence hr hk,
    fun s u core va a k hr hap hva hk hm hb hfit haq => ?aperture,
    fun s core a hr hap he hf h => exec_deviceRegisterAccessFault hr (State.faultsAt_of_table hap he hf h)⟩
  case load => exact exec_nodeCoreAccess_regLoad hr hv hm hreg hk (NodeAccess.regShape_of_aligned hs ha)
  case store => exact exec_nodeCoreAccess_regStore hr hv hm hreg hk (NodeAccess.regShape_of_aligned hs ha)
  case coherent =>
    have hgo := fun t => exec_nodeCoreAccess_coherent (t := t) hr hv hm hk hfit haq hreg hn hd
    refine ⟨fun hq he => (hgo _).1 (State.coherentAccess_of_held hag hl hdead hst hq he), fun op st hq hc ho hlines => ?_⟩
    have hreq := State.coherentAccess_of_request (off := none) hag hl hdead hst hq
    have hfree := fun t => State.agentReq_of_free (t := t) (line := line) (op := op) (st := st)
      (acc := if a.kind = .evict then none else some (core, none, a)) (hag ▸ s.agentId_cluster hc) ho hlines
    exact ⟨fun t hg => (hgo _).1 (hreq.trans ((hfree t).1 hg)), fun t hg => (hgo t).2 (hreq.trans ((hfree t).2 hg))⟩
  case crossed => exact exec_nodeCoreAccess_crossing hr hv hm hreg hk haq hf hp h0 h1
  case waits => exact exec_nodeCoreAccess_crossing hr hv hm hreg hk haq hf hp h0 h1
  case aperture =>
    subst hva
    refine ⟨exec_apertureAccess_closed hr hap hk hm hb, fun hen => ?_⟩
    have hfault := fun v c t => exec_apertureAccess_fault (v := v) (c := c) (t := t) hr hap hk hm hb hen hfit
    refine ⟨fun pa hl => ⟨fun hregs hun => ?_, fun h => ?_⟩, fun hl => ?_, fun hl => ?_⟩
    · exact exec_apertureAccess_hit hr hap hk hm hb hen hfit haq (State.apertureXlat_of_hit hl hregs hun)
    · exact hfault _ _ _ (State.apertureXlat_of_noMemory hl h)
    · exact hfault _ _ _ (State.apertureXlat_of_miss hl)
    · exact hfault _ _ _ (State.apertureXlat_of_refused hl)

end Sys2Proof.Machine
end

section
/-! SUPPORT. What a format A command does when it issues: an arithmetic one, a comparison, and CVT with the values it draws. -/

namespace Sys2Proof.Machine

theorem effectA_of_formatA {cmd : CrewId → W64 → Instr} {key : Nat} {f : Nat → Nat → Nat → Nat → Nat}
    (hx : ∀ c w s, exec (cmd c w) s = s.formatA c w key f) : EffectA cmd key f := by
  intro s u c w i h
  obtain ⟨-, rfl⟩ := State.issues_issue h
  rw [hx, State.formatA, State.issue_of_issues h]

/-- A comparison that issues writes, for each lane performed, its condition of the sources A and B, and its path moves on (R78). -/
theorem effect_of_formatP {cmd : CrewId → W64 → Instr} {key : Nat} {f : Nat → Nat → Nat → Nat → Bool}
    (hx : ∀ c w s, exec (cmd c w) s = s.formatP c w key f) :
    Effect cmd key (fun u i => u.done i (i.eachP (wfld i.w 16 3) (fun l =>
      f (codeC i.w) (32 * regsOf (typeOf i.w)) (i.read l (wfld i.w 24 8) (regsOf (typeOf i.w))) (i.srcB l)))) := by
  intro s u c w i h
  obtain ⟨-, rfl⟩ := State.issues_issue h
  rw [hx, State.formatP, State.issue_of_issues h]

/-- The condition of FSETP: 0 to 5 under R52, 6 UNORD; the width of the sources, FP32, is not used. -/
def fsetpHolds (code _ a b : Nat) : Bool :=
  if code = 6 then (fFP32.decode a).isNan || (fFP32.decode b).isNan else (fcmp code (fFP32.decode a) (fFP32.decode b)).1

theorem exec_fsetp (c : CrewId) (w : W64) (s : State) : exec (.fsetp c w) s = s.formatP c w 0x26 fsetpHolds := rfl

/-! CVT: a fold over the lanes performed, which carries the number of the next free value (R46). -/

/-- What CVT writes for a lane under a rounding mode. -/
def Issue.cvtResult (i : Issue) (m : Rm) (l : Nat) : Nat :=
  (cvt (codeC i.w) (typeOf i.w) m (wfld i.w 54 1 == 1) (fld (i.read l (wfld i.w 24 8) (regsOf (codeC i.w))) 0 (fmtBits (codeC i.w)))).1

/-- One lane of CVT under the rounding code RND: its result under the draw of its own, and the number of the next draw. -/
def Issue.cvtStep (i : Issue) (rnd : Nat) (a : Crew × Nat) (l : Nat) : Crew × Nat :=
  (a.1.setN (uniOf i.w) l (wfld i.w 16 8) (regsOf (typeOf i.w))
    (i.cvtResult ((rmOf rnd (Free.rand a.2).toNat).getD .rne) l), a.2 + 1)

theorem exec_cvt_of_issues {s u : State} {c : CrewId} {w : W64} {i : Issue} {rnd : Nat} (h : s.issues c w 0x28 = some (i, u))
    (hr : wfld w 52 2 = rnd) : exec (.cvt c w) s =
      .next (({ u with fresh := if rnd = 2 then (i.lanes.foldl (i.cvtStep rnd) (i.v, u.fresh)).2 else u.fresh } : State).done i
        (i.lanes.foldl (i.cvtStep rnd) (i.v, u.fresh)).1) := by
  subst hr
  obtain ⟨-, rfl⟩ := State.issues_issue h
  have hx : exec (.cvt c i.w) s = execCvt c i.w s := rfl
  rw [hx, execCvt, State.issue_of_issues h]
  rfl

/-- Each lane performed uses up one draw. -/
theorem Issue.foldl_cvtStep_snd (i : Issue) (rnd : Nat) (a : Crew × Nat) (ls : List Nat) :
    (ls.foldl (i.cvtStep rnd) a).2 = a.2 + ls.length := by
  induction ls generalizing a with
  | nil => rfl
  | cons l ls ih => rw [List.foldl_cons, ih, List.length_cons, Issue.cvtStep]; omega

/-- A code that names one mode whatever is drawn rounds every lane under that mode. -/
theorem Issue.foldl_cvtStep_fst {rnd : Nat} {m : Rm} (hm : ∀ x, rmOf rnd x = some m) (i : Issue) (n : Nat) :
    (i.lanes.foldl (i.cvtStep rnd) (i.v, n)).1 = i.each (wfld i.w 16 8) (regsOf (typeOf i.w)) (i.cvtResult m) := by
  refine (List.foldl_hom Prod.fst fun a l => ?_).symm
  rw [Issue.cvtStep, hm, Option.getD_some]

end Sys2Proof.Machine
end

section
/-! The obligation about format A floating point. -/

namespace Sys2Proof.Machine

/-- Settles O20: each command is of format A, and CVT folds over its lanes. A mode that draws nothing is the same in every lane; a stochastic one
leaves the number of the next free value past the draws (log entry 16). The bits of D above a 16- or 8-bit result are 0 by log entry 64. -/
theorem floatingPointInstructionsComplete : Obligations.FloatingPointInstructionsComplete := by
  unfold Obligations.FloatingPointInstructionsComplete
  refine ⟨effectA_of_formatA fun _ _ _ => rfl, effectA_of_formatA fun _ _ _ => rfl, effectA_of_formatA fun _ _ _ => rfl,
    effectA_of_formatA fun _ _ _ => rfl, effectA_of_formatA fun _ _ _ => rfl, effectA_of_formatA fun _ _ _ => rfl,
    ?fsetp, fun s u c w i m h hrnd hm => ?fixed, fun s u c w i h hrnd => ?stochastic⟩
  case fsetp => simpa only [fsetpHolds] using effect_of_formatP exec_fsetp
  case fixed =>
    obtain ⟨-, rfl⟩ := State.issues_issue h
    rw [exec_cvt_of_issues h rfl, if_neg hrnd, Issue.foldl_cvtStep_fst hm]
    rfl
  case stochastic =>
    obtain ⟨-, rfl⟩ := State.issues_issue h
    rw [exec_cvt_of_issues h hrnd, if_pos rfl, Issue.foldl_cvtStep_snd]
    rfl

end Sys2Proof.Machine
end

section
/-! SUPPORT. A matrix instruction at its three moments: it enters the queue, a path takes it, and it ends on the tile's memories. -/

namespace Sys2Proof.Machine

/-! Issue. -/

/-- The instruction that a crew of a launch queues: its word, the u registers it reads at issue, and where its accumulators begin (R97, R102). -/
def Issue.matrixInstr (i : Issue) (c : CrewId) (w : W64) (l : Launch) : MInstr :=
  { slot := c.slot, w := w, ua := i.v.getU (wfld w 28 6), ub := i.v.getU (wfld w 34 6), up := i.v.getU (wfld w 40 6)
    us := i.v.getU (wfld w 46 6), us1 := i.v.getU (wfld w 46 6 + 1), base := (i.v.stand * l.crews + i.v.index) * l.acc }

/-- An instruction enters the queue, its path moves on, and its crew has one more outstanding (R102, R110). -/
def State.matrixQueued (s : State) (c : CrewId) (i : Issue) (m : MInstr) : State :=
  (s.setTile c.die c.tile { s.tile c.die c.tile with mq := (s.tile c.die c.tile).mq ++ [m] }).done i { i.v with matrix := i.v.matrix + 1 }

theorem exec_mma (c : CrewId) (w : W64) (s : State) : exec (.mma c w) s = s.matrixIssue c w 0 := rfl
theorem exec_mmap (c : CrewId) (w : W64) (s : State) : exec (.mmap c w) s = s.matrixIssue c w 1 := rfl
theorem exec_accld (c : CrewId) (w : W64) (s : State) : exec (.accld c w) s = s.matrixIssue c w 2 := rfl
theorem exec_accst (c : CrewId) (w : W64) (s : State) : exec (.accst c w) s = s.matrixIssue c w 3 := rfl

/-- A word all of whose accumulators the crew has names none out of bounds. -/
theorem find?_accsOf_eq_none {w : W64} {n : Nat} (h : ∀ k ∈ accsOf w, k < n) :
    (accsOf w).find? (fun k => decide (n ≤ k)) = none := by
  rw [List.find?_eq_none]
  intro k hk
  have := h k hk
  simpa using this

/-- With a free entry, an instruction of a whole crew whose checks pass is queued (R101, R102, R115). -/
theorem State.matrixIssue_of_issues {s u : State} {c : CrewId} {w : W64} {i : Issue} {l : Launch} {op : Nat}
    (h : s.issues c w (0x200 + op) = some (i, u)) (hfree : (s.tile c.die c.tile).mq.length < 16) (hl : u.launchOf c = some l)
    (hpart : i.part = 0xFFFFFFFF) (hactive : i.active = 0xFFFFFFFF) (hacc : ∀ k ∈ accsOf w, k < l.acc / 2)
    (hregion : regionTrap (i.matrixInstr c w l).regions (u.windowOf c i.v) = none) :
    s.matrixIssue c w op = .next (u.matrixQueued c i (i.matrixInstr c w l)) := by
  have hwhole : ¬ (i.part ≠ 0xFFFFFFFF ∨ i.active ≠ 0xFFFFFFFF) := fun h => h.elim (absurd hpart) (absurd hactive)
  rw [State.matrixIssue, State.issueIf_of_issues h fun _ _ _ => decide_eq_true hfree]
  simp only [Issue.matrixInstr] at hregion
  simp only [if_neg hwhole, hl, Option.map_some, Option.getD_some, find?_accsOf_eq_none hacc, hregion]
  rfl

/-- An MWAIT whose crew has few enough outstanding goes on (R116). -/
theorem exec_mwait_of_issues {s u : State} {c : CrewId} {w : W64} {i : Issue} (h : s.issues c w 0x204 = some (i, u))
    (hfew : ∀ v, s.crew c = some v → v.matrix ≤ wfld w 16 4) : exec (.mwait c w) s = .next (u.done i i.v) := by
  have hready : ∀ v l, s.issuable c = some (v, l) → (v.part w == 0 || decide (v.matrix ≤ wfld w 16 4)) = true := fun v l hi => by
    obtain ⟨hv, -⟩ := State.issuable_crew hi
    rw [decide_eq_true (hfew v hv), Bool.or_true]
  have hx : exec (.mwait c w) s = execMwait c w s := rfl
  rw [hx, execMwait, State.issueIf_of_issues h hready]

/-! The two paths. -/

/-- What a path executes: the transfer path or the array (R107). -/
def Tile.executing (t : Tile) (transfer : Bool) : Option MInstr := if transfer then t.xfer else t.arr

/-- A path takes an entry of the queue and begins to note local store as it changes; a transfer draws its free values (R107, R109). -/
def Tile.starts (t : Tile) (transfer : Bool) (n : Nat) (m : MInstr) (draw : Nat) : Tile :=
  if transfer then { t with mq := t.mq.eraseIdx n, xfer := some m, xferSaw := some [], xferDraw := draw, xferDone := [] }
  else { t with mq := t.mq.eraseIdx n, arr := some m, arrSaw := some [] }

/-- A path executes nothing. -/
def Tile.freed (t : Tile) (transfer : Bool) : Tile :=
  if transfer then { t with xfer := none, xferSaw := none } else { t with arr := none, arrSaw := none }

/-- A crew of the tile has one matrix instruction fewer outstanding (R110). -/
def Tile.oneFewer (t : Tile) (slot : Nat) : Tile :=
  { t with crews := alUpd t.crews slot (fun v => { v with matrix := v.matrix - 1 }) }

theorem exec_matrixStart_takes {s : State} {die tile n : Nat} {transfer : Bool} {m : MInstr} (hruns : s.tileRuns die = true)
    (hfirst : indexWhere (fun (i : MInstr) => i.transfer == transfer) (s.tile die tile).mq = some n)
    (hm : (s.tile die tile).mq[n]? = some m) (hidle : (s.tile die tile).executing transfer = none)
    (hmay : (s.tile die tile).mayStart ((s.tile die tile).mq.take n) m = true) :
    exec (.matrixStart die tile transfer) s = .next (s.drawn.setTile die tile ((s.tile die tile).starts transfer n m s.fresh)) := by
  have hx : exec (.matrixStart die tile transfer) s = execMatrixStart die tile transfer s := rfl
  rw [Tile.executing] at hidle
  rw [hx, execMatrixStart, when_of_true hruns]
  simp only [hfirst, hm, hidle, hmay, Option.isSome_none, Bool.not_true, Bool.or_self, Bool.false_eq_true, if_false]
  rfl

/-- The executing instruction of a path ends, but not an ACCST before the MMA or MMAP that it follows (R108, R110). -/
theorem exec_matrixComplete_ends {s v : State} {die tile : Nat} {transfer : Bool} {m : MInstr} {t : Tile} (hends : s.tileEnds die = true)
    (hv : v = if transfer then s else s.accstStep die tile) (ht : t = v.tile die tile) (hm : t.executing transfer = some m)
    (hfollows : ∀ j, transfer = true → t.arr = some j → j.shares m = false) (ls : Store)
    (hls : ls = t.seen (if transfer then t.xferSaw else t.arrSaw) v.fresh) :
    exec (.matrixComplete die tile transfer) s = .next ((v.drawn.setTile die tile
      (((m.perform t ls).freed transfer).oneFewer m.slot)).countSram die (m.errs { t with ls := ls })) := by
  have hended : (transfer && t.arr.toList.any (fun j => j.shares m)) = false := by
    rw [Bool.and_eq_false_imp]
    intro htr
    rw [List.any_eq_false]
    intro j hj
    simp [hfollows j htr (Option.mem_toList.mp hj)]
  have hx : exec (.matrixComplete die tile transfer) s = execMatrixComplete die tile transfer s := rfl
  rw [Tile.executing] at hm
  rw [hx, execMatrixComplete, when_of_true hends]
  simp only [← hv, ← ht, hm, hended, ← hls, Bool.false_eq_true, if_false]
  rfl

/-! The effect of an instruction, by its opcode (Table 4.1). -/

theorem MInstr.perform_accld {m : MInstr} (h : m.op = 2) (t : Tile) (ls : Store) :
    m.perform t ls = { m.load { t with ls := ls } with ls := t.ls } := by
  simp only [MInstr.perform, h]

theorem MInstr.perform_accst {m : MInstr} (h : m.op = 3) (t : Tile) (ls : Store) : m.perform t ls = t.accst (fun _ => true) := by
  simp only [MInstr.perform, h]

theorem MInstr.perform_mma_or_mmap {m : MInstr} (h : m.op ≤ 1) (t : Tile) (ls : Store) :
    m.perform t ls = { m.product { t with ls := ls } with ls := t.ls } := by
  obtain h0 | h1 : m.op = 0 ∨ m.op = 1 := by omega
  · simp only [MInstr.perform, h0]
  · simp only [MInstr.perform, h1]

end Sys2Proof.Machine
end

section
/-! The obligation about matrix instructions. -/

namespace Sys2Proof.Machine

/-- Settles O24, moment by moment: the four queueing commands are one issue with four opcodes, and each later clause is the branch that its
hypotheses select. That an instruction computes as it completes, from sectors as each stood at a freely chosen moment since its start, is
log entry 31. -/
theorem matrixInstructionsComplete : Obligations.MatrixInstructionsComplete := by
  unfold Obligations.MatrixInstructionsComplete
  refine ⟨fun s u c w i l m hl hpart hactive hfree hacc hm hregion => ?queues, fun s u c w i h hfew => exec_mwait_of_issues h hfew,
    fun s die tile n transfer m t hruns ht hfirst hm hidle hmay => ?starts,
    fun s v die tile transfer m t ls hends hv ht hm hfollows hls =>
      ⟨_, rfl, exec_matrixComplete_ends hends hv ht hm hfollows ls hls⟩,
    fun m t ls => ⟨fun h => m.perform_accld h t ls, fun h => m.perform_accst h t ls, fun h => m.perform_mma_or_mmap h t ls⟩⟩
  case queues =>
    obtain rfl : m = i.matrixInstr c w l := hm
    have hqueued : ∀ op, s.issues c w (0x200 + op) = some (i, u) →
        s.matrixIssue c w op = .next (u.matrixQueued c i (i.matrixInstr c w l)) := fun op h =>
      State.matrixIssue_of_issues h hfree hl hpart hactive hacc hregion
    refine ⟨u.matrixQueued c i (i.matrixInstr c w l), rfl, fun h => ?_, fun h => ?_, fun h => ?_, fun h => ?_⟩
    · rw [exec_mma, hqueued 0 h]
    · rw [exec_mmap, hqueued 1 h]
    · rw [exec_accld, hqueued 2 h]
    · rw [exec_accst, hqueued 3 h]
  case starts =>
    subst ht
    exact exec_matrixStart_takes hruns hfirst hm hidle hmay

end Sys2Proof.Machine
end

section
/-! SUPPORT. An element instruction at its three moments: it enters the tile's queue, the engine takes the head, and it ends. -/

namespace Sys2Proof.Machine

/-! Issue. -/

/-- The instruction that a crew queues: its word, its lanes, and the registers it reads at issue, which are a call block of 16 u registers,
the scalar parameters and the g register of a VPUT (R120, R122). -/
def Issue.elementInstr (i : Issue) (c : CrewId) (w : W64) : EInstr :=
  { slot := c.slot, ctx := i.v.stand, w := w, block := (List.range 16).map (fun k => i.v.getU (16 * wfld w 24 2 + k))
    q0 := i.v.getU (wfld w 26 6), q1 := i.v.getU (wfld w 26 6 + 1), lanes := i.part
    put := (List.range 32).map (fun l => i.v.getG l (wfld w 32 8)) }

/-- An instruction enters the queue, its path moves on, and its crew has one more outstanding (R121, R122). -/
def State.elementQueued (s : State) (c : CrewId) (i : Issue) (e : EInstr) : State :=
  (s.setTile c.die c.tile { s.tile c.die c.tile with eq := (s.tile c.die c.tile).eq ++ [e] }).done i { i.v with element := i.v.element + 1 }

theorem exec_eprun (c : CrewId) (w : W64) (s : State) : exec (.eprun c w) s = s.elementIssue c w 0 (fun u i e =>
    eprunTrap (u.imageOf c (wfld w 16 6)) (wfld w 16 6) e.block (u.windowOf c i.v)) := rfl
theorem exec_vget (c : CrewId) (w : W64) (s : State) : exec (.vget c w) s = s.elementIssue c w 1 (fun _ _ _ => none) := rfl
theorem exec_vput (c : CrewId) (w : W64) (s : State) : exec (.vput c w) s = s.elementIssue c w 2 (fun _ _ _ => none) := rfl
theorem exec_vflags (c : CrewId) (w : W64) (s : State) : exec (.vflags c w) s = s.elementIssue c w 3 (fun _ _ _ => none) := rfl

/-- With a free entry, an instruction that issues and whose own check finds nothing is queued (R122, R136). -/
theorem State.elementIssue_of_issues {s u : State} {c : CrewId} {w : W64} {i : Issue} {op : Nat}
    {check : State → Issue → EInstr → Option (Nat × Nat)} (hfree : (s.tile c.die c.tile).eq.length < 16)
    (h : s.issues c w (0x300 + op) = some (i, u)) (hcheck : check u i (i.elementInstr c w) = none) :
    s.elementIssue c w op check = .next (u.elementQueued c i (i.elementInstr c w)) := by
  rw [State.elementIssue, State.issueIf_of_issues h fun _ _ _ => decide_eq_true hfree]
  simp only [Issue.elementInstr] at hcheck
  simp only [hcheck]
  rfl

/-- A VWAIT whose crew has few enough outstanding goes on (R121). -/
theorem exec_vwait_of_issues {s u : State} {c : CrewId} {w : W64} {i : Issue} (h : s.issues c w 0x304 = some (i, u))
    (hfew : ∀ v, s.crew c = some v → v.element ≤ wfld w 41 4) : exec (.vwait c w) s = .next (u.done i i.v) := by
  have hready : ∀ v l, s.issuable c = some (v, l) → (v.part w == 0 || decide (v.element ≤ wfld w 41 4)) = true := fun v l hi => by
    obtain ⟨hv, -⟩ := State.issuable_crew hi
    rw [decide_eq_true (hfew v hv), Bool.or_true]
  have hx : exec (.vwait c w) s = execVwait c w s := rfl
  rw [hx, execVwait, State.issueIf_of_issues h hready]

/-! Start. -/

/-- An idle engine takes the head of its queue and begins to note local store as it changes (R122, R124). -/
theorem exec_elementStart_takes {s : State} {die tile : Nat} {e : EInstr} {r : List EInstr} (hruns : s.tileRuns die = true)
    (hidle : (s.tile die tile).ex = none) (hqueue : (s.tile die tile).eq = e :: r) :
    exec (.elementStart die tile) s =
      .next (s.setTile die tile { s.tile die tile with ex := some e, exSaw := some [], eq := r }) := by
  have hx : exec (.elementStart die tile) s = execElementStart die tile s := rfl
  rw [hx, execElementStart, when_of_true hruns]
  simp only [hidle, hqueue]

/-! End, by the opcode (Table 5.2). -/

/-- Byte of lane `l`'s word of a VGET or VPUT in the w registers of its context (R120). -/
def EInstr.wordAt (e : EInstr) (l : Nat) : Nat := 512 * wfld e.w 16 6 + 4 * (32 * wfld e.w 22 2 + l)

/-- What a VGET reads for a lane: the word, or a free value where its sector is uncorrectable (log entry 14). -/
def EInstr.gets (e : EInstr) (w : Store) (draw l : Nat) : Nat :=
  if w.poisoned (e.wordAt l) 4 then (Free.poisonLoad (draw + l)).toNat % 2 ^ 32 else w.readNat (e.wordAt l) 4

/-- A VGET moves the words of its lanes from the context to their g registers; one free value for each lane is drawn when some sector is
uncorrectable. -/
def State.vgetEnd (s : State) (die tile : Nat) (e : EInstr) : State :=
  let w := ((s.tile die tile).ectx e.ctx).w
  ((if (lanesOf e.lanes).any (fun l => w.poisoned (e.wordAt l) 4) then { s with fresh := s.fresh + 32 } else s).onCrew
    { die := die, tile := tile, slot := e.slot }
    (fun v => (lanesOf e.lanes).foldl (fun (v : Crew) l => v.set false l (wfld e.w 32 8) (e.gets w s.fresh l)) v)).elementDone die tile e

/-- A VPUT moves the values its lanes had at issue to the context. -/
def State.vputEnd (s : State) (die tile : Nat) (e : EInstr) : State :=
  let x := (s.tile die tile).ectx e.ctx
  (s.setTile die tile { s.tile die tile with ctx := alPut (s.tile die tile).ctx e.ctx { x with
    w := (lanesOf e.lanes).foldl (fun (w : Store) l => w.writeNat (e.wordAt l) 4 (nth 0 e.put l).toNat) x.w } }).elementDone die tile e

/-- A VFLAGS gives the sticky flags of the context to a u register, and with CLR clears them (R139). -/
def State.vflagsEnd (s : State) (die tile : Nat) (e : EInstr) : State :=
  let x := (s.tile die tile).ectx e.ctx
  let u := s.onCrew { die := die, tile := tile, slot := e.slot } (fun v => v.set true 0 (wfld e.w 32 6) x.flags.toNat)
  (if wfld e.w 40 1 = 1 then
    u.setTile die tile { u.tile die tile with ctx := alPut (u.tile die tile).ctx e.ctx { x with flags := 0 } } else u).elementDone die tile e

/-- The executing instruction takes effect and ends. -/
def State.elementEnd (s : State) (die tile : Nat) (e : EInstr) (bad : Bool) : State :=
  match wfld e.w 8 8 with
  | 0 => s.eprunEnd die tile e bad
  | 1 => s.vgetEnd die tile e
  | 2 => s.vputEnd die tile e
  | _ => s.vflagsEnd die tile e

theorem exec_elementComplete (die tile : Nat) (bad : Bool) (s : State) : exec (.elementComplete die tile bad) s =
    when_ (s.tileEnds die) (fun s =>
      match (s.tile die tile).ex with
      | none => s
      | some e => s.elementEnd die tile e bad) s := rfl

theorem exec_elementComplete_ends {s : State} {die tile : Nat} {e : EInstr} (hends : s.tileEnds die = true)
    (hex : (s.tile die tile).ex = some e) (bad : Bool) :
    exec (.elementComplete die tile bad) s = .next (s.elementEnd die tile e bad) := by
  rw [exec_elementComplete, when_of_true hends]
  simp only [hex]

section
variable {s : State} {die tile : Nat} {e : EInstr} {bad : Bool}

theorem State.elementEnd_eprun (h : wfld e.w 8 8 = 0) : s.elementEnd die tile e bad = s.eprunEnd die tile e bad := by
  simp only [State.elementEnd, h]

theorem State.elementEnd_vget (h : wfld e.w 8 8 = 1) : s.elementEnd die tile e bad = s.vgetEnd die tile e := by
  simp only [State.elementEnd, h]

theorem State.elementEnd_vput (h : wfld e.w 8 8 = 2) : s.elementEnd die tile e bad = s.vputEnd die tile e := by
  simp only [State.elementEnd, h]

theorem State.elementEnd_vflags (h : wfld e.w 8 8 = 3) : s.elementEnd die tile e bad = s.vflagsEnd die tile e := by
  simp only [State.elementEnd, h]

end

/-- An EPRUN ends on the tile as the ACCST that executes beside it has left it: local store and the context of the stand are the program's,
its flags join the context's, and Tally counts the program and the sectors read in error (R123, R139, R142). -/
theorem State.eprunEnd_eq {s v : State} {die tile : Nat} {e : EInstr} {t : Tile} {img : List W64} {seen : Store} {r : Store × Store × Nat}
    (bad : Bool) (hv : v = s.accstStep die tile) (ht : t = v.tile die tile) (himg : img = alGet [] t.progs (wfld e.w 16 6))
    (hseen : seen = t.seen t.exSaw v.fresh) (hr : r = eprun img bad e seen t.ls (t.ectx e.ctx).w v.fresh) :
    ∃ x : Tile, x.ctx = alPut t.ctx e.ctx { w := r.2.1, flags := (t.ectx e.ctx).flags ||| BitVec.ofNat 5 r.2.2 } ∧ x.ls = (t.putLs r.1).ls
      ∧ s.eprunEnd die tile e bad = (((v.countProgram (imgPid img)).drawn.setTile die tile x).countSram die
          ((eprunErrs img e seen (t.ectx e.ctx).w).1, ((eprunErrs img e seen (t.ectx e.ctx).w).2.1,
            (eprunErrs img e seen (t.ectx e.ctx).w).2.2 + b2n bad))).elementDone die tile e := by
  subst hv ht himg hseen hr
  refine ⟨_, ?ctx, ?ls, rfl⟩
  case ctx => rfl
  case ls => rfl

end Sys2Proof.Machine
end

section
/-! The obligation about element instructions. -/

namespace Sys2Proof.Machine

/-- Settles O25, moment by moment: the four queueing commands are one issue with four opcodes, and each later clause is the branch that its
hypotheses select. That Tally counts EPRUNs by PID is log entry 66; that an EPRUN computes as it completes, from sectors as each stood at a
freely chosen moment since its start, is log entry 31; the free value that a VGET of an uncorrectable sector gives is log entry 14. -/
theorem elementInstructionsComplete : Obligations.ElementInstructionsComplete := by
  unfold Obligations.ElementInstructionsComplete
  refine ⟨fun s u c w i e hfree he => ?queues, fun s u c w i h hfew => exec_vwait_of_issues h hfew,
    fun s die tile e r hruns hidle hqueue => exec_elementStart_takes hruns hidle hqueue,
    fun s v die tile e bad t img seen hends hex hop hv ht himg hseen => ?eprun,
    fun s die tile e bad w at_ hends hex hop hw hat => ?vget, fun s die tile e bad hends hex hop => ?vput,
    fun s u die tile e bad hends hex hop hu => ?vflags⟩
  case queues =>
    obtain rfl : e = i.elementInstr c w := he
    refine ⟨u.elementQueued c i (i.elementInstr c w), rfl, fun h hpass => ?_, fun h => ?_, fun h => ?_, fun h => ?_⟩
    · rw [exec_eprun, State.elementIssue_of_issues hfree h hpass]
    · rw [exec_vget, State.elementIssue_of_issues hfree h rfl]
    · rw [exec_vput, State.elementIssue_of_issues hfree h rfl]
    · rw [exec_vflags, State.elementIssue_of_issues hfree h rfl]
  case eprun =>
    obtain ⟨x, hctx, hls, hend⟩ := State.eprunEnd_eq bad hv ht himg hseen rfl
    refine ⟨_, x, rfl, hctx, hls, ?_⟩
    rw [exec_elementComplete_ends hends hex, State.elementEnd_eprun hop, hend]
  case vget =>
    subst hw hat
    rw [exec_elementComplete_ends hends hex, State.elementEnd_vget hop]
    rfl
  case vput =>
    rw [exec_elementComplete_ends hends hex, State.elementEnd_vput hop]
    rfl
  case vflags =>
    subst hu
    rw [exec_elementComplete_ends hends hex, State.elementEnd_vflags hop]
    rfl

end Sys2Proof.Machine
end

section
/-! SUPPORT. What a home does with an access, a fill, an eviction-buffer entry and a clean victim, branch by branch. -/

namespace Sys2Proof.Machine

/-! A home takes a request, or keeps it waiting (R214, R235). -/

theorem State.lineOf_acc {u : State} {id : Nat} {r : Req} (h : u.req id = some r) : u.lineOf (.acc id) = r.pa / 128 := by
  rw [State.lineOf, h]
  rfl

theorem State.homeStep_of_busy {u : State} {w : Waiting} (h : (u.busyRec (u.lineOf w)).isSome = true) :
    u.homeStep w = u.enqueue (u.lineOf w) w := by
  rw [State.homeStep, if_pos (by rw [h, Bool.true_or])]

/-- A request for a line of this package's memory that is neither busy nor waited for nor being filled is acted on. -/
theorem State.homeStep_of_free {u : State} {w : Waiting} (hbusy : u.busyRec (u.lineOf w) = none)
    (hwait : ∀ x ∈ u.waitOf (u.lineOf w), u.lineOf x ≠ u.lineOf w) (hhost : hostLine (u.lineOf w) = false)
    (hfill : ∀ f ∈ (u.lineSlice (u.lineOf w)).fills, f.addr ≠ u.lineOf w) : u.homeStep w = u.homeTry (u.lineOf w) w := by
  have hqueue : ¬ ((u.busyRec (u.lineOf w)).isSome || (u.waitOf (u.lineOf w)).any (fun x => u.lineOf x == u.lineOf w)) = true := by
    simpa [hbusy] using hwait
  have hfills : ¬ (u.lineSlice (u.lineOf w)).fills.any (fun f => f.addr == u.lineOf w) = true := by simpa using hfill
  simp only [State.homeStep, if_neg hqueue, hhost, Bool.false_eq_true, if_false, if_neg hfills]

/-- An action that leaves the home within its 64 busy lines stands. -/
theorem State.homeTry_of_room {u : State} {line : Nat} {w : Waiting} (h : ((u.homeAct w).busyOf line).length ≤ 64) :
    u.homeTry line w = u.homeAct w := by
  simp only [State.homeTry, h, or_true, if_true]

section
variable {u : State} {id line : Nat} {r : Req} (hreq : u.req id = some r) (hline : line = r.pa / 128)
include hreq hline

theorem State.homeStep_acc_of_busy (hbusy : (u.busyRec line).isSome = true) : u.homeStep (.acc id) = u.waitAt line r := by
  rw [hline, ← State.lineOf_acc hreq] at hbusy ⊢
  rw [State.homeStep_of_busy hbusy]
  simp only [State.enqueue, hreq]

theorem State.homeStep_acc_of_free (hbusy : u.busyRec line = none) (hwait : ∀ x ∈ u.waitOf line, u.lineOf x ≠ line)
    (hhost : hostLine line = false) (hfill : ∀ f ∈ (u.lineSlice line).fills, f.addr ≠ line)
    (hroom : ((u.uncachedAct r).busyOf line).length ≤ 64) : u.homeStep (.acc id) = u.uncachedAct r := by
  have hact : u.homeAct (.acc id) = u.uncachedAct r := by simp only [State.homeAct, hreq]
  rw [hline, ← State.lineOf_acc hreq] at hbusy hwait hhost hfill hroom
  rw [State.homeStep_of_free hbusy hwait hhost hfill, State.homeTry_of_room (by rwa [hact]), hact]

end

/-! The commands that bring an accepted access to its home (R206, Table 9.9). -/

section
variable {s : State} {id : Nat}

section
variable {r : Req} (hreq : s.req id = some r)
include hreq

theorem State.arrives_of_sent {ok : Req → Bool} (hserves : s.serves = true) (hsent : r.stage = .sent)
    (hhome : s.homeHere (r.pa / 128) = true) (hfirst : s.earlier r = false) (hok : ok r = true) : s.arrives id ok = true := by
  simp [State.arrives, hreq, hserves, hsent, hhome, hfirst, hok]

theorem exec_homeAccess_of_arrives (h : s.arrives id (fun r => !(hostLine (r.pa / 128))) = true) (x : AccErrs) :
    exec (.homeAccess id x) s = .next ((s.setReq { r with errs := x }).homeStep (.acc id)) := by
  have he : exec (.homeAccess id x) s = execHomeAccess id x s := rfl
  rw [he, execHomeAccess, when_of_true h]
  simp only [hreq]

end

theorem exec_rdc_of_arrives (h : s.arrives id (fun r => !r.kind.writes) = true) :
    exec (.rdc id) s = .next (s.homeStep (.acc id)) := by
  have he : exec (.rdc id) s = execRdc id s := rfl
  rw [he, execRdc, when_of_true h]

theorem exec_wrReq_of_arrives (h : s.arrives id (fun r => r.kind == .store || r.kind == .bwrite) = true) :
    exec (.wrReq id) s = .next (s.homeStep (.acc id)) := by
  have he : exec (.wrReq id) s = execWrReq id s := rfl
  rw [he, execWrReq, when_of_true h]

theorem exec_atReq_of_arrives (h : s.arrives id (fun r => r.kind == .atomic || r.kind == .red || r.kind == .redl) = true) :
    exec (.atReq id) s = .next (s.homeStep (.acc id)) := by
  have he : exec (.atReq id) s = execAtReq id s := rfl
  rw [he, execAtReq, when_of_true h]

end

/-! Fills (R208, R209). -/

theorem Slice.fillWay_of_enabled {v : Slice} {f : Fill} (h : v.enabled f.way = true) : v.fillWay f = some (v, f.way) := if_pos h

section
variable {s : State} {line : Nat} (hserves : s.serves = true) (hhost : hostLine line = false)
include hserves hhost

/-- A fill that no eviction-buffer entry of its line holds back installs the line, and its accesses are taken up in order. -/
theorem exec_l2FillReturn_installs {w : Nat} {f : Fill} {x : Slice}
    (hfind : (s.lineSlice line).fills.find? (fun f => f.addr == line) = some f) (hev : (s.lineSlice line).evIndex line = none)
    (hway : ({ s.lineSlice line with fills := (s.lineSlice line).fills.filter (fun g => g.addr != line) } : Slice).fillWay f = some (x, w))
    (crc : List Nat) : exec (.l2FillReturn line crc) s = .next (f.waiters.foldl State.homeStep
      (((s.setLineSlice line (x.install w line ((s.memLine line).lose (crcLost crc)) false)).countRead line).linkRead line crc)) := by
  have he : exec (.l2FillReturn line crc) s = execL2FillReturn line crc s := rfl
  have hany : (s.lineSlice line).fills.any (fun f => f.addr == line) = true := by
    rw [← List.isSome_find?, hfind]
    rfl
  rw [he, execL2FillReturn, when_of_true (by simp [hserves, hhost, hany, hev])]
  simp only [hfind, hway]

/-! The eviction buffer (R212). -/

/-- The oldest entry of the line not yet issued is written to memory, its data short of the sectors whose transfer failed (R277). -/
theorem exec_evictionWriteIssue_issues {e : EvEntry}
    (hfind : (s.lineSlice line).evb.find? (fun e => e.addr == line && !e.issued) = some e) (hopen : s.memBlocked line = false)
    (crc : List Nat) : exec (.evictionWriteIssue line crc) s = .next (((s.setLineSlice line { s.lineSlice line with
      evb := (s.lineSlice line).evb.map (fun x => if x.addr = line then { x with issued := true } else x) }).linkWrite line crc).putMem line
        (e.line.lose (crcLost crc))) := by
  have he : exec (.evictionWriteIssue line crc) s = execEvictionWriteIssue line crc s := rfl
  have hany : (s.lineSlice line).evb.any (fun e => e.addr == line && !e.issued) = true := by
    rw [← List.isSome_find?, hfind]
    rfl
  rw [he, execEvictionWriteIssue, when_of_true (by rw [hserves, hhost, hany, hopen]; rfl)]
  simp only [hfind]

/-- Of the entries of a line whose writes are issued, the oldest is freed (log entry 13). -/
theorem exec_evictionWriteAck_frees {e : EvEntry} (he : e ∈ (s.lineSlice line).evb) (haddr : e.addr = line) (hissued : e.issued = true) :
    exec (.evictionWriteAck line) s = .next (((s.setLineSlice line { s.lineSlice line with
      evb := (s.lineSlice line).evb.eraseP (fun e => e.addr == line && e.issued) }).drainWays (s.homeOf line).1 (s.homeOf line).2).drainHome
        line) := by
  have hx : exec (.evictionWriteAck line) s = execEvictionWriteAck line s := rfl
  have hany : (s.lineSlice line).evb.any (fun e => e.addr == line && e.issued) = true :=
    List.any_eq_true.2 ⟨e, he, by simp [haddr, hissued]⟩
  rw [hx, execEvictionWriteAck, when_of_true (by rw [hserves, hhost, hany]; rfl)]

/-! Clean victims (R210). -/

/-- The home's own data of a line that nothing holds busy, fills or lists in the directory is offered. -/
theorem exec_cleanVictimOffer_offers {cluster : Nat} (hcluster : cluster < 8) (hmem : s.isMem (line * 128) = true)
    (hbusy : s.busyRec line = none) (hfill : ∀ f ∈ (s.lineSlice line).fills, f.addr ≠ line) (hdir : s.dirOf line = none) :
    exec (.cleanVictimOffer cluster line (s.homeData line)) s = .next (s.offerClean line (s.homeData line)) := by
  have he : exec (.cleanVictimOffer cluster line (s.homeData line)) s = execCleanVictimOffer cluster line (s.homeData line) s := rfl
  have hfills : (s.lineSlice line).fills.any (fun f => f.addr == line) = false := by simpa using hfill
  rw [he, execCleanVictimOffer, when_of_true (by simp [hserves, hcluster, hhost, hmem, hbusy, hfills, hdir])]

end

theorem State.offerClean_declines {s : State} {line : Nat} {v : Slice} (hv : v = s.lineSlice line)
    (h : (v.way line).isSome = true ∨ (v.evIndex line).isSome = true ∨ 24 ≤ v.evb.length ∨ v.choose (setOf line) = none) (l : Line) :
    s.offerClean line l = s := by
  subst hv
  rw [State.offerClean]
  split
  · rfl
  · rcases h with h | h | h | h <;> simp [h]

theorem State.offerClean_installs {s : State} {line w : Nat} {v : Slice} (hv : v = s.lineSlice line) (hhost : hostLine line = false)
    (hway : v.way line = none) (hev : v.evIndex line = none) (hroom : v.evb.length < 24) (hchoose : v.choose (setOf line) = some w)
    (hempty : alFind v.lines (setOf line * 16 + w) = none) (l : Line) :
    s.offerClean line l = s.setLineSlice line (v.install w line l false) := by
  subst hv
  simp [State.offerClean, hhost, hway, hev, Nat.not_le.2 hroom, hchoose, hempty]

/-! Failing ways (R216). -/

theorem State.wayLimit_of_le {s : State} {die k way : Nat} (h : 16 ≤ (s.slice die k).errors way) :
    s.wayLimit die k way = s.disableWay die k way := if_pos h

theorem State.wayLimit_of_lt {s : State} {die k way : Nat} (h : (s.slice die k).errors way < 16) : s.wayLimit die k way = s :=
  if_neg (Nat.not_le.2 h)

theorem exec_wayDisable {s : State} {die k way : Nat} (hserves : s.serves = true) (hdie : die < 4) (hk : k < 32) (hway : way < 16) :
    exec (.wayDisable die k way) s = .next (s.wayLimit die k way) :=
  when_of_true (by simp [hserves, hdie, hk, hway]) _ s

/-! Reads that reset (R219, R284, R297). -/

/-- A maximum folded from a start is the value that bounds start and list and is one of them. -/
theorem foldl_max_eq {l : List Nat} {a n : Nat} (ha : a ≤ n) (hle : ∀ x ∈ l, x ≤ n) (hmem : n = a ∨ n ∈ l) : l.foldl max a = n := by
  induction l generalizing a with
  | nil => exact (hmem.resolve_right List.not_mem_nil).symm
  | cons x l ih =>
    obtain ⟨hx, hl⟩ := List.forall_mem_cons.1 hle
    refine ih (Nat.max_le.2 ⟨ha, hx⟩) hl ?_
    rcases hmem with rfl | hmem
    · exact .inl (Nat.max_eq_left hx).symm
    · exact (List.mem_cons.1 hmem).imp_left fun (h : n = x) => h ▸ (Nat.max_eq_right ha).symm

section
variable {s : State} {die : Nat} (hserves : s.serves = true) (hdie : die < 4)
include hserves hdie

theorem exec_memL2WayRead {k : Nat} (hk : k < 32) :
    exec (.memL2WayRead die k) s = .next (s.setSlice die k { s.slice die k with evhi := (s.slice die k).evb.length }) := by
  have he : exec (.memL2WayRead die k) s = execMemL2WayRead die k s := rfl
  rw [he, execMemL2WayRead, when_of_true (by simp [hserves, hdie, hk])]

theorem exec_memStackTempRead {n : Nat} (hle : ∀ k, k < 3 → (alGet ({} : Stack) s.hbm (die * 3 + k)).temp ≤ n)
    (hmem : n = 0 ∨ ∃ k, k < 3 ∧ (alGet ({} : Stack) s.hbm (die * 3 + k)).temp = n) :
    exec (.memStackTempRead die) s = .next { s with tmax := alPut s.tmax die n } := by
  have he : exec (.memStackTempRead die) s = execMemStackTempRead die s := rfl
  rw [he, execMemStackTempRead, when_of_true (by simp [hserves, hdie]), foldl_max_eq (Nat.zero_le n) (by simpa using hle) (by simpa using hmem)]

theorem exec_colSatRead {l : Nat} (hl : l < 10) : exec (.colSatRead die l) s =
    .next { s with colSat := alPut s.colSat (die * 10 + l) (0, 0, (alGet (0, 0, 0) s.colSat (die * 10 + l)).2.2) } := by
  have he : exec (.colSatRead die l) s = execColSatRead die l s := rfl
  rw [he, execColSatRead, when_of_true (by simp [hserves, hdie, hl])]

end

end Sys2Proof.Machine
end

section
/-! The obligation about homes and caches. -/

namespace Sys2Proof.Machine

/-- Settles O32, clause by clause, each by the branch that its hypotheses select. That an acknowledgement frees the oldest issued entry of a
line, and that a line may have a second entry meanwhile, is log entry 13. -/
theorem homesAndCachesComplete : Obligations.HomesAndCachesComplete := by
  unfold Obligations.HomesAndCachesComplete
  refine ⟨fun s id r hreq hserves hsent hhome hfirst => ?accepted, fun u t id line r hreq hline hhost => ?atHome,
    fun s line w crc f v x hserves hhost hv hfind hev hway => ?fill, fun v f h => Slice.fillWay_of_enabled h,
    fun s line crc e v hserves hhost hv hfind hopen => ?issue, fun s line e v hserves hhost hv he haddr hissued => ?ack,
    fun s cluster line set v hserves hcluster hhost hmem hbusy hv hfill hdir hset => ?victim,
    fun s die k way hserves hdie hk hway => ?way, fun s die k hserves hdie hk => ?evhi,
    fun s die n hserves hdie hle hmem => ?tmax, fun s die l hserves hdie hl => ?colSat⟩
  case accepted =>
    have harrives (ok : Req → Bool) (hok : ok r = true) : s.arrives id ok = true :=
      State.arrives_of_sent hreq hserves hsent hhome hfirst hok
    refine ⟨fun hhost x => ?_, fun hkind => ?_, fun hkind => ?_, fun hkind => ?_⟩
    · exact exec_homeAccess_of_arrives hreq (harrives _ (by rw [hhost]; rfl)) x
    · exact exec_rdc_of_arrives (harrives _ (by rw [hkind]; rfl))
    · exact exec_wrReq_of_arrives (harrives _ (by simpa using hkind))
    · exact exec_atReq_of_arrives (harrives _ (by simpa [or_assoc] using hkind))
  case atHome =>
    refine ⟨State.homeStep_acc_of_busy hreq hline, fun hbusy hwait hfill ht hroom => ?_⟩
    subst ht
    exact State.homeStep_acc_of_free hreq hline hbusy hwait hhost hfill hroom
  case fill =>
    subst hv
    exact exec_l2FillReturn_installs hserves hhost hfind hev hway crc
  case issue =>
    subst hv
    exact exec_evictionWriteIssue_issues hserves hhost hfind hopen crc
  case ack =>
    subst hv
    exact exec_evictionWriteAck_frees hserves hhost he haddr hissued
  case victim =>
    subst hset
    rw [exec_cleanVictimOffer_offers hserves hhost hcluster hmem hbusy (hv ▸ hfill) hdir]
    refine ⟨fun h => ?_, fun w hway hev hroom hchoose hempty => ?_⟩
    · rw [State.offerClean_declines hv h]
    · rw [State.offerClean_installs hv hhost hway hev hroom hchoose hempty]
  case way =>
    rw [exec_wayDisable hserves hdie hk hway]
    exact ⟨fun h => congrArg _ (State.wayLimit_of_le h), fun h => congrArg _ (State.wayLimit_of_lt h)⟩
  case evhi => exact exec_memL2WayRead hserves hdie hk
  case tmax => exact exec_memStackTempRead hserves hdie hle hmem
  case colSat => exact exec_colSatRead hserves hdie hl

end Sys2Proof.Machine
end

section
/-! SUPPORT. A maintenance activity that its port or firmware starts: it is listed as running, and has its first effect. -/

namespace Sys2Proof.Machine

/-! The list of activities. -/

/-- An activity joins the list under its number. -/
def State.listing (s : State) (a : Act) : State := { s with acts := s.acts ++ [a], actNum := a.num }

@[simp] theorem State.listing_targetLost (s : State) (a b : Act) : (s.listing a).targetLost b = s.targetLost b := rfl

/-- Under a number of its own, an activity is replaced by how it stands now, and no other one is. -/
theorem State.listing_setAct {s : State} {a : Act} (hnew : ∀ x ∈ s.acts, x.num ≠ a.num) (st : Nat) (begun : Bool) :
    (s.listing { a with state := st, begun := begun }).setAct a = s.listing a := by
  have hkept : s.acts.map (fun x => if x.num = a.num then a else x) = s.acts := by
    rw [List.map_congr_left fun x hx => if_neg (hnew x hx), List.map_id']
  rw [State.setAct, State.listing, State.listing, List.map_append, hkept, List.map_singleton, if_pos rfl]

/-! Acceptance. -/

/-- The first effect of an activity whose target is there (R433, R434). -/
def State.firstEffect (s : State) (a : Act) : State :=
  match a.code with
  | 2 => s.setChan a.die (chanIx a.t4 0) { s.chan a.die (chanIx a.t4 0) with retrain := true }
  | 3 => s.setChan a.die (chanIx 3 0) { s.chan a.die (chanIx 3 0) with retrain := true }
  | 4 => s.ridgeAgain (16 * a.die + a.t4)
  | 5 => s.evacBegin a
  | 6 => (s.setSlice a.die a.t4 { s.slice a.die a.t4 with test := some a.t5 }).drainWays a.die a.t4
  | 7 => s.retireBegin a
  | 9 => s.resetDie a.die
  | _ => s

theorem State.actBegin_of_targetThere {s : State} {a : Act} (hstate : a.state = 0) (hbegun : a.begun = true)
    (hthere : s.targetLost a = false) (st : Nat) (begun : Bool) :
    s.actBegin { a with state := st, begun := begun } = (s.setAct a).firstEffect a := by
  obtain ⟨⟩ := a
  subst hstate hbegun
  exact if_neg (ne_true_of_eq_false hthere)

/-- What an accepted activity is while it runs (R433, R436). -/
def State.runningAct (s : State) (code die t4 t5 origin : Nat) (bare : Bool) : Act :=
  { num := s.actNum + 1, code := code, die := die, t4 := t4, t5 := t5, state := 0, origin := origin, time := s.now, aborting := false,
    result := [], bare := bare, begun := true }

/-- An activity that is not held is listed as running and has its first effect. -/
theorem State.actAccept_runs {s : State} {code die t4 t5 origin : Nat} {bare : Bool} (hnew : ∀ x ∈ s.acts, x.num ≠ s.actNum + 1)
    (hthere : s.targetLost (s.runningAct code die t4 t5 origin bare) = false) : s.actAccept code die t4 t5 origin 0 bare =
      (s.listing (s.runningAct code die t4 t5 origin bare)).firstEffect (s.runningAct code die t4 t5 origin bare) := by
  have hbegins : s.actAccept code die t4 t5 origin 0 bare =
      (s.listing { s.runningAct code die t4 t5 origin bare with state := 0, begun := false }).actBegin
        { s.runningAct code die t4 t5 origin bare with state := 0, begun := false } := rfl
  rw [hbegins, State.actBegin_of_targetThere rfl rfl (by rwa [State.listing_targetLost]), State.listing_setAct hnew]

/-- An activity held in Halt is listed as suspended, and nothing else happens (R403, R437). -/
theorem State.actAccept_suspended (s : State) (code die t4 t5 origin : Nat) (bare : Bool) : s.actAccept code die t4 t5 origin 2 bare =
    s.listing { s.runningAct code die t4 t5 origin bare with state := 2, begun := false } := rfl

/-! The two commands that ask for an activity. -/

section
variable (s : State) (op : Nat) (p : Port) (k : Packet)

@[simp] theorem State.began_now : (s.began op p k).now = s.now := by rw [State.now, State.began_time, State.now]

@[simp] theorem State.began_targetLost (a : Act) : (s.began op p k).targetLost a = s.targetLost a := by
  rw [State.targetLost, State.began_plat, State.targetLost]

@[simp] theorem State.began_splitForbids (code die t4 t5 : Nat) :
    (s.began op p k).splitForbids code die t4 t5 = s.splitForbids code die t4 t5 := by
  simp only [State.splitForbids, State.remapOf, State.began_remap]

@[simp] theorem State.began_runningAct (code die t4 t5 origin : Nat) (bare : Bool) :
    (s.began op p k).runningAct code die t4 t5 origin bare = s.runningAct code die t4 t5 origin bare := by
  simp only [State.runningAct, State.began_actNum, State.began_now]

theorem State.began_listing (a : Act) : (s.began op p k).listing a = { s.began op p k with acts := s.acts ++ [a], actNum := a.num } := by
  rw [State.listing, State.began_acts]

variable {s op p k}

/-- A command whose activity is of no lost die and finds room and no conflict has it accepted, and held in Halt (R403, R437). -/
theorem State.portAct_accepts {code die t4 t5 : Nat} (hlive : code = 9 → s.plat.lostC.contains die = false)
    (hroom : s.acts.length < 16) (hclash : (s.acts.any fun x => x.clashes code die t4 t5) = false)
    (hsplit : s.splitForbids code die t4 t5 = false) (bare : Bool) : (s.began op p k).portAct p code die t4 t5 bare =
      .hold ((s.began op p k).actAccept code die t4 t5 (originOf p) (if s.power.pstate = 3 then 2 else 0) bare) := by
  have hlost : ¬ (code = 9 ∧ s.plat.lostC.contains die = true) := fun ⟨h9, h⟩ => ne_true_of_eq_false (hlive h9) h
  have hrefused : (decide (16 ≤ s.acts.length) || s.acts.any (fun a => a.clashes code die t4 t5) || s.splitForbids code die t4 t5) = false := by
    rw [hclash, hsplit, decide_eq_false (Nat.not_le.2 hroom)]
    rfl
  simp only [State.portAct, State.began_plat, State.began_acts, State.began_splitForbids, State.began_power, if_neg hlost, hrefused,
    Bool.false_eq_true, if_false]

/-- A command's activity whose target is there is listed as running and has its first effect. -/
theorem State.began_actAccept_runs {code die t4 t5 origin : Nat} {bare : Bool} (hnew : ∀ x ∈ s.acts, x.num ≠ s.actNum + 1)
    (hthere : s.targetLost (s.runningAct code die t4 t5 origin bare) = false) : (s.began op p k).actAccept code die t4 t5 origin 0 bare =
      ((s.began op p k).listing (s.runningAct code die t4 t5 origin bare)).firstEffect (s.runningAct code die t4 t5 origin bare) := by
  rw [State.actAccept_runs (by rwa [State.began_acts, State.began_actNum]) (by rwa [State.began_targetLost, State.began_runningAct]),
    State.began_runningAct]

/-- MAINT_START of an activity, with its target in range and no Park. -/
theorem doMaintStart_of_targetOk {code die t4 t5 : Nat} (hcode : byteFld (pktData k) 0 1 = code) (hdie : byteFld (pktData k) 1 1 = die)
    (ht4 : byteFld (pktData k) 4 1 = t4) (ht5 : byteFld (pktData k) 5 1 = t5) (hlow : 1 ≤ code) (hhigh : code ≤ 9)
    (hpstate : s.power.pstate ≤ 1) (hpark : s.power.parking = none) (htarget : targetOk code die t4 t5 = true) :
    doMaintStart p k s = s.portAct p code die t4 t5 false := by
  have hparked : ¬ (code ≠ 9 ∧ (s.power.pstate = 2 ∨ s.power.parking.isSome = true)) := by simp [hpark]; omega
  have hunlisted : ¬ (code = 0 ∨ 9 < code) := by omega
  simp only [doMaintStart, hcode, hdie, ht4, ht5, if_neg hparked, if_neg hunlisted, htarget, Bool.not_true, Bool.false_eq_true, if_false]

/-- A MAINT_START that names the row's own activity is the command. -/
theorem State.maintStart_of_code {code : Nat} (hcode : byteFld (pktData k) 0 1 = code) :
    s.maintStart code p k = s.ebior 0x0701 p k (doMaintStart p k) :=
  if_neg fun ⟨_, _, hne⟩ => hne hcode

theorem doDieReset_of_lt (hdie : byteFld (pktData k) 0 1 < 4) :
    doDieReset p k s = s.portAct p 9 (byteFld (pktData k) 0 1) 0 0 true := if_neg (Nat.not_le.2 hdie)

end

/-! A request that starts an activity now. -/

section
variable {s u : State} {q : ActReq} {a : Act} (h : s.opens q a u)
include h

/-- What the first effects read of the state in which the activity is listed is as it was. -/
theorem State.opens_reads : u.chans = s.chans ∧ u.remap = s.remap ∧ u.slices = s.slices ∧ u.tiles = s.tiles := by
  obtain ⟨hq, -⟩ := h
  cases q with
  | port p k =>
    obtain ⟨-, -, -, -, -, -, -, -, -, -, -, rfl⟩ := hq
    exact ⟨s.began_chans .., s.began_remap .., s.began_slices .., s.began_tiles ..⟩
  | firmware =>
    obtain ⟨-, -, -, -, -, rfl⟩ := hq
    exact ⟨rfl, rfl, rfl, rfl⟩

/-- Firmware names the die and the two target bytes of its activity. -/
theorem State.opens_firmware {die t4 t5 : Nat} (hq : q = .firmware die t4 t5) : die = a.die ∧ t4 = a.t4 ∧ t5 = a.t5 := by
  subst hq
  obtain ⟨⟨-, -, hdie, ht4, ht5, -⟩, -⟩ := h
  exact ⟨hdie, ht4, ht5⟩

/-- The request lists its activity, which has its first effect, where the row's condition on firmware is met. -/
theorem State.activity_of_opens {byFirmware : State → Bool} (hfirm : ∀ die t4 t5, q = .firmware die t4 t5 → byFirmware s = true)
    {code : Nat} (hcode : a.code = code) : s.activity code byFirmware q = u.firstEffect a := by
  subst hcode
  obtain ⟨hq, htarget, hclash, hsplit, hthere, hlive, hnew, ha⟩ := h
  cases q with
  | port p k =>
    obtain ⟨haccepts, hpstate, hpark, hroom, horigin, hlow, hhigh, hcode, hdie, ht4, ht5, rfl⟩ := hq
    have hruns : s.runningAct a.code a.die a.t4 a.t5 a.origin false = a := ha.symm
    have hnum : a.num = s.actNum + 1 := congrArg Act.num ha
    have hhalt : s.power.pstate ≠ 3 := by omega
    rw [State.activity, State.maintStart_of_code hcode, State.ebior_accepts _ haccepts,
      doMaintStart_of_targetOk hcode hdie ht4 ht5 hlow hhigh (by rwa [State.began_power]) (by rwa [State.began_power]) htarget,
      State.portAct_accepts hlive hroom hclash hsplit, if_neg hhalt, ← horigin, ← State.began_listing]
    simp only [State.began_actAccept_runs (hnum ▸ hnew) (hruns.symm ▸ hthere), hruns]
  | firmware die t4 t5 =>
    obtain ⟨hserves, horigin, rfl, rfl, rfl, rfl⟩ := hq
    have hruns : s.runningAct a.code a.die a.t4 a.t5 3 false = a := horigin ▸ ha.symm
    have hnum : a.num = s.actNum + 1 := congrArg Act.num ha
    simp only [State.activity, hserves, htarget, hfirm _ _ _ rfl, Bool.and_self, if_true, State.firmAct, hclash, Bool.false_eq_true,
      if_false, State.actAccept_runs (hnum ▸ hnew) (hruns.symm ▸ hthere), hruns, State.listing]

/-- The command of the activity's row lists it and has its first effect. -/
theorem exec_of_opens {cmd : Instr} {byFirmware : State → Bool} {code : Nat} {t : State}
    (hcmd : exec cmd s = .next (s.activity code byFirmware q)) (hfirm : ∀ die t4 t5, q = .firmware die t4 t5 → byFirmware s = true)
    (hcode : a.code = code) (heffect : u.firstEffect a = t) : exec cmd s = .next t := by
  rw [hcmd, State.activity_of_opens h hfirm hcode, heffect]

/-- Firmware starts a CHAN_EVAC where the group's spare is idle or the channel is the split one (R278, R280). -/
theorem exec_chanEvac_of_opens (hcode : a.code = 5)
    (hmay : (s.spareIdle a.die a.t4 || ((s.remapOf a.die a.t4).split && (s.remapOf a.die a.t4).target == a.t5)) = true) :
    exec (.chanEvac q) s = .next (u.evacBegin a) := by
  refine exec_of_opens h rfl (fun die t4 t5 hq => ?_) hcode (by simp only [State.firstEffect, hcode])
  obtain ⟨rfl, rfl, rfl⟩ := State.opens_firmware h hq
  subst hq
  exact hmay

end

/-- DIE_RESET's activity has no target that can be lost with its die: a lost die is refused instead (R351, R435). -/
theorem State.targetLost_of_dieReset {a : Act} (h : a.code = 9) (s : State) : s.targetLost a = false := by
  simp [State.targetLost, Act.onDie, h]

theorem State.splitForbids_dieReset (s : State) (die t4 t5 : Nat) : s.splitForbids 9 die t4 t5 = false := rfl

/-- The command DIE_RESET, taken on its port, has its activity accepted, and held in Halt (R351, R403). -/
theorem exec_dieReset_accepts {s : State} {p : Port} {k : Packet} (haccepts : s.accepts 0x0801 p k = true)
    (hdie : byteFld (pktData k) 0 1 < 4) (hlive : s.plat.lostC.contains (byteFld (pktData k) 0 1) = false) (hroom : s.acts.length < 16)
    (hclash : (s.acts.any fun x => x.clashes 9 (byteFld (pktData k) 0 1) 0 0) = false) : exec (.dieReset (.command p k)) s =
      .next ((s.began 0x0801 p k).actAccept 9 (byteFld (pktData k) 0 1) 0 0 (originOf p) (if s.power.pstate = 3 then 2 else 0) true) := by
  have hx : exec (.dieReset (.command p k)) s = .next (s.ebior 0x0801 p k (doDieReset p k)) := rfl
  rw [hx, State.ebior_accepts _ haccepts, doDieReset_of_lt hdie,
    State.portAct_accepts (fun _ => hlive) hroom hclash (s.splitForbids_dieReset ..)]

/-! First effects that have cases. -/

section
variable {s : State} {a : Act}

theorem State.evacBegin_begins (hsplit : (s.remapOf a.die a.t4).split = false) (hidle : s.spareIdle a.die a.t4 = true)
    (hserving : (s.chan a.die (chanIx a.t4 a.t5)).state = 0) : s.evacBegin a =
      ({ s with remap := alPut s.remap (a.die * 4 + a.t4) { target := a.t5, evac := true, split := false, wmark := 0, poisoned := 0 } }).chanState
        a.die (chanIx a.t4 a.t5) 2 a.t5 := by
  simp [State.evacBegin, hsplit, hidle, hserving]

theorem State.evacBegin_resumes (hsplit : (s.remapOf a.die a.t4).split = true) (htarget : (s.remapOf a.die a.t4).target = a.t5) :
    s.evacBegin a = { s with remap := alPut s.remap (a.die * 4 + a.t4) { s.remapOf a.die a.t4 with evac := true, split := false } } := by
  simp [State.evacBegin, hsplit, htarget]

theorem State.retireBegin_of_retired (h : (s.tile a.die a.t4).retired = true) : s.retireBegin a = s.endAct a 0 (leBytes 4 0) := if_pos h

theorem State.retireBegin_of_working (h : (s.tile a.die a.t4).retired = false) : s.retireBegin a =
    (s.setTile a.die a.t4 { s.tile a.die a.t4 with retiring := true }).launchesCheck := if_neg (ne_true_of_eq_false h)

end

end Sys2Proof.Machine
end

section
/-! The obligation about maintenance activities that start. -/

namespace Sys2Proof.Machine

/-- Settles O35: a request that opens an activity lists it as running and has its first effect, and each clause is that effect for one code. -/
theorem maintenanceStartsComplete : Obligations.MaintenanceStartsComplete := by
  unfold Obligations.MaintenanceStartsComplete
  refine ⟨fun s u q a h => ?opened, fun s p k die a haccepts hdie hlt hlive hroom hclash hnew ha => ?command⟩
  case opened =>
    obtain ⟨hchans, hremap, hslices, htiles⟩ := State.opens_reads h
    have hremapOf : u.remapOf a.die a.t4 = s.remapOf a.die a.t4 := by rw [State.remapOf, hremap, State.remapOf]
    have htile : u.tile a.die a.t4 = s.tile a.die a.t4 := by rw [State.tile, htiles, State.tile]
    refine ⟨fun hcode hq => ?scrub, fun hcode => ?hbm, fun hcode => ?lpddr, fun hcode hq => ?ridge,
      fun hcode hsplit hevac hspare hserving => ?evacuates, fun hcode hsplit htarget => ?resumes, fun hcode hq => ?way,
      fun hcode hworking => ?retires, fun hcode hretired => ?retired, fun hcode => ?sensor, fun hcode p k hq => ?reset⟩
    case scrub =>
      obtain ⟨p, k, rfl⟩ := hq
      exact exec_of_opens h rfl nofun hcode (by simp only [State.firstEffect, hcode])
    case hbm => exact exec_of_opens h rfl (fun _ _ _ _ => rfl) hcode (by simp only [State.firstEffect, hcode, State.chan, hchans])
    case lpddr =>
      exact exec_of_opens h rfl (fun _ _ _ _ => rfl) hcode (by simp only [State.firstEffect, hcode, State.chan, hchans, chanIx])
    case ridge =>
      obtain ⟨p, k, rfl⟩ := hq
      exact exec_of_opens h rfl nofun hcode (by simp only [State.firstEffect, hcode])
    case evacuates =>
      have hidle : s.spareIdle a.die a.t4 = true := by simp [State.spareIdle, hspare, hevac, hsplit]
      rw [exec_chanEvac_of_opens h hcode (by rw [hidle, Bool.true_or]), State.evacBegin_begins (by rwa [hremapOf])
        (by rwa [State.spareIdle, State.chan, hchans, hremapOf]) (by rwa [State.chan, hchans]), hremap]
    case resumes =>
      rw [exec_chanEvac_of_opens h hcode (by simp [hsplit, htarget]), State.evacBegin_resumes (by rwa [hremapOf]) (by rwa [hremapOf]),
        hremap, hremapOf]
    case way =>
      obtain ⟨p, k, rfl⟩ := hq
      exact exec_of_opens h rfl nofun hcode (by simp only [State.firstEffect, hcode, State.slice, hslices])
    case retires =>
      exact exec_of_opens h rfl (fun _ _ _ _ => rfl) hcode
        (by simp only [State.firstEffect, hcode, State.retireBegin_of_working (htile ▸ hworking), htile])
    case retired =>
      exact exec_of_opens h rfl (fun _ _ _ _ => rfl) hcode
        (by simp only [State.firstEffect, hcode, State.retireBegin_of_retired (htile ▸ hretired)])
    case sensor => exact exec_of_opens h rfl (fun _ _ _ _ => rfl) hcode (by simp only [State.firstEffect, hcode])
    case reset =>
      subst hq
      exact exec_of_opens h (byFirmware := fun _ => false) rfl nofun hcode (by simp only [State.firstEffect, hcode])
  case command =>
    subst hdie ha
    have hthere := s.targetLost_of_dieReset (a := s.runningAct 9 (byteFld (pktData k) 0 1) 0 0 (originOf p) true) rfl
    rw [exec_dieReset_accepts haccepts hlt hlive hroom hclash]
    refine ⟨fun hpstate => ?_, fun hpstate => ?_⟩
    · rw [if_neg hpstate, State.began_actAccept_runs hnew hthere, State.began_listing]
      rfl
    · rw [if_pos hpstate, State.actAccept_suspended, State.began_runningAct, State.began_listing]
      rfl

end Sys2Proof.Machine
end

section
/-! SUPPORT. The platform's state (the dies lost, stopped and in reset) through what the reset and the loss of a die do: nothing but the
list of dies in reset changes with the one, and the die joins the lost ones with the other. -/

namespace Sys2Proof.Machine

@[simp] theorem State.plat_foldl {α : Type} (f : State → α → State) (h : ∀ t x, (f t x).plat = t.plat) (l : List α) (s : State) :
    (l.foldl f s).plat = s.plat := foldl_keeps State.plat f h l s
@[simp] theorem State.plat_ite (c : Prop) [Decidable c] (s t : State) : (if c then s else t).plat = if c then s.plat else t.plat :=
  apply_ite State.plat c s t

/-! Requests and tokens. -/

@[simp] theorem State.setIssued_plat (s : State) (l : Level) (n : Nat) : (s.setIssued l n).plat = s.plat := rfl
@[simp] theorem State.setHeld_plat (s : State) (q : Source) (l : Level) (ts : List Nat) : (s.setHeld q l ts).plat = s.plat := rfl
@[simp] theorem State.giveBack_plat (s : State) (l : Level) : (s.giveBack l).plat = s.plat := rfl
@[simp] theorem State.answered_plat (s : State) (r : Req) (x : AccResult) : (s.answered r x).plat = s.plat := rfl
@[simp] theorem State.forget_plat (s : State) (id : Nat) : (s.forget id).plat = s.plat := rfl
@[simp] theorem State.withdrawn_plat (s : State) (id : Nat) : (s.withdrawn id).plat = s.plat := rfl
@[simp] theorem State.dropRefused_plat (s : State) (p : Req → Bool) : (s.dropRefused p).plat = s.plat := rfl

@[simp] theorem State.dropReq_plat (s : State) (id : Nat) : (s.dropReq id).plat = s.plat := by
  unfold State.dropReq
  split
  · exact foldl_keeps State.plat _ (fun t l => t.giveBack_plat l) _ s
  · rfl

@[simp] theorem State.reply_plat (s : State) (id : Nat) (x : AccResult) : (s.reply id x).plat = s.plat := by
  unfold State.reply
  split <;> rfl

@[simp] theorem State.answerAll_plat (s : State) (p : Req → Bool) (x : AccResult) : (s.answerAll p x).plat = s.plat := by
  simp [State.answerAll]

@[simp] theorem State.withdraw_plat (s : State) (p : Req → Bool) : (s.withdraw p).plat = s.plat :=
  foldl_keeps State.plat _ State.withdrawn_plat _ s

@[simp] theorem State.returnHeld_plat (s : State) (p : Source → Bool) : (s.returnHeld p).plat = s.plat := by
  simp [State.returnHeld]

@[simp] theorem State.unitQuit_plat (s : State) (p : Who → Bool) : (s.unitQuit p).plat = s.plat := by
  refine foldl_keeps State.plat _ (fun t e => ?_) s.reqs s
  split
  · split
    · rfl
    · split <;> simp
  · rfl

/-! Stands and launches. -/

@[simp] theorem State.worked_plat (s : State) : s.worked.plat = s.plat := rfl
@[simp] theorem State.finFlight_plat (s : State) (n addr status : Nat) (d : W64) : (s.finFlight n addr status d).plat = s.plat := rfl

@[simp] theorem State.launchDone_plat (s : State) (lid : Nat) : (s.launchDone lid).plat = s.plat := by
  unfold State.launchDone
  split <;> simp

@[simp] theorem State.launchesCheck_plat (s : State) : s.launchesCheck.plat = s.plat := by
  simp [State.launchesCheck]

@[simp] theorem State.freeStand_plat (s : State) (die tile slot : Nat) : (s.freeStand die tile slot).plat = s.plat := by
  unfold State.freeStand
  dsimp only
  split <;> simp

@[simp] theorem State.tryBar_plat (s : State) (c : CrewId) (stand n : Nat) : (s.tryBar c stand n).plat = s.plat := by
  simp [State.tryBar]

@[simp] theorem State.tryBars_plat (s : State) (c : CrewId) (stand : Nat) : (s.tryBars c stand).plat = s.plat := by
  simp [State.tryBars]

@[simp] theorem State.logCopyErr_plat (s : State) (c : CrewId) (cause : Nat) (d : W64) : (s.logCopyErr c cause d).plat = s.plat := by
  unfold State.logCopyErr
  split <;> simp

@[simp] theorem State.crewGone_plat (s : State) (c : CrewId) : (s.crewGone c).plat = s.plat := by
  unfold State.crewGone
  split <;> simp

@[simp] theorem State.killStand_plat (s : State) (die tile stand : Nat) : (s.killStand die tile stand).plat = s.plat := by
  simp [State.killStand]

@[simp] theorem State.loseStands_plat (s : State) (die tile : Nat) : (s.loseStands die tile).plat = s.plat := by
  simp [State.loseStands]

/-! Copy plans of the die's engine. -/

@[simp] theorem State.dropPlan_plat (s : State) (die cid : Nat) : (s.dropPlan die cid).plat = s.plat := rfl

@[simp] theorem State.chunkBack_plat (s : State) (o : OutChunk) : (s.chunkBack o).plat = s.plat := by
  unfold State.chunkBack
  split <;> rfl

@[simp] theorem State.putMem_plat (s : State) (line : Nat) (l : Line) : (s.putMem line l).plat = s.plat := by
  simp [State.putMem]

@[simp] theorem State.setLineSlice_plat (s : State) (line : Nat) (v : Slice) : (s.setLineSlice line v).plat = s.plat := rfl

@[simp] theorem State.poke_plat (s : State) (line o n d : Nat) : (s.poke line o n d).plat = s.plat := by
  simp [State.poke]

@[simp] theorem State.ruin_plat (s : State) (die space va n : Nat) : (s.ruin die space va n).plat = s.plat := by
  refine foldl_keeps State.plat _ (fun t e => ?_) _ s.drawn
  split
  · split <;> simp
  · rfl

@[simp] theorem State.planError_plat (s : State) (die cid cause : Nat) : (s.planError die cid cause).plat = s.plat := by
  unfold State.planError
  split <;> simp

/-! Links of the die, whose messages fail over. -/

@[simp] theorem State.ridgeSend_plat (s : State) (l : Nat) (m : RMsg) : (s.ridgeSend l m).plat = s.plat := rfl
@[simp] theorem State.endWatch_plat (s : State) (line : Nat) : (s.endWatch line).plat = s.plat := rfl
@[simp] theorem State.toSt_plat (s : State) (a line : Nat) (st : ASt) : (s.toSt a line st).plat = s.plat := rfl
@[simp] theorem State.coreValue_plat (s : State) (core : Nat) (v : W64) : (s.coreValue core v).plat = s.plat := rfl

@[simp] theorem State.respond_plat (s : State) (src req line : Nat) (a : RAns) : (s.respond src req line a).plat = s.plat := by
  unfold State.respond
  split <;> rfl

@[simp] theorem State.corePut_plat (s : State) (core : Nat) (off : Option Nat) (n : Nat) (v : W64) : (s.corePut core off n v).plat = s.plat := by
  unfold State.corePut
  split <;> rfl

@[simp] theorem State.loseResv_plat (s : State) (a line : Nat) : (s.loseResv a line).plat = s.plat := by
  simp [State.loseResv]

@[simp] theorem State.loseLine_plat (s : State) (a line : Nat) : (s.loseLine a line).plat = s.plat := by
  unfold State.loseLine
  repeat' split
  all_goals simp

@[simp] theorem State.unreached_plat (s : State) (a line : Nat) : (s.unreached a line).plat = s.plat := by
  simp [State.unreached]

@[simp] theorem State.goesNoFurther_plat (s : State) (m : RMsg) : (s.goesNoFurther m).plat = s.plat := by
  unfold State.goesNoFurther
  repeat' split
  all_goals simp

@[simp] theorem State.failoverOne_plat (s : State) (l : Nat) (e : Nat × Nat × RMsg) : (s.failoverOne l e).plat = s.plat := by
  unfold State.failoverOne
  dsimp only
  repeat' split
  all_goals simp

@[simp] theorem State.failover_plat (s : State) (l : Nat) : (s.failover l).plat = s.plat := by
  simp [State.failover]

@[simp] theorem State.linkState_plat (s : State) (l : Nat) (v : Link) : (s.linkState l v).plat = s.plat := by
  simp [State.linkState]

@[simp] theorem State.linkDown_plat (s : State) (l : Nat) : (s.linkDown l).plat = s.plat := by
  simp [State.linkDown]

/-! Activities. -/

@[simp] theorem State.endAct_plat (s : State) (a : Act) (status : Nat) (result : List Byte) : (s.endAct a status result).plat = s.plat := by
  unfold State.endAct
  dsimp only
  split <;> simp

@[simp] theorem State.failActs_plat (s : State) (p : Act → Bool) : (s.failActs p).plat = s.plat := by
  simp [State.failActs]

/-! The reset of a die, its end, and the die's loss (R300–R302). -/

theorem State.resetDie_plat (s : State) (n : Nat) : (s.resetDie n).plat =
    { s.plat with resetting := if s.plat.resetting.contains n then s.plat.resetting else s.plat.resetting ++ [n] } := by
  unfold State.resetDie
  split <;> simp

theorem State.resetDone_plat (s : State) (n kind : Nat) :
    (s.resetDone n kind).plat = { s.plat with resetting := s.plat.resetting.erase n } := by
  simp [State.resetDone]

theorem State.dieGone_lostC (s : State) (n kind : Nat) : (s.dieGone n kind).plat.lostC = s.plat.lostC ++ [n] := by
  unfold State.dieGone
  dsimp only
  split <;> simp [State.resetDone_plat, State.resetDie_plat]

theorem State.dieGone_lostF (s : State) (n kind : Nat) : (s.dieGone n kind).plat.lostF = s.plat.lostF := by
  unfold State.dieGone
  dsimp only
  split <;> simp [State.resetDone_plat, State.resetDie_plat]

end Sys2Proof.Machine
end

section
/-! SUPPORT. A lost tile or die, a patrol scrub visit, and the permanent action of each row of Table 18.5. -/

namespace Sys2Proof.Machine

/-! Lost tiles and dies (R301–R304). -/

section
variable {s : State} {die : Nat}

theorem exec_serviceClockStop (hserves : s.serves = true) (hdie : die < 4) (hthere : s.plat.lostC.contains die = false) :
    exec (.serviceClockStop die) s = .next (({ s with plat := { s.plat with
      stopped := if s.plat.stopped.contains die then s.plat.stopped else s.plat.stopped ++ [die] } } : State).resetDie die) := by
  have he : exec (.serviceClockStop die) s = execServiceClockStop die s := rfl
  rw [he, execServiceClockStop, when_of_true (by rw [hserves, decide_eq_true hdie, hthere]; rfl)]

theorem exec_computeDieLost (hserves : s.serves = true) (hstopped : s.plat.stopped.contains die = true)
    (hreset : s.plat.resetting.contains die = false) (hthere : s.plat.lostC.contains die = false) :
    exec (.computeDieLost die) s = .next (s.dieGone die 1) := by
  have he : exec (.computeDieLost die) s = execComputeDieLost die s := rfl
  rw [he, execComputeDieLost, when_of_true (by rw [hserves, hstopped, hreset, hthere]; rfl)]

theorem exec_tileLost {tile : Nat} (hserves : s.serves = true) (hlive : s.dieLive die = true) (htile : tile < 68)
    (hworks : (s.tile die tile).retired = false) :
    exec (.tileLost die tile) s = .next (((s.tileGone die tile).logEv 0x0005 die 3 [tile, (s.tile die tile).stands.length]).failActs
      (fun a => a.code == 7 && a.die == die && a.t4 == tile && a.begun)) := by
  have he : exec (.tileLost die tile) s = execTileLost die tile s := rfl
  rw [he, execTileLost, when_of_true (by simp [hserves, hlive, htile, hworks])]

/-- The state in which a lost foundation die is isolated: severed, its accesses answered, its homes gone, its translations dropped. -/
def State.isolated (s : State) (die : Nat) : State :=
  let s1 := (List.range 3).foldl (fun (t : State) k => t.sever (3 * die + k)) s
  let s3 := (s1.answerAll (fun r => s1.isMem r.pa && decide (s1.homeDie r.pa = die)) .poison).homesGone die
  ({ s3 with
    plat := { s3.plat with lostF := s3.plat.lostF ++ [die] }
    xlt := { s3.xlt with
      mc := s3.xlt.mc.filter (fun e => decide (e.1 / 1024 ≠ die)), mcPlru := s3.xlt.mcPlru.filter (fun e => decide (e.1 / 128 ≠ die)) } } :
    State).withdraw (fun r => r.who.pair == some die)

theorem State.mem_isolated_lostF (s : State) (die : Nat) : die ∈ (s.isolated die).plat.lostF := by
  simp [State.isolated]

/-- The compute die of a lost foundation die is lost with it (R302): a report says so for one that was lost already. -/
def State.pairGone (s : State) (die : Nat) : State :=
  if s.plat.lostC.contains die then (s.logEv 0x000A (8 + die) 3 [2, 0, 0]).raise (72 + die) else s.dieGone die 2

theorem State.mem_pairGone_lostC (s : State) (die : Nat) : die ∈ (s.pairGone die).plat.lostC := by
  unfold State.pairGone
  split
  case isTrue h => simpa using h
  case isFalse => simp [State.dieGone_lostC]

theorem State.pairGone_lostF (s : State) (die : Nat) : (s.pairGone die).plat.lostF = s.plat.lostF := by
  unfold State.pairGone
  split
  · simp
  · exact s.dieGone_lostF die 2

theorem exec_foundationLost (hserves : s.serves = true) (hdie : die < 4) (hthere : s.plat.lostF.contains die = false) :
    exec (.foundationLost die) s = .next (((s.isolated die).pairGone die).failActs (fun a => a.begun && a.onDie die true)) := by
  have he : exec (.foundationLost die) s = execFoundationLost die s := rfl
  rw [he, execFoundationLost, when_of_true (by rw [hserves, decide_eq_true hdie, hthere]; rfl), State.pairGone, State.isolated]

end

/-! Patrol scrub (R283). -/

/-- A channel after a visit: an early visit leaves the list, any other moves the position on. -/
def Chan.visited (c : Chan) (chan : Nat) : Chan :=
  if c.early.isEmpty then { c with scrub := (c.scrub + 1) % chanUnits (if 96 ≤ chan then 3 else chan / 32) } else { c with early := c.early.tail }

/-- A place lies in a unit of a physical channel. -/
def State.inUnit (s : State) (die chan unit : Nat) (q : Place) : Bool :=
  decide (q.die = die) && decide (s.chanOf q = chan) && decide (q.unit = unit)

theorem exec_patrolScrubVisit {s u : State} {die chan unit : Nat} (hserves : s.serves = true) (hmem : s.plat.memUp = true) (hdie : die < 4)
    (hchan : chan < 112) (hthere : s.plat.lostF.contains die = false) (hflight : s.inFlight die chan unit = false)
    (htrained : (s.chan die chan).retrain = false) (hunit : unit = ((s.chan die chan).early.head?).getD (s.chan die chan).scrub)
    (hu : u = s.setChan die chan ((s.chan die chan).visited chan)) (crc : List (Nat × Nat)) :
    exec (.patrolScrubVisit die chan unit crc) s =
      .next ((u.visitCrc (u.inUnit die chan unit) crc).scrubWhere (u.inUnit die chan unit)).1 := by
  subst hu
  have he : exec (.patrolScrubVisit die chan unit crc) s = execPatrolScrubVisit die chan unit crc s := rfl
  rw [he, execPatrolScrubVisit, when_of_true (by
    rw [hserves, hmem, decide_eq_true hdie, decide_eq_true hchan, hthere, hflight, htrained, ← hunit, beq_self_eq_true]; rfl)]
  rfl

theorem Chan.visited_early {c : Chan} {unit : Nat} {rest : List Nat} (h : c.early = unit :: rest) (chan : Nat) :
    c.visited chan = { c with early := rest } := by
  simp [Chan.visited, h]

theorem Chan.visited_next {c : Chan} (h : c.early = []) (chan : Nat) :
    c.visited chan = { c with scrub := (c.scrub + 1) % chanUnits (if 96 ≤ chan then 3 else chan / 32) } := by
  simp [Chan.visited, h]

/-! Threshold crossings (R432, Table 18.5). -/

theorem exec_thresholdCrossed {s : State} {row die obj count : Nat} (hserves : s.serves = true) (hobj : objectOk row die obj = true)
    (hleast : rowLeast row ≤ count) : exec (.thresholdCrossed row die obj count) s =
      .next ((s.permanent row die obj).logEv 0x0004 (if row ≤ 4 then 8 + die else if row = 10 then 4 else die) 2
        [row, obj, count, if (s.permanent row die obj).actNum = s.actNum then 0 else s.actNum + 1]) := by
  have he : exec (.thresholdCrossed row die obj count) s = execThresholdCrossed row die obj count s := rfl
  rw [he, execThresholdCrossed, when_of_true (by simp [hserves, hobj, hleast])]

section
variable {s : State} {row die obj : Nat}

theorem State.permanent_channel (h : row ∈ [0, 1]) : s.permanent row die obj = s.chanFaulty die obj := by
  simp only [List.mem_cons, List.not_mem_nil, or_false] at h
  rcases h with rfl | rfl <;> rfl

theorem State.chanFaulty_of_spare (h : (s.chan die obj).state = 3) :
    s.chanFaulty die obj = (s.chanState die obj 6 (s.chan die obj).logical).flagF die := by
  simp [State.chanFaulty, h]

theorem State.chanFaulty_evacuates (hstate : (s.chan die obj).state = 0)
    (hidle : s.spareIdle die (if 96 ≤ obj then 3 else obj / 32) = true) :
    s.chanFaulty die obj = s.firmAct 5 die (if 96 ≤ obj then 3 else obj / 32) (s.chan die obj).logical := by
  simp [State.chanFaulty, hstate, hidle]

/-- A group's first two retrainings within 24 hours are the whole action; LPDDR5X is a group of its own. -/
theorem State.permanent_retrains_lpddr {u : State} (hobj : 96 ≤ obj) (hu : u = (s.window 2 (die * 4 + 3)).firmAct 3 die 0 0)
    (hfew : u.tally.window24 2 (die * 4 + 3) < 3) : s.permanent 2 die obj = u := by
  subst hu
  simp [State.permanent, hobj, Nat.not_le.2 hfew]

theorem State.permanent_retrains_hbm {u : State} (hobj : obj < 96)
    (hu : u = (s.window 2 (die * 4 + obj / 32)).firmAct 2 die (obj / 32) 0) (hfew : u.tally.window24 2 (die * 4 + obj / 32) < 3) :
    s.permanent 2 die obj = u := by
  subst hu
  have hstack : obj / 32 ≠ 3 := by omega
  simp [State.permanent, Nat.not_le.2 hobj, hstack, Nat.not_le.2 hfew]

theorem State.permanent_way (h : 16 ≤ (s.slice die (obj / 16)).errors (obj % 16)) :
    s.permanent 3 die obj = s.disableWay die (obj / 16) (obj % 16) := State.wayLimit_of_le h

theorem State.permanent_tile (hretired : (s.tile die obj).retired = false) (hretiring : (s.tile die obj).retiring = false) :
    s.permanent 5 die obj = s.firmAct 7 die obj 0 := by
  simp [State.permanent, hretired, hretiring]

theorem State.permanent_link (h : (s.link obj).state ≠ 5) : s.permanent 8 die obj = s.linkRetire obj := if_neg h

theorem State.permanent_sensor {k : Nat} (hk : k = sensorNum die obj) : s.permanent 9 die obj = ({ s with tally := { s.tally with
    excluded := if k ∈ s.tally.excluded then s.tally.excluded else s.tally.excluded ++ [k] } } : State).firmAct 8 die 0 0 := by
  subst hk
  simp [State.permanent]

end

end Sys2Proof.Machine
end

section
/-! The obligation about lost tiles and dies, patrol scrub and threshold crossings. -/

namespace Sys2Proof.Machine

/-- Settles O37, each clause by what its command does and each threshold by the branch of its row. That a Col module's crossing only logs,
how the objects of a row are numbered, and a row's least count are log entry 49. -/
theorem dieLossAndThresholdsComplete : Obligations.DieLossAndThresholdsComplete := by
  unfold Obligations.DieLossAndThresholdsComplete
  refine ⟨fun s die hserves hdie hthere => ?clock, fun s die hserves hstopped hreset hthere => ?compute,
    fun s die tile hserves hlive htile hworks => exec_tileLost hserves hlive htile hworks, fun s die hserves hdie hthere => ?foundation,
    fun s u die chan unit crc c d p hserves hmem hdie hchan hthere hflight hc htrained hu hp => ?scrub,
    fun s u row die obj count k hserves hobj hleast hk hrow => ?threshold⟩
  case clock =>
    refine ⟨_, ⟨?_, fun x hx => ?_⟩, exec_serviceClockStop hserves hdie hthere⟩
    · split
      case isTrue h => simpa using h
      case isFalse => simp
    · split at hx
      · exact .inr hx
      · simpa [or_comm] using hx
  case compute =>
    exact ⟨exec_computeDieLost hserves hstopped hreset hthere, by simp [State.dieGone_lostC]⟩
  case foundation =>
    refine ⟨_, exec_foundationLost hserves hdie hthere, ?_, ?_⟩
    · rw [State.failActs_plat, State.pairGone_lostF]
      exact s.mem_isolated_lostF die
    · rw [State.failActs_plat]
      exact State.mem_pairGone_lostC _ die
  case scrub =>
    subst hc hp
    have hvisit := exec_patrolScrubVisit (u := u) hserves hmem hdie hchan hthere hflight htrained
    refine ⟨fun rest hearly hd => ?_, fun hearly hunit hd => ?_⟩
    · exact hvisit (by rw [hearly]; rfl) (by rw [hu, hd, Chan.visited_early hearly]) crc
    · exact hvisit (by rw [hearly]; exact hunit) (by rw [hu, hd, Chan.visited_next hearly]) crc
  case threshold =>
    suffices h : s.permanent row die obj = u by rw [exec_thresholdCrossed hserves hobj hleast, h]
    rcases hrow with ⟨hrow, rfl⟩ | ⟨hrow, hstate, rfl⟩ | ⟨hrow, hstate, hidle, rfl⟩ | ⟨rfl, hgroup, hu, hfew⟩ | ⟨rfl, hgroup, hu, hfew⟩ |
      ⟨rfl, herrs, rfl⟩ | ⟨rfl, rfl⟩ | ⟨rfl, hretired, hretiring, rfl⟩ | ⟨rfl, rfl⟩ | ⟨rfl, hlink, rfl⟩ | ⟨rfl, rfl⟩
    case inl =>
      simp only [List.mem_cons, List.not_mem_nil, or_false] at hrow
      rcases hrow with rfl | rfl <;> rfl
    · rw [State.permanent_channel hrow, State.chanFaulty_of_spare hstate]
    · rw [State.permanent_channel hrow, State.chanFaulty_evacuates hstate hidle]
    · exact State.permanent_retrains_lpddr hgroup hu hfew
    · exact State.permanent_retrains_hbm hgroup hu hfew
    · exact State.permanent_way herrs
    · rfl
    · exact State.permanent_tile hretired hretiring
    · rfl
    · exact State.permanent_link hlink
    · exact State.permanent_sensor hk

end Sys2Proof.Machine
end

section
/-! SUPPORT. A coherence message that its home or its agent takes, and what a home does with a request for a free and for a busy line. -/

namespace Sys2Proof.Machine

/-! Ends that may take part (R221). -/

theorem State.partOf_of_home {a : Nat} (h : a = 0x7F) (s : State) (line : Nat) : s.partOf line a = true := by
  rw [h]
  rfl

theorem State.partOf_of_ownAgent {s : State} {a : Nat} (h : s.ownAgent a = true) (line : Nat) : s.partOf line a = true := by
  rw [State.partOf, h, Bool.or_true, Bool.true_or]

/-! Messages taken (R229). -/

section
variable {s : State} {m : CMsg} (hfirst : s.msgs.find? (sameFlow m) = some m) (hserves : s.serves = true) (hsrc : s.partOf m.line m.src = true)
include hfirst hserves hsrc

/-- The first message of its flow, with both ends taking part, is acted on without it. -/
theorem State.onMsg_takes {ok : Bool} (hdst : s.partOf m.line m.dst = true) (hok : ok = true) (f : State → State) :
    s.onMsg m ok f = .next (f { s with msgs := s.msgs.erase m }) := by
  rw [State.onMsg, State.takeMsg, if_pos hfirst]
  exact when_of_true (by rw [hserves, hok, hsrc, hdst]; rfl) _ s

/-- A request of an agent that is not dead; that agent has nothing to rejoin. -/
theorem State.homeMsg_takes {op : MsgOp} (hop : m.op = op) (hdst : m.dst = 0x7F) (hhome : s.homeHere m.line = true) (hlive : m.src ∉ s.dead)
    (errs : AccErrs) : s.homeMsg op m errs = .next (({ s with msgs := s.msgs.erase m } : State).homeStep (.msg { m with errs := errs })) := by
  have hdead : s.dead.contains m.src = false := by simpa using hlive
  have hrejoined : s.rejoined m.src = false := by rw [State.rejoined, hdead, Bool.false_and, Bool.false_and, Bool.false_and]
  rw [State.homeMsg, State.onMsg_takes hfirst hserves hsrc (State.partOf_of_home hdst _ _) (by simp [hop, hdst, hhome, hlive]), hrejoined]
  rfl

theorem State.agentMsg_takes {ok : Bool} (hown : s.ownAgent m.dst = true) (hlive : m.dst ∉ s.dead) (hroom : s.fqFull m.dst m = false)
    (hok : ok = true) (f : State → State) : s.agentMsg m ok f = .next (f { s with msgs := s.msgs.erase m }) :=
  State.onMsg_takes hfirst hserves hsrc (State.partOf_of_ownAgent hown _) (by simp [hok, hown, hlive, hroom]) f

/-- An answer that a home waits for. -/
theorem State.onMsg_atHome {op : MsgOp} (hop : m.op = op) (hdst : m.dst = 0x7F) (hhome : s.homeHere m.line = true) (f : State → State) :
    s.onMsg m (decide (m.op = op) && decide (m.dst = 0x7F) && s.homeHere m.line) f = .next (f { s with msgs := s.msgs.erase m }) :=
  State.onMsg_takes hfirst hserves hsrc (State.partOf_of_home hdst _ _) (by rw [decide_eq_true hop, decide_eq_true hdst, hhome]; rfl) f

end

/-! The commands, each as the message it takes. -/

section
variable (m : CMsg) (s : State)

theorem exec_rds (x : AccErrs) : exec (.rds m x) s = s.homeMsg .rds m x := rfl
theorem exec_rdw (x : AccErrs) : exec (.rdw m x) s = s.homeMsg .rdw m x := rfl
theorem exec_rdu (x : AccErrs) : exec (.rdu m x) s = s.homeMsg .rdu m x := rfl
theorem exec_upg (x : AccErrs) : exec (.upg m x) s = s.homeMsg .upg m x := rfl
theorem exec_vicd : exec (.vicd m) s = s.homeMsg .vicd m := rfl
theorem exec_vicc : exec (.vicc m) s = s.homeMsg .vicc m := rfl
theorem exec_fwds : exec (.fwds m) s = s.agentMsg m (decide (m.op = .fwds)) (fun t => t.agentSnoop m.dst m) := rfl
theorem exec_fwdu : exec (.fwdu m) s = s.agentMsg m (decide (m.op = .fwdu)) (fun t => t.agentSnoop m.dst m) := rfl
theorem exec_inv : exec (.inv m) s = s.agentMsg m (decide (m.op = .inv)) (fun t => t.agentSnoop m.dst m) := rfl
theorem exec_cur : exec (.cur m) s = s.agentMsg m (decide (m.op = .cur)) (fun t => t.agentSnoop m.dst m) := rfl
theorem exec_rcl : exec (.rcl m) s = s.agentMsg m (decide (m.op = .rcl)) (fun t => t.agentSnoop m.dst m) := rfl
theorem exec_dataReceive : exec (.dataReceive m) s = s.agentMsg m (decide (m.op = .datas) || decide (m.op = .datae) || decide (m.op = .datau))
    (fun t => t.agentRecv m.dst m) := rfl
theorem exec_cmp : exec (.cmp m) s = s.agentMsg m (decide (m.op = .cmp)) (fun t => t.agentRecv m.dst m) := rfl
theorem exec_vcmp : exec (.vcmp m) s = s.agentMsg m (decide (m.op = .vcmp)) (fun t => t.agentRecv m.dst m) := rfl

variable {m}

theorem exec_invack_atAgent (h : m.dst ≠ 0x7F) :
    exec (.invack m) s = s.agentMsg m (decide (m.op = .invack)) (fun t => t.agentRecv m.dst m) := by
  have he : exec (.invack m) s = execInvack m s := rfl
  rw [he, execInvack, if_neg h]

end

/-! Answers at the home of a busy line (R233, R235). -/

section
variable {s u : State} {m : CMsg} (hfirst : s.msgs.find? (sameFlow m) = some m) (hu : u = { s with msgs := s.msgs.erase m })
  (hserves : s.serves = true) (hdst : m.dst = 0x7F) (hhome : s.homeHere m.line = true) (hsrc : s.partOf m.line m.src = true)
include hfirst hu hserves hdst hhome hsrc

theorem exec_invack_atHome (hop : m.op = .invack) : exec (.invack m) s = .next (u.homeAck m.line m.src) := by
  have he : exec (.invack m) s = execInvack m s := rfl
  rw [he, execInvack, if_pos hdst, State.onMsg_takes hfirst hserves hsrc (State.partOf_of_home hdst _ _) (by rw [decide_eq_true hop, hhome]; rfl), hu]

theorem exec_fwddone_awaited {b : Busy} (hop : m.op = .fwddone) (hbusy : u.busyRec m.line = some b) (hdue : b.due = some m.src) :
    exec (.fwddone m) s = .next ((u.setBusyRec m.line (some { b with due := none })).busyDone m.line) := by
  have he : exec (.fwddone m) s = execFwddone m s := rfl
  rw [he, execFwddone, State.onMsg_atHome hfirst hserves hsrc hop hdst hhome, ← hu]
  simp only [hbusy, hdue, if_true]

theorem exec_wbd_taken {t : State} (hop : m.op = .wbd) (ht : u.homeData? m.line m.src (some m.line') = some t) :
    exec (.wbd m) s = .next t := by
  have he : exec (.wbd m) s = execWbd m s := rfl
  rw [he, execWbd, State.onMsg_atHome hfirst hserves hsrc hop hdst hhome, ← hu, ht, Option.getD_some]

theorem exec_rspi_taken {t : State} (hop : m.op = .rspi) (ht : u.homeData? m.line m.src none = some t) : exec (.rspi m) s = .next t := by
  have he : exec (.rspi m) s = execRspi m s := rfl
  rw [he, execRspi, State.onMsg_atHome hfirst hserves hsrc hop hdst hhome, ← hu, ht, Option.getD_some]

theorem exec_cack_awaited {b : Busy} {q : CMsg} {x : Option CMsg} (hop : m.op = .cack) (hbusy : u.busyRec m.line = some b)
    (hwhy : b.why = .coherent q x) (hq : q.src = m.src) :
    exec (.cack m) s = .next ((u.setBusyRec m.line (some { b with cack := false })).busyDone m.line) := by
  have he : exec (.cack m) s = execCack m s := rfl
  rw [he, execCack, State.onMsg_atHome hfirst hserves hsrc hop hdst hhome, ← hu]
  simp only [hbusy, hwhy, hq, if_true]

end

/-! A request at its home (R231, R235). -/

section
variable {u : State} {m : CMsg}

theorem State.homeStep_msg_of_busy {b : Busy} (h : u.busyRec m.line = some b) : u.homeStep (.msg m) =
    if 256 ≤ (u.waitOf m.line).length then u.bounce m else u.setWaitOf m.line (u.waitOf m.line ++ [.msg m]) :=
  State.homeStep_of_busy (w := .msg m) (by rw [State.lineOf, h]; rfl)

/-- An action that would leave more than 64 lines busy at the home is refused instead. -/
theorem State.homeStep_msg_of_free (hbusy : u.busyRec m.line = none) (hhost : hostLine m.line = false)
    (hwait : ∀ x ∈ u.waitOf m.line, u.lineOf x ≠ m.line) (hfill : ∀ f ∈ (u.lineSlice m.line).fills, f.addr ≠ m.line) :
    u.homeStep (.msg m) = if ((u.coherentAct m).busyOf m.line).length ≤ 64 then u.coherentAct m else u.bounce m := by
  rw [State.homeStep_of_free (w := .msg m) hbusy hwait hhost hfill]
  simp only [State.lineOf, State.homeTry, State.homeAct, hhost, Bool.false_eq_true, false_or]

end

end Sys2Proof.Machine
end

section
/-! The obligation about coherence messages. -/

namespace Sys2Proof.Machine

/-- Settles O30: a message that may be taken is taken, and its home or agent does with it what the message's kind asks. -/
theorem coherenceMessagesComplete : Obligations.CoherenceMessagesComplete := by
  unfold Obligations.CoherenceMessagesComplete
  refine ⟨fun s u m x hfirst hu hserves hdst hhome hsrc hlive => ?requests, fun s u m hfirst hu hserves hown hlive hagent hsrc hroom => ?agent,
    fun s u m hfirst hu hserves hdst hhome hsrc => ?answers, fun u t m hbusy hhost hwait hfill ht => ?free,
    fun u m b hbusy => State.homeStep_msg_of_busy hbusy⟩
  case requests =>
    subst hu
    have htakes {op : MsgOp} (hop : m.op = op) (e : AccErrs) := State.homeMsg_takes hfirst hserves hsrc hop hdst hhome hlive e
    exact ⟨fun hop => (exec_rds m s x).trans (htakes hop x), fun hop => (exec_rdw m s x).trans (htakes hop x),
      fun hop => (exec_rdu m s x).trans (htakes hop x), fun hop => (exec_upg m s x).trans (htakes hop x),
      fun hop => (exec_vicd m s).trans (htakes hop {}), fun hop => (exec_vicc m s).trans (htakes hop {})⟩
  case agent =>
    subst hu
    have htakes {ok : Bool} (hok : ok = true) (f : State → State) := State.agentMsg_takes hfirst hserves hsrc hown hlive hroom hok f
    have hone {op : MsgOp} (hop : m.op = op) (f : State → State) := htakes (decide_eq_true hop) f
    exact ⟨fun hop => (exec_fwds m s).trans (hone hop _), fun hop => (exec_fwdu m s).trans (hone hop _),
      fun hop => (exec_inv m s).trans (hone hop _), fun hop => (exec_cur m s).trans (hone hop _),
      fun hop => (exec_rcl m s).trans (hone hop _), fun hop => (exec_dataReceive m s).trans (htakes (by simpa [or_assoc] using hop) _),
      fun hop => (exec_cmp m s).trans (hone hop _), fun hop => (exec_vcmp m s).trans (hone hop _),
      fun hop => (exec_invack_atAgent s hagent).trans (hone hop _)⟩
  case answers =>
    exact ⟨exec_invack_atHome hfirst hu hserves hdst hhome hsrc, fun b => exec_fwddone_awaited hfirst hu hserves hdst hhome hsrc,
      fun t => exec_wbd_taken hfirst hu hserves hdst hhome hsrc, fun t => exec_rspi_taken hfirst hu hserves hdst hhome hsrc,
      fun b q x => exec_cack_awaited hfirst hu hserves hdst hhome hsrc⟩
  case free =>
    subst ht
    exact State.homeStep_msg_of_free hbusy hhost hwait hfill

end Sys2Proof.Machine
end

section
/-! SUPPORT. Dead agents and their reclamation, and CXL.cache towards the host, branch by branch. -/

namespace Sys2Proof.Machine

/-! Silence makes agents dead (R244). -/

section
variable {s : State}

theorem exec_clusterHeartbeatTimeout {k : Nat} (hserves : s.serves = true) (hk : k < 8) (hsilent : alGet 0 s.beats k + 8000 ≤ s.now) :
    exec (.clusterHeartbeatTimeout k) s = .next (s.declareDead [s.agentId k]) := by
  have he : exec (.clusterHeartbeatTimeout k) s = execClusterHeartbeatTimeout k s := rfl
  rw [he, execClusterHeartbeatTimeout, when_of_true (by simp [hserves, hk, hsilent])]

theorem exec_packageHeartbeatTimeout {slot : Nat} (hserves : s.serves = true) (hset : s.coherentSet = true)
    (hmember : bitOf (s.cfg.cohSet.getD 0) slot = true) (hother : slot ≠ s.mySlot) (hsilent : alGet 0 s.beats (16 + slot) + 200000 ≤ s.now) :
    exec (.packageHeartbeatTimeout slot) s = .next (s.declareDead ((List.range 9).map (fun k => slot * 16 + k))) := by
  have he : exec (.packageHeartbeatTimeout slot) s = execPackageHeartbeatTimeout slot s := rfl
  rw [he, execPackageHeartbeatTimeout, when_of_true (by simp [hserves, hset, hmember, hother, hsilent])]

/-- Outside board-coherent mode a notice goes to the homes and agents of this package alone. -/
theorem State.declareDead_alone {a : Nat} (hlive : a ∉ s.dead) (hset : s.coherentSet = false) : s.declareDead [a] =
    { s with dead := a :: s.dead, notices := s.notices ++ ((a, 0x7F) :: (List.range 9).map (fun k => (a, s.agentId k))) } := by
  have hpeers : s.peers = [] := by rw [State.peers, hset]; rfl
  have hnew : [a].filter (fun a => !(s.dead.contains a)) = [a] := by simp [hlive]
  simp only [State.declareDead, State.noticesHere, hpeers, hnew, List.foldl_nil, List.flatMap_cons, List.flatMap_nil, List.append_nil,
    List.singleton_append]

/-! A cluster's reset (R246). -/

/-- A cluster with its agent's caches empty and its cores as they start. -/
def State.clusterCleared (s : State) (k : Nat) : State :=
  { s with agents := alPut s.agents (s.agentId k) ({} : Agent),
           cores := s.cores.map (fun (e : Nat × NCore) => (e.1, if e.1 / 8 = k then ({} : NCore) else e.2)) }

theorem exec_clusterReset_of_live {k : Nat} (hserves : s.serves = true) (hk : k < 8) (hlive : s.agentId k ∉ s.dead) :
    exec (.clusterReset k) s = .next (({ s.clusterCleared k with
      rejoin := if s.rejoin.contains (s.agentId k) then s.rejoin else s.rejoin ++ [s.agentId k] } : State).declareDead [s.agentId k]) := by
  have he : exec (.clusterReset k) s = execClusterReset k s := rfl
  have hdead : s.dead.contains (s.agentId k) = false := by simpa using hlive
  rw [he, execClusterReset, when_of_true (by simp [hserves, hk])]
  simp only [hdead, Bool.false_and, Bool.false_eq_true, if_false, State.clusterCleared]

theorem exec_clusterReset_of_reclaimed {k : Nat} (hserves : s.serves = true) (hk : k < 8) (hdead : s.agentId k ∈ s.dead)
    (hlogged : alFind s.reclaimed (s.agentId k) = none) (hnotice : (s.agentId k, 0x7F) ∉ s.notices) :
    exec (.clusterReset k) s = .next { s.clusterCleared k with dead := s.dead.filter (· != s.agentId k) } := by
  have he : exec (.clusterReset k) s = execClusterReset k s := rfl
  have hover : (s.dead.contains (s.agentId k) && (alFind s.reclaimed (s.agentId k)).isNone
      && !(s.notices.contains (s.agentId k, 0x7F))) = true := by simp [hdead, hlogged, hnotice]
  rw [he, execClusterReset, when_of_true (by simp [hserves, hk])]
  simp only [hover, if_true, State.clusterCleared]

/-! Notices and reclamation (R245). -/

theorem exec_deadNotice {agent dst : Nat} (hserves : s.serves = true) (hnotice : (agent, dst) ∈ s.notices) {u : State}
    (hu : u = { s with notices := s.notices.erase (agent, dst) }) : exec (.deadNotice agent dst) s = .next (if dst = 0x7F then u.reclaim agent
      else ((alGet ({} : Agent) u.agents dst).lines.map (·.1)).foldl (fun (t : State) l => t.tryFinish dst l) u) := by
  have he : exec (.deadNotice agent dst) s = execDeadNotice agent dst s := rfl
  rw [he, execDeadNotice, when_of_true (by simp [hserves, hnotice]), hu]

theorem exec_reclamationComplete {agent n : Nat} (hserves : s.serves = true) (hn : alFind s.reclaimed agent = some n) :
    exec (.reclamationComplete agent) s = .next (({ s with
      reclaimed := alDel s.reclaimed agent,
      rejoin := s.rejoin.filter (· != agent),
      dead := if agent ∈ s.rejoin then s.dead.filter (· != agent) else s.dead }).logEv 0x0009 4 1 [agent, n]) := by
  have he : exec (.reclamationComplete agent) s = execReclamationComplete agent s := rfl
  have hget : alGet 0 s.reclaimed agent = n := by rw [alGet, hn]; rfl
  rw [he, execReclamationComplete, when_of_true (by rw [hserves, hn]; rfl)]
  simp only [hget, List.contains_iff_mem]

/-! Host snoops (R197, R241). -/

theorem exec_hostSnoop {c : Instr} {half op : Nat} (hc : (c, op) ∈ [(.snpinv half, 0), (.snpdata half, 1), (.snpcur half, 2)]) :
    exec c s = s.hostSnoop op half := by
  simp only [List.mem_cons, Prod.mk.injEq, List.not_mem_nil, or_false] at hc
  rcases hc with ⟨rfl, rfl⟩ | ⟨rfl, rfl⟩ | ⟨rfl, rfl⟩ <;> rfl

theorem State.hostSnoop_received {half : Nat} (hruns : s.runs = true) (hport : s.plat.hpState = 1) (hhalf : half < 2 ^ 41) (op : Nat) :
    s.hostSnoop op half = .next ({ s with snoopQ := s.snoopQ ++ [(op, half)], snoopIn := s.snoopIn + 1 } : State).goSnoops :=
  when_of_true (by rw [hruns, decide_eq_true hport, decide_eq_true hhalf]; rfl) _ s

/-- A snoop that is alone in the order is applied as soon as its half is ready, which does not depend on the order. -/
theorem State.goSnoops_single {half : Nat} (hready : s.snoopReady half = true) (op n : Nat) :
    ({ s with snoopQ := [(op, half)], snoopIn := n } : State).goSnoops =
      ({ s with snoopQ := [(op, half)], snoopIn := n } : State).snoopAct op half := by
  have h : ({ s with snoopQ := [(op, half)], snoopIn := n } : State).snoopReady half = true := hready
  simp only [State.goSnoops, List.length_singleton, State.snoopsRun, h, if_true, ite_self]

/-! GO and data of a half (R240, R242). -/

section
variable {half : Nat} {h : HostLine} {d : D2H} (hruns : s.runs = true) (hline : alFind s.host (devLine half) = some h)
  (hd : h.d2h (half % 2) = some d)
include hruns hline hd

theorem exec_goReceive_of_request (g : Go) : exec (.goReceive half g) s = .next (
    if 4 ≤ d.op then s.evictGo half h d
    else if d.op = 3 then if g = .err then s.halfDone half
      { h.setHalf (half % 2) (h.half (half % 2)) (some { d with go := some g }) with line := markHalf h.line (half % 2) } else s
    else if g = .err then s.halfDone half
      { h.setHalf (half % 2) (if d.op = 0 then .s else .e) none with line := markHalf h.line (half % 2) }
    else if d.op = 2 then s.halfDone half (h.setHalf (half % 2) (goSt g) none)
    else { s with host := alPut s.host (devLine half) (h.setHalf (half % 2) (h.half (half % 2)) (some { d with go := some g })) }) := by
  have he : exec (.goReceive half g) s = execGoReceive half g s := rfl
  rw [he, execGoReceive, when_of_true hruns]
  simp only [hline, hd]

/-- GO of a request whose data has not come is kept until it has. -/
theorem exec_goReceive_before_data {g : Go} (hop : d.op ≤ 1) (hg : g ≠ .err) : exec (.goReceive half g) s = .next { s with
    host := alPut s.host (devLine half) (h.setHalf (half % 2) (h.half (half % 2)) (some { d with go := some g })) } := by
  rw [exec_goReceive_of_request hruns hline hd, if_neg (by omega), if_neg (by omega), if_neg hg, if_neg (by omega)]

theorem exec_goReceive_without_data {g : Go} (hop : d.op = 2) (hg : g ≠ .err) :
    exec (.goReceive half g) s = .next (s.halfDone half (h.setHalf (half % 2) (goSt g) none)) := by
  rw [exec_goReceive_of_request hruns hline hd, if_neg (by omega), if_neg (by omega), if_neg hg, if_pos hop]

/-- That a half refused by GO-Err is held all the same, with poisoned data, is log entry 15. -/
theorem exec_goReceive_err (hop : d.op ≤ 2) : exec (.goReceive half .err) s = .next (s.halfDone half
    { h.setHalf (half % 2) (if d.op = 0 then .s else .e) none with line := markHalf h.line (half % 2) }) := by
  rw [exec_goReceive_of_request hruns hline hd, if_neg (by omega), if_neg (by omega), if_pos rfl]

theorem exec_goReceive_eviction (hop : 4 ≤ d.op) (g : Go) : exec (.goReceive half g) s = .next (s.evictGo half h d) := by
  rw [exec_goReceive_of_request hruns hline hd, if_pos hop]

theorem exec_hostDataReceive_after_go {g : Go} (hop : d.op ≤ 1) (hgo : d.go = some g) (data : BitVec 512) (p : Bool) :
    exec (.hostDataReceive half data p) s = .next (s.halfDone half
      ({ h with line := putHalf h.line (half % 2) data.toNat p }.setHalf (half % 2) (goSt g) none)) := by
  have he : exec (.hostDataReceive half data p) s = execHostDataReceive half data p s := rfl
  rw [he, execHostDataReceive, when_of_true hruns]
  simp only [hline, hd, hgo, hop, show d.op ≠ 3 by omega, if_false, if_true]

theorem exec_hostDataReceive_rdCurr (hop : d.op = 3) (data : BitVec 512) (p : Bool) :
    exec (.hostDataReceive half data p) s = .next (s.halfDone half
      ({ h with line := putHalf h.line (half % 2) data.toNat p }.setHalf (half % 2) (h.half (half % 2)) (some { d with go := some .grantS }))) := by
  have he : exec (.hostDataReceive half data p) s = execHostDataReceive half data p s := rfl
  rw [he, execHostDataReceive, when_of_true hruns]
  simp only [hline, hd, hop, if_true]

end

/-! Eviction of a host line (R243). -/

theorem exec_hostLineEvict {line : Nat} {h : HostLine} (hserves : s.serves = true) (hline : alFind s.host line = some h) (h0 : h.d0 = none)
    (h1 : h.d1 = none) (hwait : h.waiters = []) (hbusy : s.busyRec line = none) :
    exec (.hostLineEvict line) s = .next (s.snoopAct 3 (hostHalf line 0)) := by
  have he : exec (.hostLineEvict line) s = execHostLineEvict line s := rfl
  rw [he, execHostLineEvict, when_of_true (by simp [hserves, hline, h0, h1, hwait, hbusy])]

end

end Sys2Proof.Machine
end

section
/-! The obligation about dead agents and the host's cache messages. -/

namespace Sys2Proof.Machine

/-- Settles O31, clause by clause, each by the branch of the command that its hypotheses select. That a half is held after GO-Err, with its
sectors poisoned, is log entry 15. -/
theorem deadAgentsAndHostComplete : Obligations.DeadAgentsAndHostComplete := by
  unfold Obligations.DeadAgentsAndHostComplete
  refine ⟨fun s k hserves hk hsilent => exec_clusterHeartbeatTimeout hserves hk hsilent,
    fun s slot hserves hset hmember hother hsilent => exec_packageHeartbeatTimeout hserves hset hmember hother hsilent,
    fun s a hlive hset => State.declareDead_alone hlive hset, fun s u k a hserves hk ha hu => ?reset,
    fun s u agent dst hserves hnotice hu => exec_deadNotice hserves hnotice hu,
    fun s agent n hserves hn => exec_reclamationComplete hserves hn, fun s half op c hruns hport hhalf hc => ?snoop,
    fun s half g h d hruns hline hd => ?go, fun s half data p h d hruns hline hd => ?data,
    fun s line h hserves hline h0 h1 hwait hbusy => exec_hostLineEvict hserves hline h0 h1 hwait hbusy⟩
  case reset =>
    subst ha hu
    exact ⟨exec_clusterReset_of_live hserves hk, exec_clusterReset_of_reclaimed hserves hk⟩
  case snoop =>
    rw [exec_hostSnoop hc, State.hostSnoop_received hruns hport hhalf]
    refine ⟨rfl, fun hempty hready _ => ?_⟩
    rw [hempty, List.nil_append, State.goSnoops_single hready]
  case go =>
    refine ⟨exec_goReceive_before_data hruns hline hd, exec_goReceive_without_data hruns hline hd, fun hop hg => ?_,
      fun hop => exec_goReceive_eviction hruns hline hd hop g⟩
    subst hg
    exact exec_goReceive_err hruns hline hd hop
  case data =>
    exact ⟨fun g hop hgo => exec_hostDataReceive_after_go hruns hline hd hop hgo data p,
      fun hop => exec_hostDataReceive_rdCurr hruns hline hd hop data p⟩

end Sys2Proof.Machine
end

section
/-! SUPPORT. A miss, a walk and its leaf, the request ring, replies, fills and invalidations, branch by branch. -/

namespace Sys2Proof.Machine

/-! A miss (R257, R262). -/

/-- The entry of a page once a request merges into it. -/
def PEntry.merge (e : PEntry) (id : Nat) (r : Req) : PEntry :=
  { e with waiters := e.waiters ++ [id], need := e.need ||| BitVec.ofNat 3 r.kind.need, src := e.src ||| r.who.srcBit }

/-- The entry that the first request of a page takes. -/
def Req.firstEntry (r : Req) (id : Nat) : PEntry :=
  { st := .walk, space := r.space, page := r.page, need := BitVec.ofNat 3 r.kind.need, aperture := 0, waiters := [id],
    src := r.who.srcBit, cause := 0, level := 0, entry := 0, restart := false }

/-- A request waits in pending entry k, which now holds e. -/
def State.waitIn (s : State) (r : Req) (k : Nat) (e : PEntry) : State :=
  ({ s with xlt := { s.xlt with pend := alPut s.xlt.pend k e } }).setReq { r with stage := .pended k }

section
variable {s x : State} {id : Nat} {r : Req} (hserves : s.serves = true) (hreq : s.req id = some r) (hstage : r.stage = .xlat)
  (hmiss : s.look r.who.pair r.space r.va r.kind.need = (.miss, x))
include hserves hreq hstage hmiss

theorem exec_translationMiss_merges {k : Nat} {e : PEntry}
    (hpage : s.xlt.pend.find? (fun e => e.2.space == r.space && e.2.page == r.page) = some (k, e)) :
    exec (.translationMiss id) s = .next (s.waitIn r k (e.merge id r)) := by
  have hx : exec (.translationMiss id) s = execTranslationMiss id s := rfl
  rw [hx, execTranslationMiss, when_of_true hserves]
  simp only [hreq, hstage, hmiss, hpage]
  rfl

variable (hnew : s.xlt.pend.find? (fun e => e.2.space == r.space && e.2.page == r.page) = none)
include hnew

theorem exec_translationMiss_opens {k : Nat} (hfree : alFree s.xlt.pend 512 = some k) :
    exec (.translationMiss id) s = .next (s.waitIn r k (r.firstEntry id)) := by
  have hx : exec (.translationMiss id) s = execTranslationMiss id s := rfl
  rw [hx, execTranslationMiss, when_of_true hserves]
  simp only [hreq, hstage, hmiss, hnew, hfree]
  rfl

theorem exec_translationMiss_full (hfull : alFree s.xlt.pend 512 = none) :
    exec (.translationMiss id) s = .next (s.count (svc 3)) := by
  have hx : exec (.translationMiss id) s = execTranslationMiss id s := rfl
  rw [hx, execTranslationMiss, when_of_true hserves]
  simp only [hreq, hstage, hmiss, hnew, hfull]
  rfl

end

/-! A walk (R252, R265). -/

/-- A walk of entry k goes on: a read may be on its way, and else the walk has stopped or found a leaf. -/
def State.walkOn (s : State) (k : Nat) (e : PEntry) : State :=
  match s.walkGo k (alGet 0 s.xlt.root e.space) e.page 3 [] with
  | (none, w) => w
  | (some reads, w) =>
    match walkEnd (alGet 0 s.xlt.root e.space) reads with
    | .stop cause level entry => { w.walkEnd_ k with xlt := (w.walkEnd_ k).xlt.toRing k e cause level entry }
    | .leaf l big level => (w.walkEnd_ k).walkLeaf k e l big level

section
variable {s w : State} {k : Nat} {e : PEntry}

theorem State.walkOn_reading (hgo : s.walkGo k (alGet 0 s.xlt.root e.space) e.page 3 [] = (none, w)) : s.walkOn k e = w := by
  simp only [State.walkOn, hgo]

variable {reads : List (Option W64)} (hgo : s.walkGo k (alGet 0 s.xlt.root e.space) e.page 3 [] = (some reads, w))
include hgo

theorem State.walkOn_stop {cause level : Nat} {entry : W64} (hend : walkEnd (alGet 0 s.xlt.root e.space) reads = .stop cause level entry) :
    s.walkOn k e = { w.walkEnd_ k with xlt := (w.walkEnd_ k).xlt.toRing k e cause level entry } := by
  simp only [State.walkOn, hgo, hend]

theorem State.walkOn_leaf {l : W64} {big : Bool} {level : Nat} (hend : walkEnd (alGet 0 s.xlt.root e.space) reads = .leaf l big level) :
    s.walkOn k e = (w.walkEnd_ k).walkLeaf k e l big level := by
  simp only [State.walkOn, hgo, hend]

end

section
variable {s : State} {k : Nat} {e : PEntry} (hserves : s.serves = true) (hpend : alFind s.xlt.pend k = some e) (hwalk : e.st = .walk)
include hserves hpend hwalk

/-- A walking entry begins again, fails its waiters or goes on. That a space whose EN was cleared during the walk has the waiters fail, and
counts them, is log entry 66. -/
theorem exec_walkComplete_of_walk : exec (.walkComplete k) s = .next (
    if e.restart then
      { s.walkEnd_ k with xlt := { (s.walkEnd_ k).xlt with pend := alPut (s.walkEnd_ k).xlt.pend k { e with restart := false } } }
    else if !(s.xlt.on e.space) then ((s.walkEnd_ k).failEntry k e).count (svc 4) e.waiters.length
    else s.walkOn k e) := by
  have hx : exec (.walkComplete k) s = execWalkComplete k s := rfl
  rw [hx, execWalkComplete, when_of_true hserves]
  simp only [hpend, hwalk, ne_eq, not_true_eq_false, if_false]
  rcases hgo : s.walkGo k (alGet 0 s.xlt.root e.space) e.page 3 [] with ⟨_ | reads, w⟩
  · rw [State.walkOn_reading hgo]
  · cases hend : walkEnd (alGet 0 s.xlt.root e.space) reads with
    | stop cause level entry => simp only [State.walkOn_stop hgo hend, hend]
    | leaf l big level => simp only [State.walkOn_leaf hgo hend, hend]

theorem exec_walkComplete_restarted (hrestart : e.restart = true) : exec (.walkComplete k) s = .next
    { s.walkEnd_ k with xlt := { (s.walkEnd_ k).xlt with pend := alPut (s.walkEnd_ k).xlt.pend k { e with restart := false } } } := by
  rw [exec_walkComplete_of_walk hserves hpend hwalk, if_pos hrestart]

variable (hgoes : e.restart = false)
include hgoes

theorem exec_walkComplete_disabled (hoff : s.xlt.on e.space = false) :
    exec (.walkComplete k) s = .next (((s.walkEnd_ k).failEntry k e).count (svc 4) e.waiters.length) := by
  rw [exec_walkComplete_of_walk hserves hpend hwalk, hgoes, hoff]
  rfl

theorem exec_walkComplete_goesOn (hon : s.xlt.on e.space = true) : exec (.walkComplete k) s = .next (s.walkOn k e) := by
  rw [exec_walkComplete_of_walk hserves hpend hwalk, hgoes, hon]
  rfl

end

/-! A leaf (R259). -/

/-- The translation-cache entry of a leaf. -/
def PEntry.leafEntry (e : PEntry) (l : W64) (big : Bool) : TcEntry :=
  { space := e.space, page := (if big then e.page / 32 else e.page), big := big, leaf := some l, refused := 0 }

/-- The kinds that an aperture access waits for and a leaf does not permit. -/
def PEntry.lacks (e : PEntry) (l : W64) : BitVec 3 := e.aperture &&& ~~~(BitVec.ofNat 3 (wfld l 2 3))

/-- A leaf goes into the translation cache and the micro-caches of the pairs among the waiters. -/
def Xlt.fillFor (x : Xlt) (te : TcEntry) (rs : List Req) : Xlt :=
  rs.foldl (fun (y : Xlt) r => match r.who.pair with | some n => y.putMc n te | none => y) (x.fill te)

/-- With nothing left, an entry has no waiter, kind or source. -/
theorem PEntry.keep_nil (e : PEntry) : e.keep [] 0 = { e with waiters := [], aperture := 0, need := 0, src := 0 } := rfl

section
variable {s : State} {index : Nat} {e : PEntry} {l : W64} {big : Bool} {level : Nat}

theorem State.walkLeaf_permitsAll (hpermits : ∀ r ∈ e.waiters.filterMap s.req, leafPermits l r.kind.need = true) (hlacks : e.lacks l = 0) :
    s.walkLeaf index e l big level = (e.waiters.filterMap s.req).foldl (fun (t : State) r => t.wake r.id (leafPa l big r.va))
      { s with xlt := { s.xlt.fillFor (e.leafEntry l big) (e.waiters.filterMap s.req) with
        pend := alPut (s.xlt.fillFor (e.leafEntry l big) (e.waiters.filterMap s.req)).pend index
          { e with st := .fill, waiters := [], aperture := 0, need := 0, src := 0 } } } := by
  have hok : (e.waiters.filterMap s.req).filter (fun r => leafPermits l r.kind.need) = e.waiters.filterMap s.req :=
    List.filter_eq_self.mpr hpermits
  have hleft : (e.waiters.filterMap s.req).filter (fun r => !(leafPermits l r.kind.need)) = [] :=
    List.filter_eq_nil_iff.mpr fun r hr => by simp [hpermits r hr]
  rw [PEntry.lacks] at hlacks
  simp only [State.walkLeaf, hok, hleft, hlacks, PEntry.keep_nil, List.isEmpty_nil, decide_true, Bool.and_self, Bool.or_true, and_self, if_true]
  rfl

theorem State.walkLeaf_permitsNone (hwaits : e.waiters.filterMap s.req ≠ [])
    (hdenies : ∀ r ∈ e.waiters.filterMap s.req, leafPermits l r.kind.need = false) : s.walkLeaf index e l big level =
      { s with xlt := s.xlt.toRing index (e.keep (e.waiters.filterMap s.req) (e.lacks l)) 2 level l } := by
  have hok : (e.waiters.filterMap s.req).filter (fun r => leafPermits l r.kind.need) = [] :=
    List.filter_eq_nil_iff.mpr fun r hr => by simp [hdenies r hr]
  have hleft : (e.waiters.filterMap s.req).filter (fun r => !(leafPermits l r.kind.need)) = e.waiters.filterMap s.req :=
    List.filter_eq_self.mpr fun r hr => by simp [hdenies r hr]
  simp [State.walkLeaf, hok, hleft, hwaits, PEntry.lacks]

end

/-! The request ring and a completed fill (R258, R259, R260). -/

section
variable {s : State} {index : Nat} {e : PEntry} (hserves : s.serves = true) (hpend : alFind s.xlt.pend index = some e)
include hserves hpend

theorem exec_requestRecordWrite_of_head {u : State} {b : Bool} (hring : e.st = .ringWait) (hhead : s.xlt.order.head? = some index)
    (hroom : s.xlt.used < 4096) (hwrite : s.ringWrite .hub 1 (s.cfg.reqRing.getD 0 + s.xlt.tail % 4096 * 32)
      ((s.requestWords index e).flatMap (leBytes 8)) = (b, u)) :
    exec (.requestRecordWrite index) s = .next (if b then ({ u with xlt := { u.xlt with
      order := u.xlt.order.tail, tail := (u.xlt.tail + 1) % 2 ^ 32, pend := alPut u.xlt.pend index { e with st := .posted } } }).raise 68 else u) := by
  have hx : exec (.requestRecordWrite index) s = execRequestRecordWrite index s := rfl
  have hmay : ¬ (e.st ≠ .ringWait ∨ s.xlt.order.head? ≠ some index ∨ 4096 ≤ s.xlt.used) := by
    simp [hring, hhead, hroom]
  rw [hx, execRequestRecordWrite, when_of_true hserves]
  simp only [hpend, if_neg hmay, hwrite]
  cases b <;> rfl

/-- A request that merged while its page's fill went on translates again. -/
def State.translateAgain (t : State) (id : Nat) : State :=
  match t.req id with
  | some r => t.setReq { r with stage := .xlat }
  | none => t

theorem exec_fillComplete_of_fill (hfill : e.st = .fill) : exec (.fillComplete index) s = .next (e.waiters.foldl State.translateAgain
    { s with xlt := ({ s.xlt with pend := alDel s.xlt.pend index }).nextGen index }) := by
  have hx : exec (.fillComplete index) s = execFillComplete index s := rfl
  rw [hx, execFillComplete, when_of_true hserves]
  simp only [hpend, hfill]
  rfl

end

/-! Replies (R258, R261). -/

section
variable {s : State} {pid : BitVec 16} (hserves : s.serves = true) (f : State → Nat → PEntry → State)
include hserves

theorem State.xltReply_posted {e : PEntry} (hpend : alFind s.xlt.pend (pid.toNat % 512) = some e) (hposted : e.st = .posted)
    (hpid : s.xlt.pid (pid.toNat % 512) = pid.toNat) :
    s.xltReply pid f = .next (f { s with xlt := s.xlt.nextGen (pid.toNat % 512) } (pid.toNat % 512) e) := by
  rw [State.xltReply, when_of_true hserves]
  simp only [hpend, if_pos (And.intro hposted hpid)]

theorem State.xltReply_stale (hstale : ∀ e, alFind s.xlt.pend (pid.toNat % 512) = some e →
      e.st ≠ .posted ∨ s.xlt.pid (pid.toNat % 512) ≠ pid.toNat) : s.xltReply pid f = .next (s.count (svc 5)) := by
  rw [State.xltReply, when_of_true hserves]
  rcases hpend : alFind s.xlt.pend (pid.toNat % 512) with _ | e
  · simp only [hpend]
  · have hnot : ¬ (e.st = .posted ∧ s.xlt.pid (pid.toNat % 512) = pid.toNat) := fun ⟨hposted, hpid⟩ =>
      (hstale e hpend).elim (fun h => h hposted) (fun h => h hpid)
    simp only [hpend, if_neg hnot]

end

theorem exec_xltReplyWalk (pid : BitVec 16) (s : State) : exec (.xltReplyWalk pid) s = s.xltReply pid (fun s k e =>
    { s with xlt := { s.xlt with pend := alPut s.xlt.pend k { e with st := .walk, restart := false } } }) := rfl

theorem exec_xltReplyError (pid : BitVec 16) (code : Byte) (s : State) : exec (.xltReplyError pid code) s = s.xltReply pid (fun s k e =>
    (({ s with xlt := s.xlt.refuse e.space e.page e.need } : State).failEntry k e).logEv 0x0006 4 1 [e.space, e.page, code.toNat]) := rfl

/-! HEAD and invalidations (R260, R266, R267). -/

section
variable {s : State} (hserves : s.serves = true)
include hserves

theorem exec_xltRingHeadWrite_of_serves (v : W64) : exec (.xltRingHeadWrite v) s = .next
    (if (s.xlt.tail + 2 ^ 32 - wfld v 0 32) % 2 ^ 32 ≤ 4096 then { s with xlt := { s.xlt with head := wfld v 0 32 } }
    else s.count (svc 6)) :=
  when_of_true hserves (fun s => if (s.xlt.tail + 2 ^ 32 - wfld v 0 32) % 2 ^ 32 ≤ 4096 then { s with xlt := { s.xlt with head := wfld v 0 32 } }
    else s.count (svc 6)) s

theorem exec_xltInvalPage_of_serves (space page : Nat) :
    exec (.xltInvalPage space page) s = .next (s.invalAccept (1, space % 16, page % 2 ^ 27)) :=
  when_of_true hserves (fun s => s.invalAccept (1, space % 16, page % 2 ^ 27)) s

theorem exec_xltInvalSpace_of_serves (space : Nat) :
    exec (.xltInvalSpace space) s = .next (s.invalAccept (2, space % 16, 0)) :=
  when_of_true hserves (fun s => s.invalAccept (2, space % 16, 0)) s

theorem exec_xltInvalAll_of_serves : exec .xltInvalAll s = .next (s.invalAccept (3, 0, 0)) :=
  when_of_true hserves (fun s => s.invalAccept (3, 0, 0)) s

theorem exec_invalidationComplete_of_landed {i : Nat × Nat × Nat} {rest : List (Nat × Nat × Nat)} (hhead : s.xlt.inval = i :: rest)
    (hlanded : ∀ k ∈ s.xlt.invalIds, s.landed k = true) : exec .invalidationComplete s = .next s.invalRetire := by
  have hx : exec .invalidationComplete s = execInvalidationComplete s := rfl
  rw [hx, execInvalidationComplete, when_of_true hserves]
  simp only [hhead, if_pos (List.all_eq_true.mpr hlanded)]

end

/-- What an invalidation does as it is accepted: at once when it is the only one. -/
def State.invalFirst (s : State) (i : Nat × Nat × Nat) : State := if s.xlt.inval = [] then s.invalNow i else s

/-- The sixteen that are held go in order; any further write waits. -/
theorem State.invalAccept_eq (s : State) (i : Nat × Nat × Nat) : s.invalAccept i =
    if s.xlt.inval.length < 16 then { s.invalFirst i with xlt := { (s.invalFirst i).xlt with
      inval := (s.invalFirst i).xlt.inval ++ [i], issued := ((s.invalFirst i).xlt.issued + 1) % 2 ^ 32 } }
    else { s with xlt := { s.xlt with invalWait := s.xlt.invalWait ++ [i] } } := by
  by_cases hroom : s.xlt.inval.length < 16
  · simp only [State.invalAccept, if_pos hroom, if_neg (Nat.not_le.mpr hroom), List.isEmpty_iff, State.invalFirst]
  · simp only [State.invalAccept, if_neg hroom, if_pos (Nat.not_lt.mp hroom)]

end Sys2Proof.Machine
end

section
/-! The obligation about translation. -/

namespace Sys2Proof.Machine

/-- Settles O28, clause by clause, each by the branch of the command that its hypotheses select. That the waiters of a space whose EN was
cleared during a walk fail is log entry 66. -/
theorem translationCommandsComplete : Obligations.TranslationCommandsComplete := by
  unfold Obligations.TranslationCommandsComplete
  refine ⟨fun s id k r x e hserves hreq hstage hmiss hpage => exec_translationMiss_merges hserves hreq hstage hmiss hpage,
    fun s id k r x hserves hreq hstage hmiss hnew => ⟨exec_translationMiss_opens hserves hreq hstage hmiss hnew,
      exec_translationMiss_full hserves hreq hstage hmiss hnew⟩,
    fun s v index e root hserves hpend hwalk hv hroot => ?walk,
    fun s u index e b hserves hpend hring hhead hroom hwrite => exec_requestRecordWrite_of_head hserves hpend hring hhead hroom hwrite,
    fun s index e hserves hpend hfill => exec_fillComplete_of_fill hserves hpend hfill,
    fun s pid code e k x hserves hk hpend hposted hpid hx => ?reply,
    fun s pid code hserves hstale => ⟨(exec_xltReplyWalk pid s).trans (State.xltReply_stale hserves _ hstale),
      (exec_xltReplyError pid code s).trans (State.xltReply_stale hserves _ hstale)⟩,
    fun s v hserves => exec_xltRingHeadWrite_of_serves hserves v, fun s t i c hserves hc ht => ?accept,
    fun s i rest hserves hhead hlanded => exec_invalidationComplete_of_landed hserves hhead hlanded⟩
  case walk =>
    subst hv hroot
    refine ⟨exec_walkComplete_restarted hserves hpend hwalk, exec_walkComplete_disabled hserves hpend hwalk, fun w u hgoes hon hu => ?_⟩
    subst hu
    rw [exec_walkComplete_goesOn hserves hpend hwalk hgoes hon]
    refine ⟨fun hgo => congrArg _ (State.walkOn_reading hgo), fun reads cause level entry hgo hend => congrArg _ (State.walkOn_stop hgo hend),
      fun reads l big level rs te hgo hend hrs hte => ?_⟩
    subst hrs hte
    rw [State.walkOn_leaf hgo hend]
    refine ⟨fun hpermits hlacks => ⟨_, rfl, ?_⟩, fun hwaits hdenies => ?_⟩
    · rw [State.walkLeaf_permitsAll hpermits hlacks]
      rfl
    · rw [State.walkLeaf_permitsNone hwaits hdenies]
      rfl
  case reply =>
    subst hk hx
    exact ⟨(exec_xltReplyWalk pid s).trans (State.xltReply_posted hserves _ hpend hposted hpid),
      (exec_xltReplyError pid code s).trans (State.xltReply_posted hserves _ hpend hposted hpid)⟩
  case accept =>
    have haccepts : exec c s = .next (s.invalAccept i) := by
      rcases hc with ⟨space, page, rfl, rfl⟩ | ⟨space, rfl, rfl⟩ | ⟨rfl, rfl⟩
      · exact exec_xltInvalPage_of_serves hserves space page
      · exact exec_xltInvalSpace_of_serves hserves space
      · exact exec_xltInvalAll_of_serves hserves
    subst ht
    rw [haccepts, State.invalAccept_eq]
    rfl

end Sys2Proof.Machine
end

section
/-! SUPPORT. How a maintenance activity ends, by its code, and what it does on the way: a retrained channel, an evacuated block, the
deadline of a retiring tile, the end of a die's reset. -/

namespace Sys2Proof.Machine

/-! Ends (R433–R435). -/

theorem exec_activityEnd {s : State} {num : Nat} {a : Act} (hserves : s.serves = true) (hact : s.actOf num = some a)
    (hbegun : a.begun = true) (hstate : a.state = 0) (passed : Bool) (result : List Byte) :
    exec (.activityEnd num passed result) s = .next (s.actEnd a passed result) := by
  have he : exec (.activityEnd num passed result) s = execActivityEnd num passed result s := rfl
  rw [he, execActivityEnd, when_of_true hserves]
  simp only [hact, hbegun, hstate, beq_self_eq_true, Bool.and_self, if_true]

section
variable {s : State} {a : Act} {passed : Bool} {result : List Byte}

/-- An unaborted SCRUB corrects and marks the sectors of its group, and reports how many of each. -/
theorem State.actEnd_scrub {x : State × Nat × Nat} (hcode : a.code = 1) (hgoes : a.aborting = false)
    (hx : x = s.scrubWhere (fun q => decide (q.die = a.die) && decide (q.group = a.t4))) :
    s.actEnd a passed result = x.1.endAct a 0 (leBytes 8 x.2.1 ++ leBytes 8 x.2.2) := by
  subst hx
  simp only [State.actEnd, hcode, hgoes, Bool.false_eq_true, if_false]

/-- A retrain whose channels are all back and have all reported ends without a fault. -/
theorem State.actEnd_retrain (hcode : a.code = 2 ∨ a.code = 3)
    (hback : ∀ k < a.channels, (s.chan a.die (chanIx (actGroup a.code a.t4) k)).retrain = false)
    (hall : a.channels ≤ a.result.length) : s.actEnd a passed result = s.endAct a 0 a.result := by
  have hnone : ((List.range a.channels).any fun k => (s.chan a.die (chanIx (actGroup a.code a.t4) k)).retrain) = false := by
    simpa using hback
  have hends : (if (List.range a.channels).any (fun k => (s.chan a.die (chanIx (actGroup a.code a.t4) k)).retrain) then s
      else s.endAct a (if a.result.length < a.channels then 0x0702 else 0) a.result) = s.endAct a 0 a.result := by
    rw [hnone, if_neg Bool.false_ne_true, if_neg (Nat.not_lt.2 hall)]
  rcases hcode with hcode | hcode
  · simpa only [State.actEnd, hcode] using hends
  · simpa only [State.actEnd, hcode] using hends

/-- A RIDGE_RETRAIN ends once its link is neither training nor retraining. -/
theorem State.actEnd_ridgeRetrain (hcode : a.code = 4) (htrained : (s.link (16 * a.die + a.t4)).state ≠ 1)
    (hretrained : (s.link (16 * a.die + a.t4)).state ≠ 4) :
    s.actEnd a passed result = s.endAct a 0 (leBytes 1 (s.link (16 * a.die + a.t4)).state) := by
  simp only [State.actEnd, hcode, htrained, hretrained, or_self, if_false]

theorem State.actEnd_evacuated (hcode : a.code = 5) (hwritten : chanUnits a.t4 ≤ (s.remapOf a.die a.t4).wmark) :
    s.actEnd a passed result =
      s.endAct a 0 (leBytes 8 (s.remapOf a.die a.t4).poisoned ++ leBytes 4 (s.remapOf a.die a.t4).wmark) := by
  simp only [State.actEnd, hcode, State.evacEnd, hwritten, if_true]

/-- A way that is empty and passed its test is enabled, with its errors forgotten where it had been disabled (R218, R219). -/
theorem State.wayTestEnd_of_passed {v : Slice} (hv : s.slice a.die a.t4 = v) (hempty : ∀ e ∈ v.lines, e.1 % 16 ≠ a.t5) :
    s.wayTestEnd a true = (s.setSlice a.die a.t4 { v with
      test := none, dis := v.dis &&& ~~~(1#16 <<< a.t5),
      ce := if bitOf v.dis.toNat a.t5 then v.ce.filter (fun e => decide (e.1 / 24 ≠ a.t5)) else v.ce }).endAct a 0 (leBytes 1 0) := by
  subst hv
  have hnone : ((s.slice a.die a.t4).lines.any fun e => decide (e.1 % 16 = a.t5)) = false := by simpa using hempty
  simp only [State.wayTestEnd, hnone, Bool.false_eq_true, if_false, if_true]

/-- A TILE_RETIRE with no stand left retires its tile and reports the stands that its deadline ended. -/
theorem State.actEnd_tileRetire {lost : Nat} (hcode : a.code = 7) (hempty : (s.tile a.die a.t4).stands = [])
    (hlost : lost = byteFld a.result 0 4) : s.actEnd a passed result =
      ((s.tileGone a.die a.t4).logEv 0x0005 a.die 2 [a.t4, lost]).endAct a 0 (leBytes 4 lost) := by
  subst hlost
  simp only [State.actEnd, hcode, hempty, List.isEmpty_nil, if_true]

/-- SENSOR_CAL leaves, of its die's sensors, those excluded that it was given (log entry 47). -/
theorem State.actEnd_sensorCal {mine : Nat → Bool} {now : List Nat} (hcode : a.code = 8)
    (hmine : mine = fun k => (List.range (if a.die = 4 then 36 else 208)).any (fun j => sensorNum a.die j == k))
    (hnow : now = (result.map (fun b => sensorNum a.die b.toNat)).eraseDups.filter mine) :
    s.actEnd a passed result = ({ s with tally := { s.tally with
      excluded := s.tally.excluded.filter (fun k => !(mine k)) ++ now } } : State).endAct a 0 (leBytes 2 now.length) := by
  subst hnow hmine
  simp only [State.actEnd, hcode]

end

/-! Waiting activities (R432, R437). -/

theorem exec_waitingActivityStart {s : State} {num : Nat} {a : Act} (hserves : s.serves = true) (hact : s.actOf num = some a)
    (hwaits : a.state = 1) (hfirst : ∀ x ∈ s.acts, x.num < num → x.clashes a.code a.die a.t4 a.t5 = false) :
    exec (.waitingActivityStart num) s = .next (s.actBegin a) := by
  have he : exec (.waitingActivityStart num) s = execWaitingActivityStart num s := rfl
  have hnone : (s.acts.any fun x => decide (x.num < num) && x.clashes a.code a.die a.t4 a.t5) = false := by
    simpa using hfirst
  rw [he, execWaitingActivityStart, when_of_true hserves]
  simp only [hact, hwaits, hnone, Bool.not_false, and_self, if_true]

/-! Retrained channels (R276). -/

/-- A channel back in service: its lane repairs are added, never removed. -/
theorem exec_channelRetrainComplete {s u : State} {die chan lrep l : Nat} {a b : Act} (hserves : s.serves = true) (hdie : die < 4)
    (hretrain : (s.chan die chan).retrain = true) (hfree : s.chanBusy die chan = false)
    (hl : l = max (s.chan die chan).lrep (min 15 (min (repairLanes (if 96 ≤ chan then 3 else 0)) lrep)))
    (ha : s.acts.find? (fun a => (a.code == 2 || a.code == 3) && a.die == die && a.begun
      && actGroup a.code a.t4 == (if 96 ≤ chan then 3 else chan / 32)) = some a)
    (hb : b = { a with result := a.result ++ leBytes 1 (l - (s.chan die chan).lrep) })
    (hu : u = (s.setChan die chan { s.chan die chan with retrain := false, lrep := l }).setAct b) :
    exec (.channelRetrainComplete die chan lrep) s = .next (if b.aborting = true ∨ b.channels ≤ b.result.length then u
      else u.setChan die (chan + 1) { u.chan die (chan + 1) with retrain := true }) := by
  subst hl hb hu
  have he : exec (.channelRetrainComplete die chan lrep) s = execChannelRetrainComplete die chan lrep s := rfl
  rw [he, execChannelRetrainComplete, when_of_true (by rw [hserves, decide_eq_true hdie, hretrain, hfree]; rfl)]
  simp only [State.setChan_acts, ha, Bool.or_eq_true, decide_eq_true_eq]

/-! Evacuated blocks (R278–R280). -/

/-- A block short of the channel's end advances WMARK; an evacuation that is to be aborted stops there. -/
theorem exec_chanEvacBlockWritten {s : State} {die group : Nat} {a : Act} {r : Remap} {x : State × Nat × Nat} {stop : Bool}
    (hserves : s.serves = true) (hr : s.remapOf die group = r) (hevac : r.evac = true) (ha : a ∈ s.acts) (hcode : a.code = 5)
    (hdie : a.die = die) (hgroup : a.t4 = group) (hbegun : a.begun = true) (hstate : a.state = 0)
    (hmore : r.wmark + 16 < chanUnits group)
    (hx : x = s.scrubWhere (fun q => decide (q.die = die) && decide (q.group = group) && decide (q.logical = r.target)
      && decide (r.wmark ≤ q.unit) && decide (q.unit < r.wmark + 16)))
    (hstop : stop = x.1.acts.any (fun (a : Act) => a.code == 5 && a.die == die && a.t4 == group && a.begun && a.aborting)) :
    exec (.chanEvacBlockWritten die group) s = .next { x.1 with remap := alPut x.1.remap (die * 4 + group) {
      r with wmark := r.wmark + 16, poisoned := r.poisoned + x.2.2, evac := !stop, split := stop } } := by
  subst hr hx hstop
  have he : exec (.chanEvacBlockWritten die group) s = execChanEvacBlockWritten die group s := rfl
  have hruns : (s.acts.any fun (a : Act) => a.code == 5 && a.die == die && a.t4 == group && a.begun && a.state == 0) = true :=
    List.any_eq_true.2 ⟨a, ha, by simp [hcode, hdie, hgroup, hbegun, hstate]⟩
  have hunwritten : ¬ chanUnits group ≤ (s.remapOf die group).wmark := by omega
  rw [he, execChanEvacBlockWritten, when_of_true (by rw [hserves, hevac, hruns]; rfl)]
  simp only [if_neg hunwritten, if_neg (Nat.not_le.2 hmore)]

/-! Retiring tiles (R434). -/

theorem exec_tileRetireDeadline {s : State} {die tile : Nat} {a : Act} (hserves : s.serves = true)
    (hretiring : (s.tile die tile).retiring = true)
    (ha : s.acts.find? (fun a => a.code == 7 && a.die == die && a.t4 == tile && a.begun && a.state == 0 && a.result.isEmpty
      && s.due (a.time + 100000000)) = some a) : exec (.tileRetireDeadline die tile) s =
      .next ((s.setAct { a with result := leBytes 4 (s.tile die tile).stands.length }).loseStands die tile) := by
  have he : exec (.tileRetireDeadline die tile) s = execTileRetireDeadline die tile s := rfl
  rw [he, execTileRetireDeadline, when_of_true (by rw [hserves, hretiring]; rfl)]
  simp only [ha]

/-! The end of a die's reset (R300). -/

section
variable {s : State} {die : Nat} (hserves : s.serves = true) (hreset : s.plat.resetting.contains die = true)
  (hdrained : s.drainedDie die = true)
include hserves hreset hdrained

/-- A reset that no running DIE_RESET asked for only completes. -/
theorem exec_dieResetDrainEnd_unasked (hnone : ∀ a ∈ (s.resetDone die 0).acts, a.code = 9 → a.die = die → a.begun = false) :
    exec (.dieResetDrainEnd die) s = .next (s.resetDone die 0) := by
  have he : exec (.dieResetDrainEnd die) s = execDieResetDrainEnd die s := rfl
  have hfind : ((s.resetDone die 0).acts.find? fun a => a.code == 9 && a.die == die && a.begun) = none := by
    simpa using hnone
  rw [he, execDieResetDrainEnd, when_of_true (by rw [hserves, hreset, hdrained]; rfl)]
  simp only [hfind]

/-- The DIE_RESET that asked for the reset ends with it. -/
theorem exec_dieResetDrainEnd_asked {a : Act}
    (hfind : (s.resetDone die 0).acts.find? (fun a => a.code == 9 && a.die == die && a.begun) = some a) :
    exec (.dieResetDrainEnd die) s = .next ((s.resetDone die 0).endAct a 0 []) := by
  have he : exec (.dieResetDrainEnd die) s = execDieResetDrainEnd die s := rfl
  rw [he, execDieResetDrainEnd, when_of_true (by rw [hserves, hreset, hdrained]; rfl)]
  simp only [hfind]

end

end Sys2Proof.Machine
end

section
/-! The obligation about maintenance activities that end. -/

namespace Sys2Proof.Machine

/-- Settles O36: each clause is what its command does, and the ends of running activities are told apart by their code. That SENSOR_CAL
replaces the excluded sensors of its die and that SCRUB's counts are computed is log entry 47; the count of poisoned sectors of CHAN_EVAC is
log entry 48. -/
theorem maintenanceEndsComplete : Obligations.MaintenanceEndsComplete := by
  unfold Obligations.MaintenanceEndsComplete
  refine ⟨fun s num passed result a hserves hact hbegun hstate => ?ends,
    fun s num a hserves hact hwaits hfirst => exec_waitingActivityStart hserves hact hwaits hfirst,
    fun s u die chan lrep l a b hserves hdie hretrain hfree hl ha hb hu =>
      exec_channelRetrainComplete hserves hdie hretrain hfree hl ha hb hu,
    fun s die group a r x stop hserves hr hevac ha hcode hdie hgroup hbegun hstate hmore hx hstop =>
      exec_chanEvacBlockWritten hserves hr hevac ha hcode hdie hgroup hbegun hstate hmore hx hstop,
    fun s die tile a hserves hretiring ha => exec_tileRetireDeadline hserves hretiring ha,
    fun s die hserves hreset hdrained => ⟨exec_dieResetDrainEnd_unasked hserves hreset hdrained,
      fun a hfind => exec_dieResetDrainEnd_asked hserves hreset hdrained hfind⟩⟩
  case ends =>
    have hend := exec_activityEnd hserves hact hbegun hstate
    refine ⟨fun hcode hgoes x hx => ?scrub, fun hcode hback hall => ?retrain, fun hcode htrained hretrained => ?ridge,
      fun hcode r hr hwritten => ?evacuated, fun hcode v hv hempty => ?way, fun hcode hempty lost hlost => ?tile,
      fun hcode mine now hmine hnow => ?sensor⟩
    case scrub => rw [hend, State.actEnd_scrub hcode hgoes hx]
    case retrain => rw [hend, State.actEnd_retrain hcode hback hall]
    case ridge => rw [hend, State.actEnd_ridgeRetrain hcode htrained hretrained]
    case evacuated =>
      subst hr
      rw [hend, State.actEnd_evacuated hcode hwritten]
    case way =>
      have hway : s.actEnd a true result = s.wayTestEnd a true := by simp only [State.actEnd, hcode]
      rw [hend, hway, State.wayTestEnd_of_passed hv hempty]
    case tile => rw [hend, State.actEnd_tileRetire hcode hempty hlost]
    case sensor => rw [hend, State.actEnd_sensorCal hcode hmine hnow]

end Sys2Proof.Machine
end

section
/-! SUPPORT. What temperature samples, the coolant signal, Idle and the safety net do. -/

namespace Sys2Proof.Machine

/-- What one step of a fold brings about, and every step keeps, holds after a fold that has that step. -/
theorem foldl_reaches {α : Type} {P : State → Prop} {f : State → α → State} {x : α} (hreach : ∀ t, P (f t x))
    (hkeep : ∀ t y, P t → P (f t y)) {l : List α} (hx : x ∈ l) (s : State) : P (l.foldl f s) := by
  induction l generalizing s with
  | nil => exact absurd hx List.not_mem_nil
  | cons y r ih =>
    rcases List.mem_cons.1 hx with rfl | hr
    · exact List.foldlRecOn r f (hreach s) fun t ht z _ => hkeep t z ht
    · exact ih hr (f s y)

/-! Junction samples (R396, R397). -/

section
variable (s : State) (pairs : List Nat) (hub n : Nat)

/-- A die takes its own temperature of a junction sample, and a ceiling that falls with it acts at once. -/
def State.junctionDie : State :=
  (s.setDie n { s.die n with
    tj := nth 0 pairs n, jlvl := max (s.die n).jlvl (heatLevel junctionThr (nth 0 pairs n)),
    hot := heatMarks junctionThr (s.die n).hot (nth 0 pairs n) s.now }).ceilingFell n (s.ceiling n)

/-- The four dies after a junction sample. -/
def State.junctionDies : State := (List.range 4).foldl (fun (t : State) k => t.junctionDie pairs k) s

/-- The samples in a row at the trip temperature, this one included. -/
def State.junctionRun : Nat := if s.cairn.tjTrip ≤ (hub :: pairs).foldl max 0 then s.power.tjRun + 1 else 0

/-- The hub takes its own temperature of a junction sample, and Tally the maxima of the four dies and the hub. -/
def State.hubTaken (run now : Nat) : State := { s with
  power := ({ s.power with
    hubT := hub, hubLvl := max s.power.hubLvl (heatLevel junctionThr hub), hubHot := heatMarks junctionThr s.power.hubHot hub now,
    tjRun := run } : PowerSt).capped
  tally := { s.tally with tmax := (List.range 5).foldl (fun m k =>
    alMod 0 m (if k < 4 then 32 + k else 48) (max (if k < 4 then nth 0 pairs k else hub))) s.tally.tmax } }

@[simp] theorem State.hubTaken_hubT (run now : Nat) : (s.hubTaken pairs hub run now).power.hubT = hub := rfl
@[simp] theorem State.hubTaken_pstate (run now : Nat) : (s.hubTaken pairs hub run now).power.pstate = s.power.pstate := rfl
@[simp] theorem State.hubTaken_die (run now m : Nat) : (s.hubTaken pairs hub run now).die m = s.die m := rfl

theorem State.le_hubTaken_hubLvl (run now : Nat) : heatLevel junctionThr hub ≤ (s.hubTaken pairs hub run now).power.hubLvl :=
  Nat.le_max_right _ _

/-- The dies, the hub and Tally after a junction sample. -/
def State.junctionTaken : State := (s.junctionDies pairs).hubTaken pairs hub (s.junctionRun pairs hub) s.now

@[simp] theorem State.junctionDie_power : (s.junctionDie pairs n).power = s.power := by simp [State.junctionDie]

theorem State.junctionDies_power : (s.junctionDies pairs).power = s.power :=
  foldl_keeps State.power _ (fun t k => t.junctionDie_power pairs k) _ s

theorem State.junctionTaken_pstate : (s.junctionTaken pairs hub).power.pstate = s.power.pstate := by
  rw [State.junctionTaken, State.hubTaken_pstate, State.junctionDies_power]

/-- The third sample in a row at the trip temperature halts the package. -/
theorem exec_junctionSample (hup : s.up = true) : exec (.junctionSample pairs hub) s =
    .next (if 3 ≤ s.junctionRun pairs hub then (s.junctionTaken pairs hub).halt 2 else s.junctionTaken pairs hub) := by
  have he : exec (.junctionSample pairs hub) s = execJunctionSample pairs hub s := rfl
  rw [he, execJunctionSample, when_of_true hup]
  extract_lets s1 p hottest run _ s2
  have hs1 : s1 = s.junctionDies pairs := rfl
  -- With the four dies kept under one name, the states below are compared without running the samples.
  clear_value s1
  have hrun : run = s.junctionRun pairs hub := by
    simp only [run, p, hs1, s.junctionDies_power pairs]
    rfl
  have hs2 : s2 = s1.hubTaken pairs hub run s.now := rfl
  rw [hs2, hrun, hs1, State.junctionTaken]

/-- A controller has taken a temperature: it holds it, at a level no lower than the temperature's. -/
def DieFb.holdsTemp (d : DieFb) (temp : Nat) : Prop := d.tj = temp ∧ heatLevel junctionThr temp ≤ d.jlvl

theorem State.junctionDie_holdsTemp : ((s.junctionDie pairs n).die n).holdsTemp (nth 0 pairs n) := by
  rw [State.junctionDie, State.ceilingFell_die, if_pos rfl, State.setDie_die_self]
  exact ⟨rfl, Nat.le_max_right _ _⟩

theorem State.junctionDie_die_ne {m : Nat} (h : m ≠ n) : (s.junctionDie pairs n).die m = s.die m := by
  rw [State.junctionDie, State.ceilingFell_die, if_neg h, State.setDie_die, if_neg h]

theorem State.junctionDies_holdsTemp {n : Nat} (hn : n < 4) : ((s.junctionDies pairs).die n).holdsTemp (nth 0 pairs n) := by
  refine foldl_reaches (P := fun t => (t.die n).holdsTemp (nth 0 pairs n)) (fun t => t.junctionDie_holdsTemp pairs n)
    (fun t k ht => ?_) (List.mem_range.2 hn) s
  by_cases hk : n = k
  · exact hk ▸ t.junctionDie_holdsTemp pairs n
  · rwa [State.junctionDie_die_ne _ _ _ hk]

theorem State.junctionTaken_holdsTemp {n : Nat} (hn : n < 4) : ((s.junctionTaken pairs hub).die n).holdsTemp (nth 0 pairs n) := by
  rw [State.junctionTaken, State.hubTaken_die]
  exact s.junctionDies_holdsTemp pairs hn

variable {s pairs hub}

/-- Before two samples in a row have reached the trip temperature, no sample halts. -/
theorem State.junctionRun_lt (h : s.power.tjRun < 2) : s.junctionRun pairs hub < 3 := by
  unfold State.junctionRun
  split
  · exact Nat.succ_lt_succ h
  · exact Nat.zero_lt_succ 2

/-- A temperature at the trip, of a die or of the hub, is one more sample in a row. -/
theorem State.junctionRun_of_trip (h : s.cairn.tjTrip ≤ hub ∨ ∃ x ∈ pairs, s.cairn.tjTrip ≤ x) :
    s.junctionRun pairs hub = s.power.tjRun + 1 := by
  obtain ⟨x, hx, htrip⟩ : ∃ x ∈ hub :: pairs, s.cairn.tjTrip ≤ x := by simpa using h
  have hle : x ≤ (hub :: pairs).foldl max 0 := by
    rw [List.foldl_max]
    exact le_max_of_le_right (List.le_max?_getD_of_mem hx)
  exact if_pos (htrip.trans hle)

end

/-! Levels that are left (R284, R396). -/

theorem exec_junctionLevelExit_die {s : State} {die : Nat} (hup : s.up = true) (hdie : die < 4) : exec (.junctionLevelExit die) s =
    .next (s.setDie die { s.die die with jlvl := heatExit (s.die die).hot (s.die die).jlvl s.now }) := by
  have he : exec (.junctionLevelExit die) s = execJunctionLevelExit die s := rfl
  rw [he, execJunctionLevelExit, when_of_true (by rw [hup, decide_eq_true hdie.le]; rfl), if_neg hdie.ne]

theorem exec_junctionLevelExit_hub {s : State} (hup : s.up = true) : exec (.junctionLevelExit 4) s =
    .next { s with power := ({ s.power with hubLvl := heatExit s.power.hubHot s.power.hubLvl s.now }).capped } := by
  have he : exec (.junctionLevelExit 4) s = execJunctionLevelExit 4 s := rfl
  rw [he, execJunctionLevelExit, when_of_true (by rw [hup]; rfl), if_pos rfl]

theorem exec_stackLevelExit {s : State} {die stack : Nat} (hup : s.up = true) (hdie : die < 4) (hstack : stack < 3) :
    exec (.stackLevelExit die stack) s =
      .next { s with hbm := alUpd s.hbm (die * 3 + stack) (fun k => { k with lvl := heatExit k.hot k.lvl s.now }) } := by
  have he : exec (.stackLevelExit die stack) s = execStackLevelExit die stack s := rfl
  rw [he, execStackLevelExit, when_of_true (by rw [hup, decide_eq_true hdie, decide_eq_true hstack]; rfl)]

/-! Stack samples (R284, R397). -/

section
variable (s : State) (die stack temp : Nat)

/-- A stack's temperature, level and maxima after its sample. -/
def State.stackTaken : State :=
  let k := alGet {} s.hbm (die * 3 + stack)
  { s with
    hbm := alPut s.hbm (die * 3 + stack)
      { k with temp := temp, lvl := max k.lvl (heatLevel stackThr temp), hot := heatMarks stackThr k.hot temp s.now }
    tmax := alMod 0 s.tmax die (max temp)
    tally := { s.tally with tmax := alMod 0 s.tally.tmax (36 + 3 * die + stack) (max temp) } }

variable {s die stack}

/-- A ceiling that falls with a stack's level acts at once, and a reading at the trip halts the package. -/
theorem exec_stackTempSample (hup : s.up = true) (hstage : 1 ≤ s.plat.stage) (hthere : s.plat.lostF.contains die = false)
    (hdie : die < 4) (hstack : stack < 3) : exec (.stackTempSample die stack temp) s =
      .next (if s.cairn.hbmTrip ≤ temp then ((s.stackTaken die stack temp).ceilingFell die (s.ceiling die)).halt 3
        else (s.stackTaken die stack temp).ceilingFell die (s.ceiling die)) := by
  have he : exec (.stackTempSample die stack temp) s = execStackTempSample die stack temp s := rfl
  rw [he, execStackTempSample,
    when_of_true (by rw [hup, decide_eq_true hstage, hthere, decide_eq_true hdie, decide_eq_true hstack]; rfl)]
  rfl

variable (s die stack)

theorem State.stackTaken_temp : (alGet {} (s.stackTaken die stack temp).hbm (die * 3 + stack)).temp = temp := by
  rw [State.stackTaken, alGet_alPut_self]

theorem State.le_stackTaken_lvl : heatLevel stackThr temp ≤ (alGet {} (s.stackTaken die stack temp).hbm (die * 3 + stack)).lvl := by
  rw [State.stackTaken, alGet_alPut_self]
  exact Nat.le_max_right _ _

theorem State.le_stackTaken_tmax : temp ≤ alGet 0 (s.stackTaken die stack temp).tmax die := by
  rw [State.stackTaken, alGet_alMod_self]
  exact Nat.le_max_left _ _

end

/-! LPDDR packages (R285). -/

/-- Setting one channel leaves the others of its die. -/
theorem State.setChan_chan (s : State) (die k m : Nat) (v : Chan) : (s.setChan die k v).chan die m = if m = k then v else s.chan die m := by
  simp only [State.chan, State.setChan, alGet_alPut, Nat.add_right_inj]

/-- The refresh of an LPDDR package's channels at a temperature: 1 doubled, 2 capped as well (R285). -/
def lpddrHeat (temp : Nat) : Nat := if 95 ≤ temp then 2 else if 85 ≤ temp then 1 else 0

/-- A channel of an LPDDR package at a temperature. -/
def State.lpddrChan (s : State) (die k temp j : Nat) : State :=
  s.setChan die (96 + 4 * k + j) { s.chan die (96 + 4 * k + j) with heat := lpddrHeat temp }

/-- An LPDDR package's four channels after a sample. -/
def State.lpddrTaken (s : State) (die k temp : Nat) : State :=
  (List.range 4).foldl (fun (t : State) j => t.lpddrChan die k temp j) s

theorem exec_lpddrTempSample {s : State} {die k : Nat} (hserves : s.serves = true) (hdie : die < 4) (hk : k < 4)
    (hthere : s.plat.lostF.contains die = false) (temp : Nat) :
    exec (.lpddrTempSample die k temp) s = .next (s.lpddrTaken die k temp) := by
  have he : exec (.lpddrTempSample die k temp) s = execLpddrTempSample die k temp s := rfl
  rw [he, execLpddrTempSample, when_of_true (by rw [hserves, decide_eq_true hdie, decide_eq_true hk, hthere]; rfl)]
  rfl

theorem State.lpddrTaken_frame (s : State) (die k temp : Nat) :
    s.lpddrTaken die k temp = { s with chans := (s.lpddrTaken die k temp).chans } := by
  have hrest : ({ s.lpddrTaken die k temp with chans := [] } : State) = { s with chans := [] } :=
    foldl_keeps (fun t : State => { t with chans := [] }) (fun t j => t.lpddrChan die k temp j) (fun _ _ => rfl) _ s
  exact congrArg (fun t : State => { t with chans := (s.lpddrTaken die k temp).chans }) hrest

theorem State.lpddrTaken_heat (s : State) (die k temp : Nat) {j : Nat} (hj : j < 4) :
    ((s.lpddrTaken die k temp).chan die (96 + 4 * k + j)).heat = lpddrHeat temp := by
  refine foldl_reaches (P := fun t => (t.chan die (96 + 4 * k + j)).heat = lpddrHeat temp) (fun t => ?_) (fun t i ht => ?_)
    (List.mem_range.2 hj) s
  · rw [State.lpddrChan, State.setChan_chan, if_pos rfl]
  · rw [State.lpddrChan, State.setChan_chan]
    split
    · rfl
    · exact ht

/-! The coolant signal (R400). -/

theorem State.due_of_le {s : State} {time : Nat} (h : s.plat.stage < 2 ∨ time ≤ s.now) : s.due time = true := by
  simpa [State.due] using h

theorem exec_coolantOkDeassert {s : State} (hon : s.on = true) (hcoolant : s.plat.coolant = true) : exec .coolantOkDeassert s =
    .next { s with
      plat := { s.plat with coolant := false }, power := { s.power with coolLow := s.power.pstate != 3, coolOff := s.now } } := by
  have he : exec .coolantOkDeassert s = execCoolantOkDeassert s := rfl
  rw [he, execCoolantOkDeassert, when_of_true (by rw [hon, hcoolant]; rfl)]

section
variable {s : State} (hon : s.on = true) (hcoolant : s.plat.coolant = false) (hfilter : s.power.coolLow = true)
include hon hcoolant hfilter

theorem exec_coolantHalt (hdue : s.plat.stage < 2 ∨ s.power.coolOff + 10000 ≤ s.now) : exec .coolantHalt s = .next (s.halt 1) := by
  have he : exec .coolantHalt s = execCoolantHalt s := rfl
  rw [he, execCoolantHalt, when_of_true (by rw [hon, hcoolant, hfilter, State.due_of_le hdue]; rfl)]

/-- A deassertion that ends within its filter is counted. -/
theorem exec_coolantOkAssert_short : exec .coolantOkAssert s = .next (({ s with
    plat := { s.plat with coolant := true }, power := { s.power with coolLow := false, coolSince := s.now } } : State).count 4) := by
  have he : exec .coolantOkAssert s = execCoolantOkAssert s := rfl
  rw [he, execCoolantOkAssert, when_of_true (by rw [hon, hcoolant]; rfl), if_pos hfilter]

end

/-! Idle (R399). -/

/-- The four dies at OP0. -/
def State.allOp0 (s : State) : State := (List.range 4).foldl (fun (t : State) n => t.setOp n 0) s

theorem State.allOp0_power (s : State) : s.allOp0.power = s.power := foldl_keeps State.power _ (fun t n => t.setOp_power n 0) _ s

theorem State.allOp0_op (s : State) {n : Nat} (hn : n < 4) : (s.allOp0.die n).op = 0 := by
  rw [State.allOp0, State.allOp0_die, if_pos hn]

/-- Idle with the clocks as they are. -/
def State.idling (s : State) : State := { s with power := { s.power with pstate := 1 } }

@[simp] theorem State.idling_power (s : State) : s.idling.power = { s.power with pstate := 1 } := rfl
@[simp] theorem State.idling_die (s : State) (n : Nat) : s.idling.die n = s.die n := rfl

theorem exec_idleEntry {s : State} (hserves : s.serves = true) (hrun : s.power.pstate = 0) (hidle : s.noWork = true)
    (hdue : s.power.busyAt + 1000000 ≤ s.now) :
    exec .idleEntry s = .next s.allOp0.idling := by
  have he : exec .idleEntry s = execIdleEntry s := rfl
  rw [he, execIdleEntry, when_of_true (by rw [hserves, hrun, hidle, State.due_of_le (.inr hdue)]; rfl), ← State.allOp0]
  rfl

theorem exec_idleExit {s : State} (hserves : s.serves = true) (hidle : s.power.pstate = 1) (hwork : s.noWork = false) :
    exec .idleExit s = .next { s with power := { s.power with pstate := 0 } } := by
  have he : exec .idleExit s = execIdleExit s := rfl
  rw [he, execIdleExit, when_of_true (by rw [hserves, hidle, hwork]; rfl)]

/-! The safety net (R381). -/

theorem State.decideAll_power (s : State) : s.decideAll.power = s.power := foldl_keeps State.power _ State.decideOp_power _ s

/-- Under the safety net no die has a ceiling above OP0. -/
theorem State.ceiling_of_snet {s : State} (h : s.power.snet = true) (n : Nat) : s.ceiling n = 0 := by
  simp [State.ceiling, h]

theorem exec_powerSafetyNet {s : State} (hruns : s.runs = true) (hstage : 1 ≤ s.plat.stage) (hfirst : s.power.snet = false)
    (hexcess : 10000 < s.tally.excess) : exec .powerSafetyNet s =
      .next (({ s with power := { s.power with snet := true } } : State).decideAll.logEv 0x0011 255 2 [1]) := by
  have he : exec .powerSafetyNet s = execPowerSafetyNet s := rfl
  rw [he, execPowerSafetyNet, when_of_true (by rw [hruns, decide_eq_true hstage, hfirst, decide_eq_true hexcess]; rfl)]
  rfl

end Sys2Proof.Machine
end

section
/-! The obligation about heat, coolant, Idle and the safety net. -/

namespace Sys2Proof.Machine

/-- Settles O13, each clause by what its command does. That COOLANT_HALT comes at any moment before CONFIG_COMMIT, while domain time stands
still, is log entry 42. -/
theorem heatCoolantAndIdleComplete : Obligations.HeatCoolantAndIdleComplete := by
  unfold Obligations.HeatCoolantAndIdleComplete
  refine ⟨fun s pairs hub hup hpstate hrun => ?rises, fun s pairs hub hup hpstate hrun htrip => ?trips,
    fun s die hup hdie => exec_junctionLevelExit_die hup hdie, fun s hup => exec_junctionLevelExit_hub hup,
    fun s die stack temp hup hstage hthere hdie hstack => ?stack,
    fun s die stack hup hdie hstack => exec_stackLevelExit hup hdie hstack,
    fun s die k temp hserves hdie hk hthere => ⟨_, exec_lpddrTempSample hserves hdie hk hthere temp, s.lpddrTaken_frame die k temp,
      fun j hj => s.lpddrTaken_heat die k temp hj⟩,
    fun s hon hcoolant => exec_coolantOkDeassert hon hcoolant,
    fun s hon hcoolant hfilter hdue => exec_coolantHalt hon hcoolant hfilter hdue,
    fun s hon hcoolant hfilter => exec_coolantOkAssert_short hon hcoolant hfilter,
    fun s hserves hrun hidle hdue => ⟨_, exec_idleEntry hserves hrun hidle hdue, by rw [State.idling_power, s.allOp0_power],
      fun n hn => ?idle⟩,
    fun s hserves hidle hwork => exec_idleExit hserves hidle hwork, fun s hruns hstage hfirst hexcess => ?net,
    fun s cause hpstate => ?halt⟩
  case rises =>
    refine ⟨_, exec_junctionSample s pairs hub hup, ?_⟩
    rw [if_neg (Nat.not_le.2 (State.junctionRun_lt hrun))]
    exact ⟨State.hubTaken_hubT .., State.le_hubTaken_hubLvl .., fun n hn => s.junctionTaken_holdsTemp pairs hub hn,
      s.junctionTaken_pstate pairs hub⟩
  case trips =>
    refine ⟨_, exec_junctionSample s pairs hub hup, ?_⟩
    have hthird : 3 ≤ s.junctionRun pairs hub := by
      rw [State.junctionRun_of_trip htrip]
      exact Nat.succ_le_succ hrun
    rw [if_pos hthird, State.halt_power _ _ (by rwa [State.junctionTaken_pstate])]
    exact ⟨rfl, rfl⟩
  case stack =>
    refine ⟨_, exec_stackTempSample temp hup hstage hthere hdie hstack, ?_⟩
    have htemp := s.stackTaken_temp die stack temp
    have hlvl := s.le_stackTaken_lvl die stack temp
    have hmax := s.le_stackTaken_tmax die stack temp
    split
    case isTrue =>
      rw [State.halt_hbm, State.halt_tmax, State.ceilingFell_hbm, State.ceilingFell_tmax]
      refine ⟨htemp, hlvl, hmax, fun _ hpstate => ?_⟩
      rw [State.halt_power _ _ (by rwa [State.ceilingFell_power])]
      exact ⟨rfl, rfl⟩
    case isFalse hcool =>
      rw [State.ceilingFell_hbm, State.ceilingFell_tmax]
      exact ⟨htemp, hlvl, hmax, fun htrip => absurd htrip hcool⟩
  case idle => rw [State.idling_die, s.allOp0_op hn]
  case net =>
    refine ⟨_, exec_powerSafetyNet hruns hstage hfirst hexcess, State.decideAll_power _, fun n _ => ?_⟩
    exact State.ceiling_of_snet (by rw [State.logEv_power, State.decideAll_power]) n
  case halt =>
    rw [s.halt_power cause hpstate]
    exact ⟨rfl, rfl, rfl⟩

end Sys2Proof.Machine
end

section
/-! SUPPORT. The queue through the commands that may blow a fuse: an image's end and a debug unlock leave it too. -/

namespace Sys2Proof.Machine

theorem doImageEnd_queue (p : Port) (k : Packet) (s : State) : (doImageEnd p k s).vault.queue = s.pending := by
  unfold doImageEnd
  split
  · rfl
  split
  · rfl
  split
  · rfl
  dsimp only
  split <;> simp

theorem State.grantDebug_pending (s : State) (c : Challenge) : (s.grantDebug c).pending = s.pending := by
  unfold State.grantDebug
  dsimp only
  split
  · simp only [State.measure_pending]
    split <;> rfl
  · repeat' split
    all_goals simp [State.releaseDebug]

theorem doDebugUnlock_queue (rand : List Byte) (p : Port) (k : Packet) (s : State) : (doDebugUnlock rand p k s).vault.queue = s.pending := by
  unfold doDebugUnlock
  dsimp only
  repeat' split
  all_goals simp [State.refuseUnlock, State.grantDebug_pending]

/-- An Ebior packet leaves the queue when its own part does. -/
theorem State.ebior_pending {own : State → EbOut} (ho : ∀ u : State, (own u).vault.queue = u.pending) (s : State) (op : Nat) (p : Port)
    (k : Packet) : (s.ebior op p k own).pending = s.pending := by
  rcases s.ebior_vault op p k own with h | ⟨v, h⟩
  · exact congrArg Vault.queue h
  · rw [← State.vault_queue, h, ho, State.setPort_pending]

/-- A command that may blow a fuse leaves the queue. -/
theorem exec_pending_of_mayBurn {s t : State} {c : Instr} (hc : Instr.MayBurn c) (h : exec c s = .next t) : t.pending = s.pending := by
  rcases hc with ⟨p, k, rfl⟩ | ⟨p, k, r, rfl⟩ | ⟨p, k, rfl⟩ | ⟨p, k, rfl⟩ | ⟨op, v, k, rfl, hop⟩
  · cases h
    exact State.ebior_pending (doImageEnd_queue p k) ..
  · cases h
    exact State.ebior_pending (doDebugUnlock_queue _ p k) ..
  · cases h
    exact State.ebior_pending (doDebugUnlock_queue _ p k) ..
  · cases h
    exact State.ebior_pending (doDebugUnlock_queue _ p k) ..
  · rcases execPortBMessage_vault h with h | h
    · exact congrArg Vault.queue h
    · rw [← State.vault_queue, h]
      rcases hop with rfl | rfl
      · exact State.ebior_pending (doImageEnd_queue .b k) ..
      · exact State.ebior_pending (doDebugUnlock_queue _ .b k) ..

end Sys2Proof.Machine
end

section
/-! The obligations about the step, the queue and the tick. -/

namespace Sys2Proof.Machine

/-- Settles O47: a command that may blow a fuse leaves the queue by its own part, every other by what it can do to the vault. -/
theorem execLeavesTheQueue : Obligations.ExecLeavesTheQueue := by
  unfold Obligations.ExecLeavesTheQueue
  intro s t c h
  rcases exec_vaultStep h with hv | ⟨hc, -⟩ | ⟨-, hv | ⟨q, -, hv⟩⟩ | ⟨-, hv⟩
  · exact congrArg Vault.queue hv
  · exact exec_pending_of_mayBurn hc h
  · exact congrArg Vault.queue hv
  · exact congrArg Vault.queue hv
  · exact congrArg Vault.queue hv

/-- Settles O41: a step takes the front command off the queue and runs it. -/
theorem stepRunsFrontCommand : Obligations.StepRunsFrontCommand := by
  unfold Obligations.StepRunsFrontCommand
  refine ⟨fun s c => rfl, fun s c rest h => ?_⟩
  unfold step
  rw [h]

theorem step_of_idle {s : State} (h : s.pending = []) : step s = .next s.tick := by
  unfold step
  rw [h]

theorem State.tick_of_running {s : State} (hup : s.up = true) (hstage : 2 ≤ s.plat.stage) : s.tick = { s with time := s.time.advance } := by
  simp [State.tick, hup, hstage]

theorem State.tick_of_still {s : State} (h : s.up = false ∨ s.plat.stage < 2) : s.tick = s := by
  rcases h with h | h <;> simp [State.tick, h]

/-- Settles O42: with no command waiting a step is the tick, which advances domain time only once it runs. -/
theorem idleStepTicks : Obligations.IdleStepTicks := by
  unfold Obligations.IdleStepTicks
  intro s h
  rw [step_of_idle h]
  refine ⟨fun hstill => by rw [State.tick_of_still hstill], fun hup hstage hslew hrate => ?_, fun hup hstage hslew => ?_⟩
  · have hadvance : s.time.advance = { s.time with fine := s.time.fine + 1000000 } := by
      simp only [Time.advance, hslew, hrate, Nat.lt_irrefl, if_false, Time.mk.injEq, and_self, and_true]
      omega
    rw [State.tick_of_running hup hstage, hadvance]
  · rw [State.tick_of_running hup hstage, Time.advance, if_pos hslew]

end Sys2Proof.Machine
end
section
/-! SUPPORT. What a command does while the block has no power, or after a thermal trip: every island's condition fails, so nothing (R395, R398). -/

namespace Sys2Proof.Machine

theorem when_of_false {c : Bool} (h : c = false) (f : State → State) (s : State) : when_ c f s = .next s := by
  rw [h]
  rfl

section
variable {s : State} (h : s.on = false)
include h

theorem State.up_of_off : s.up = false := by rw [State.up, h, Bool.false_and]
theorem State.runs_of_off : s.runs = false := by rw [State.runs, State.up_of_off h, Bool.false_and]
theorem State.serves_of_off : s.serves = false := by rw [State.serves, State.runs_of_off h, Bool.false_and]
theorem State.trains_of_off (l : Nat) : s.trains l = false := by simp [State.trains, State.serves_of_off h]
theorem State.engineRuns_of_off (die : Nat) : s.engineRuns die = false := by simp [State.engineRuns, State.serves_of_off h]
theorem State.tileRuns_of_off (die : Nat) : s.tileRuns die = false := by simp [State.tileRuns, State.serves_of_off h]
theorem State.tileEnds_of_off (die : Nat) : s.tileEnds die = false := by simp [State.tileEnds, State.serves_of_off h]
theorem State.coreRuns_of_off (core : Nat) : s.coreRuns core = false := by simp [State.coreRuns, State.serves_of_off h]
theorem State.decides_of_off (die : Nat) : s.decides die = false := by simp [State.decides, State.serves_of_off h]
theorem State.takes_of_off (n : Nat) : s.takes n = false := by simp [State.takes, State.serves_of_off h]

theorem State.reach_of_off (p : Port) : s.reach p = false := by
  cases p with
  | h => simp [State.reach, State.runs_of_off h]
  | b => simp [State.reach, h]
  | n => exact State.serves_of_off h

theorem State.buckerRuns_of_off (b : BuckerId) : s.buckerRuns b = false := by
  cases b with
  | tile d t k => exact State.tileRuns_of_off h d
  | heavy d k => simp [State.buckerRuns, State.serves_of_off h]

theorem State.arrives_of_off (id : Nat) (ok : Req → Bool) : s.arrives id ok = false := by
  unfold State.arrives
  split
  · simp [State.serves_of_off h]
  · rfl

/-- No port is reachable, so no packet is taken. -/
theorem State.ebior_of_off (op : Nat) (p : Port) (k : Packet) (own : State → EbOut) : s.ebior op p k own = s := by
  simp [State.ebior, State.reach_of_off h]

theorem State.maintStart_of_off (code : Nat) (p : Port) (k : Packet) : s.maintStart code p k = s := by
  simp [State.maintStart, State.ebior_of_off h]

theorem State.activity_of_off (code : Nat) (f : State → Bool) (q : ActReq) : s.activity code f q = s := by
  cases q with
  | port p k => exact State.maintStart_of_off h code p k
  | firmware die t4 t5 => simp [State.activity, State.serves_of_off h]

theorem State.tryFence_of_off (c : CrewId) : s.tryFence c = s := by
  unfold State.tryFence
  split <;> simp [State.serves_of_off h]

theorem State.issuable_of_off (c : CrewId) : s.issuable c = none := by
  unfold State.issuable
  split <;> simp [State.serves_of_off h]

/-- No crew may issue, and no fence is completed. -/
theorem State.issueIf_of_off (c : CrewId) (w : W64) (key : Nat) (ready : State → Crew → Bool) (f : State → Issue → State) :
    s.issueIf c w key ready f = s := by
  simp [State.issueIf, State.issuable_of_off h, State.tryFence_of_off h]

theorem State.issue_of_off (c : CrewId) (w : W64) (key : Nat) (f : State → Issue → State) : s.issue c w key f = s :=
  State.issueIf_of_off h c w key _ f

theorem State.formatA_of_off (c : CrewId) (w : W64) (op : Nat) (f : Nat → Nat → Nat → Nat → Nat) : s.formatA c w op f = .next s :=
  congrArg Host.Outcome.next (State.issue_of_off h c w op _)

theorem State.formatP_of_off (c : CrewId) (w : W64) (op : Nat) (f : Nat → Nat → Nat → Nat → Bool) : s.formatP c w op f = .next s :=
  congrArg Host.Outcome.next (State.issue_of_off h c w op _)

theorem State.matrixIssue_of_off (c : CrewId) (w : W64) (op : Nat) : s.matrixIssue c w op = .next s :=
  congrArg Host.Outcome.next (State.issueIf_of_off h c w _ _ _)

theorem State.elementIssue_of_off (c : CrewId) (w : W64) (op : Nat) (check : State → Issue → EInstr → Option (Nat × Nat)) :
    s.elementIssue c w op check = .next s :=
  congrArg Host.Outcome.next (State.issueIf_of_off h c w _ _ _)

/-- No stream takes a record, and none in flight goes on. -/
theorem State.take_of_off (n typ : Nat) (f : State → List W64 → State) : s.take n typ f = s := by
  simp [State.take, State.takes_of_off h]

theorem State.attempt_of_off (n typ : Nat) (ok : List W64 → Bool) (go : State → Flight → State) : s.attempt n typ ok go = s := by
  simp [State.attempt, State.serves_of_off h]

theorem State.answer_of_off (die : Nat) (id : BitVec 17) (f : State → CrewId → Crew → Trap → State) : s.answer die id f = .next s := by
  simp [State.answer, State.serves_of_off h]

/-- No coherence message is taken. -/
theorem State.onMsg_of_off (m : CMsg) (ok : Bool) (f : State → State) : s.onMsg m ok f = .next s := by
  unfold State.onMsg
  split
  · exact when_of_false (by simp [State.serves_of_off h]) _ s
  · rfl

theorem State.xltReply_of_off (pid : BitVec 16) (f : State → Nat → PEntry → State) : s.xltReply pid f = .next s :=
  when_of_false (State.serves_of_off h) _ s

theorem State.dbg_of_off (q : DbgReq) (level : Nat) (ok : Bool) (f : State → State) : s.dbg q level ok f = .next s :=
  when_of_false (State.serves_of_off h) _ s

theorem State.hostSnoop_of_off (op half : Nat) : s.hostSnoop op half = .next s := when_of_false (by simp [State.runs_of_off h]) _ s

theorem execWaitConditionMet_of_off (c : CrewId) : execWaitConditionMet c s = .next s := by
  unfold execWaitConditionMet
  split <;> simp [State.serves_of_off h]

theorem execDieReset_of_off (q : DieResetReq) : execDieReset q s = .next s := by
  cases q with
  | command p k => exact congrArg Host.Outcome.next (State.ebior_of_off h 0x0801 p k _)
  | maint p k => exact congrArg Host.Outcome.next (State.maintStart_of_off h 9 p k)

theorem execRegisterWrite_of_off (w : RegWriter) (addr : Nat) (v : W64) : execRegisterWrite w addr v s = .next s := by
  unfold execRegisterWrite
  split
  · exact when_of_false (State.coreRuns_of_off h _) _ s
  · exact when_of_false (by simp [State.reach_of_off h]) _ s

theorem execExplorationSample_of_off (die : Nat) : execExplorationSample die s = .next s := by
  unfold execExplorationSample
  exact when_of_false (by simp [State.decides_of_off h]) _ s

theorem execMarginLow_of_off (die tile : Nat) (covered : Bool) : execMarginLow die tile covered s = .next s := by
  simp [execMarginLow, State.serves_of_off h]

end


/-- Without power, or after a thermal trip, no command but PWR_GOOD's two edges, the loss of VDD_CAIRN and the JTAG instructions does
anything. -/
theorem exec_of_off {s : State} (h : s.on = false) (c : Instr) (hassert : ∀ x, c ≠ .pwrGoodAssert x) (hloss : ∀ n, c ≠ .pwrGoodLoss n)
    (hvdd : c ≠ .vddCairnLoss) (hextest : c ≠ .extest) (hidcode : c ≠ .idcode) (hsample : c ≠ .samplePreload) (hclamp : c ≠ .clamp)
    (hhighz : c ≠ .highz) (hbypass : ∀ x, c ≠ .bypass x) : exec c s = .next s := by
  unfold exec
  cases c with
  | pwrGoodAssert x => exact absurd rfl (hassert x)
  | pwrGoodLoss n => exact absurd rfl (hloss n)
  | vddCairnLoss => exact absurd rfl hvdd
  | extest => exact absurd rfl hextest
  | idcode => exact absurd rfl hidcode
  | samplePreload => exact absurd rfl hsample
  | clamp => exact absurd rfl hclamp
  | highz => exact absurd rfl hhighz
  | bypass x => exact absurd rfl (hbypass x)
  | imageBegin | imageData | imageEnd | configWrite | configRead | configCommit | safetyProfile | safetyArm | queryIdentity | attest | timeSet
  | timeRead | telemetryRead | eventLogRead | maintStatus | maintAbort | packagePark | resume | streamOpen | streamClose | streamMigrate
  | debugUnlockChallenge | debugUnlockKey | debugUnlockSignature | debugLock | powerLimitSet =>
    exact congrArg Host.Outcome.next (State.ebior_of_off h _ _ _ _)
  | scrub | hbmRetrain | lpRetrain | ridgeRetrain | chanEvac | wayTest | tileRetire | sensorCal =>
    exact congrArg Host.Outcome.next (State.activity_of_off h _ _ _)
  | dieReset q => exact execDieReset_of_off h q
  | registerWrite w addr v => exact execRegisterWrite_of_off h w addr v
  | trapAnswerReplay | trapAnswerSkip | trapAnswerKill => exact State.answer_of_off h _ _ _
  | xltReplyWalk | xltReplyError => exact State.xltReply_of_off h _ _
  | dbgRead | dbgWrite | dbgHalt | dbgRun | dbgStep | bkset | bkclr | inject | sample => exact State.dbg_of_off h _ _ _ _
  | snpinv | snpdata | snpcur => exact State.hostSnoop_of_off h _ _
  | launch | copy | phaseHint | opRequest | link | empty => exact congrArg Host.Outcome.next (State.take_of_off h _ _ _)
  | signal | wait | epoch | flushRange => exact congrArg Host.Outcome.next (State.attempt_of_off h _ _ _ _)
  | mov | iadd | isub | imul | imulhi | imulhu | imad | imin | imax | umin | umax | and | or | xor | not | shl | shr | sar | popc | clz | bfx | fadd
  | fsub | fmul | ffma | fmin | fmax => exact State.formatA_of_off h _ _ _ _
  | isetp | fsetp => exact State.formatP_of_off h _ _ _ _
  | sel | sread | cvt | ld | st | bcopy | nop | bra | brx | call | ret | exit | trap | brk | bar | fenceAcq | fenceRel | fenceAr | atom | red | redl
  | shfl | vote | bwait | waitf | pause => exact congrArg Host.Outcome.next (State.issue_of_off h _ _ _ _)
  | mma | mmap | accld | accst => exact State.matrixIssue_of_off h _ _ _
  | eprun | vget | vput | vflags => exact State.elementIssue_of_off h _ _ _ _
  | mwait | vwait => exact congrArg Host.Outcome.next (State.issueIf_of_off h _ _ _ _ _)
  | waitConditionMet c => exact execWaitConditionMet_of_off h c
  | rds | rdw | rdu | upg | vicd | vicc | fwds | fwdu | inv | cur | rcl | dataReceive | cmp | vcmp | fwddone | wbd | rspi | cack =>
    exact State.onMsg_of_off h _ _ _
  | invack m =>
    refine (apply_ite (· = Host.Outcome.next s) _ _ _).mpr ?_
    split <;> exact State.onMsg_of_off h _ _ _
  | explorationSample die => exact execExplorationSample_of_off h die
  | marginLow die tile covered => exact execMarginLow_of_off h die tile covered
  | _ =>
    refine when_of_false ?_ _ s
    simp [h, State.up_of_off h, State.runs_of_off h, State.serves_of_off h, State.reach_of_off h, State.trains_of_off h,
      State.engineRuns_of_off h, State.tileRuns_of_off h, State.tileEnds_of_off h, State.coreRuns_of_off h,
      State.buckerRuns_of_off h, State.arrives_of_off h]

end Sys2Proof.Machine
end

section
/-! SUPPORT. Every command answers a next state, but for MARGIN_LOW. -/

namespace Sys2Proof.Machine

/-- An outcome that is a next state. -/
def Answers (o : Host.Outcome State Fault Refusal) : Prop := ∃ t, o = .next t

theorem State.onMsg_answers (s : State) (m : CMsg) (ok : Bool) (f : State → State) : Answers (s.onMsg m ok f) := by
  unfold State.onMsg
  split <;> exact ⟨_, rfl⟩

theorem execDieReset_answers (q : DieResetReq) (s : State) : Answers (execDieReset q s) := by
  cases q <;> exact ⟨_, rfl⟩

theorem execRegisterWrite_answers (w : RegWriter) (addr : Nat) (v : W64) (s : State) : Answers (execRegisterWrite w addr v s) := by
  cases w <;> exact ⟨_, rfl⟩

theorem execInvack_answers (m : CMsg) (s : State) : Answers (execInvack m s) := by
  unfold execInvack
  split <;> exact State.onMsg_answers ..

/-- A droop that the stretch covers, or one on a tile that does not run, has its stated effect. -/
theorem execMarginLow_answers {s : State} {die tile : Nat} {covered : Bool}
    (h : covered = true ∨ (s.serves && s.dieLive die && decide (tile < 68)) = false) : Answers (execMarginLow die tile covered s) := by
  unfold execMarginLow
  rcases h with h | h <;> rw [h]
  · split <;> exact ⟨_, rfl⟩
  · exact ⟨_, rfl⟩

theorem execMarginLow_faults {s : State} {die tile : Nat} (h : (s.serves && s.dieLive die && decide (tile < 68)) = true) :
    execMarginLow die tile false s = .fault .marginExceeded := by
  rw [execMarginLow, if_pos h]
  rfl

/-- Only a MARGIN_LOW that the stretch does not cover can fail to answer a next state. -/
theorem exec_answers (s : State) (c : Instr) (h : ∀ die tile, c ≠ .marginLow die tile false) : Answers (exec c s) := by
  unfold exec
  cases c with
  | dieReset q => exact execDieReset_answers q s
  | registerWrite w addr v => exact execRegisterWrite_answers w addr v s
  | rds | rdw | rdu | upg | vicd | vicc | fwds | fwdu | inv | cur | rcl | dataReceive | cmp | vcmp | fwddone | wbd | rspi | cack =>
    exact State.onMsg_answers ..
  | invack m => exact execInvack_answers m s
  | marginLow die tile covered =>
    cases covered with
    | false => exact absurd rfl (h die tile)
    | true => exact execMarginLow_answers (.inl rfl)
  | _ => exact ⟨_, rfl⟩

end Sys2Proof.Machine
end

section
/-! The obligations about a block without power and about what commands answer. -/

namespace Sys2Proof.Machine

/-- Settles O50: every command is guarded by a condition that fails while Cairn is off. That a thermal trip leaves the whole state as it was is
the model's reading (log entry 56), as is that a command whose event cannot happen changes nothing (log entry 2). -/
theorem unpoweredBlockIsStill : Obligations.UnpoweredBlockIsStill := by
  unfold Obligations.UnpoweredBlockIsStill
  exact ⟨fun s c h => exec_of_off h c,
    fun s h hidle => by rw [step_of_idle hidle, State.tick_of_still (.inl (State.up_of_off h))]⟩

/-- Settles O46: MARGIN_LOW is the one command that has an outcome besides a next state, and only where R390 gives no effect. -/
theorem everyCommandAnswers : Obligations.EveryCommandAnswers := by
  unfold Obligations.EveryCommandAnswers
  have hmargin (s : State) (die tile : Nat) (covered : Bool) : exec (.marginLow die tile covered) s = execMarginLow die tile covered s := rfl
  refine ⟨fun s c r hr => ?_, exec_answers, fun s die tile covered f => ⟨fun hf => ?_, ?_⟩⟩
  · by_cases h : ∃ die tile, c = .marginLow die tile false
    · obtain ⟨die, tile, rfl⟩ := h
      rw [hmargin] at hr
      cases hruns : s.serves && s.dieLive die && decide (tile < 68)
      · obtain ⟨t, ht⟩ := execMarginLow_answers (covered := false) (.inr hruns)
        cases ht.symm.trans hr
      · cases (execMarginLow_faults hruns).symm.trans hr
    · obtain ⟨t, ht⟩ := exec_answers s c fun die tile hc => h ⟨die, tile, hc⟩
      cases ht.symm.trans hr
  · rw [hmargin] at hf
    by_cases h : covered = true ∨ (s.serves && s.dieLive die && decide (tile < 68)) = false
    · obtain ⟨t, ht⟩ := execMarginLow_answers h
      cases ht.symm.trans hf
    · obtain ⟨hcovered, hruns⟩ : covered = false ∧ (s.serves && s.dieLive die && decide (tile < 68)) = true := by simpa [and_assoc] using h
      subst hcovered
      cases (execMarginLow_faults hruns).symm.trans hf
      simpa [and_assoc] using hruns
  · rintro ⟨rfl, rfl, hserves, hlive, htile⟩
    exact execMarginLow_faults (by simp [hserves, hlive, htile])

end Sys2Proof.Machine
end

section
/-! SUPPORT. Byte lists: how long a field is, what it reads as, and the end of a list. -/

namespace Sys2Proof.Machine

@[simp] theorem leBytes_length (n v : Nat) : (leBytes n v).length = n := by
  induction n generalizing v with
  | zero => rfl
  | succ n ih => simp [leBytes, ih]

@[simp] theorem padTo_length (n : Nat) (l : List Byte) : (padTo n l).length = n := by
  simp only [padTo, List.length_append, List.length_take, List.length_replicate]
  omega

theorem padTo_of_length {n : Nat} {l : List Byte} (h : l.length = n) : padTo n l = l := by
  simp [padTo, ← h]

theorem leNat_leBytes (n v : Nat) : leNat (leBytes n v) = v % 2 ^ (8 * n) := by
  induction n generalizing v with
  | zero => simp [leBytes, leNat, Nat.mod_one]
  | succ n ih =>
    have hpow : 2 ^ (8 * (n + 1)) = 256 * 2 ^ (8 * n) := by rw [Nat.mul_succ, Nat.pow_add, Nat.mul_comm]
    rw [leBytes, leNat, ih, hpow, Nat.mod_mul, BitVec.toNat_ofNat]

/-- A field at the start of a list. -/
theorem byteFld_leBytes (n v : Nat) (l : List Byte) : byteFld (leBytes n v ++ l) 0 n = v % 2 ^ (8 * n) := by
  rw [byteFld, List.drop_zero, List.take_append_of_le_length (leBytes_length n v).ge, List.take_of_length_le (leBytes_length n v).le,
    leNat_leBytes]

/-- A field past the first part of a list. -/
theorem byteFld_append {a : List Byte} {o : Nat} (h : a.length ≤ o) (l : List Byte) (n : Nat) : byteFld (a ++ l) o n = byteFld l (o - a.length) n := by
  rw [byteFld, List.drop_append, List.drop_of_length_le h, List.nil_append, byteFld]

/-- The end of a list that grew in two steps, each cut to its last `n`. -/
theorem lastN_append {α : Type} (n : Nat) (l m : List α) : lastN n (lastN n l ++ m) = lastN n (l ++ m) := by
  simp only [lastN, List.length_append, List.length_drop, List.drop_append, List.drop_drop]
  congr 1
  · congr 1
    omega
  · congr 1
    omega

theorem lastN_of_length_le {α : Type} {n : Nat} {l : List α} (h : l.length ≤ n) : lastN n l = l := by
  rw [lastN, Nat.sub_eq_zero_of_le h, List.drop_zero]

@[simp] theorem lastN_length {α : Type} (n : Nat) (l : List α) : (lastN n l).length = min n l.length := by
  rw [lastN, List.length_drop]
  omega

end Sys2Proof.Machine
end

section
/-! SUPPORT. The event log and the measurement log as events are added to them. -/

namespace Sys2Proof.Machine

/-- The entry that an event adds to the log now. -/
def State.newEntry (s : State) (code die sev : Nat) (data : List Nat) : LogEntry :=
  { seq := s.logSeq, time := s.now, code := code, die := die, sev := sev, data := data }

@[simp] theorem State.logEv_log (s : State) (code die sev : Nat) (data : List Nat) :
    (s.logEv code die sev data).log = lastN 1024 (s.log ++ [s.newEntry code die sev data]) := by
  unfold State.logEv State.newEntry
  dsimp only
  rw [State.raise_log, apply_ite State.log, State.count_log, ite_self]

/-- Below 1,024 entries the log grows by one. -/
theorem State.logEv_of_room {s : State} (h : s.log.length < 1024) (code die sev : Nat) (data : List Nat) : s.logEv code die sev data =
    ({ s with log := s.log ++ [s.newEntry code die sev data], logSeq := s.logSeq + 1 } : State).raise 70 := by
  unfold State.logEv
  dsimp only
  rw [if_neg (Nat.not_le.2 h), lastN_of_length_le (by simpa using h)]
  rfl

/-- At 1,024 entries the oldest is overwritten and counted. -/
theorem State.logEv_of_full {s : State} (h : s.log.length = 1024) (code die sev : Nat) (data : List Nat) : s.logEv code die sev data =
    (({ s with log := s.log.tail ++ [s.newEntry code die sev data], logSeq := s.logSeq + 1 } : State).count (svc 16)).raise 70 := by
  have hdrop : lastN 1024 (s.log ++ [s.newEntry code die sev data]) = s.log.tail ++ [s.newEntry code die sev data] := by
    rw [lastN, List.length_append, h, List.length_singleton, Nat.add_sub_cancel_left,
      List.drop_append_of_le_length (by rw [h]; decide), List.drop_one]
  unfold State.logEv
  dsimp only
  rw [if_pos h.ge, ← hdrop]
  rfl

/-- A log that grew from `l` to `m`: entries were added at its end, the oldest overwritten beyond `n`. -/
def LogGrows (n : Nat) (l m : List LogEntry) : Prop := ∃ new, m = lastN n (l ++ new)

theorem LogGrows.refl {n : Nat} {l : List LogEntry} (h : l.length ≤ n) : LogGrows n l l :=
  ⟨[], by rw [List.append_nil, lastN_of_length_le h]⟩

theorem LogGrows.trans {n : Nat} {l m k : List LogEntry} (h : LogGrows n l m) (h' : LogGrows n m k) : LogGrows n l k := by
  obtain ⟨x, hx⟩ := h
  obtain ⟨y, hy⟩ := h'
  exact ⟨x ++ y, by rw [hy, hx, lastN_append, List.append_assoc]⟩

theorem State.logGrows_logEv {s : State} {l : List LogEntry} (h : s.log = l) (code die sev : Nat) (data : List Nat) :
    LogGrows 1024 l (s.logEv code die sev data).log :=
  ⟨_, by rw [State.logEv_log, h]⟩

theorem State.logGrows_halt {s : State} (hlen : s.log.length ≤ 1024) (cause : Nat) : LogGrows 1024 s.log (s.halt cause).log := by
  unfold State.halt
  split
  · exact .refl hlen
  · rw [State.limitReplies_log]
    exact State.logGrows_logEv (by rfl) ..

theorem State.logEv_log_length (s : State) (code die sev : Nat) (data : List Nat) : (s.logEv code die sev data).log.length ≤ 1024 := by
  rw [State.logEv_log, lastN_length]
  exact Nat.min_le_left ..

theorem execLockstepMismatch_logGrows {s t : State} (hlen : s.log.length ≤ 1024) (h : execLockstepMismatch s = .next t) :
    LogGrows 1024 s.log t.log := by
  unfold execLockstepMismatch when_ at h
  cases h
  split
  · dsimp only
    split
    · exact (State.logGrows_logEv (by rfl) ..).trans (State.logGrows_halt (State.logEv_log_length ..) _)
    · exact State.logGrows_logEv (by rfl) ..
  · exact .refl hlen

theorem execCairnRestartComplete_log {s t : State} (hwait : s.cairn.waiting = none) (h : execCairnRestartComplete s = .next t) :
    t.log = s.log := by
  unfold execCairnRestartComplete when_ at h
  cases h
  split
  · simp only [hwait]
  · rfl

/-- EVENT_LOG_READ answers from the number requested, when it is still held. -/
theorem doEventLogRead_held {s : State} {k : Packet} (h : s.logSeq - s.log.length ≤ byteFld (pktData k) 0 8) (p : Port) : doEventLogRead p k s =
    .reply 0 ((((s.log.drop (byteFld (pktData k) 0 8 - (s.logSeq - s.log.length))).take 16).map LogEntry.bytes).flatten) s := by
  simp [doEventLogRead, h, Nat.not_lt.2 h]

/-- When entries from the number requested were overwritten, it answers from the oldest held. -/
theorem doEventLogRead_overwritten {s : State} {k : Packet} (h : byteFld (pktData k) 0 8 < s.logSeq - s.log.length) (p : Port) :
    doEventLogRead p k s = .reply 0x0602 (((s.log.take 16).map LogEntry.bytes).flatten) s := by
  simp [doEventLogRead, h, Nat.max_eq_right h.le]

/-- An accepted packet whose own part replies ends with that reply. -/
theorem State.ebior_replies {s t : State} {op st : Nat} {p : Port} {k : Packet} {res : List Byte} {own : State → EbOut}
    (haccepts : s.accepts op p k = true) (hown : own (s.began op p k) = .reply st res t) : s.ebior op p k own = t.finish p st res := by
  rw [State.ebior_accepts own haccepts, hown]

/-- An accepted packet whose own part holds its port leaves the reply to a later event. -/
theorem State.ebior_holds {s t : State} {op : Nat} {p : Port} {k : Packet} {own : State → EbOut}
    (haccepts : s.accepts op p k = true) (hown : own (s.began op p k) = .hold t) : s.ebior op p k own = t := by
  rw [State.ebior_accepts own haccepts, hown]

theorem exec_eventLogRead_held {s : State} {p : Port} {k : Packet} (haccepts : s.accepts 0x0602 p k = true)
    (h : s.logSeq - s.log.length ≤ byteFld (pktData k) 0 8) : exec (.eventLogRead p k) s = .next ((s.began 0x0602 p k).finish p 0
      ((((s.log.drop (byteFld (pktData k) 0 8 - (s.logSeq - s.log.length))).take 16).map LogEntry.bytes).flatten)) :=
  congrArg Host.Outcome.next (State.ebior_replies haccepts (by
    rw [doEventLogRead_held (by simpa using h), State.began_log, State.began_logSeq]))

theorem exec_eventLogRead_overwritten {s : State} {p : Port} {k : Packet} (haccepts : s.accepts 0x0602 p k = true)
    (h : byteFld (pktData k) 0 8 < s.logSeq - s.log.length) : exec (.eventLogRead p k) s =
      .next ((s.began 0x0602 p k).finish p 0x0602 (((s.log.take 16).map LogEntry.bytes).flatten)) :=
  congrArg Host.Outcome.next (State.ebior_replies haccepts (by
    rw [doEventLogRead_overwritten (by simpa using h), State.began_log]))

@[simp] theorem LogEntry.bytes_length (e : LogEntry) : e.bytes.length = 64 := by simp [LogEntry.bytes]

@[simp] theorem Meas.bytes_length (m : Meas) : m.bytes.length = 80 := by simp [Meas.bytes]

/-- Below 63 entries an event is appended to the measurement log. -/
theorem Cairn.measure_of_room {c : Cairn} (h : c.log.length < 63) (now typ arg : Nat) (value : List Byte) : c.measure now typ arg value =
    { c with log := c.log ++ [{ typ := typ, arg := arg, dtime := now, value := padTo 64 value }] } := by
  rw [Cairn.measure, if_pos h]

/-- The entry 64 that a further event is folded into. -/
def Cairn.folded (c : Cairn) : Meas := nth { typ := 7, arg := 0, dtime := 0, value := padTo 64 Free.foldFirst } c.log 63

/-- From 63 entries on an event is folded into entry 64. -/
theorem Cairn.measure_of_full {c : Cairn} (h : 63 ≤ c.log.length) (now typ arg : Nat) (value : List Byte) : c.measure now typ arg value =
    { c with log := c.log.take 63 ++ [{
        typ := 7, arg := c.folded.arg + 1, dtime := now,
        value := shake 64 (c.folded.value ++ Meas.bytes { typ := typ, arg := arg, dtime := now, value := padTo 64 value }) }] } := by
  rw [Cairn.measure, if_neg (Nat.not_lt.2 h)]
  rfl

theorem Cairn.measure_log_length (c : Cairn) (now typ arg : Nat) (value : List Byte) : (c.measure now typ arg value).log.length ≤ 64 := by
  by_cases h : c.log.length < 63
  · rw [Cairn.measure_of_room h]
    simp only [List.length_append, List.length_singleton]
    omega
  · rw [Cairn.measure_of_full (Nat.not_lt.1 h)]
    simp only [List.length_append, List.length_singleton, List.length_take]
    omega

end Sys2Proof.Machine
end

section
/-! The obligations about the two logs. -/

namespace Sys2Proof.Machine

/-- Settles O52: the layout by reading each field of the bytes, the rest by what one event adds to the log. -/
theorem eventLogKeepsItsEntries : Obligations.EventLogKeepsItsEntries := by
  unfold Obligations.EventLogKeepsItsEntries
  refine ⟨fun e => ⟨e.bytes_length, ?_⟩, fun s code die sev data e he => ⟨fun h => he ▸ State.logEv_of_room h .., fun h => he ▸ State.logEv_of_full h .., by simp⟩,
    fun s p k q haccepts hq => ⟨fun h => hq ▸ exec_eventLogRead_held haccepts (hq ▸ h), fun h => exec_eventLogRead_overwritten haccepts (hq ▸ h)⟩,
    fun s t hwait h => execCairnRestartComplete_log hwait h, fun s t hlen h => execLockstepMismatch_logGrows hlen h, fun s => rfl⟩
  simp [LogEntry.bytes, byteFld_append, byteFld_leBytes]

/-- Settles O53: the layout by reading each field of the bytes, the rest by whether 63 entries are held. -/
theorem measurementLogFolds : Obligations.MeasurementLogFolds := by
  unfold Obligations.MeasurementLogFolds
  refine ⟨fun m => ⟨m.bytes_length, ?layout⟩, fun c now typ arg value m hm => ⟨fun h => hm ▸ Cairn.measure_of_room h .., fun old hold hlen => ?fold, fun hlen => ?first,
    fun _ => Cairn.measure_log_length ..⟩⟩
  case layout => simp [Meas.bytes, byteFld_append, byteFld_leBytes, List.drop_append, List.drop_of_length_le]
  case fold =>
    have hfolded : c.folded = old := by rw [Cairn.folded, nth, hold, Option.getD_some]
    rw [Cairn.measure_of_full (by omega), hfolded, ← hm]
    exact ⟨_, rfl⟩
  case first =>
    rw [Cairn.measure_of_full hlen.ge, List.take_of_length_le hlen.le, ← hm]
    exact ⟨_, _, rfl⟩

end Sys2Proof.Machine
end

section
/-! SUPPORT. A packet that its port ignores, and a reply by its port. -/

namespace Sys2Proof.Machine

section
variable {s : State} {op : Nat} {p : Port} {k : Packet} (own : State → EbOut)

theorem State.ebior_unreached (h : s.reach p = false) : s.ebior op p k own = s := by
  simp [State.ebior, h]

/-- A packet on a port that is busy, or that Cairn's restart keeps busy, is counted where its port counts. -/
theorem State.ebior_ignored (hreach : s.reach p = true) (h : ((s.port p).busy || (s.cairn.restarting && p != .n)) = true) :
    s.ebior op p k own = (match p with
      | .b => s.count (svc 12)
      | q => s.setPort q { s.port q with ign := satAdd (2 ^ 32 - 1) (s.port q).ign 1 }) := by
  unfold State.ebior
  dsimp only
  rw [hreach, Bool.not_true, if_neg Bool.false_ne_true, if_pos h]
  cases p <;> rfl

/-- While Cairn restarts, a command on N waits with its port busy (R405). -/
theorem State.ebior_waits (hreach : s.reach .n = true) (hfree : s.portN.busy = false) (hrestart : s.cairn.restarting = true) :
    s.ebior op .n k own = { s.began op .n k with cairn := { s.cairn with waiting := some (op, k) } } := by
  have hport : (s.port .n).busy = false := hfree
  unfold State.ebior State.began
  dsimp only
  rw [if_neg (by simp [hreach]), if_neg (by simp [hport]), if_pos hrestart]
  rfl

/-- The CRC check comes first, and its status stands for no other. -/
theorem ebCheck_eq_crc {stage : Nat} : ebCheck op p k stage = some 1 ↔ k.crc.toNat ≠ pktCrc k op := by
  unfold ebCheck
  split
  · simp [*]
  · next hcrc =>
    have hok : k.crc.toNat = pktCrc k op := not_not.1 hcrc
    simp only [hok, ne_eq, not_true_eq_false, iff_false]
    repeat' split
    all_goals simp

end

section
variable {s : State} (st : Nat) (res : List Byte)

theorem State.finish_discarded {p : Port} (h : (s.port p).discard = true) :
    s.finish p st res = s.setPort p { s.port p with busy := false, discard := false } := by
  rw [State.finish]
  exact if_pos h

/-- On H the reply is written, and signalled as IEN and the entry's mask say. -/
theorem State.finish_h (h : s.portH.discard = false) (v : PortSt)
    (hv : v = { s.portH with busy := false, done := true, reply := some { status := st, seq := s.portH.seq, results := res } }) :
    s.finish .h st res = { s with portH :=
      if s.portH.ien then if bitOf s.portH.msixTable 96 then { v with msixPending := true } else { v with msixSent := s.portH.msixSent + 1 }
      else v } := by
  have hport : ¬ (s.port .h).discard = true := by simp [State.port, h]
  subst hv
  unfold State.finish
  dsimp only
  rw [if_neg hport]
  change (if s.portH.ien then if bitOf s.portH.msixTable 96 then _ else _ else _) = _
  repeat' split
  all_goals rfl

theorem State.finish_b (h : s.portB.discard = false) : s.finish .b st res = { s with portB := { s.portB with
    busy := false, done := true, reply := some { status := st, seq := s.portB.seq, results := res } } } := by
  have hport : ¬ (s.port .b).discard = true := by simp [State.port, h]
  unfold State.finish
  dsimp only
  rw [if_neg hport]
  rfl

theorem State.finish_n (h : s.portN.discard = false) : s.finish .n st res = ({ s with portN := { s.portN with
    busy := false, done := true, reply := some { status := st, seq := s.portN.seq, results := res } } }).raise 71 := by
  have hport : ¬ (s.port .n).discard = true := by simp [State.port, h]
  unfold State.finish
  dsimp only
  rw [if_neg hport]
  rfl

end

/-- A pin-driving instruction where R423 allows it. -/
theorem State.scanDrive_allowed {s : State} (h : s.scanAllowed = true) (code : Nat) (dr : Option Nat) :
    s.scanDrive code dr = { s with jtag := { instr := code, dr := dr.getD s.jtag.dr } } := by
  rw [State.scanDrive, if_pos h]

/-- Where R423 does not allow it, BYPASS is loaded and counted. -/
theorem State.scanDrive_forbidden {s : State} (h : s.scanAllowed = false) (code : Nat) (dr : Option Nat) :
    s.scanDrive code dr = ({ s with jtag := { s.jtag with instr := 0xFF } }).count (svc 14) := by
  rw [State.scanDrive, if_neg (by simp [h])]

section
variable {s : State} (hon : s.plat.on = true)
include hon

theorem exec_extest : exec .extest s = .next (s.scanDrive 0 (some s.pins)).drawn := (when_of_true hon _ s : execExtest s = _)
theorem exec_clamp : exec .clamp s = .next (s.scanDrive 3 none) := (when_of_true hon _ s : execClamp s = _)
theorem exec_highz : exec .highz s = .next (s.scanDrive 4 none) := (when_of_true hon _ s : execHighz s = _)

end

end Sys2Proof.Machine
end

section
/-! The obligations about packets, replies and boundary scan. -/

namespace Sys2Proof.Machine

/-- Settles O4: each clause is the branch of the shared wrapper that its hypotheses select. -/
theorem commandPacketChecked : Obligations.CommandPacketChecked := by
  unfold Obligations.CommandPacketChecked
  refine ⟨fun s op p k own h => State.ebior_accepts own h, fun s op p k own st hreach hfree hrestart hcheck => State.ebior_refused own hreach hfree hrestart hcheck,
    fun s op k own hreach hbusy => State.ebior_ignored own hreach (by simp [State.port, hbusy]),
    fun s op k own hreach hbusy => State.ebior_ignored own hreach (by simp [State.port, hbusy]),
    fun s op k own hreach hbusy => State.ebior_ignored own hreach (by simp [State.port, hbusy]),
    fun s op k own hrestart => ⟨fun hreach => State.ebior_ignored own hreach (by simp [hrestart]),
      fun hreach => State.ebior_ignored own hreach (by simp [hrestart]), fun hreach hfree => State.ebior_waits own hreach hfree hrestart⟩,
    fun s op p k own hreach => State.ebior_unreached own hreach, fun op p k stage => ebCheck_eq_crc⟩

/-- Settles O5: each clause is what the end of a command does on its port. -/
theorem commandEndsWithReply : Obligations.CommandEndsWithReply := by
  unfold Obligations.CommandEndsWithReply
  refine ⟨fun s st res hdiscard hien hmask => ?_, fun s st res hdiscard hien hmask => ?_, fun s st res hdiscard hien => ?_,
    fun s st res hdiscard => State.finish_b st res hdiscard, fun s st res hdiscard => State.finish_n st res hdiscard,
    fun s st res hdiscard => State.finish_discarded (p := .h) st res hdiscard⟩
  · rw [State.finish_h st res hdiscard _ rfl, if_pos hien, if_neg (by simp [hmask])]
  · rw [State.finish_h st res hdiscard _ rfl, if_pos hien, if_pos hmask]
  · rw [State.finish_h st res hdiscard _ rfl, if_neg (by simp [hien])]

/-- Settles O3: the pin-driving instructions by whether R423 allows them, the others as they stand. -/
theorem boundaryScanComplete : Obligations.BoundaryScanComplete := by
  unfold Obligations.BoundaryScanComplete
  refine ⟨fun s hon => (when_of_true hon _ s : execIdcode s = _), fun s hon => (when_of_true hon _ s : execSamplePreload s = _), fun s hon h => ?_, fun s hon h => ?_,
    fun s code hon hcode => (when_of_true (by simp [hon, hcode]) _ s : execBypass code s = _)⟩
  · rw [exec_extest hon, exec_clamp hon, exec_highz hon]
    simp only [State.scanDrive_allowed h]
    exact ⟨rfl, rfl, rfl⟩
  · rw [exec_extest hon, exec_clamp hon, exec_highz hon]
    simp only [State.scanDrive_forbidden h, and_self]

end Sys2Proof.Machine
end

section
/-! SUPPORT. The invariant as a view of the state: what it reads, and the rules for each part of it. -/

namespace Sys2Proof.Machine

/-- Local store and accumulator memory are canonical. -/
def SoundTile (ls acc : Store) : Prop := ls.wf = true ∧ acc.wf = true

def Tile.Sound (t : Tile) : Prop := SoundTile t.ls t.acc

/-- The invariant, as a statement about the parts of a state that it reads. -/
def SoundParts (dram : Store) (landing : Sparse Store) (tiles : Sparse Tile) (log : List LogEntry) (meas : List Meas) (stage pstate : Nat) : Prop :=
  dram.wf = true ∧ (∀ e ∈ landing, e.2.wf = true) ∧ (∀ e ∈ tiles, e.2.Sound) ∧ log.length ≤ 1024 ∧ meas.length ≤ 64 ∧ stage ≤ 3 ∧ pstate ≤ 3

def State.Sound (s : State) : Prop := SoundParts s.dram s.landing s.tiles s.log s.cairn.log s.plat.stage s.power.pstate

theorem State.sound_iff_inv (s : State) : s.Sound ↔ s.Inv := by
  unfold State.Sound SoundParts Tile.Sound SoundTile State.Inv State.memories
  simp only [List.mem_append, List.mem_cons, List.mem_map, Store.wf, or_imp, forall_and, forall_eq, forall_exists_index, and_imp,
    forall_apply_eq_imp_iff₂]
  tauto

@[simp] theorem State.sound_mk pending plat fuses portH portB portN cfg cairn time tally log logSeq acts actNum routes imsic trapTail trapHead
    trapWait streams launches launchNum tiles heavy serial landing dram reqs reqNum ansNum slices msgs agents dead notices rejoin reclaimed beats
    host hostBusy hostQ snoopQ snoopIn hostOut xlt chans remap hbm tmax cols tokens held asks colSat links rdgRoute rdgWin plans holds chunkOut
    chunkRsp bcasts bcOut starts rdgIn rdgOut power fb cores dbgUnit jtag fresh :
    State.Sound (State.mk pending plat fuses portH portB portN cfg cairn time tally log logSeq acts actNum routes imsic trapTail trapHead trapWait
    streams launches launchNum tiles heavy serial landing dram reqs reqNum ansNum slices msgs agents dead notices rejoin reclaimed beats host
    hostBusy hostQ snoopQ snoopIn hostOut xlt chans remap hbm tmax cols tokens held asks colSat links rdgRoute rdgWin plans holds chunkOut chunkRsp
    bcasts bcOut starts rdgIn rdgOut power fb cores dbgUnit jtag fresh) = SoundParts dram landing tiles log cairn.log plat.stage power.pstate := (rfl)

@[simp] theorem State.soundParts_self (s : State) :
    SoundParts s.dram s.landing s.tiles s.log s.cairn.log s.plat.stage s.power.pstate = s.Sound := (rfl)

@[simp] theorem Tile.sound_mk retired retiring launch stands crews gens ls acc mq arr xfer eq ex arrSaw xferSaw exSaw xferDraw xferDone ctx progs ibuf
    l1 l1Clock chans turn halted stepping stretched :
    Tile.Sound (Tile.mk retired retiring launch stands crews gens ls acc mq arr xfer eq ex arrSaw xferSaw exSaw xferDraw xferDone ctx progs ibuf
      l1 l1Clock chans turn halted stepping stretched) = SoundTile ls acc := (rfl)

@[simp] theorem Tile.soundTile_self (t : Tile) : SoundTile t.ls t.acc = t.Sound := (rfl)

/-! One part of a sound state replaced. -/

section
variable {s : State} (hs : s.Sound)
include hs

theorem State.Sound.dram : s.dram.wf = true := hs.1
theorem State.Sound.landing : ∀ e ∈ s.landing, e.2.wf = true := hs.2.1
theorem State.Sound.tiles : ∀ e ∈ s.tiles, e.2.Sound := hs.2.2.1
theorem State.Sound.stage : s.plat.stage ≤ 3 := hs.2.2.2.2.2.1
theorem State.Sound.pstate : s.power.pstate ≤ 3 := hs.2.2.2.2.2.2

@[simp] theorem State.Sound.with_dram {d : Store} (hd : d.wf = true) :
    SoundParts d s.landing s.tiles s.log s.cairn.log s.plat.stage s.power.pstate := ⟨hd, hs.2⟩

@[simp] theorem State.Sound.with_landing {l : Sparse Store} (hl : ∀ e ∈ l, e.2.wf = true) :
    SoundParts s.dram l s.tiles s.log s.cairn.log s.plat.stage s.power.pstate := ⟨hs.1, hl, hs.2.2⟩

@[simp] theorem State.Sound.with_tiles {l : Sparse Tile} (hl : ∀ e ∈ l, e.2.Sound) :
    SoundParts s.dram s.landing l s.log s.cairn.log s.plat.stage s.power.pstate := ⟨hs.1, hs.2.1, hl, hs.2.2.2⟩

@[simp] theorem State.Sound.with_log {l : List LogEntry} (hl : l.length ≤ 1024) :
    SoundParts s.dram s.landing s.tiles l s.cairn.log s.plat.stage s.power.pstate := ⟨hs.1, hs.2.1, hs.2.2.1, hl, hs.2.2.2.2⟩

@[simp] theorem State.Sound.with_meas {l : List Meas} (hl : l.length ≤ 64) :
    SoundParts s.dram s.landing s.tiles s.log l s.plat.stage s.power.pstate := ⟨hs.1, hs.2.1, hs.2.2.1, hs.2.2.2.1, hl, hs.2.2.2.2.2⟩

@[simp] theorem State.Sound.with_stage {n : Nat} (hn : n ≤ 3) :
    SoundParts s.dram s.landing s.tiles s.log s.cairn.log n s.power.pstate :=
  ⟨hs.1, hs.2.1, hs.2.2.1, hs.2.2.2.1, hs.2.2.2.2.1, hn, hs.pstate⟩

@[simp] theorem State.Sound.with_pstate {n : Nat} (hn : n ≤ 3) :
    SoundParts s.dram s.landing s.tiles s.log s.cairn.log s.plat.stage n :=
  ⟨hs.1, hs.2.1, hs.2.2.1, hs.2.2.2.1, hs.2.2.2.2.1, hs.stage, hn⟩

end

/-! The entries of a finite map. -/

theorem forall_alPut {α : Type} {p : α → Prop} {t : Sparse α} {n : Nat} {v : α} (ht : ∀ e ∈ t, p e.2) (hv : p v) :
    ∀ e ∈ alPut t n v, p e.2 := by
  induction t with
  | nil => simpa [alPut] using hv
  | cons e r ih =>
    obtain ⟨he, hr⟩ := List.forall_mem_cons.1 ht
    unfold alPut
    split
    · exact List.forall_mem_cons.2 ⟨hv, hr⟩
    split
    · exact List.forall_mem_cons.2 ⟨hv, ht⟩
    · exact List.forall_mem_cons.2 ⟨he, ih hr⟩

theorem forall_of_alPut {α : Type} {p : α → Prop} {d v : α} {t : Sparse α} {n : Nat} (hv : p v → p (alGet d t n))
    (h : ∀ e ∈ alPut t n v, p e.2) : ∀ e ∈ t, p e.2 := by
  induction t with
  | nil => simp
  | cons e r ih =>
    obtain ⟨k, w⟩ := e
    unfold alPut at h
    split at h
    · next hk =>
      subst hk
      obtain ⟨h1, h2⟩ := List.forall_mem_cons.1 h
      refine List.forall_mem_cons.2 ⟨?_, h2⟩
      simpa [alGet, alFind] using hv h1
    split at h
    · exact (List.forall_mem_cons.1 h).2
    · next hk _ =>
      obtain ⟨h1, h2⟩ := List.forall_mem_cons.1 h
      refine List.forall_mem_cons.2 ⟨h1, ih (fun hp => ?_) h2⟩
      simpa [alGet, alFind, hk] using hv hp

theorem forall_alGet {α : Type} {p : α → Prop} {d : α} {t : Sparse α} (ht : ∀ e ∈ t, p e.2) (hd : p d) (n : Nat) : p (alGet d t n) := by
  unfold alGet
  induction t with
  | nil => exact hd
  | cons e r ih =>
    obtain ⟨he, hr⟩ := List.forall_mem_cons.1 ht
    unfold alFind
    split
    · exact he
    · exact ih hr

/-- A fold of steps each of which keeps a property of what it carries keeps it. -/
theorem foldl_holds {σ α : Type} {p : σ → Prop} {f : σ → α → σ} (h : ∀ t x, p t → p (f t x)) (l : List α) {s : σ} (hs : p s) :
    p (l.foldl f s) := by
  induction l generalizing s with
  | nil => exact hs
  | cons a r ih => exact ih (h s a hs)

theorem Store.empty_wf : ({} : Store).wf = true := rfl

theorem State.Sound.tile {s : State} (hs : s.Sound) (d t : Nat) : (s.tile d t).Sound :=
  forall_alGet hs.tiles ⟨rfl, rfl⟩ _

section
variable {dram : Store} {landing : Sparse Store} {s : State} {log : List LogEntry} {meas : List Meas} {stage pstate : Nat} {v : Tile} {d t : Nat}

@[simp] theorem SoundParts.setTile (h : SoundParts dram landing s.tiles log meas stage pstate) (hv : v.Sound) :
    SoundParts dram landing (s.setTile d t v).tiles log meas stage pstate := by
  obtain ⟨hdram, hland, htiles, hrest⟩ := h
  exact ⟨hdram, hland, forall_alPut htiles hv, hrest⟩

/-- A tile whose stores stay as they were. -/
@[simp] theorem SoundParts.setTile_same (hls : v.ls = (s.tile d t).ls) (hacc : v.acc = (s.tile d t).acc) :
    SoundParts dram landing (s.setTile d t v).tiles log meas stage pstate = SoundParts dram landing s.tiles log meas stage pstate := by
  have hv : v.Sound = (s.tile d t).Sound := congrArg₂ SoundTile hls hacc
  refine propext ⟨fun h => ?_, fun h => h.setTile (hv ▸ forall_alGet h.2.2.1 ⟨rfl, rfl⟩ _)⟩
  obtain ⟨hdram, hland, htiles, hrest⟩ := h
  exact ⟨hdram, hland, forall_of_alPut hv.mp htiles, hrest⟩

@[simp] theorem SoundParts.setCrew (c : CrewId) (v : Crew) :
    SoundParts dram landing (s.setCrew c v).tiles log meas stage pstate = SoundParts dram landing s.tiles log meas stage pstate :=
  SoundParts.setTile_same rfl rfl

@[simp] theorem State.setTile_sound (hs : s.Sound) (hv : v.Sound) : (s.setTile d t v).Sound := SoundParts.setTile hs hv

@[simp] theorem State.setTile_same (hls : v.ls = (s.tile d t).ls) (hacc : v.acc = (s.tile d t).acc) : (s.setTile d t v).Sound = s.Sound :=
  SoundParts.setTile_same hls hacc

end

section
variable {s : State} (hs : s.Sound)
include hs

theorem State.Sound.mod_landing (n : Nat) {f : Store → Store} (hf : ∀ st : Store, st.wf = true → (f st).wf = true) :
    ∀ e ∈ alMod {} s.landing n f, e.2.wf = true :=
  forall_alPut (p := fun st : Store => st.wf = true) hs.landing (hf _ (forall_alGet (p := fun st : Store => st.wf = true) hs.landing rfl n))

theorem State.Sound.map_tiles {f : Nat × Tile → Tile} (hf : ∀ e : Nat × Tile, e.2.Sound → (f e).Sound) :
    ∀ e ∈ s.tiles.map (fun e => (e.1, f e)), e.2.Sound := by
  simp only [List.forall_mem_map]
  exact fun e he => hf e (hs.tiles e he)

end

/-! What the model does to a tile without touching its stores. -/

section
variable (t : Tile)

@[simp] theorem Tile.l1Put_ls (sets line : Nat) (l : Line) : (t.l1Put sets line l).ls = t.ls := (rfl)
@[simp] theorem Tile.l1Put_acc (sets line : Nat) (l : Line) : (t.l1Put sets line l).acc = t.acc := (rfl)
@[simp] theorem Tile.l1Use_ls (key : Nat) : (t.l1Use key).ls = t.ls := (rfl)
@[simp] theorem Tile.l1Use_acc (key : Nat) : (t.l1Use key).acc = t.acc := (rfl)
theorem Tile.buffer_eq (va : Nat) (l : Line) : ∃ b, t.buffer va l = { t with ibuf := b } := ⟨_, rfl⟩
@[simp] theorem Tile.buffer_ls (va : Nat) (l : Line) : (t.buffer va l).ls = t.ls := by
  obtain ⟨b, hb⟩ := t.buffer_eq va l
  rw [hb]
@[simp] theorem Tile.buffer_acc (va : Nat) (l : Line) : (t.buffer va l).acc = t.acc := by
  obtain ⟨b, hb⟩ := t.buffer_eq va l
  rw [hb]
@[simp] theorem Tile.putLs_ls (ls : Store) : (t.putLs ls).ls = ls := (rfl)
@[simp] theorem Tile.putLs_acc (ls : Store) : (t.putLs ls).acc = t.acc := (rfl)

@[simp] theorem Tile.discard_ls (stand : Nat) : (t.discard stand).ls = t.ls := by
  unfold Tile.discard
  dsimp only
  split <;> rfl

@[simp] theorem Tile.discard_acc (stand : Nat) : (t.discard stand).acc = t.acc := by
  unfold Tile.discard
  dsimp only
  split <;> rfl

end

section
variable {t : Tile} (ht : t.Sound)
include ht

theorem Tile.Sound.ls : t.ls.wf = true := ht.1
theorem Tile.Sound.acc : t.acc.wf = true := ht.2
theorem Tile.Sound.putLs {ls : Store} (hls : ls.wf = true) : (t.putLs ls).Sound := ⟨hls, ht.2⟩

theorem Tile.Sound.writeLs (a : Nat) (l : List Byte) : (t.putLs (t.ls.writeBytes a l)).Sound := ht.putLs (Store.writeBytes_wf _ _ _ ht.ls)

/-- An ACCST writes sectors of local store. -/
theorem Tile.Sound.accst (pick : Nat → Bool) : (t.accst pick).Sound := by
  unfold Tile.accst
  split
  · split
    · exact ht.putLs (foldl_holds (p := fun ls : Store => ls.wf = true) (fun ls k => Store.writeBytes_wf _ _ _) _ ht.ls)
    · exact ht
  · exact ht

end

theorem MInstr.putRow_wf (i : MInstr) {acc : Store} (h : acc.wf = true) (r : Nat) (l : List Nat) : (i.putRow acc r l).wf = true := by
  unfold MInstr.putRow
  split
  · exact Store.writeBytes_wf _ _ _ (Store.writeBytes_wf _ _ _ h)
  · exact Store.writeBytes_wf _ _ _ h

theorem MInstr.product_wf (i : MInstr) {t : Tile} (h : t.acc.wf = true) : (i.product t).acc.wf = true :=
  foldl_holds (p := fun acc : Store => acc.wf = true) (fun _ _ h => i.putRow_wf h _ _) _ h

theorem MInstr.load_wf (i : MInstr) {t : Tile} (h : t.acc.wf = true) : (i.load t).acc.wf = true :=
  foldl_holds (p := fun acc : Store => acc.wf = true) (fun _ _ h => i.putRow_wf h _ _) _ h

theorem EStream.putRow_wf (x : EStream) (old : Store × Store) (olap : Bool → Nat → Nat → Bool) (draw r cols : Nat)
    (b : List Byte × List Byte × Nat) {st : Store × Store} (h : st.1.wf = true) : (x.putRow old olap draw r cols b st).1.wf = true := by
  unfold EStream.putRow
  dsimp only
  repeat' split
  all_goals simp [Store.writeBytes_wf, h]

/-- An EPRUN leaves local store canonical. -/
theorem eprun_wf (img : List W64) (bad : Bool) (e : EInstr) (seen w : Store) (draw : Nat) {ls : Store} (h : ls.wf = true) :
    (eprun img bad e seen ls w draw).1.wf = true := by
  unfold eprun
  refine foldl_holds (p := fun acc : Store × Store × Nat => acc.1.wf = true) (fun acc r hacc => ?_) _ h
  exact foldl_holds (p := fun acc : Store × Store × Nat => acc.1.wf = true) (fun acc x hx => EStream.putRow_wf _ _ _ _ _ _ _ hx) _ hacc

/-- The writes of a copy to one sector leave a store canonical. -/
theorem Store.putSector_wf (st : Store) (k : Nat) (l : List CopyW) (h : st.wf = true) : (st.putSector k l).wf = true := by
  have h1 : (if coversSector l k then st.clrPoison (32 * k) 32 else st).wf = true := by
    split
    · exact Store.clrPoison_wf _ _ _ h
    · exact h
  have h2 (r : List CopyW) : (r.foldl (fun (t : Store) x => t.writeBytes x.off.toNat (leBytes x.n x.val))
      (if coversSector l k then st.clrPoison (32 * k) 32 else st)).wf = true :=
    foldl_holds (p := fun t : Store => t.wf = true) (fun t x => Store.writeBytes_wf _ _ _) r h1
  unfold Store.putSector
  dsimp only
  split
  · exact Store.setPoison_wf _ _ _ (h2 _)
  · exact h2 _

/-! Sums, choices and folds. -/

@[simp] theorem State.sound_ite (c : Prop) [Decidable c] (s t : State) : (if c then s else t).Sound = if c then s.Sound else t.Sound :=
  apply_ite State.Sound c s t

theorem State.foldl_sound {α : Type} {f : State → α → State} (h : ∀ t x, t.Sound → (f t x).Sound) (l : List α) {s : State} (hs : s.Sound) :
    (l.foldl f s).Sound := foldl_holds h l hs

@[simp] theorem State.sound_foldl {α : Type} {f : State → α → State} (h : ∀ t x, (f t x).Sound = t.Sound) (l : List α) (s : State) :
    (l.foldl f s).Sound = s.Sound := foldl_fixes State.Sound f h l s

end Sys2Proof.Machine
end

section
/-! SUPPORT. The invariant through every operation of the model: most leave it as it was; those that write a log or a store keep it. -/

namespace Sys2Proof.Machine

/-- The invariant, of the state that an outcome of an operation carries; likewise for the outcome types below. -/
def EbOut.Sound : EbOut → Prop | .reply _ _ s => s.Sound | .hold s => s.Sound

def WordsOut.Sound : WordsOut → Prop | .ok _ s => s.Sound | .fail _ _ s => s.Sound | .wait s => s.Sound

def BytesOut.Sound : BytesOut → Prop | .ok _ _ _ s => s.Sound | .fail _ _ s => s.Sound | .wait s => s.Sound

def XOut.Sound : XOut → Prop | .hit _ s => s.Sound | .fail s => s.Sound | .wait s => s.Sound

def SpanOut.Sound : SpanOut → Prop | .ok _ _ s => s.Sound | .fail _ _ s => s.Sound | .wait s => s.Sound

def RecOut.Sound : RecOut → Prop | .done _ s => s.Sound | .fail _ s => s.Sound | .wait s => s.Sound

def FetchOut.Sound : FetchOut → Prop | .ok s => s.Sound | .fail s => s.Sound | .wait s => s.Sound

def UnitOut.Sound : UnitOut → Prop | .done _ s => s.Sound | .wait s => s.Sound

def ChunkOut.Sound : ChunkOut → Prop | .taken s => s.Sound | .held s => s.Sound

def ApOut.Sound : ApOut → Prop | .hits _ s => s.Sound | .fault _ _ s => s.Sound

def Gate.Sound : Gate → Prop | .go s => s.Sound | .answer _ s => s.Sound | .refused s => s.Sound

@[simp] theorem EbOut.sound_reply {st res} (s : State) : (EbOut.reply st res s).Sound = s.Sound := (rfl)
@[simp] theorem EbOut.sound_hold (s : State) : (EbOut.hold s).Sound = s.Sound := (rfl)
@[simp] theorem WordsOut.sound_ok {l} (s : State) : (WordsOut.ok l s).Sound = s.Sound := (rfl)
@[simp] theorem WordsOut.sound_fail {w a} (s : State) : (WordsOut.fail w a s).Sound = s.Sound := (rfl)
@[simp] theorem WordsOut.sound_wait (s : State) : (WordsOut.wait s).Sound = s.Sound := (rfl)
@[simp] theorem BytesOut.sound_ok {l p xs} (s : State) : (BytesOut.ok l p xs s).Sound = s.Sound := (rfl)
@[simp] theorem BytesOut.sound_fail {c a} (s : State) : (BytesOut.fail c a s).Sound = s.Sound := (rfl)
@[simp] theorem BytesOut.sound_wait (s : State) : (BytesOut.wait s).Sound = s.Sound := (rfl)
@[simp] theorem XOut.sound_hit {pa} (s : State) : (XOut.hit pa s).Sound = s.Sound := (rfl)
@[simp] theorem XOut.sound_fail (s : State) : (XOut.fail s).Sound = s.Sound := (rfl)
@[simp] theorem XOut.sound_wait (s : State) : (XOut.wait s).Sound = s.Sound := (rfl)
@[simp] theorem SpanOut.sound_ok {v p} (s : State) : (SpanOut.ok v p s).Sound = s.Sound := (rfl)
@[simp] theorem SpanOut.sound_fail {c a} (s : State) : (SpanOut.fail c a s).Sound = s.Sound := (rfl)
@[simp] theorem SpanOut.sound_wait (s : State) : (SpanOut.wait s).Sound = s.Sound := (rfl)
@[simp] theorem RecOut.sound_done {old} (s : State) : (RecOut.done old s).Sound = s.Sound := (rfl)
@[simp] theorem RecOut.sound_fail {c} (s : State) : (RecOut.fail c s).Sound = s.Sound := (rfl)
@[simp] theorem RecOut.sound_wait (s : State) : (RecOut.wait s).Sound = s.Sound := (rfl)
@[simp] theorem FetchOut.sound_ok (s : State) : (FetchOut.ok s).Sound = s.Sound := (rfl)
@[simp] theorem FetchOut.sound_fail (s : State) : (FetchOut.fail s).Sound = s.Sound := (rfl)
@[simp] theorem FetchOut.sound_wait (s : State) : (FetchOut.wait s).Sound = s.Sound := (rfl)
@[simp] theorem UnitOut.sound_done {l} (s : State) : (UnitOut.done l s).Sound = s.Sound := (rfl)
@[simp] theorem UnitOut.sound_wait (s : State) : (UnitOut.wait s).Sound = s.Sound := (rfl)
@[simp] theorem ChunkOut.sound_taken (s : State) : (ChunkOut.taken s).Sound = s.Sound := (rfl)
@[simp] theorem ChunkOut.sound_held (s : State) : (ChunkOut.held s).Sound = s.Sound := (rfl)
@[simp] theorem ApOut.sound_hits {l} (s : State) : (ApOut.hits l s).Sound = s.Sound := (rfl)
@[simp] theorem ApOut.sound_fault {va c} (s : State) : (ApOut.fault va c s).Sound = s.Sound := (rfl)
@[simp] theorem Gate.sound_go (s : State) : (Gate.go s).Sound = s.Sound := (rfl)
@[simp] theorem Gate.sound_answer {r} (s : State) : (Gate.answer r s).Sound = s.Sound := (rfl)
@[simp] theorem Gate.sound_refused (s : State) : (Gate.refused s).Sound = s.Sound := (rfl)
@[simp] theorem Gate.state_sound (g : Gate) : g.state.Sound = g.Sound := by cases g <;> rfl

/-! ### Operations of Machine/Ops.lean -/

@[simp] theorem State.drawn_sound (s : State) : s.drawn.Sound = s.Sound := (rfl)

@[simp] theorem State.count_sound (s : State) (k n : Nat) : (s.count k n).Sound = s.Sound := by
  simp [State.count]

@[simp] theorem State.countReal_sound (s : State) (c u : Nat) : (s.countReal c u).Sound = s.Sound := by
  simp [State.countReal]

@[simp] theorem State.level_sound (s : State) (k : Nat) (v : Int) : (s.level k v).Sound = s.Sound := (rfl)

@[simp] theorem State.imsicSet_sound (s : State) (core file id : Nat) : (s.imsicSet core file id).Sound = s.Sound := by
  simp [State.imsicSet]

@[simp] theorem State.sendRoute_sound (s : State) (e : W64) : (s.sendRoute e).Sound = s.Sound := by
  simp [State.sendRoute]

@[simp] theorem State.raise_sound (s : State) (src : Nat) : (s.raise src).Sound = s.Sound := by
  simp [State.raise]

@[simp] theorem State.logEv_sound (s : State) (code die sev : Nat) (data : List Nat) (hs : s.Sound) : (s.logEv code die sev data).Sound := by
  unfold State.logEv
  simp only [State.raise_sound, State.sound_ite, State.count_sound, ite_self]
  exact hs.with_log (by rw [lastN_length]; exact Nat.min_le_left ..)

@[simp] theorem State.measure_sound (s : State) (typ arg : Nat) (value : List Byte) (hs : s.Sound) : (s.measure typ arg value).Sound :=
  hs.with_meas (Cairn.measure_log_length ..)

@[simp] theorem State.setPort_sound (s : State) (p : Port) (v : PortSt) : (s.setPort p v).Sound = s.Sound := by
  unfold State.setPort
  split <;> simp

@[simp] theorem State.finish_sound (s : State) (p : Port) (status : Nat) (results : List Byte) : (s.finish p status results).Sound = s.Sound := by
  unfold State.finish
  split <;> simp

@[simp] theorem State.setStream_sound (s : State) (n : Nat) (v : Stream) : (s.setStream n v).Sound = s.Sound := (rfl)
@[simp] theorem State.setDie_sound (s : State) (n : Nat) (v : DieFb) : (s.setDie n v).Sound = s.Sound := (rfl)
@[simp] theorem State.setLink_sound (s : State) (l : Nat) (v : Link) : (s.setLink l v).Sound = s.Sound := (rfl)
@[simp] theorem State.setChan_sound (s : State) (die k : Nat) (v : Chan) : (s.setChan die k v).Sound = s.Sound := (rfl)
@[simp] theorem State.setSlice_sound (s : State) (die k : Nat) (v : Slice) : (s.setSlice die k v).Sound = s.Sound := (rfl)
@[simp] theorem State.window_sound (s : State) (row obj n : Nat) : (s.window row obj n).Sound = s.Sound := (rfl)

/-! ### Operations of Machine/PowerOps.lean -/

@[simp] theorem State.setOp_sound (s : State) (n k : Nat) : (s.setOp n k).Sound = s.Sound := by
  simp [State.setOp]

@[simp] theorem State.moveClock_sound (s : State) (n : Nat) : (s.moveClock n).Sound = s.Sound := by
  simp [State.moveClock]

@[simp] theorem State.unmetHints_sound (s : State) (n : Nat) : (s.unmetHints n).Sound = s.Sound := by
  simp [State.unmetHints]

@[simp] theorem State.decideOp_sound (s : State) (n : Nat) : (s.decideOp n).Sound = s.Sound := by
  simp [State.decideOp]

@[simp] theorem State.decideAll_sound (s : State) : s.decideAll.Sound = s.Sound := by
  simp [State.decideAll]

@[simp] theorem State.ceilingFell_sound (s : State) (n old : Nat) : (s.ceilingFell n old).Sound = s.Sound := by
  simp [State.ceilingFell]

@[simp] theorem State.limitReplies_sound (s : State) : s.limitReplies.Sound = s.Sound := by
  simp [State.limitReplies]

@[simp] theorem State.halt_sound (s : State) (cause : Nat) (hs : s.Sound) : (s.halt cause).Sound := by
  unfold State.halt
  dsimp only
  split
  · exact hs
  · rw [State.limitReplies_sound]
    exact State.logEv_sound _ _ _ _ _ (hs.with_pstate le_rfl)

@[simp] theorem State.dropHints_sound (s : State) (n : Nat) : (s.dropHints n).Sound = s.Sound := (rfl)

/-! ### Operations of Machine/Xlate.lean -/

@[simp] theorem State.look_sound (s : State) (pair : Option Nat) (space va need : Nat) : (s.look pair space va need).2.Sound = s.Sound := by
  simp [State.look]

@[simp] theorem State.invalNow_sound (s : State) (i : Nat × Nat × Nat) : (s.invalNow i).Sound = s.Sound := (rfl)

@[simp] theorem State.invalAccept_sound (s : State) (i : Nat × Nat × Nat) : (s.invalAccept i).Sound = s.Sound := by
  unfold State.invalAccept
  dsimp only
  repeat' split
  all_goals simp

@[simp] theorem State.invalRetire_sound (s : State) : s.invalRetire.Sound = s.Sound := by
  unfold State.invalRetire
  dsimp only
  split <;> simp

/-! ### Operations of Machine/Admit.lean -/

@[simp] theorem State.setIssued_sound (s : State) (l : Level) (n : Nat) : (s.setIssued l n).Sound = s.Sound := (rfl)
@[simp] theorem State.setHeld_sound (s : State) (q : Source) (l : Level) (ts : List Nat) : (s.setHeld q l ts).Sound = s.Sound := (rfl)
@[simp] theorem State.addHeld_sound (s : State) (q : Source) (l : Level) (n : Nat) : (s.addHeld q l n).Sound = s.Sound := (rfl)
@[simp] theorem State.useHeld_sound (s : State) (q : Source) (l : Level) (n : Nat) : (s.useHeld q l n).Sound = s.Sound := (rfl)

@[simp] theorem State.ask_sound (s : State) (q : Source) (l : Level) : (s.ask q l).Sound = s.Sound := by
  simp [State.ask]

@[simp] theorem State.giveBack_sound (s : State) (l : Level) : (s.giveBack l).Sound = s.Sound := (rfl)

@[simp] theorem State.countRefusal_sound (s : State) (l : Level) : (s.countRefusal l).Sound = s.Sound := by
  unfold State.countRefusal
  split <;> simp

@[simp] theorem State.setReq_sound (s : State) (r : Req) : (s.setReq r).Sound = s.Sound := (rfl)
@[simp] theorem State.answered_sound (s : State) (r : Req) (res : AccResult) : (s.answered r res).Sound = s.Sound := (rfl)

@[simp] theorem State.dropReq_sound (s : State) (id : Nat) : (s.dropReq id).Sound = s.Sound := by
  unfold State.dropReq
  split <;> simp

@[simp] theorem State.refuse_sound (s : State) (r : Req) (l : Level) : (s.refuse r l).Sound = s.Sound := by
  simp [State.refuse]

@[simp] theorem State.takeTokens_sound (s : State) (q : Source) (ls : List Level) : (s.takeTokens q ls).Sound = s.Sound := by
  simp [State.takeTokens]

@[simp] theorem State.enter_sound (s : State) (q : Source) (ls : List Level) : (s.enter q ls).2.Sound = s.Sound := by
  unfold State.enter
  split <;> simp

@[simp] theorem State.ridgeSend_sound (s : State) (l : Nat) (m : RMsg) : (s.ridgeSend l m).Sound = s.Sound := (rfl)

@[simp] theorem State.respond_sound (s : State) (src req line : Nat) (a : RAns) : (s.respond src req line a).Sound = s.Sound := by
  unfold State.respond
  split <;> simp

@[simp] theorem State.countDecode_sound (s : State) (q : Source) (res : AccResult) : (s.countDecode q res).Sound = s.Sound := by
  unfold State.countDecode
  split <;> simp

@[simp] theorem State.gateBy_sound (s : State) (q : Source) (rt : Route) : (s.gateBy q rt).Sound = s.Sound := by
  unfold State.gateBy
  dsimp only
  repeat' split
  all_goals simp

@[simp] theorem State.gateIf_sound (s : State) (ask : Bool) (q : Source) (rt : Route) : (s.gateIf ask q rt).Sound = s.Sound := by
  unfold State.gateIf
  split
  · exact State.gateBy_sound s q rt
  · split <;> rfl

@[simp] theorem State.gate_sound (s : State) (q : Source) (pa : Nat) : (s.gate q pa).Sound = s.Sound := s.gateBy_sound q _

@[simp] theorem State.tryAdmit_sound (s : State) (id : Nat) : (s.tryAdmit id).Sound = s.Sound := by
  unfold State.tryAdmit
  dsimp only
  repeat' split
  all_goals simp

@[simp] theorem State.newReq_sound (s : State) (r : Req) : (s.newReq r).1.Sound = s.Sound := (rfl)

@[simp] theorem State.reply_sound (s : State) (id : Nat) (res : AccResult) : (s.reply id res).Sound = s.Sound := by
  unfold State.reply
  split <;> simp

/-! ### Operations of Machine/Homes.lean -/

@[simp] theorem State.setLineSlice_sound (s : State) (line : Nat) (v : Slice) : (s.setLineSlice line v).Sound = s.Sound := (rfl)

@[simp] theorem State.countCe_sound (s : State) (p : Place) : (s.countCe p).Sound = s.Sound := by
  simp [State.countCe]

@[simp] theorem State.countUe_sound (s : State) (p : Place) : (s.countUe p).Sound = s.Sound := by
  simp [State.countUe]

@[simp] theorem State.countRead_sound (s : State) (line : Nat) : (s.countRead line).Sound = s.Sound := by
  simp [State.countRead]

@[simp] theorem State.countCrc_sound (s : State) (p : Place) (n : Nat) : (s.countCrc p n).Sound = s.Sound := by
  simp [State.countCrc]

@[simp] theorem State.linkRead_sound (s : State) (line : Nat) (crc : List Nat) : (s.linkRead line crc).Sound = s.Sound := by
  simp [State.linkRead]

@[simp] theorem State.linkWrite_sound (s : State) (line : Nat) (crc : List Nat) : (s.linkWrite line crc).Sound = s.Sound := by
  simp [State.linkWrite]

@[simp] theorem State.putMem_sound (s : State) (line : Nat) (l : Line) (hs : s.Sound) : (s.putMem line l).Sound := by
  unfold State.putMem
  split
  · exact hs
  · exact hs.with_dram (Store.putLine_wf _ _ _ hs.dram)

@[simp] theorem State.setBusyOf_sound (s : State) (line : Nat) (b : List Busy) : (s.setBusyOf line b).Sound = s.Sound := by
  simp [State.setBusyOf]

@[simp] theorem State.setWaitOf_sound (s : State) (line : Nat) (q : List Waiting) : (s.setWaitOf line q).Sound = s.Sound := by
  simp [State.setWaitOf]

@[simp] theorem State.setBusyRec_sound (s : State) (line : Nat) (b : Option Busy) : (s.setBusyRec line b).Sound = s.Sound := by
  simp [State.setBusyRec]

@[simp] theorem State.setDir_sound (s : State) (line : Nat) (owner : Option Nat) (pres : List Nat) : (s.setDir line owner pres).Sound = s.Sound := by
  unfold State.setDir
  dsimp only
  repeat' split
  all_goals simp

@[simp] theorem State.send_sound (s : State) (m : CMsg) : (s.send m).Sound = s.Sound := by
  unfold State.send
  dsimp only
  repeat' split
  all_goals simp

@[simp] theorem State.snoopAll_sound (s : State) (op : MsgOp) (line rq : Nat) (dsts : List Nat) (tag : Nat) :
    (s.snoopAll op line rq dsts tag).Sound = s.Sound := by
  simp [State.snoopAll]

/-! ### Operations of Machine/HomeActs.lean -/

@[simp] theorem State.performed_sound (s : State) (r : Req) (res : AccResult) (discarded : Nat) : (s.performed r res discarded).Sound = s.Sound := by
  simp [State.performed]

/-- The state in which an access has its token of a memory controller. -/
theorem State.toMemory_sound {s t : State} {r q : Req} (h : s.toMemory r = .ok (t, q)) : t.Sound = s.Sound := by
  unfold State.toMemory at h
  dsimp only at h
  split at h
  · cases h
  · obtain ⟨rfl, -⟩ : s.useHeld _ _ = t ∧ _ = q := by simpa using h
    simp

@[simp] theorem State.allocFill_sound (s : State) (r : Req) (behind : Bool) : (s.allocFill r behind).Sound = s.Sound := by
  unfold State.allocFill
  dsimp only
  split
  · simp
  · next h => split <;> simp [State.toMemory_sound h]

@[simp] theorem State.onMemory_sound (s : State) (r : Req) (hs : s.Sound) : (s.onMemory r).Sound := by
  unfold State.onMemory
  dsimp only
  split
  · simp [hs]
  · next h => split <;> simp [hs, State.toMemory_sound h]

@[simp] theorem State.drainWays_sound (s : State) (die k : Nat) (hs : s.Sound) : (s.drainWays die k).Sound := by
  unfold State.drainWays
  exact State.foldl_sound (fun t w => State.logEv_sound _ _ _ _ _) _ (by simpa using hs)

@[simp] theorem State.disableWay_sound (s : State) (die k way : Nat) (hs : s.Sound) : (s.disableWay die k way).Sound := by
  simp [hs, State.disableWay]

@[simp] theorem State.wayLimit_sound (s : State) (die k way : Nat) (hs : s.Sound) : (s.wayLimit die k way).Sound := by
  simp [hs, State.wayLimit]

@[simp] theorem State.l2Errs_sound (s : State) (line : Nat) (l2 : List Nat) (hs : s.Sound) : (s.l2Errs line l2).Sound := by
  unfold State.l2Errs
  dsimp only
  split <;> simp [hs]

@[simp] theorem State.waitAt_sound (s : State) (line : Nat) (r : Req) : (s.waitAt line r).Sound = s.Sound := by
  simp [State.waitAt]

@[simp] theorem State.flushMem_sound (s : State) (line : Nat) (d : Line) (hs : s.Sound) : (s.flushMem line d).Sound := by
  simp [hs, State.flushMem]

@[simp] theorem State.flushSlice_sound (s : State) (r : Req) (hs : s.Sound) : (s.flushSlice r).Sound := by
  unfold State.flushSlice
  dsimp only
  split
  · simp [hs]
  split
  · split
    · split
      · simp [hs]
      · next h => simp [hs, State.toMemory_sound h]
    · simp [hs]
  · simp [hs]

@[simp] theorem State.performSlice_sound (s0 : State) (r0 : Req) (hs : s0.Sound) : (s0.performSlice r0).Sound := by
  unfold State.performSlice
  dsimp only
  repeat' split
  all_goals simp [hs]

@[simp] theorem State.toHost_sound (s : State) (m : HostMsg) : (s.toHost m).Sound = s.Sound := (rfl)
@[simp] theorem State.d2hSend_sound (s : State) (line i op : Nat) (ids : List Nat) : (s.d2hSend line i op ids).Sound = s.Sound := (rfl)

@[simp] theorem State.askHost_sound (s : State) (line id : Nat) (w0 w1 : Option Nat) : (s.askHost line id w0 w1).Sound = s.Sound := by
  refine foldl_keeps State.Sound _ (fun t i => ?_) _ s
  split
  · split
    · rfl
    · split
      · simp
      · split <;> rfl
  · rfl

@[simp] theorem State.flushHost_sound (s : State) (line : Nat) : (s.flushHost line).Sound = s.Sound := by
  refine foldl_keeps State.Sound _ (fun t i => ?_) _ s
  split
  · split <;> simp
  · rfl

@[simp] theorem State.performHost_sound (s : State) (r : Req) : (s.performHost r).Sound = s.Sound := by
  unfold State.performHost
  dsimp only
  split <;> simp

@[simp] theorem State.perform_sound (s : State) (r : Req) (hs : s.Sound) : (s.perform r).Sound := by
  simp [hs, State.perform]

@[simp] theorem State.uncachedAct_sound (s : State) (r : Req) (hs : s.Sound) : (s.uncachedAct r).Sound := by
  unfold State.uncachedAct
  dsimp only
  repeat' split
  all_goals simp [hs]

@[simp] theorem State.startRecall_sound (s : State) (line : Nat) (w : Waiting) : (s.startRecall line w).Sound = s.Sound := by
  unfold State.startRecall
  dsimp only
  repeat' split
  all_goals simp

@[simp] theorem State.sendData_sound (s : State) (op : MsgOp) (m : CMsg) : (s.sendData op m).Sound = s.Sound := by
  simp [State.sendData]

@[simp] theorem State.sendCmp_sound (s : State) (m : CMsg) (dsrc : Nat) (invs : List Nat) (fwd : Option Nat) :
    (s.sendCmp m dsrc invs fwd).Sound = s.Sound := by
  simp [State.sendCmp]

@[simp] theorem State.readAct_sound (s : State) (m : CMsg) (shared : Bool) : (s.readAct m shared).Sound = s.Sound := by
  unfold State.readAct
  split <;> simp

@[simp] theorem State.ownAct_sound (s : State) (m : CMsg) : (s.ownAct m).Sound = s.Sound := by
  unfold State.ownAct
  split <;> simp

@[simp] theorem State.upgAct_sound (s : State) (m : CMsg) : (s.upgAct m).Sound = s.Sound := by
  unfold State.upgAct
  split <;> simp

@[simp] theorem State.sendVcmp_sound (s : State) (m : CMsg) (stale : Bool) : (s.sendVcmp m stale).Sound = s.Sound := by
  simp [State.sendVcmp]

@[simp] theorem State.bounce_sound (s : State) (m : CMsg) : (s.bounce m).Sound = s.Sound := by
  simp [State.bounce]

/-- A victim that its home takes. -/
theorem State.sliceVictim_sound {s t : State} {line : Nat} {l : Line} (h : s.sliceVictim line l = some t) : t.Sound = s.Sound := by
  unfold State.sliceVictim at h
  dsimp only at h
  split at h
  · split at h
    · simp only [Option.bind_eq_some_iff, Option.map_eq_some_iff] at h
      obtain ⟨_, -, _, -, rfl⟩ := h
      simp
    · cases h
      simp
  · split at h
    · cases h
      simp
    · simp only [Option.bind_eq_some_iff, Option.map_eq_some_iff] at h
      obtain ⟨_, -, _, -, rfl⟩ := h
      simp

theorem State.homeVictim_sound {s t : State} {line : Nat} {l : Line} (h : s.homeVictim line l = some t) : t.Sound = s.Sound := by
  unfold State.homeVictim at h
  split at h
  · cases h
    rfl
  · exact State.sliceVictim_sound h

@[simp] theorem State.vicdAct_sound (s : State) (m : CMsg) : (s.vicdAct m).Sound = s.Sound := by
  unfold State.vicdAct
  split
  · split
    · split
      · next h => simp [State.homeVictim_sound h]
      · simp
    · simp
  · simp

@[simp] theorem State.offerClean_sound (s : State) (line : Nat) (l : Line) : (s.offerClean line l).Sound = s.Sound := by
  unfold State.offerClean
  dsimp only
  repeat' split
  all_goals simp

@[simp] theorem State.viccAct_sound (s : State) (m : CMsg) : (s.viccAct m).Sound = s.Sound := by
  unfold State.viccAct
  split <;> simp

@[simp] theorem State.coherentAct_sound (s0 : State) (m0 : CMsg) (hs : s0.Sound) : (s0.coherentAct m0).Sound := by
  unfold State.coherentAct
  dsimp only
  repeat' split
  all_goals simp [hs]

@[simp] theorem State.dropEmpty_sound (s : State) (line : Nat) : (s.dropEmpty line).Sound = s.Sound := by
  unfold State.dropEmpty
  split <;> simp

@[simp] theorem State.snoopAnswer_sound (s : State) (op half : Nat) : (s.snoopAnswer op half).Sound = s.Sound := by
  unfold State.snoopAnswer
  dsimp only
  split
  · split <;> simp
  · split
    · rw [State.dropEmpty_sound]
      refine foldl_keeps State.Sound _ (fun t k => ?_) _ s
      split <;> simp
    · simp

@[simp] theorem State.snoopAct_sound (s : State) (op half : Nat) : (s.snoopAct op half).Sound = s.Sound := by
  unfold State.snoopAct
  dsimp only
  repeat' split
  all_goals simp

@[simp] theorem State.snoopsRun_sound (k : Nat) (s : State) : (State.snoopsRun k s).Sound = s.Sound := by
  induction k generalizing s with
  | zero => rfl
  | succ k ih =>
    unfold State.snoopsRun
    split
    · rfl
    · split
      · dsimp only
        split <;> simp [ih]
      · rfl

@[simp] theorem State.goSnoops_sound (s : State) : s.goSnoops.Sound = s.Sound := State.snoopsRun_sound _ s

@[simp] theorem State.homeAct_sound (s : State) (w : Waiting) (hs : s.Sound) : (s.homeAct w).Sound := by
  unfold State.homeAct
  repeat' split
  all_goals simp [hs]

@[simp] theorem State.enqueue_sound (s : State) (line : Nat) (w : Waiting) : (s.enqueue line w).Sound = s.Sound := by
  unfold State.enqueue
  repeat' split
  all_goals simp

@[simp] theorem State.homeTry_sound (s : State) (line : Nat) (w : Waiting) (hs : s.Sound) : (s.homeTry line w).Sound := by
  unfold State.homeTry
  repeat' split
  all_goals simp [hs]

@[simp] theorem State.homeStep_sound (s : State) (w : Waiting) (hs : s.Sound) : (s.homeStep w).Sound := by
  unfold State.homeStep
  dsimp only
  repeat' split
  all_goals simp [hs]

@[simp] theorem State.drainHome_sound (s : State) (line : Nat) (hs : s.Sound) : (s.drainHome line).Sound :=
  State.foldl_sound State.homeStep_sound _ (by simpa using hs)

@[simp] theorem State.drainHost_sound (s : State) (line : Nat) (hs : s.Sound) : (s.drainHost line).Sound := by
  unfold State.drainHost
  split
  · exact hs
  · dsimp only
    rw [State.dropEmpty_sound]
    refine State.foldl_sound (fun t w ht => ?_) _ (State.foldl_sound State.homeStep_sound _ hs)
    split
    · exact ht
    · simpa using ht

@[simp] theorem State.busyDone_sound (s : State) (line : Nat) (hs : s.Sound) : (s.busyDone line).Sound := by
  unfold State.busyDone
  dsimp only
  repeat' split
  all_goals simp [hs]

@[simp] theorem State.homeAck_sound (s : State) (line a : Nat) (hs : s.Sound) : (s.homeAck line a).Sound := by
  unfold State.homeAck
  split <;> simp [hs]

@[simp] theorem State.flushData_sound (s : State) (r : Req) (l : Line) (hs : s.Sound) : (s.flushData r l).Sound := by
  unfold State.flushData
  dsimp only
  split
  · simpa using hs
  · rw [State.performed_sound]
    refine State.flushMem_sound _ _ _ ?_
    repeat' split
    all_goals simpa using hs

/-! ### Operations of Machine/CrewOps.lean -/

@[simp] theorem State.setCrew_sound (s : State) (c : CrewId) (v : Crew) : (s.setCrew c v).Sound = s.Sound := State.setTile_same rfl rfl

@[simp] theorem State.onCrew_sound (s : State) (c : CrewId) (f : Crew → Crew) : (s.onCrew c f).Sound = s.Sound := by
  unfold State.onCrew
  split <;> simp

@[simp] theorem State.parkCrew_sound (s : State) (c : CrewId) (t : Trap) : (s.parkCrew c t).Sound = s.Sound := by
  unfold State.parkCrew
  split <;> simp

@[simp] theorem State.noInstall_sound (s : State) (die tile : Nat) (p : Req → Bool) : (s.noInstall die tile p).Sound = s.Sound := (rfl)

@[simp] theorem State.flushL1_sound (s : State) (die tile : Nat) : (s.flushL1 die tile).Sound = s.Sound := by
  simp [State.flushL1]

@[simp] theorem State.l1Write_sound (s : State) (r : Req) : (s.l1Write r).Sound = s.Sound := by
  unfold State.l1Write
  dsimp only
  repeat' split
  all_goals simp

@[simp] theorem State.l1Lost_sound (s : State) (die tile key : Nat) : (s.l1Lost die tile key).Sound = s.Sound := by
  simp [State.l1Lost]

@[simp] theorem State.proceed_sound (s : State) (id : Nat) : (s.proceed id).Sound = s.Sound := by
  unfold State.proceed
  dsimp only
  repeat' split
  all_goals simp

@[simp] theorem State.startReq_sound (s : State) (r : Req) : (s.startReq r).1.Sound = s.Sound := by
  unfold State.startReq
  dsimp only
  split <;> simp

@[simp] theorem State.tryFence_sound (s : State) (c : CrewId) : (s.tryFence c).Sound = s.Sound := by
  unfold State.tryFence
  split <;> simp

@[simp] theorem State.raiseGroup_sound (s : State) (c : CrewId) : (s.raiseGroup c).Sound = s.Sound := by
  unfold State.raiseGroup
  dsimp only
  repeat' split
  all_goals simp

@[simp] theorem State.deliverLane_sound (s : State) (c : CrewId) (lane grp : Nat) (r : Req) (res : AccResult) :
    (s.deliverLane c lane grp r res).Sound = s.Sound := by
  unfold State.deliverLane
  dsimp only
  split <;> simp

@[simp] theorem State.tryBar_sound (s : State) (c : CrewId) (stand n : Nat) : (s.tryBar c stand n).Sound = s.Sound := by
  simp [State.tryBar]

@[simp] theorem State.tryBars_sound (s : State) (c : CrewId) (stand : Nat) : (s.tryBars c stand).Sound = s.Sound :=
  foldl_keeps State.Sound _ (fun t n => t.tryBar_sound c stand n) _ s

@[simp] theorem State.accstStep_sound (s : State) (die tile : Nat) (hs : s.Sound) : (s.accstStep die tile).Sound := by
  unfold State.accstStep
  dsimp only
  split
  · split
    · exact State.setTile_sound (by simpa using hs) ((hs.tile die tile).accst _)
    · exact hs
  · exact hs

@[simp] theorem State.readLs_sound (s0 : State) (die tile a n : Nat) (hs : s0.Sound) : (s0.readLs die tile a n).2.2.Sound := by
  simp [hs, State.readLs]

@[simp] theorem State.readLand_sound (s : State) (die a n : Nat) : (s.readLand die a n).2.2.Sound = s.Sound := by
  simp [State.readLand]

@[simp] theorem State.putLsAt_sound (s : State) (die tile a : Nat) (l : List Byte) (hs : s.Sound) : (s.putLsAt die tile a l).Sound :=
  State.setTile_sound hs ((hs.tile die tile).writeLs a l)

@[simp] theorem State.writeLs_sound (s : State) (die tile a : Nat) (l : List Byte) (hs : s.Sound) : (s.writeLs die tile a l).Sound := by
  simp [hs, State.writeLs]

/-! ### Operations of Machine/Agents.lean -/

@[simp] theorem State.setAline_sound (s : State) (a line : Nat) (l : ALine) : (s.setAline a line l).Sound = s.Sound := (rfl)
@[simp] theorem State.toSt_sound (s : State) (a line : Nat) (st : ASt) : (s.toSt a line st).Sound = s.Sound := (rfl)

@[simp] theorem State.agentData_sound (s : State) (op : MsgOp) (m : CMsg) (a dst : Nat) : (s.agentData op m a dst).Sound = s.Sound := by
  simp [State.agentData]

@[simp] theorem State.loseResv_sound (s : State) (a line : Nat) : (s.loseResv a line).Sound = s.Sound := by
  simp [State.loseResv]

@[simp] theorem State.fwdDone_sound (s : State) (m : CMsg) (a : Nat) : (s.fwdDone m a).Sound = s.Sound := by
  simp [State.fwdDone]

@[simp] theorem State.endWatch_sound (s : State) (line : Nat) : (s.endWatch line).Sound = s.Sound := (rfl)

@[simp] theorem State.protocolError_sound (s : State) (a : Nat) (m : CMsg) (hs : s.Sound) : (s.protocolError a m).Sound := by
  simp [hs, State.protocolError]

@[simp] theorem State.queueFwd_sound (s : State) (a : Nat) (m : CMsg) (hs : s.Sound) : (s.queueFwd a m).Sound := by
  simp [hs, State.queueFwd]

@[simp] theorem State.agentSnoop_sound (s : State) (a : Nat) (m : CMsg) (hs : s.Sound) : (s.agentSnoop a m).Sound := by
  unfold State.agentSnoop
  dsimp only
  repeat' split
  all_goals simp [hs]

@[simp] theorem State.coreValue_sound (s : State) (core : Nat) (v : W64) : (s.coreValue core v).Sound = s.Sound := (rfl)

@[simp] theorem State.corePut_sound (s : State) (core : Nat) (off : Option Nat) (n : Nat) (v : W64) : (s.corePut core off n v).Sound = s.Sound := by
  unfold State.corePut
  split <;> simp

@[simp] theorem State.storeResv_sound (s : State) (a line core : Nat) (own : Bool) : (s.storeResv a line core own).Sound = s.Sound := (rfl)

@[simp] theorem State.coreOn_sound (s : State) (a line core : Nat) (off : Option Nat) (x : NodeAccess) :
    (s.coreOn a line core off x).Sound = s.Sound := by
  unfold State.coreOn
  extract_lets l o old v s0 put hold
  have h0 : s0.Sound = s.Sound := by simp [s0]
  have hhold (t : State) : (hold t).Sound = t.Sound := (rfl)
  split <;> simp [hhold, put, h0]

@[simp] theorem State.serveQueue_sound (s : State) (a line : Nat) (hs : s.Sound) : (s.serveQueue a line).Sound := by
  simp +contextual [hs, State.foldl_sound, State.serveQueue]

@[simp] theorem State.tryFinish_sound (s : State) (a line : Nat) (hs : s.Sound) : (s.tryFinish a line).Sound := by
  unfold State.tryFinish
  dsimp only
  repeat' split
  all_goals simp [hs]

@[simp] theorem State.agentRecv_sound (s : State) (a : Nat) (m : CMsg) (hs : s.Sound) : (s.agentRecv a m).Sound := by
  unfold State.agentRecv
  dsimp only
  repeat' split
  all_goals simp [hs]

@[simp] theorem State.sendReq_sound (s : State) (a line : Nat) (op : MsgOp) (st : ASt) (acc : Option (Nat × Option Nat × NodeAccess)) :
    (s.sendReq a line op st acc).Sound = s.Sound := by
  simp [State.sendReq]

@[simp] theorem State.agentReq_sound (s : State) (a line : Nat) (op : MsgOp) (st : ASt) (acc : Option (Nat × Option Nat × NodeAccess)) :
    (s.agentReq a line op st acc).Sound = s.Sound := by
  unfold State.agentReq
  generalize (if a % 16 = 8 then 64 else 48) = room
  dsimp only
  split
  · rfl
  · split
    · next h => simpa using (congrArg Gate.Sound h).symm
    · simp

@[simp] theorem State.setWatch_sound (s : State) (n line : Nat) : (s.setWatch n line).Sound = s.Sound := by
  unfold State.setWatch
  dsimp only
  split
  · rw [Gate.state_sound, State.agentReq_sound, State.setStream_sound]
  · simp

/-- A stream whose watch must be asked for first. -/
theorem State.watchOpen_sound {s t : State} {n : Nat} (h : s.watchOpen n = some t) : t.Sound = s.Sound := by
  unfold State.watchOpen at h
  split at h
  · cases h
  · split at h
    · cases h
    · cases h
      simp
    · cases h
      rfl

@[simp] theorem State.dropWatch_sound (s : State) (n : Nat) : (s.dropWatch n).Sound = s.Sound := by
  unfold State.dropWatch
  split
  · rfl
  dsimp only
  split
  · simp
  · split
    · rw [Gate.state_sound, State.agentReq_sound, State.setStream_sound]
    · simp

@[simp] theorem State.loseLine_sound (s : State) (a line : Nat) : (s.loseLine a line).Sound = s.Sound := by
  unfold State.loseLine
  repeat' split
  all_goals simp

@[simp] theorem State.unreached_sound (s : State) (a line : Nat) : (s.unreached a line).Sound = s.Sound := by
  simp [State.unreached]

/-! ### Operations of Machine/UnitXlate.lean -/

@[simp] theorem State.unitStart_sound (s : State) (x : Req) : (s.unitStart x).Sound = s.Sound := by
  simp [State.unitStart]

@[simp] theorem State.unitAll_sound (s : State) (xs : List Req) : (s.unitAll xs).Sound = s.Sound := by
  unfold State.unitAll
  dsimp only
  split <;> simp

@[simp] theorem State.unitEnd_sound (s : State) (xs : List Req) : (s.unitEnd xs).Sound = s.Sound := by
  refine foldl_keeps State.Sound _ (fun t x => ?_) xs s
  split <;> simp

@[simp] theorem State.withdrawn_sound (t : State) (id : Nat) : (t.withdrawn id).Sound = t.Sound := (rfl)

@[simp] theorem State.unitQuit_sound (s : State) (p : Who → Bool) : (s.unitQuit p).Sound = s.Sound := by
  refine foldl_keeps State.Sound _ (fun t e => ?_) s.reqs s
  split
  · split
    · rfl
    · split <;> simp
  · rfl

@[simp] theorem State.unitRead_sound (s : State) (who : Who) (kind : AccKind) (space va n : Nat) :
    (s.unitRead who kind space va n).Sound = s.Sound := by
  unfold State.unitRead
  dsimp only
  split
  · next h => simpa using (congrArg UnitOut.Sound h).symm
  · next h => split <;> simpa using (congrArg UnitOut.Sound h).symm

@[simp] theorem State.unitWrites_sound (s : State) (xs : List Req) : (s.unitWrites xs).Sound = s.Sound := by
  unfold State.unitWrites
  split
  · next h => simpa using (congrArg UnitOut.Sound h).symm
  · next h => split <;> simpa using (congrArg UnitOut.Sound h).symm

@[simp] theorem State.ringWrite_sound (s : State) (q : Source) (n pa : Nat) (l : List Byte) : (s.ringWrite q n pa l).2.Sound = s.Sound := by
  unfold State.ringWrite
  split <;> next h => simpa using (congrArg BytesOut.Sound h).symm

@[simp] theorem State.unitXlat_sound (s : State) (who : Who) (kind : AccKind) (space va : Nat) : (s.unitXlat who kind space va).Sound = s.Sound := by
  unfold State.unitXlat
  dsimp only
  repeat' split
  all_goals simp

@[simp] theorem State.readKeep_sound (s : State) (who : Who) (space va n : Nat) : (s.readKeep who space va n).Sound = s.Sound := by
  unfold State.readKeep
  split <;> rename_i h
  case h_5 => split <;> simpa using (congrArg BytesOut.Sound h).symm
  all_goals simpa using (congrArg BytesOut.Sound h).symm

@[simp] theorem State.readEnd_sound (s : State) (who : Who) (space va n : Nat) : (s.readEnd who space va n).Sound = s.Sound := by
  simp [State.readEnd]

@[simp] theorem State.readWords_sound (s : State) (who : Who) (space va n : Nat) : (s.readWords who space va n).Sound = s.Sound := by
  unfold State.readWords
  split
  · next h => simpa using (congrArg WordsOut.Sound h).symm
  · simp

/-! ### Operations of Machine/CrewIssue.lean -/

@[simp] theorem State.stepped_sound (s : State) (c : CrewId) : (s.stepped c).Sound = s.Sound := by
  simp [State.stepped]

@[simp] theorem State.fetched_sound (s : State) (c : CrewId) (r : Req) (l : Line) : (s.fetched c r l).Sound = s.Sound := by
  simp [State.fetched]

@[simp] theorem State.fetch_sound (s : State) (c : CrewId) (space pc lid : Nat) (w : W64) : (s.fetch c space pc lid w).Sound = s.Sound := by
  unfold State.fetch
  dsimp only
  split
  · rfl
  split
  · split <;> rfl
  split
  · next h => simpa using (congrArg UnitOut.Sound h).symm
  · next h =>
    split
    · split
      · simpa using (congrArg UnitOut.Sound h).symm
      · split <;> simpa using (congrArg UnitOut.Sound h).symm
    · simpa using (congrArg UnitOut.Sound h).symm

@[simp] theorem State.trap_sound (s : State) (i : Issue) (fault : LaneMask) (cause : Nat) (detail : W64) :
    (s.trap i fault cause detail).Sound = s.Sound := by
  simp [State.trap]

@[simp] theorem State.done_sound (s : State) (i : Issue) (v : Crew) : (s.done i v).Sound = s.Sound := by
  simp [State.done]

@[simp] theorem State.checked_sound {f : State → Issue → State} (hf : ∀ u i, u.Sound → (f u i).Sound) (s : State) (i : Issue) (l : Launch) (hs : s.Sound) :
    (s.checked i l f).Sound := by
  unfold State.checked
  split
  · simp [hs]
  · split
    · simp [hs]
    · simp [hs, hf]

/-- A crew instruction keeps the invariant when its effect does. -/
@[simp] theorem State.issueIf_sound {f : State → Issue → State} (hf : ∀ u i, u.Sound → (f u i).Sound) (s : State) (c : CrewId) (w : W64) (key : Nat)
    (ready : State → Crew → Bool) (hs : s.Sound) : (s.issueIf c w key ready f).Sound := by
  unfold State.issueIf
  split
  · exact hs
  split
  · simpa using hs
  split
  · exact hs
  split
  · split
    · exact hf _ _ hs
    · exact hs
  · split
    · exact State.checked_sound hf _ _ _ hs
    · exact hs
  · split <;> rename_i h
    · simpa [hs] using congrArg FetchOut.Sound h
    · simpa [hs] using congrArg FetchOut.Sound h
    · next u =>
      have hv : u.Sound := by simpa [hs] using congrArg FetchOut.Sound h
      dsimp only
      split
      · simpa using hv
      · split
        · simpa using hv
        · exact State.checked_sound hf _ _ _ hv

@[simp] theorem State.issue_sound {f : State → Issue → State} (hf : ∀ u i, u.Sound → (f u i).Sound) (s : State) (c : CrewId) (w : W64) (key : Nat)
    (hs : s.Sound) : (s.issue c w key f).Sound := State.issueIf_sound hf s c w key _ hs

/-! ### Operations of Machine/XlateCmds.lean -/

@[simp] theorem State.wake_sound (s : State) (id pa : Nat) : (s.wake id pa).Sound = s.Sound := by
  unfold State.wake
  split <;> simp

@[simp] theorem State.walkGo_sound (s : State) (k : Nat) (root : W64) (page n : Nat) (es : List W64) :
    (s.walkGo k root page n es).2.Sound = s.Sound := by
  induction n generalizing s es with
  | zero => rfl
  | succ n ih =>
    unfold State.walkGo
    split
    · rfl
    split
    · next h => simpa using (congrArg UnitOut.Sound h).symm
    · next h => split <;> simpa [ih] using (congrArg UnitOut.Sound h).symm

@[simp] theorem State.walkEnd_sound (s : State) (k : Nat) : (s.walkEnd_ k).Sound = s.Sound := by
  simp [State.walkEnd_]

@[simp] theorem State.walkLeaf_sound (s : State) (k : Nat) (e : PEntry) (l : W64) (big : Bool) (level : Nat) :
    (s.walkLeaf k e l big level).Sound = s.Sound := by
  simp [State.walkLeaf]

@[simp] theorem State.failEntry_sound (s : State) (k : Nat) (e : PEntry) : (s.failEntry k e).Sound = s.Sound := by
  simp [State.failEntry]

/-! ### Operations of Machine/AdmitCmds.lean -/

@[simp] theorem State.retryNow_sound (s : State) (q : Source) (l : Level) : (s.retryNow q l).Sound = s.Sound := by
  refine foldl_keeps State.Sound _ (fun t e => ?_) s.reqs s
  split
  · split
    · split <;> simp
    · rfl
  · rfl

@[simp] theorem State.granted_sound (s : State) (src : Source) (l : Level) : (s.granted src l).Sound = s.Sound := (rfl)
@[simp] theorem State.olderFills_sound (s : State) (die tile : Nat) (r : Req) : (s.olderFills die tile r).Sound = s.Sound := (rfl)
@[simp] theorem State.accessFault_sound (s : State) (core : Nat) : (s.accessFault core).Sound = s.Sound := (rfl)
@[simp] theorem State.apertureFault_sound (s : State) (core va cause : Nat) : (s.apertureFault core va cause).Sound = s.Sound := (rfl)

@[simp] theorem State.deliverCore_sound (s : State) (core : Nat) (r : Req) (res : AccResult) : (s.deliverCore core r res).Sound = s.Sound := by
  unfold State.deliverCore
  dsimp only
  split <;> simp

@[simp] theorem State.forget_sound (s : State) (id : Nat) : (s.forget id).Sound = s.Sound := (rfl)

@[simp] theorem State.answerAll_sound (s : State) (p : Req → Bool) (res : AccResult) : (s.answerAll p res).Sound = s.Sound := by
  simp [State.answerAll]

@[simp] theorem State.setPorts_sound (s : State) (k : Nat) (f : ColPort → ColPort) : (s.setPorts k f).Sound = s.Sound := (rfl)

@[simp] theorem State.sever_sound (s : State) (k : Nat) : (s.sever k).Sound = s.Sound := by
  simp [State.sever]

/-! ### Operations of Machine/Ebior.lean -/

/-- A packet served keeps the invariant when its own part does. -/
theorem State.serve_sound {s : State} (op : Nat) (p : Port) (k : Packet) (own : State → EbOut) (ho : ∀ u, u.Sound → (own u).Sound)
    (hs : s.Sound) : (s.serve op p k own).Sound := by
  unfold State.serve
  split
  · simpa using hs
  · have hown := ho s hs
    split <;> next h => simpa [h] using hown

/-- An Ebior packet keeps the invariant when its own part does. -/
@[simp] theorem State.ebior_sound {s : State} {own : State → EbOut} (ho : ∀ u, u.Sound → (own u).Sound) (op : Nat) (p : Port) (k : Packet)
    (hs : s.Sound) : (s.ebior op p k own).Sound := by
  have hport (v : PortSt) : (s.setPort p v).Sound := by simpa using hs
  unfold State.ebior
  split
  · exact hs
  dsimp only
  split
  · split <;> simpa using hs
  split
  · exact hport _
  · exact State.serve_sound _ _ _ _ ho (hport _)

/-! ### Operations of Machine/Boot.lean -/

-- UNCONVERTED State.coldReset_vault

@[simp] theorem State.dropImage_sound (s : State) (hs : s.Sound) : s.dropImage.Sound :=
  hs.with_landing (hs.mod_landing 0 fun st => Store.zeroRange_wf st _ _)

@[simp] theorem State.windowReset_sound (s : State) (hs : s.Sound) : s.windowReset.Sound := by
  unfold State.windowReset
  dsimp only
  split
  · refine State.dropImage_sound _ ?_
    split <;> exact hs
  · split <;> exact hs

@[simp] theorem doImageBegin_sound (p : Port) (k : Packet) (s : State) (hs : s.Sound) : (doImageBegin p k s).Sound := by
  have hdrop : s.dropImage.Sound := State.dropImage_sound s hs
  unfold doImageBegin
  dsimp only
  split
  · exact hs
  split
  · split
    · exact hs
    split
    · exact hs
    split
    · exact hs
    · exact hdrop
  · split
    · exact hs
    split
    · exact hs
    · exact hdrop

@[simp] theorem doImageData_sound (p : Port) (k : Packet) (s : State) (hs : s.Sound) : (doImageData p k s).Sound := by
  unfold doImageData
  dsimp only
  split
  · exact hs
  split
  · exact hs
  split
  · exact hs
  split
  · exact hs
  · exact hs.with_landing (hs.mod_landing 0 fun st => Store.writeBytes_wf st _ _)

@[simp] theorem doConfigWrite_sound (p : Port) (k : Packet) (s : State) : (doConfigWrite p k s).Sound = s.Sound := by
  unfold doConfigWrite
  split
  · rfl
  · split <;> rfl

@[simp] theorem doConfigRead_sound (_p : Port) (k : Packet) (s : State) : (doConfigRead _p k s).Sound = s.Sound := by
  unfold doConfigRead
  dsimp only
  repeat' split
  all_goals simp

@[simp] theorem State.badWay_sound (s : State) (die sl way : Nat) (hs : s.Sound) : (s.badWay die sl way).Sound := by
  simp [hs, State.badWay]

@[simp] theorem State.commit_sound (s : State) (bad : List (Nat × Nat × Nat)) (hs : s.Sound) : (s.commit bad).Sound := by
  unfold State.commit
  extract_lets s1
  have h1 : s1.Sound := State.foldl_sound (fun t b => t.badWay_sound _ _ _) bad hs
  clear_value s1
  obtain ⟨hdram, -, htiles, hlog, hmeas, -, -⟩ := h1
  have htiles2 : ∀ e ∈ s1.tiles.map (fun e => (e.1, { e.2 with ls := {}, l1 := [] })), e.2.Sound := by
    simp only [List.forall_mem_map]
    exact fun e he => ⟨rfl, (htiles e he).acc⟩
  have hparts : SoundParts s1.dram [] (s1.tiles.map (fun e => (e.1, { e.2 with ls := {}, l1 := [] }))) s1.log s1.cairn.log 2 0 :=
    ⟨hdram, by simp, htiles2, hlog, hmeas, by decide, by decide⟩
  exact State.measure_sound _ _ _ _ hparts

@[simp] theorem State.logFailedGroups_sound (s : State) (hs : s.Sound) : s.logFailedGroups.Sound := by
  simp +contextual [hs, State.foldl_sound, State.logFailedGroups]

@[simp] theorem commitSteps_sound (bad : List (Nat × Nat × Nat)) (s : State) (hs : s.Sound) : (commitSteps bad s).2.2.Sound := by
  unfold commitSteps
  dsimp only
  repeat' split
  all_goals simp [hs]

@[simp] theorem doConfigCommit_sound (bad : List (Nat × Nat × Nat)) (p : Port) (k : Packet) (s : State) (hs : s.Sound) :
    (doConfigCommit bad p k s).Sound := by
  unfold doConfigCommit
  split
  · exact hs
  split
  · exact hs
  split
  · simp [hs]
  · split <;> exact hs

@[simp] theorem State.trainGroup_sound (s : State) (outs : List ChanOutcome) (die g : Nat) : (s.trainGroup outs die g).Sound = s.Sound := by
  simp [State.trainGroup]

/-! ### Operations of Machine/CrewMem.lean -/

@[simp] theorem State.laneEnd_sound (s : State) (i : Issue) (v : Crew) (faults : List (Nat × Nat × W64)) :
    (s.laneEnd i v faults).Sound = s.Sound := by
  simp [State.laneEnd]

@[simp] theorem State.ordered_sound (s : State) (l : List LaneAcc) : (s.ordered l).Sound = s.Sound := by
  simp [State.ordered]

@[simp] theorem State.globalAccs_sound (s : State) (i : Issue) (whole : LaneMask) (n : Nat) (l : List LaneAcc) (mk : Nat → LaneAcc → Req) :
    (s.globalAccs i whole n l mk).Sound = s.Sound := by
  simp [State.globalAccs]

theorem localLoad_sound (i : Issue) (n : Nat) (x : State × Crew × List (Nat × Nat × W64)) (a : LaneAcc) (hs : x.1.Sound) :
    (localLoad i n x a).1.Sound := by
  unfold localLoad
  dsimp only
  split <;> simp [hs]

theorem localAtom_sound (i : Issue) (returns : Bool) (x : State × Crew × List (Nat × Nat × W64)) (a : LaneAcc) (hs : x.1.Sound) :
    (localAtom i returns x a).1.Sound := by
  unfold localAtom
  dsimp only
  split <;> simp [hs]

@[simp] theorem State.atomOrRed_sound (s : State) (i : Issue) (returns : Bool) (hs : s.Sound) : (s.atomOrRed i returns).Sound := by
  unfold State.atomOrRed
  dsimp only
  split
  · simp [hs]
  · rw [State.laneEnd_sound]
    exact foldl_holds (p := fun x : State × Crew × List (Nat × Nat × W64) => x.1.Sound) (localAtom_sound i returns) _ (by simpa using hs)

/-! ### Operations of Machine/CrewControl.lean -/

@[simp] theorem State.branch_sound (s : State) (i : Issue) (tgt : Nat → Nat) : (s.branch i tgt).Sound = s.Sound := by
  unfold State.branch
  repeat' split
  all_goals simp

@[simp] theorem State.logCopyErr_sound (s : State) (c : CrewId) (cause : Nat) (d : W64) (hs : s.Sound) : (s.logCopyErr c cause d).Sound := by
  unfold State.logCopyErr
  split <;> simp [hs]

@[simp] theorem State.crewGone_sound (s : State) (c : CrewId) (hs : s.Sound) : (s.crewGone c).Sound := by
  unfold State.crewGone
  split <;> simp +contextual [hs, State.foldl_sound]

@[simp] theorem State.fenceOf_sound (s : State) (i : Issue) (kind : Nat) : (s.fenceOf i kind).Sound = s.Sound := by
  simp [State.fenceOf]

/-! ### Operations of Machine/Matrix.lean -/

@[simp] theorem State.countSram_sound (s : State) (die : Nat) (e : (Nat × Nat) × Nat × Nat) : (s.countSram die e).Sound = s.Sound := by
  simp [State.countSram]

/-! ### Operations of Machine/Element.lean -/

@[simp] theorem State.elementDone_sound (s : State) (die tile : Nat) (e : EInstr) : (s.elementDone die tile e).Sound = s.Sound :=
  State.setTile_same rfl rfl

@[simp] theorem State.countProgram_sound (s : State) (pid : Nat) : (s.countProgram pid).Sound = s.Sound := by
  simp [State.countProgram]

@[simp] theorem State.eprunEnd_sound (s0 : State) (die tile : Nat) (e : EInstr) (bad : Bool) (hs : s0.Sound) :
    (s0.eprunEnd die tile e bad).Sound := by
  have h1 : (s0.accstStep die tile).Sound := State.accstStep_sound s0 die tile hs
  have ht := h1.tile die tile
  unfold State.eprunEnd
  dsimp only
  rw [State.elementDone_sound, State.countSram_sound]
  exact State.setTile_sound (by simpa using h1) ⟨eprun_wf _ _ _ _ _ _ ht.ls, ht.acc⟩

/-! ### Operations of Machine/Traps.lean -/

@[simp] theorem State.resumed_sound (s : State) (c : CrewId) (v : Crew) : (s.resumed c v).Sound = s.Sound := by
  unfold State.resumed
  rw [State.tryBars_sound, State.raiseGroup_sound]
  exact s.setCrew_sound c v

@[simp] theorem State.withdraw_sound (s : State) (p : Req → Bool) : (s.withdraw p).Sound = s.Sound := by
  simp [State.withdraw]

@[simp] theorem State.killStand_sound (s : State) (die tile stand : Nat) (hs : s.Sound) : (s.killStand die tile stand).Sound := by
  unfold State.killStand
  extract_lets t slots s1 t1 s2 s3
  have h1 : s1.Sound := (s.withdraw_sound _).mpr hs
  have h2 : s2.Sound := State.setTile_sound h1 (h1.tile die tile :)
  have h3 : s3.Sound := h2
  exact State.foldl_sound (fun u k hu => by simp [hu]) _ h3

/-! ### Operations of Machine/Bucker.lean -/

@[simp] theorem State.setDescs_sound (s : State) (b : BuckerId) (l : List Desc) : (s.setDescs b l).Sound = s.Sound := by
  unfold State.setDescs
  split <;> simp

@[simp] theorem State.putDesc_sound (s : State) (b : BuckerId) (d : Desc) : (s.putDesc b d).Sound = s.Sound := by
  simp [State.putDesc]

@[simp] theorem State.submit_sound (s : State) (c : CrewId) (v : Crew) (ch addr : Nat) (hs : s.Sound) : (s.submit c v ch addr).1.Sound := by
  unfold State.submit
  dsimp only
  repeat' split
  all_goals simp [hs]

@[simp] theorem State.submitLanes_sound (s : State) (i : Issue) (ch : Nat) (l : List Nat) (faults : List (Nat × Nat × W64)) (n : Nat)
    (hs : s.Sound) : (s.submitLanes i ch l faults n).1.Sound := by
  induction l generalizing s faults n with
  | nil => exact hs
  | cons k rest ih =>
    unfold State.submitLanes
    split
    · dsimp only
      split <;> exact ih _ _ _ (by simp [hs])
    · exact hs

@[simp] theorem State.landGate_sound (s : State) (b : BuckerId) (ask : Bool) (m off : Nat) : (s.landGate b ask m off).Sound = s.Sound :=
  s.gateIf_sound ask _ _

@[simp] theorem State.copyRead_sound (s : State) (b : BuckerId) (got : List (Req × AccResult)) (known : List (Nat × Nat × Nat)) (sp die : Nat)
    (off : Int) (n : Nat) (hs : s.Sound) : (s.copyRead b got known sp die off n).Sound := by
  unfold State.copyRead
  split
  · split <;> simp [hs]
  · split <;> next h => simpa [hs] using congrArg Gate.Sound h
  · refine foldl_holds (p := fun x : SpanOut × Nat => x.1.Sound) (fun x e hx => ?_) _ hs
    split
    · next h =>
      rw [h] at hx
      split <;> exact hx
    · exact hx

@[simp] theorem Moving.read_sound (m : Moving) (b : BuckerId) (sp die : Nat) (off : Int) (n : Nat) (hs : m.s.Sound) :
    (m.read b sp die off n).1.s.Sound := by
  unfold Moving.read
  dsimp only
  split <;> next h => simpa [hs] using congrArg SpanOut.Sound h

@[simp] theorem Moving.source_sound (m : Moving) (b : BuckerId) (d : Desc) (e : Nat) (hs : m.s.Sound) : (m.source b d e).1.s.Sound := by
  unfold Moving.source
  dsimp only
  split
  · exact hs
  split
  · split
    · simp [hs]
    · split <;> simp [hs]
  · simp [hs]

@[simp] theorem Moving.one_sound (m : Moving) (b : BuckerId) (d : Desc) (draw e : Nat) (hs : m.s.Sound) : (m.one b d draw e).s.Sound := by
  unfold Moving.one
  dsimp only
  split
  · exact hs
  split
  · split
    · split <;> exact hs
    · exact hs
  split
  · split <;> exact hs
  split
  · simp [hs]
  split
  · simp [hs]
  · split <;> simp [hs]

@[simp] theorem Moving.block_sound (m : Moving) (b : BuckerId) (d : Desc) (draw e : Nat) (hs : m.s.Sound) : (m.block b d draw e).s.Sound := by
  have hf : ((List.range 32).foldl (fun (acc : Moving × List (Option Val)) k =>
      if acc.1.wait then acc
      else
        let x := acc.1.source b d (e + k)
        (x.1, acc.2 ++ [x.2.1])) (m, [])).1.s.Sound := by
    refine foldl_holds (p := fun x : Moving × List (Option Val) => x.1.s.Sound) (fun x k hx => ?_) _ hs
    dsimp only
    split
    · exact hx
    · exact Moving.source_sound _ _ _ _ hx
  unfold Moving.block
  dsimp only
  split
  · exact hs
  · split <;> exact hf

@[simp] theorem State.putRun_sound (s : State) (b : BuckerId) (d : Desc) (x : CopyW) : (s.putRun b d x).Sound = s.Sound := by
  simp [State.putRun]

@[simp] theorem State.putSectors_sound (s : State) (b : BuckerId) (l : List CopyW) (hs : s.Sound) : (s.putSectors b l).Sound := by
  refine State.foldl_sound (fun t k ht => ?_) _ hs
  dsimp only
  split
  · next dd n _ _ =>
    have h1 := t.accstStep_sound dd n ht
    exact State.setTile_sound h1 ((h1.tile _ _).putLs (Store.putSector_wf _ _ _ (h1.tile _ _).ls))
  · exact ht
  · split
    · exact ht.with_landing (ht.mod_landing _ fun st => Store.putSector_wf st _ _)
    · exact ht

@[simp] theorem State.landEnter_sound (s : State) (b : BuckerId) (l : List CopyW) : (s.landEnter b l).2.Sound = s.Sound := by
  refine foldl_fixes (fun x : Bool × State => x.2.Sound) _ (fun x k => ?_) _ _
  split
  · split <;> next h => simpa using (congrArg Gate.Sound h).symm
  · rfl

@[simp] theorem State.putRed_sound (s : State) (b : BuckerId) (d : Desc) (x : CopyW) : (s.putRed b d x).Sound = s.Sound := by
  simp [State.putRed]

@[simp] theorem State.putWrites_sound (s : State) (b : BuckerId) (d : Desc) (l : List CopyW) : (s.putWrites b d l).Sound = s.Sound := by
  simp [State.putWrites]

@[simp] theorem State.copyErrAt_sound (s : State) (b : BuckerId) (d : Desc) (cause detail : Nat) (hs : s.Sound) :
    (s.copyErrAt b d cause detail).Sound := by
  unfold State.copyErrAt
  dsimp only
  repeat' split
  all_goals simp [hs]

@[simp] theorem State.moves_sound (s : State) (b : BuckerId) (d : Desc) (fin : Nat) (got : List (Req × AccResult)) (hs : s.Sound) :
    (s.moves b d fin got).s.Sound := by
  unfold State.moves
  dsimp only
  split
  · exact foldl_holds (p := fun m : Moving => m.s.Sound) (fun m e => m.block_sound b d s.fresh e) _ hs
  · exact foldl_holds (p := fun m : Moving => m.s.Sound) (fun m e => m.one_sound b d s.fresh e) _ hs

@[simp] theorem State.readsOver_sound (s : State) (b : BuckerId) (serial : Nat) : (s.readsOver b serial).Sound = s.Sound := by
  refine foldl_keeps State.Sound _ (fun t e => ?_) s.reqs s
  split
  · split
    · split <;> simp
    · rfl
  · rfl

@[simp] theorem State.turnMove_sound (s : State) (b : BuckerId) (d : Desc) (fin : Nat) (got : List (Req × AccResult)) (hs : s.Sound) :
    (s.turnMove b d fin got).Sound := by
  unfold State.turnMove
  extract_lets m all whole out go new d1 s0 s1 n s2 s3 s4
  have hm : m.s.Sound := s.moves_sound b d fin got hs
  have hgo : go.2.Sound := by simpa [go] using hm
  have h1 : s1.Sound := by simp [s1, s0, hgo]
  have h2 : s2.Sound := by simpa [s2] using h1
  have h3 : s3.Sound := by simpa [s3] using h2
  have h4 : s4.Sound := by
    unfold s4
    split
    · simp [h3]
    · exact h3
  split
  · exact hm
  split
  · exact hgo
  · split
    · simpa using h4
    · exact h4

@[simp] theorem State.idxRead_sound (s : State) (b : BuckerId) (d : Desc) (hs : s.Sound) : (s.idxRead b d).2.2.Sound := by
  unfold State.idxRead
  dsimp only
  split
  · simp [hs]
  · refine foldl_holds (p := fun x : Option (List (Option W32)) × Option (Nat × Nat) × State => x.2.2.Sound) (fun x k hx => ?_) _ hs
    split
    · exact hx
    · split <;> next h => simpa [hx] using congrArg Gate.Sound h
  · split <;> next h => simpa [hs] using congrArg UnitOut.Sound h

@[simp] theorem State.onCopy_sound (s : State) (stream addr : Nat) (g : Flight → Flight) : (s.onCopy stream addr g).Sound = s.Sound := (rfl)

@[simp] theorem State.descRead_sound (s : State) (n : Nat) (v : Stream) (f : Flight) : (s.descRead n v f).Sound = s.Sound :=
  s.readWords_sound _ _ _ _

/-! ### Operations of Machine/Cairn.lean -/

@[simp] theorem doSafetyProfile_sound (p : Port) (k : Packet) (s : State) : (doSafetyProfile p k s).Sound = s.Sound := by
  unfold doSafetyProfile
  dsimp only
  split <;> rfl

@[simp] theorem doQueryIdentity_sound (_p : Port) (_k : Packet) (s : State) : (doQueryIdentity _p _k s).Sound = s.Sound := (rfl)

@[simp] theorem doAttest_sound (p : Port) (k : Packet) (s : State) : (doAttest p k s).Sound = s.Sound := by
  unfold doAttest
  dsimp only
  split
  · rfl
  split
  · rfl
  split
  · split <;> rfl
  · rfl

@[simp] theorem State.releaseDebug_sound (s : State) (hs : s.Sound) : s.releaseDebug.Sound :=
  hs.with_tiles (hs.map_tiles fun _ he => he)

@[simp] theorem State.refuseUnlock_sound (s : State) : s.refuseUnlock.Sound = s.Sound := (rfl)

@[simp] theorem doDebugLock_sound (p : Port) (k : Packet) (s : State) (hs : s.Sound) : (doDebugLock p k s).Sound := by
  simp [hs, doDebugLock]

@[simp] theorem doPowerLimitSet_sound (p : Port) (k : Packet) (s : State) : (doPowerLimitSet p k s).Sound = s.Sound := by
  unfold doPowerLimitSet
  dsimp only
  repeat' split
  all_goals simp

@[simp] theorem State.scanDrive_sound (s : State) (code : Nat) (dr : Option Nat) : (s.scanDrive code dr).Sound = s.Sound := by
  simp [State.scanDrive]

/-! ### Operations of Machine/CohCmds.lean -/

@[simp] theorem State.noticesHere_sound (s : State) (l : List Nat) : (s.noticesHere l).Sound = s.Sound := (rfl)

@[simp] theorem State.sendMgt_sound (s : State) (slot : Nat) (dead : Option Nat) : (s.sendMgt slot dead).Sound = s.Sound := by
  unfold State.sendMgt
  split <;> simp

@[simp] theorem State.declareDead_sound (s : State) (l : List Nat) : (s.declareDead l).Sound = s.Sound := by
  simp [State.declareDead]

@[simp] theorem State.dropRequests_sound (s : State) (x : Nat) : (s.dropRequests x).Sound = s.Sound := (rfl)

@[simp] theorem State.homePoison_sound (s : State) (line : Nat) (hs : s.Sound) : (s.homePoison line).Sound := by
  unfold State.homePoison
  split
  · next h => exact (State.homeVictim_sound h).mpr hs
  · simp [hs]

@[simp] theorem State.reclaimBusy_sound (s : State) (x : Nat) (b : Busy) (hs : s.Sound) : (s.reclaimBusy x b).1.Sound := by
  unfold State.reclaimBusy
  dsimp only
  repeat' split
  all_goals simp [hs]

@[simp] theorem State.reclaimDir_sound (s : State) (x line : Nat) (hs : s.Sound) : (s.reclaimDir x line).1.Sound := by
  unfold State.reclaimDir
  dsimp only
  repeat' split
  all_goals simp [hs]

@[simp] theorem State.reclaim_sound (s : State) (x : Nat) (hs : s.Sound) : (s.reclaim x).Sound := by
  have h0 : (s.dropRequests x).Sound := hs
  unfold State.reclaim
  extract_lets s0 busy s1 lines r
  have h1 : s1.1.Sound :=
    foldl_holds (p := fun y : State × Nat => y.1.Sound) (fun y b hy => by simp [hy]) _ h0
  have hr : r.1.Sound := foldl_holds (p := fun y : State × Nat => y.1.Sound) (fun y n hy => by simp [hy]) _ h1
  simpa using hr

@[simp] theorem State.halfDone_sound (s : State) (half : Nat) (h : HostLine) (hs : s.Sound) : (s.halfDone half h).Sound := by
  simp [hs, State.halfDone]

@[simp] theorem State.evictGo_sound (s : State) (half : Nat) (h : HostLine) (d : D2H) (hs : s.Sound) : (s.evictGo half h d).Sound := by
  unfold State.evictGo
  extract_lets line i s1 h1 s2
  have h2 : s2.Sound := by
    have h1 : s1.Sound := by
      unfold s1
      split
      · exact hs
      · exact hs
    exact h1
  split
  · exact h2
  · simp [h2]

@[simp] theorem State.emptyHost_sound (s : State) : s.emptyHost.Sound = s.Sound := (rfl)

/-! ### Operations of Machine/StreamCmds.lean -/

@[simp] theorem doStreamOpen_sound (p : Port) (k : Packet) (s : State) : (doStreamOpen p k s).Sound = s.Sound := by
  unfold doStreamOpen
  dsimp only
  repeat' split
  all_goals simp

@[simp] theorem doStreamClose_sound (p : Port) (k : Packet) (s : State) : (doStreamClose p k s).Sound = s.Sound := by
  unfold doStreamClose
  dsimp only
  repeat' split
  all_goals simp

@[simp] theorem doStreamMigrate_sound (p : Port) (k : Packet) (s : State) : (doStreamMigrate p k s).Sound = s.Sound := by
  unfold doStreamMigrate
  dsimp only
  repeat' split
  all_goals simp

@[simp] theorem doPackagePark_sound (p : Port) (k : Packet) (s : State) : (doPackagePark p k s).Sound = s.Sound := by
  unfold doPackagePark
  dsimp only
  repeat' split
  all_goals simp

@[simp] theorem State.endPark_sound (s : State) : s.endPark.Sound = s.Sound := by
  unfold State.endPark
  split <;> simp

@[simp] theorem doResume_sound (p : Port) (_k : Packet) (s : State) : (doResume p _k s).Sound = s.Sound := by
  unfold doResume
  repeat' split
  all_goals simp

/-! ### Operations of Machine/Dispatcher.lean -/

@[simp] theorem State.nextRead_sound (s : State) (n : Nat) : (s.nextRead n).Sound = s.Sound := by
  simp [State.nextRead]

@[simp] theorem State.start_sound (s : State) (n : Nat) (f : Flight) : (s.start n f).Sound = s.Sound := by
  simp [State.start]

@[simp] theorem State.reject_sound (s : State) (n : Nat) (ws : List W64) (reason : Nat) (stop : Bool) :
    (s.reject n ws reason stop).Sound = s.Sound := by
  simp [State.reject]

@[simp] theorem State.pass_sound (s : State) (n next : Nat) (irq : Bool) : (s.pass n next irq).Sound = s.Sound := by
  simp [State.pass]

/-- A record that a stream takes keeps the invariant when its own part does. -/
@[simp] theorem State.take_sound {f : State → List W64 → State} (hf : ∀ u ws, u.Sound → (f u ws).Sound) (s : State) (n typ : Nat) (hs : s.Sound) :
    (s.take n typ f).Sound := by
  unfold State.take
  split
  · exact hs
  split
  · next h => exact (State.watchOpen_sound h).mpr hs
  dsimp only
  split
  · next h => simpa [hs] using congrArg WordsOut.Sound h
  · next h => simpa [hs] using congrArg WordsOut.Sound h
  · next u h =>
    have hv : u.Sound := by simpa [hs] using congrArg WordsOut.Sound h
    split
    · exact hv
    split
    · simpa using hv
    split
    · exact hv
    split
    · exact hf _ _ hv
    · exact hf _ _ (by simpa using hv)

@[simp] theorem State.finFlight_sound (s : State) (n addr status : Nat) (detail : W64) : (s.finFlight n addr status detail).Sound = s.Sound := (rfl)

@[simp] theorem State.recAccess_sound (s : State) (x : Req) : (s.recAccess x).Sound = s.Sound := by
  unfold State.recAccess
  split <;> rename_i h
  · simpa using (congrArg UnitOut.Sound h).symm
  · split
    · simpa using (congrArg UnitOut.Sound h).symm
    · split <;> simpa using (congrArg UnitOut.Sound h).symm

@[simp] theorem State.parkAt_sound (s : State) (n : Nat) : (s.parkAt n).Sound = s.Sound := by
  unfold State.parkAt
  dsimp only
  split <;> rename_i h
  · simpa using (congrArg XOut.Sound h).symm
  · simpa using (congrArg XOut.Sound h).symm
  · split
    · simpa using (congrArg XOut.Sound h).symm
    · split <;> simpa using (congrArg XOut.Sound h).symm

@[simp] theorem State.releaseWatches_sound (s : State) : s.releaseWatches.Sound = s.Sound := by
  refine foldl_keeps State.Sound _ (fun t line => ?_) _ s
  split
  · rw [Gate.state_sound, State.agentReq_sound]
  · rfl

@[simp] theorem State.forgetLaunch_sound (s : State) (n addr : Nat) : (s.forgetLaunch n addr).Sound = s.Sound := (rfl)
@[simp] theorem State.worked_sound (s : State) : s.worked.Sound = s.Sound := (rfl)

@[simp] theorem State.dropWatchIf_sound (s : State) (n : Nat) (c : Bool) : (s.dropWatchIf n c).Sound = s.Sound := by
  simp [State.dropWatchIf]

@[simp] theorem State.setEhead_sound (s : State) (n h : Nat) : (s.setEhead n h).Sound = s.Sound := by
  simp [State.setEhead]

@[simp] theorem State.contStream_sound (s : State) (n : Nat) : (s.contStream n).Sound = s.Sound := by
  simp [State.contStream]

/-! ### Operations of Machine/Power.lean -/

@[simp] theorem State.takeLimit_sound (s : State) : s.takeLimit.Sound = s.Sound := by
  unfold State.takeLimit
  repeat' split
  all_goals simp

@[simp] theorem State.markHints_sound (s : State) : s.markHints.Sound = s.Sound := by
  simp [State.markHints]

@[simp] theorem State.sendGrants_sound (s : State) (gs : List (Nat × Int)) : (s.sendGrants gs).Sound = s.Sound := by
  simp [State.sendGrants]

@[simp] theorem State.hintForce_sound (s : State) (die i : Nat) : (s.hintForce die i).Sound = s.Sound := by
  simp [State.hintForce]

/-! ### Operations of Machine/Records.lean -/

@[simp] theorem State.readyTile_sound (s : State) (lid : Nat) (progs : List (List W64)) (e : Nat × Nat) :
    (s.readyTile lid progs e).Sound = s.Sound := by
  simp [State.readyTile]

@[simp] theorem State.launchGo_sound (s : State) (n : Nat) (ws : List W64) (l : Launch) (hs : s.Sound) : (s.launchGo n ws l).Sound := by
  unfold State.launchGo
  dsimp only
  split <;> rename_i h
  · simpa [hs] using congrArg WordsOut.Sound h
  · simpa [hs] using congrArg WordsOut.Sound h
  · next u =>
    have hu : u.Sound := by simpa [hs] using congrArg WordsOut.Sound h
    split
    · simpa using hu
    · split
      · exact hu
      · rw [State.start_sound]
        exact State.foldl_sound (fun t e ht => by split <;> simpa using ht) _ hu

@[simp] theorem State.placeStand_sound (s : State) (lid : Nat) (l : Launch) (die tile slot : Nat) (hs : s.Sound) :
    (s.placeStand lid l die tile slot).Sound := by
  unfold State.placeStand
  extract_lets s0 t crews ctx s1
  have h0 : s0.Sound := by simpa [s0] using hs
  have h1 : s1.Sound := State.setTile_sound h0 (h0.tile die tile :)
  exact h1

@[simp] theorem State.launchDone_sound (s : State) (lid : Nat) : (s.launchDone lid).Sound = s.Sound := by
  unfold State.launchDone
  split <;> simp

@[simp] theorem State.freeStand_sound (s : State) (die tile slot : Nat) (hs : s.Sound) : (s.freeStand die tile slot).Sound := by
  unfold State.freeStand
  extract_lets t
  split
  · exact hs
  · rw [State.launchDone_sound]
    exact State.setTile_sound ((State.worked_sound s).mpr hs) (hs.tile die tile :)

@[simp] theorem State.attempt_sound {go : State → Flight → State} (hg : ∀ u f, u.Sound → (go u f).Sound) (s : State) (n typ : Nat)
    (ok : List W64 → Bool) (hs : s.Sound) : (s.attempt n typ ok go).Sound := by
  unfold State.attempt
  split
  · refine State.take_sound (fun u ws hu => ?_) _ n typ ?_
    · split
      · exact hg _ _ (by simpa using hu)
      · simpa using hu
    · split
      · exact hg _ _ hs
      · exact hs
  · exact hs

@[simp] theorem State.recordWrite_sound (s : State) (n : Nat) (f : Flight) (v : W64) (add : Bool) :
    (s.recordWrite n f v add).Sound = s.Sound := by
  unfold State.recordWrite
  dsimp only
  split <;> next h => simpa using (congrArg RecOut.Sound h).symm

@[simp] theorem State.waitDue_sound (s : State) (n : Nat) (f : Flight) (due : Nat) : (s.waitDue n f due).Sound = s.Sound := by
  simp [State.waitDue]

@[simp] theorem State.waitRead_sound (s : State) (n : Nat) (f : Flight) (va : Nat) : (s.waitRead n f va).Sound = s.Sound := by
  unfold State.waitRead
  split <;> next h => simpa using (congrArg RecOut.Sound h).symm

@[simp] theorem State.waitGo_sound (s : State) (n : Nat) (f : Flight) : (s.waitGo n f).Sound = s.Sound := by
  unfold State.waitGo
  dsimp only
  split
  · simp
  split <;> rename_i h
  · simpa using (congrArg XOut.Sound h).symm
  · simpa using (congrArg XOut.Sound h).symm
  · split
    · simpa using (congrArg XOut.Sound h).symm
    split
    · simpa using (congrArg XOut.Sound h).symm
    · split <;> simpa using (congrArg XOut.Sound h).symm

@[simp] theorem State.takeHint_sound (s : State) (h : Hint) (die : Nat) : (s.takeHint h die).Sound = s.Sound := by
  simp [State.takeHint]

@[simp] theorem State.onFlush_sound (s : State) (n : Nat) (f : Flight) (g : Flight → Flight) : (s.onFlush n f g).Sound = s.Sound := (rfl)

@[simp] theorem State.flushFind_sound (s : State) (n : Nat) (f : Flight) (past : Nat) : (s.flushFind n f past).Sound = s.Sound := by
  unfold State.flushFind
  split <;> rename_i h
  · simpa using (congrArg XOut.Sound h).symm
  · simpa using (congrArg XOut.Sound h).symm
  · dsimp only
    split <;> simpa using (congrArg XOut.Sound h).symm

@[simp] theorem State.flushGo_sound (s : State) (n : Nat) (f : Flight) : (s.flushGo n f).Sound = s.Sound := by
  unfold State.flushGo
  dsimp only
  split
  · simp
  split
  · simp
  split
  · simp
  split <;> rename_i h
  · simpa using (congrArg UnitOut.Sound h).symm
  · split <;> simpa using (congrArg UnitOut.Sound h).symm

/-! ### Operations of Machine/Ridge.lean -/

@[simp] theorem State.linkState_sound (s : State) (l : Nat) (v : Link) : (s.linkState l v).Sound = s.Sound := by
  simp [State.linkState]

@[simp] theorem State.laneEvent_sound (s : State) (l left : Nat) (hs : s.Sound) : (s.laneEvent l left).Sound := by
  simp [hs, State.laneEvent]

@[simp] theorem State.goesNoFurther_sound (s : State) (m : RMsg) : (s.goesNoFurther m).Sound = s.Sound := by
  unfold State.goesNoFurther
  repeat' split
  all_goals simp

@[simp] theorem State.failoverOne_sound (s : State) (l : Nat) (e : Nat × Nat × RMsg) : (s.failoverOne l e).Sound = s.Sound := by
  unfold State.failoverOne
  dsimp only
  repeat' split
  all_goals simp

@[simp] theorem State.failover_sound (s : State) (l : Nat) : (s.failover l).Sound = s.Sound := by
  simp [State.failover]

@[simp] theorem State.linkDown_sound (s : State) (l : Nat) : (s.linkDown l).Sound = s.Sound := by
  simp [State.linkDown]

@[simp] theorem State.linkRetrain_sound (s : State) (l : Nat) (hs : s.Sound) : (s.linkRetrain l).Sound := by
  simp [hs, State.linkRetrain]

@[simp] theorem State.linkRetire_sound (s : State) (l : Nat) (hs : s.Sound) : (s.linkRetire l).Sound := by
  simp [hs, State.linkRetire]

@[simp] theorem State.nakOn_sound (s : State) (l last : Nat) (hs : s.Sound) : (s.nakOn l last).Sound := by
  simp [hs, State.nakOn]

@[simp] theorem State.laneFault_sound (s : State) (l lane : Nat) (hs : s.Sound) : (s.laneFault l lane).Sound := by
  simp [hs, State.laneFault]

@[simp] theorem State.ridgeAgain_sound (s : State) (l : Nat) : (s.ridgeAgain l).Sound = s.Sound := by
  simp [State.ridgeAgain]

@[simp] theorem State.remoteStart_sound (s : State) (link : Nat) (m : RMsg) (a : RAcc) : (s.remoteStart link m a).Sound = s.Sound := by
  simp [State.remoteStart]

@[simp] theorem State.cohArrive_sound (s : State) (c : CMsg) : (s.cohArrive c).Sound = s.Sound := (rfl)

/-! ### Operations of Machine/Collective.lean -/

@[simp] theorem State.setPlan_sound (s : State) (die : Nat) (p : Plan) : (s.setPlan die p).Sound = s.Sound := (rfl)
@[simp] theorem State.dropPlan_sound (s : State) (die cid : Nat) : (s.dropPlan die cid).Sound = s.Sound := (rfl)

@[simp] theorem State.poke_sound (s : State) (line o n d : Nat) (hs : s.Sound) : (s.poke line o n d).Sound := by
  simp [hs, State.poke]

@[simp] theorem State.ruin_sound (s : State) (die space va n : Nat) (hs : s.Sound) : (s.ruin die space va n).Sound := by
  refine State.foldl_sound (fun t e ht => ?_) _ ((State.drawn_sound s).mpr hs)
  split
  · split
    · simp [ht]
    · exact ht
  · exact ht

@[simp] theorem State.chunkBack_sound (s : State) (o : OutChunk) : (s.chunkBack o).Sound = s.Sound := by
  unfold State.chunkBack
  split <;> simp

@[simp] theorem State.planError_sound (s : State) (die cid cause : Nat) (hs : s.Sound) : (s.planError die cid cause).Sound := by
  unfold State.planError
  split
  · exact hs
  · extract_lets s1
    have h1 : s1.Sound := by simpa [s1] using hs
    simp [h1]

/-- A chunk sent leaves a sound state, when its peer can be reached. -/
@[simp] def SendOut.Sound : SendOut → Prop
  | .sent _ s => s.Sound
  | .refused s => s.Sound
  | .unreachable => True

theorem State.sendChunk_sound (s : State) (die peer : Nat) (k : Chunk) (hs : s.Sound) : (s.sendChunk die peer k).Sound := by
  unfold State.sendChunk
  dsimp only
  split
  · exact hs
  split
  · trivial
  · split
    · simpa using hs
    · rw [SendOut.Sound, State.ridgeSend_sound]
      simpa using hs

@[simp] theorem State.stepSend_sound (s : State) (die cid k j : Nat) (hs : s.Sound) : (s.stepSend die cid k j).Sound := by
  unfold State.stepSend
  split
  · exact hs
  split
  · exact hs
  next t _ =>
  dsimp only
  split
  · exact hs
  split
  · next h => simpa [hs] using congrArg BytesOut.Sound h
  · next u h =>
    have hu : u.Sound := by simpa [hs] using congrArg BytesOut.Sound h
    simp [hu]
  · next l bad xs u h =>
    have hu : u.Sound := by simpa [hs] using congrArg BytesOut.Sound h
    have hk := u.sendChunk_sound die t.peer (u.chunkOf die cid { step := k, chunk := t.dfirst + j, try_ := 0, payload := l, psn := !bad.isEmpty }) hu
    split <;> next hsend =>
      rw [hsend] at hk
      simp_all

@[simp] theorem State.stepLocal_sound (s : State) (die cid k j : Nat) (hs : s.Sound) : (s.stepLocal die cid k j).Sound := by
  unfold State.stepLocal
  split
  · exact hs
  split
  · exact hs
  dsimp only
  split
  · exact hs
  split
  · next h => simpa [hs] using congrArg BytesOut.Sound h
  · next u h =>
    have hu : u.Sound := by simpa [hs] using congrArg BytesOut.Sound h
    simp [hu]
  · next u h =>
    have hu : u.Sound := by simpa [hs] using congrArg BytesOut.Sound h
    split <;> next v hw =>
      have hv : v.Sound := by simpa [hu] using congrArg BytesOut.Sound hw
      simp [hv]

@[simp] theorem State.answerChunk_sound (s : State) (die : Nat) (k : Chunk) (a : ChunkAns) : (s.answerChunk die k a).Sound = s.Sound := by
  unfold State.answerChunk
  repeat' split
  all_goals simp

@[simp] theorem State.landChunk_sound (s : State) (die : Nat) (k : Chunk) (hs : s.Sound) : (s.landChunk die k).Sound := by
  unfold State.landChunk
  split
  · exact hs
  split
  · split <;> simp [hs]
  split
  · exact hs
  extract_lets va ok who put
  have hput (u : State) (rs ws : List Req) (hu : u.Sound) : (put u rs ws).Sound := by
    unfold put
    split <;> next v h =>
      have hv : v.Sound := by simpa [hu] using congrArg BytesOut.Sound h
      simp [ok, hv]
  split
  · exact hput _ _ _ hs
  · split <;> next u h =>
      have hu : u.Sound := by simpa [hs] using congrArg BytesOut.Sound h
      simp [hput, hu]

@[simp] theorem State.drainHolds_sound (s : State) (die : Nat) (hs : s.Sound) : (s.drainHolds die).Sound := by
  refine State.foldl_sound (fun t e hs => ?_) _ hs
  split <;> next h => simpa [hs] using congrArg ChunkOut.Sound h

@[simp] theorem State.stepsGo_sound (s : State) (die cid : Nat) (hs : s.Sound) : (s.stepsGo die cid).Sound := by
  unfold State.stepsGo
  split
  · exact hs
  refine State.foldl_sound (fun t k ht => ?_) _ hs
  split
  · exact ht
  · refine State.foldl_sound (fun u j hu => ?_) _ ht
    split
    · simp [hu]
    · split
      · simp [hu]
      · exact hu

@[simp] theorem State.sendAgain_sound (s : State) (die cid : Nat) (o : OutChunk) (hs : s.Sound) : (s.sendAgain die cid o).Sound := by
  unfold State.sendAgain
  split
  · exact hs
  split
  · exact hs
  rename_i t _
  have hk := s.sendChunk_sound die t.peer (s.chunkOf die cid o) hs
  dsimp only
  split <;> rename_i hsend <;> rw [hsend] at hk
  · simp [hs]
  · simpa using hk
  · simpa using hk

@[simp] theorem State.planGo_sound (s : State) (die cid : Nat) (hs : s.Sound) : (s.planGo die cid).Sound := by
  have howed (l : List OutChunk) : (l.foldl (fun (t : State) o => t.sendAgain die cid o) s).Sound :=
    State.foldl_sound (fun t o => t.sendAgain_sound die cid o) l hs
  exact State.stepsGo_sound _ _ _ (State.drainHolds_sound _ _ (State.stepsGo_sound _ _ _ (howed _)))

@[simp] theorem State.resend_sound (s : State) (die cid step chunk : Nat) (busy : Bool) (hs : s.Sound) : (s.resend die cid step chunk busy).Sound := by
  unfold State.resend
  repeat' split
  all_goals simp [hs]

/-! ### Operations of Machine/JobStart.lean -/

@[simp] theorem State.setBcast_sound (s : State) (b : Bcast) : (s.setBcast b).Sound = s.Sound := (rfl)
@[simp] theorem State.addBcast_sound (s : State) (b : Bcast) : (s.addBcast b).Sound = s.Sound := (rfl)

@[simp] theorem State.bcSend_sound (s : State) (bid kind dest index : Nat) : (s.bcSend bid kind dest index).Sound = s.Sound := by
  unfold State.bcSend
  repeat' split
  all_goals simp

@[simp] theorem State.sendStart_sound (s : State) (b : Bcast) (i : Nat) : (s.sendStart b i).Sound = s.Sound := by
  simp [State.sendStart]

@[simp] theorem State.startError_sound (s : State) (b : Bcast) (n addr : Nat) (hs : s.Sound) : (s.startError b n addr).Sound := by
  simp [hs, State.startError]

@[simp] theorem State.startFinish_sound (s : State) (b : Bcast) (n addr : Nat) (hs : s.Sound) : (s.startFinish b n addr).Sound := by
  unfold State.startFinish
  split <;> next u h =>
    have hu : u.Sound := by simpa [hs] using congrArg BytesOut.Sound h
    simp [hu]

@[simp] theorem State.settle_sound (s : State) (bid : Nat) (hs : s.Sound) : (s.settle bid).Sound := by
  unfold State.settle
  repeat' split
  all_goals simp [hs]

@[simp] theorem State.refeedOne_sound (s : State) (bid u sub : Nat) : (s.refeedOne bid u sub).Sound = s.Sound := by
  unfold State.refeedOne
  dsimp only
  repeat' split
  all_goals simp

@[simp] theorem State.rootUnreached_sound (s : State) (bid u : Nat) : (s.rootUnreached bid u).Sound = s.Sound := by
  unfold State.rootUnreached
  split <;> simp

@[simp] theorem State.childEnd_sound (s : State) (b : Bcast) (i st : Nat) : (s.childEnd b i st).Sound = s.Sound := by
  simp [State.childEnd]

@[simp] theorem State.lose_sound (s : State) (b : Bcast) (i : Nat) (hs : s.Sound) : (s.lose b i).Sound := by
  simp [hs, State.lose]

@[simp] theorem State.startGo_sound (s : State) (n : Nat) (ws w : List W64) (hs : s.Sound) : (s.startGo n ws w).Sound := by
  unfold State.startGo
  extract_lets f space nb plen cnt fan tmo err
  have herr (u : State) (hu : u.Sound) : (err u).Sound := by simp [err, hu]
  split
  · simpa using hs
  split
  · next h => simpa [hs] using congrArg BytesOut.Sound h
  · next h => exact herr _ (by simpa [hs] using congrArg BytesOut.Sound h)
  · next h => exact herr _ (by simpa [hs] using congrArg BytesOut.Sound h)
  · next u h =>
    have hu : u.Sound := by simpa [hs] using congrArg BytesOut.Sound h
    split
    · simpa using hu
    split
    · next h => simpa [hu] using congrArg BytesOut.Sound h
    · next h => exact herr _ (by simpa [hu] using congrArg BytesOut.Sound h)
    · next h => exact herr _ (by simpa [hu] using congrArg BytesOut.Sound h)
    · next v h =>
      have hv : v.Sound := by simpa [hu] using congrArg BytesOut.Sound h
      extract_lets b
      exact State.settle_sound _ _ (State.foldl_sound (fun t c ht => by simpa using ht) _ (by simpa using hv))

@[simp] theorem State.planStart_sound (s : State) (n : Nat) (ws w : List W64) (hs : s.Sound) : (s.planStart n ws w).Sound := by
  unfold State.planStart
  dsimp only
  repeat' split
  all_goals simp [hs]

@[simp] theorem State.collectiveTake_sound (s : State) (n : Nat) (ws : List W64) (hs : s.Sound) : (s.collectiveTake n ws).Sound := by
  unfold State.collectiveTake
  extract_lets v pa f err
  have herr (u : State) (cid : Nat) (hu : u.Sound) : (err u cid).Sound := by simp [err, hu]
  split
  · simpa using hs
  split
  · next h => simpa [hs] using congrArg WordsOut.Sound h
  · next h => exact herr _ _ (by simpa [hs] using congrArg WordsOut.Sound h)
  · next u h =>
    have hu : u.Sound := by simpa [hs] using congrArg WordsOut.Sound h
    split
    · split <;> simp [hu]
    · split <;> next t h =>
        have ht : t.Sound := by simpa [hu] using congrArg WordsOut.Sound h
        simp [herr, ht]

@[simp] theorem State.collectiveGo_sound (s : State) (n : Nat) (hs : s.Sound) : (s.collectiveGo n).Sound := by
  refine State.foldl_sound (fun t f ht => ?_) _ hs
  extract_lets t1
  have h1 : t1.Sound := State.foldl_sound (fun u e hu => State.foldl_sound (fun x p hx => by
    split
    · simp [hx]
    · exact hx) _ hu) _ ht
  split
  · simp [h1]
  · exact h1

/-! ### Operations of Machine/DieOps.lean -/

@[simp] theorem State.setAct_sound (s : State) (a : Act) : (s.setAct a).Sound = s.Sound := (rfl)

@[simp] theorem State.endAct_sound (s : State) (a : Act) (status : Nat) (result : List Byte) (hs : s.Sound) : (s.endAct a status result).Sound := by
  unfold State.endAct
  dsimp only
  split <;> simp [hs]

@[simp] theorem State.failActs_sound (s : State) (p : Act → Bool) (hs : s.Sound) : (s.failActs p).Sound := by
  simp +contextual [hs, State.foldl_sound, State.failActs]

@[simp] theorem State.returnHeld_sound (s0 : State) (p : Source → Bool) : (s0.returnHeld p).Sound = s0.Sound := by
  simp [State.returnHeld]

@[simp] theorem State.dropRefused_sound (s : State) (p : Req → Bool) : (s.dropRefused p).Sound = s.Sound := (rfl)

@[simp] theorem State.loseStands_sound (s : State) (die tile : Nat) (hs : s.Sound) : (s.loseStands die tile).Sound := by
  refine State.foldl_sound (fun u e hu => ?_) _ hs
  have h1 : (u.setTile die tile { u.tile die tile with
      stands := alUpd (u.tile die tile).stands e.1 (fun y => { y with lost := true }) }).Sound := by simpa using hu
  exact State.killStand_sound _ _ _ _ h1

@[simp] theorem State.launchesCheck_sound (s : State) : s.launchesCheck.Sound = s.Sound := by
  simp [State.launchesCheck]

@[simp] theorem State.resetDie_sound (s : State) (n : Nat) (hs : s.Sound) : (s.resetDie n).Sound := by
  unfold State.resetDie
  split
  · exact hs
  extract_lets mine plat s1 s2 s3 s4 s5
  have h1 : s1.Sound := hs
  have h2 : s2.Sound := State.foldl_sound (fun t k ht => by
    split
    · simp [ht]
    · exact ht) _ h1
  clear_value s2
  have h3 : s3.Sound := h2.with_tiles (h2.map_tiles fun e he => by split <;> exact he)
  have h4 : s4.Sound := by simpa [s4] using h3
  have h5 : s5.Sound := State.foldl_sound (fun t p ht => by simp [ht]) _ h4
  exact State.foldl_sound (fun t k ht => by simpa using ht) _ (h5 :)

@[simp] theorem State.resetDone_sound (s : State) (n kind : Nat) (hs : s.Sound) : (s.resetDone n kind).Sound := by
  unfold State.resetDone
  extract_lets ls lost unplaced s1 s2 d plat dbg s3
  have h1 : s1.Sound := by simpa [s1] using hs
  have h2 : s2.Sound := State.foldl_sound (fun t e ht => State.foldl_sound (fun u x hu => by simp [hu]) _ ht) _ h1
  have h3 : s3.Sound := h2.with_tiles (h2.map_tiles fun e he => by split <;> exact he)
  simp [h3]

@[simp] theorem State.dieGone_sound (s : State) (n kind : Nat) (hs : s.Sound) : (s.dieGone n kind).Sound := by
  unfold State.dieGone
  extract_lets s1 plat s2 s3
  have h1 : s1.Sound := by simp [s1, hs]
  have h2 : s2.Sound := h1
  have h3 : s3.Sound := by simp [s3, h2]
  split
  · simp [h3]
  · exact h3

@[simp] theorem State.tileGone_sound (s : State) (die tile : Nat) (hs : s.Sound) : (s.tileGone die tile).Sound := by
  unfold State.tileGone
  extract_lets mine s1 tile1 s2
  have h1 : s1.Sound := s.loseStands_sound die tile hs
  have h2 : s2.Sound := State.setTile_sound h1 (h1.tile die tile :)
  simpa using h2

@[simp] theorem State.dropAgentLine_sound (s : State) (a line : Nat) : (s.dropAgentLine a line).Sound = s.Sound := by
  simp [State.dropAgentLine]

@[simp] theorem State.homesGone_sound (s : State) (n : Nat) : (s.homesGone n).Sound = s.Sound := by
  simp [State.homesGone]

/-! ### Operations of Machine/Maint.lean -/

@[simp] theorem State.chanState_sound (s : State) (die k st logical : Nat) (hs : s.Sound) : (s.chanState die k st logical).Sound := by
  simp [hs, State.chanState]

@[simp] theorem State.flagF_sound (s : State) (die : Nat) : (s.flagF die).Sound = s.Sound := (rfl)

@[simp] theorem State.evacBegin_sound (s : State) (a : Act) (hs : s.Sound) : (s.evacBegin a).Sound := by
  simp [hs, State.evacBegin]

@[simp] theorem State.retireBegin_sound (s : State) (a : Act) (hs : s.Sound) : (s.retireBegin a).Sound := by
  simp [hs, State.retireBegin]

@[simp] theorem State.actBegin_sound (s : State) (a0 : Act) (hs : s.Sound) : (s.actBegin a0).Sound := by
  unfold State.actBegin
  dsimp only
  repeat' split
  all_goals simp [hs]

@[simp] theorem State.actAccept_sound (s : State) (code die t4 t5 origin hold : Nat) (bare : Bool) (hs : s.Sound) :
    (s.actAccept code die t4 t5 origin hold bare).Sound := by
  simp [hs, State.actAccept]

@[simp] theorem State.firmAct_sound (s : State) (code die t4 t5 : Nat) (hs : s.Sound) : (s.firmAct code die t4 t5).Sound := by
  simp [hs, State.firmAct]

@[simp] theorem State.portAct_sound (s : State) (p : Port) (code die t4 t5 : Nat) (bare : Bool) (hs : s.Sound) :
    (s.portAct p code die t4 t5 bare).Sound := by
  unfold State.portAct
  repeat' split
  all_goals simp [hs]

@[simp] theorem doMaintStart_sound (p : Port) (k : Packet) (s : State) (hs : s.Sound) : (doMaintStart p k s).Sound := by
  unfold doMaintStart
  dsimp only
  split
  · exact hs
  split
  · exact hs
  split
  · exact hs
  · exact s.portAct_sound p _ _ _ _ _ hs

@[simp] theorem State.maintStart_sound (s : State) (code : Nat) (p : Port) (k : Packet) (hs : s.Sound) : (s.maintStart code p k).Sound := by
  unfold State.maintStart
  dsimp only
  split
  · exact hs
  · exact State.ebior_sound (doMaintStart_sound p k) _ p k hs

@[simp] theorem State.activity_sound (s : State) (code : Nat) (fw : State → Bool) (q : ActReq) (hs : s.Sound) : (s.activity code fw q).Sound := by
  unfold State.activity
  split
  · simp [hs]
  · split <;> simp [hs]

@[simp] theorem doDieReset_sound (p : Port) (k : Packet) (s : State) (hs : s.Sound) : (doDieReset p k s).Sound := by
  unfold doDieReset
  dsimp only
  split
  · exact hs
  · exact s.portAct_sound p _ _ _ _ _ hs

@[simp] theorem doMaintAbort_sound (k : Packet) (s : State) (hs : s.Sound) : (doMaintAbort k s).Sound := by
  unfold doMaintAbort
  repeat' split
  all_goals simp [hs]

@[simp] theorem State.countFix_sound (s : State) (p : Place) (b : Nat) : (s.countFix p b).Sound = s.Sound := by
  simp [State.countFix]

@[simp] theorem State.scrubWhere_sound (s : State) (p : Place → Bool) (hs : s.Sound) : (s.scrubWhere p).1.Sound := by
  refine foldl_holds (p := fun x : State × Nat × Nat => x.1.Sound) (fun x e hx => ?_) _ hs
  have h1 (q : Place) : (x.1.countFix q e.2).Sound := by simpa using hx
  dsimp only
  split
  · split
    · exact (h1 _).with_dram (Store.correct_wf _ _ (h1 _).dram)
    · exact (h1 _).with_dram (Store.setPoison_wf _ _ _ (Store.correct_wf _ _ (h1 _).dram))
  · exact hx

@[simp] theorem State.wayTestEnd_sound (s : State) (a : Act) (passed : Bool) (hs : s.Sound) : (s.wayTestEnd a passed).Sound := by
  simp [hs, State.wayTestEnd]

@[simp] theorem State.evacEnd_sound (s : State) (a : Act) (hs : s.Sound) : (s.evacEnd a).Sound := by
  simp [hs, State.evacEnd]

@[simp] theorem State.actEnd_sound (s : State) (a : Act) (passed : Bool) (result : List Byte) (hs : s.Sound) :
    (s.actEnd a passed result).Sound := by
  have htile := s.tileGone_sound a.die a.t4 hs
  unfold State.actEnd
  dsimp only
  split <;> simp [hs, htile]

@[simp] theorem State.chanFaulty_sound (s : State) (die k : Nat) (hs : s.Sound) : (s.chanFaulty die k).Sound := by
  simp [hs, State.chanFaulty]

@[simp] theorem State.permanent_sound (s : State) (row die obj : Nat) (hs : s.Sound) : (s.permanent row die obj).Sound := by
  unfold State.permanent
  split <;> simp [hs]

@[simp] theorem State.visitCrc_sound (s : State) (p : Place → Bool) (crc : List (Nat × Nat)) (hs : s.Sound) : (s.visitCrc p crc).Sound := by
  refine State.foldl_sound (fun t e ht => ?_) _ hs
  dsimp only
  have h1 (q : Place) : (t.countCrc q e.2).Sound := by simpa using ht
  split
  · split
    · rw [State.countReal_sound]
      exact (h1 _).with_dram (Store.inject_wf _ _ _ (h1 _).dram)
    · exact h1 _
  · exact ht

/-! ### Operations of Machine/DebugCmds.lean -/

@[simp] theorem State.dbgEnd_sound (s : State) (err : Nat) : (s.dbgEnd err).Sound = s.Sound := (rfl)
@[simp] theorem State.dbgData_sound (s : State) (v : W64) : (s.dbgData v).Sound = s.Sound := (rfl)

@[simp] theorem State.dbgLoad_sound (s : State) (q : DbgReq) (hs : s.Sound) : (s.dbgLoad q).Sound := by
  unfold State.dbgLoad
  split <;> simp [hs]

@[simp] theorem State.dbgSetReg_sound (s : State) (q : DbgReq) (v : W64) : (s.dbgSetReg q v).Sound = s.Sound := by
  simp [State.dbgSetReg]

@[simp] theorem State.dbgTiles_sound {f : Tile → Tile} (hf : ∀ t : Tile, t.Sound → (f t).Sound) (s : State) (q : DbgReq) (hs : s.Sound) :
    (s.dbgTiles q f).Sound := by
  unfold State.dbgTiles
  rw [State.dbgEnd_sound]
  exact State.foldl_sound (fun _ _ ht => State.setTile_sound ht (hf _ (ht.tile _ _))) _ hs

/-! ### Operations of Machine/Tally.lean -/

@[simp] theorem doTelemetryRead_sound (_p : Port) (k : Packet) (s : State) : (doTelemetryRead _p k s).Sound = s.Sound := by
  unfold doTelemetryRead
  dsimp only
  repeat' split
  all_goals simp

@[simp] theorem doEventLogRead_sound (_p : Port) (k : Packet) (s : State) : (doEventLogRead _p k s).Sound = s.Sound := (rfl)

@[simp] theorem doTimeSet_sound (_p : Port) (k : Packet) (s : State) : (doTimeSet _p k s).Sound = s.Sound := by
  unfold doTimeSet
  dsimp only
  repeat' split
  all_goals simp

@[simp] theorem doTimeRead_sound (_p : Port) (_k : Packet) (s : State) : (doTimeRead _p _k s).Sound = s.Sound := (rfl)

/-! ### Operations of Machine/Regs.lean -/

@[simp] theorem State.regReadEffect_sound (s : State) (pa : Nat) : (s.regReadEffect pa).Sound = s.Sound := by
  simp [State.regReadEffect]

@[simp] theorem State.onCore_sound (s : State) (core : Nat) (f : NCore → NCore) : (s.onCore core f).Sound = s.Sound := (rfl)

@[simp] theorem State.csrWrite_sound (s : State) (core num : Nat) (v : W64) : (s.csrWrite core num v).Sound = s.Sound := by
  simp [State.csrWrite]

@[simp] theorem State.windowWrite_sound (s : State) (p : Port) (o : Nat) (v : W64) : (s.windowWrite p o v).Sound = s.Sound := by
  simp [State.windowWrite]

@[simp] theorem State.regWrite_sound (s : State) (machine : Bool) (pa : Nat) (v : W64) : (s.regWrite machine pa v).Sound = s.Sound := by
  simp [State.regWrite]

/-! ### Operations of Machine/NodeCmds.lean -/

@[simp] theorem State.fenceOn_sound (s : State) (core : Nat) (f : CoreFence) : (s.fenceOn core f).Sound = s.Sound := (rfl)
@[simp] theorem State.coreFence_sound (s : State) (core sets : Nat) : (s.coreFence core sets).Sound = s.Sound := (rfl)

@[simp] theorem State.afterAq_sound (s : State) (core : Nat) (a : NodeAccess) : (s.afterAq core a).Sound = s.Sound := by
  simp [State.afterAq]

@[simp] theorem State.coreAccess_sound (s : State) (core space va pa : Nat) (kind : AccKind) (off : Option Nat) (a : NodeAccess) :
    (s.coreAccess core space va pa kind off a).Sound = s.Sound := by
  simp [State.coreAccess]

@[simp] theorem State.coherentAccess_sound (s : State) (core : Nat) (off : Option Nat) (a : NodeAccess) :
    (s.coherentAccess core off a).Sound = s.Sound := by
  unfold State.coherentAccess
  dsimp only
  split
  · rfl
  · split <;> simp

@[simp] theorem State.strayAccess_sound (s : State) (core : Nat) (off : Option Nat) (a : NodeAccess) :
    (s.strayAccess core off a).Sound = s.Sound := by
  simp [State.strayAccess]

@[simp] theorem State.regLoad_sound (s : State) (core : Nat) (a : NodeAccess) : (s.regLoad core a).Sound = s.Sound := by
  simp [State.regLoad]

@[simp] theorem State.regStore_sound (s : State) (a : NodeAccess) : (s.regStore a).Sound = s.Sound := by
  simp [State.regStore]

@[simp] theorem State.coreAnswer_sound (s : State) (core : Nat) (off : Option Nat) (a : NodeAccess) (res : AccResult) :
    (s.coreAnswer core off a res).Sound = s.Sound := by
  unfold State.coreAnswer
  split <;> simp

@[simp] theorem State.cachedPart_sound (s : State) (core : Nat) (off : Option Nat) (a : NodeAccess) :
    (s.cachedPart core off a).2.Sound = s.Sound := by
  have hg : (match s.coherentAccess core off a with
      | .go t => (true, t)
      | .answer res t => (true, t.coreAnswer core off a res)
      | .refused t => (false, t)).2.Sound = s.Sound := by
    split <;> next h => simpa using (congrArg Gate.Sound h).symm
  unfold State.cachedPart
  dsimp only
  split
  · split
    · simp
    · exact hg
  · split
    · simp
    · exact hg
  · split
    · simp
    · exact hg
  · exact hg
  · split <;> simp
  · rfl
  · rfl

@[simp] theorem State.partsRun_sound (s : State) (core : Nat) (ps : List (Option Nat × NodeAccess)) :
    (s.partsRun core ps).2.Sound = s.Sound := by
  refine foldl_fixes (fun x : Bool × State => x.2.Sound) _ (fun x p => ?_) ps _
  split <;> simp

@[simp] theorem State.refusedAs_sound (s t : State) : (s.refusedAs t).Sound = s.Sound := (rfl)

@[simp] theorem State.coreMemory_sound (s : State) (core : Nat) (a : NodeAccess) : (s.coreMemory core a).Sound = s.Sound := by
  simp [State.coreMemory]

@[simp] theorem State.aperturePend_sound (s : State) (va : Nat) (need : BitVec 3) : (s.aperturePend va need).Sound = s.Sound := by
  unfold State.aperturePend
  dsimp only
  repeat' split
  all_goals simp

@[simp] theorem State.apertureXlat_sound (s : State) (need : Nat) (vas : List Nat) : (s.apertureXlat need vas).Sound = s.Sound := by
  refine foldl_fixes ApOut.Sound _ (fun x va => ?_) vas _
  dsimp only
  split
  · rfl
  · split
    · simp
    · simp
    · split <;> simp

/-! ### Operations of Machine/ResumeCmds.lean -/

@[simp] theorem State.actsResume_sound (s : State) (hs : s.Sound) : s.actsResume.Sound := by
  simp +contextual [hs, State.foldl_sound, State.actsResume]

@[simp] theorem State.lateHints_sound (s : State) : s.lateHints.Sound = s.Sound := (rfl)

@[simp] theorem State.ridgeResume_sound (s : State) : s.ridgeResume.Sound = s.Sound := by
  simp [State.ridgeResume]

@[simp] theorem State.leaveHalt_sound (s : State) (hs : s.Sound) : s.leaveHalt.Sound := by
  simp [hs, State.leaveHalt]

/-! ### Operations of Machine/TimeCmds.lean -/

@[simp] theorem State.steer_sound (s : State) (e : Int) : (s.steer e).Sound = s.Sound := by
  simp [State.steer]

@[simp] theorem State.takeBeacon_sound (s : State) (b : Beacon) : (s.takeBeacon b).Sound = s.Sound := by
  simp [State.takeBeacon]

@[simp] theorem State.skipPeriod_sound (s : State) : s.skipPeriod.Sound = s.Sound := by
  simp [State.skipPeriod]

@[simp] theorem State.telemetryLanded_sound (s : State) (used thr : Nat) : (s.telemetryLanded used thr).Sound = s.Sound := by
  unfold State.telemetryLanded
  dsimp only
  split <;> simp

end Sys2Proof.Machine
end

section
/-! SUPPORT. The invariant through the commands that do more than one operation. -/

namespace Sys2Proof.Machine

/-- An answer is sound: the next state, if it answers one, is. -/
def SoundAnswer (o : Host.Outcome State Fault Refusal) : Prop := ∀ t, o = .next t → t.Sound

@[simp] theorem soundAnswer_next {t : State} : SoundAnswer (.next t) ↔ t.Sound := by simp [SoundAnswer]
@[simp] theorem soundAnswer_fault (r : Fault) : SoundAnswer (.fault r) := by simp [SoundAnswer]

@[simp] theorem soundAnswer_when {c : Bool} {f : State → State} {s : State} (hs : s.Sound) (hf : c = true → (f s).Sound) :
    SoundAnswer (when_ c f s) := by
  unfold when_
  cases c
  · exact soundAnswer_next.2 hs
  · exact soundAnswer_next.2 (hf rfl)

/-! ### Commands of Machine/CrewIssue.lean -/

@[simp] theorem State.formatA_sound (s : State) (c : CrewId) (w : W64) (op : Nat) (f : Nat → Nat → Nat → Nat → Nat) (hs : s.Sound) :
    SoundAnswer (s.formatA c w op f) := by
  simp [hs, State.formatA]

@[simp] theorem State.formatP_sound (s : State) (c : CrewId) (w : W64) (op : Nat) (f : Nat → Nat → Nat → Nat → Bool) (hs : s.Sound) :
    SoundAnswer (s.formatP c w op f) := by
  simp [hs, State.formatP]

/-! ### Commands of Machine/XlateCmds.lean -/

theorem execTranslationMiss_sound (id : Nat) (s : State) (hs : s.Sound) : SoundAnswer (execTranslationMiss id s) := by
  refine soundAnswer_when hs fun _ => ?_
  dsimp only
  repeat' split
  all_goals simp [hs]

theorem execWalkComplete_sound (index : Nat) (s : State) (hs : s.Sound) : SoundAnswer (execWalkComplete index s) := by
  refine soundAnswer_when hs fun _ => ?_
  dsimp only
  repeat' split
  all_goals simp [hs]

theorem execRequestRecordWrite_sound (index : Nat) (s : State) (hs : s.Sound) : SoundAnswer (execRequestRecordWrite index s) := by
  refine soundAnswer_when hs fun _ => ?_
  dsimp only
  split <;> simp [hs]

theorem execFillComplete_sound (index : Nat) (s : State) (hs : s.Sound) : SoundAnswer (execFillComplete index s) := by
  refine soundAnswer_when hs fun _ => ?_
  split
  · exact hs
  · split
    · exact hs
    · refine State.foldl_sound (fun t w ht => ?_) _ hs
      split
      · simpa using ht
      · exact ht

@[simp] theorem State.xltReply_sound {f : State → Nat → PEntry → State} (hf : ∀ u k e, u.Sound → (f u k e).Sound) (s : State)
    (pid : BitVec 16) (hs : s.Sound) : SoundAnswer (s.xltReply pid f) := by
  refine soundAnswer_when hs fun _ => ?_
  dsimp only
  split
  · split <;> simp [hs, hf]
  · simp [hs]

theorem execInvalidationComplete_sound (s : State) (hs : s.Sound) : SoundAnswer (execInvalidationComplete s) := by
  refine soundAnswer_when hs fun _ => ?_
  split <;> simp [hs]

/-! ### Commands of Machine/AdmitCmds.lean -/

theorem execTokenReturn_sound (id : Nat) (l : Level) (s : State) (hs : s.Sound) : SoundAnswer (execTokenReturn id l s) := by
  refine soundAnswer_when hs fun _ => ?_
  repeat' split
  all_goals simp [hs]

theorem execRetryBackoffExpiry_sound (id : Nat) (s : State) (hs : s.Sound) : SoundAnswer (execRetryBackoffExpiry id s) := by
  refine soundAnswer_when hs fun _ => ?_
  repeat' split
  all_goals simp [hs]

theorem execL1FillReturn_sound (id : Nat) (s : State) (hs : s.Sound) : SoundAnswer (execL1FillReturn id s) := by
  refine soundAnswer_when hs fun _ => ?_
  repeat' split
  all_goals simp [hs]

theorem execAccessCompletionReceive_sound (id : Nat) (s : State) (hs : s.Sound) : SoundAnswer (execAccessCompletionReceive id s) := by
  refine soundAnswer_when hs fun _ => ?_
  repeat' split
  all_goals simp [hs]

theorem execRidgeRequestBoundExpiry_sound (q : Overdue) (s : State) (hs : s.Sound) : SoundAnswer (execRidgeRequestBoundExpiry q s) := by
  refine soundAnswer_when hs fun _ => ?_
  repeat' split
  all_goals simp [hs]

/-! ### Commands of Machine/Boot.lean -/

theorem execPortLinkBringup_sound (offers : List LinkOffer) (s : State) (hs : s.Sound) : SoundAnswer (execPortLinkBringup offers s) := by
  refine soundAnswer_when hs fun _ => ?_
  split <;> simp [hs]

theorem execMemoryBringupEnd_sound (outcomes : List ChanOutcome) (s : State) (hs : s.Sound) : SoundAnswer (execMemoryBringupEnd outcomes s) := by
  refine soundAnswer_when hs fun _ => ?_
  extract_lets s1 plat s2
  have h1 : s1.Sound := State.foldl_sound (fun t i ht => by simpa using ht) _ hs
  clear_value s1
  have h2 : s2.Sound := h1.with_dram Store.empty_wf
  split
  · next p bad _ =>
    have hr := commitSteps_sound bad { s2 with cairn := { s2.cairn with commitWait := none } } h2
    simpa using hr
  · exact h2

/-! ### Commands of Machine/CrewMem.lean -/

theorem execLd_sound (c : CrewId) (w : W64) (lost : List Nat) (s : State) (hs : s.Sound) : SoundAnswer (execLd c w lost s) := by
  refine soundAnswer_next.2 (State.issue_sound (fun u i hu => ?_) s c w _ hs)
  dsimp only
  split
  · simp [hu]
  · rw [State.laneEnd_sound]
    exact foldl_holds (p := fun x : State × Crew × List (Nat × Nat × W64) => x.1.Sound) (localLoad_sound i _) _ hu

/-! ### Commands of Machine/CrewControl.lean -/

theorem execCall_sound (c : CrewId) (w : W64) (s : State) (hs : s.Sound) : SoundAnswer (execCall c w s) := by
  refine soundAnswer_next.2 (State.issue_sound (fun u i hs => ?_) s c w _ hs)
  dsimp only
  split <;> simp [hs]

theorem execRet_sound (c : CrewId) (w : W64) (s : State) (hs : s.Sound) : SoundAnswer (execRet c w s) := by
  refine soundAnswer_next.2 (State.issue_sound (fun u i hs => ?_) s c w _ hs)
  split <;> simp [hs]

theorem execBwait_sound (c : CrewId) (w : W64) (s : State) (hs : s.Sound) : SoundAnswer (execBwait c w s) := by
  refine soundAnswer_next.2 (State.issue_sound (fun u i hs => ?_) s c w _ hs)
  split <;> simp [hs]

theorem execWaitf_sound (c : CrewId) (w : W64) (s : State) (hs : s.Sound) : SoundAnswer (execWaitf c w s) := by
  refine soundAnswer_next.2 (State.issue_sound (fun u i hs => ?_) s c w _ hs)
  dsimp only
  split <;> simp [hs]

theorem execWaitConditionMet_sound (c : CrewId) (s : State) (hs : s.Sound) : SoundAnswer (execWaitConditionMet c s) := by
  refine soundAnswer_next.2 ?_
  dsimp only
  repeat' split
  all_goals simp [hs]

/-! ### Commands of Machine/Matrix.lean -/

@[simp] theorem State.matrixIssue_sound (s : State) (c : CrewId) (w : W64) (op : Nat) (hs : s.Sound) : SoundAnswer (s.matrixIssue c w op) := by
  refine soundAnswer_next.2 (State.issueIf_sound (fun u i hs => ?_) s c w _ _ hs)
  dsimp only
  split
  · simp [hs]
  · split
    · simp [hs]
    · split <;> simp [hs]

theorem execMatrixStart_sound (die tile : Nat) (transfer : Bool) (s : State) (hs : s.Sound) : SoundAnswer (execMatrixStart die tile transfer s) := by
  refine soundAnswer_when hs fun _ => ?_
  dsimp only
  have hput (c : Bool) (v : Tile) (hv : v.Sound) : (if c then s else s.drawn.setTile die tile v).Sound := by
    split
    · exact hs
    · exact State.setTile_sound ((State.drawn_sound s).mpr hs) hv
  split
  · exact hs
  split
  · exact hs
  · exact hput _ _ (by split <;> exact hs.tile die tile)

/-- What a matrix instruction writes leaves its tile's stores canonical. -/
theorem MInstr.perform_sound (i : MInstr) {t : Tile} (ht : t.Sound) (ls : Store) : (i.perform t ls).Sound := by
  have hacc : ({ t with ls := ls } : Tile).acc.wf = true := ht.acc
  unfold MInstr.perform
  split
  · exact ⟨ht.ls, i.load_wf hacc⟩
  · exact ht.accst _
  · exact ⟨ht.ls, i.product_wf hacc⟩

theorem execMatrixComplete_sound (die tile : Nat) (transfer : Bool) (s : State) (hs : s.Sound) :
    SoundAnswer (execMatrixComplete die tile transfer s) := by
  refine soundAnswer_when hs fun _ => ?_
  extract_lets s1 t
  have h1 : s1.Sound := by
    unfold s1
    split
    · exact hs
    · exact s.accstStep_sound die tile hs
  split
  · exact h1
  next i _ =>
  split
  · exact h1
  · rw [State.countSram_sound]
    have ht := i.perform_sound (h1.tile die tile)
    refine State.setTile_sound ((State.drawn_sound s1).mpr h1) ?_
    split <;> exact ht _

/-! ### Commands of Machine/Element.lean -/

@[simp] theorem State.elementIssue_sound (s : State) (c : CrewId) (w : W64) (op : Nat)
    (check : State → Issue → EInstr → Option (Nat × Nat)) (hs : s.Sound) : SoundAnswer (s.elementIssue c w op check) := by
  refine soundAnswer_next.2 (State.issueIf_sound (fun u i hs => ?_) s c w _ _ hs)
  dsimp only
  split <;> simp [hs]

theorem execElementStart_sound (die tile : Nat) (s : State) (hs : s.Sound) : SoundAnswer (execElementStart die tile s) := by
  refine soundAnswer_when hs fun _ => ?_
  dsimp only
  split <;> simp [hs]

theorem execElementComplete_sound (die tile : Nat) (bad : Bool) (s : State) (hs : s.Sound) : SoundAnswer (execElementComplete die tile bad s) := by
  refine soundAnswer_when hs fun _ => ?_
  dsimp only
  repeat' split
  all_goals simp [hs]

/-! ### Commands of Machine/Traps.lean -/

@[simp] theorem State.answer_sound {f : State → CrewId → Crew → Trap → State} (hf : ∀ u c v t, u.Sound → (f u c v t).Sound) (s : State)
    (die : Nat) (id : BitVec 17) (hs : s.Sound) : SoundAnswer (s.answer die id f) := by
  refine soundAnswer_next.2 ?_
  dsimp only
  split
  · exact hs
  split
  · split
    · split <;> simp [hs, hf]
    · simp [hs]
  · simp [hs]

theorem execTrapRecordWrite_sound (die : Nat) (s : State) (hs : s.Sound) : SoundAnswer (execTrapRecordWrite die s) := by
  refine soundAnswer_when hs fun _ => ?_
  repeat' split
  all_goals simp [hs]

/-! ### Commands of Machine/Bucker.lean -/

theorem execBuckerTurn_sound (b : BuckerId) (count : Nat) (s : State) (hs : s.Sound) : SoundAnswer (execBuckerTurn b count s) := by
  refine soundAnswer_when hs fun _ => ?_
  split
  · exact hs
  · dsimp only
    split
    · next h => simpa [hs] using congrArg UnitOut.Sound h
    · next h => exact State.turnMove_sound _ _ _ _ _ (by simpa [hs] using congrArg UnitOut.Sound h)

theorem execIndexListRead_sound (b : BuckerId) (s : State) (hs : s.Sound) : SoundAnswer (execIndexListRead b s) := by
  refine soundAnswer_when hs fun _ => ?_
  dsimp only
  repeat' split
  all_goals simp [hs]

theorem execFlaggedFinalWrite_sound (b : BuckerId) (serial : Nat) (s : State) (hs : s.Sound) : SoundAnswer (execFlaggedFinalWrite b serial s) := by
  refine soundAnswer_when hs fun _ => ?_
  split <;> simp [hs]

theorem execDescriptorComplete_sound (b : BuckerId) (serial : Nat) (s : State) (hs : s.Sound) : SoundAnswer (execDescriptorComplete b serial s) := by
  refine soundAnswer_when hs fun _ => ?_
  repeat' split
  all_goals simp [hs]

theorem execCopyDataPathError_sound (b : BuckerId) (serial cause addr : Nat) (s : State) (hs : s.Sound) :
    SoundAnswer (execCopyDataPathError b serial cause addr s) := by
  refine soundAnswer_when hs fun _ => ?_
  dsimp only
  split <;> simp [hs]

theorem execHeavyBuckerTake_sound (die b n addr : Nat) (s : State) (hs : s.Sound) : SoundAnswer (execHeavyBuckerTake die b n addr s) := by
  refine soundAnswer_when hs fun _ => ?_
  dsimp only
  split
  · exact hs
  split
  · exact hs
  split <;> rename_i h <;> have hv := congrArg WordsOut.Sound h
  case h_5 => split <;> simpa [hs] using hv
  all_goals simpa [hs] using hv

/-! ### Commands of Machine/CacheCmds.lean -/

theorem execHomeAccess_sound (id : Nat) (errs : AccErrs) (s : State) (hs : s.Sound) : SoundAnswer (execHomeAccess id errs s) := by
  refine soundAnswer_when hs fun _ => ?_
  split <;> simp [hs]

theorem execL2FillReturn_sound (line : Nat) (crc : List Nat) (s : State) (hs : s.Sound) : SoundAnswer (execL2FillReturn line crc s) := by
  refine soundAnswer_when hs fun _ => ?_
  dsimp only
  repeat' split
  all_goals simp +contextual [hs, State.foldl_sound]

theorem execEvictionWriteIssue_sound (line : Nat) (crc : List Nat) (s : State) (hs : s.Sound) : SoundAnswer (execEvictionWriteIssue line crc s) := by
  refine soundAnswer_when hs fun _ => ?_
  dsimp only
  split <;> simp [hs]

/-! ### Commands of Machine/CohCmds.lean -/

/-- A message that comes keeps the invariant when what its receiver does keeps it. -/
@[simp] theorem State.onMsg_sound {s : State} {f : State → State} (hf : ∀ t, t.Sound → (f t).Sound) (m : CMsg) (ok : Bool) (hs : s.Sound) :
    SoundAnswer (s.onMsg m ok f) := by
  unfold State.onMsg
  split
  · next t h =>
    have ht : t.Sound := by
      unfold State.takeMsg at h
      split at h
      · cases h
        exact hs
      · cases h
    exact soundAnswer_when hs fun _ => hf t ht
  · exact soundAnswer_next.2 hs

@[simp] theorem State.homeMsg_sound (s : State) (op : MsgOp) (m : CMsg) (errs : AccErrs) (hs : s.Sound) : SoundAnswer (s.homeMsg op m errs) := by
  simp +contextual [hs, State.homeMsg]

@[simp] theorem State.agentMsg_sound {s : State} {f : State → State} (hf : ∀ t, t.Sound → (f t).Sound) (m : CMsg) (ok : Bool) (hs : s.Sound) :
    SoundAnswer (s.agentMsg m ok f) := State.onMsg_sound hf m _ hs

theorem execInvack_sound (m : CMsg) (s : State) (hs : s.Sound) : SoundAnswer (execInvack m s) := by
  unfold execInvack
  split <;> simp +contextual [hs]

theorem execFwddone_sound (m : CMsg) (s : State) (hs : s.Sound) : SoundAnswer (execFwddone m s) := by
  refine State.onMsg_sound (fun t hs => ?_) m _ hs
  split
  · split <;> simp [hs]
  · exact hs

/-- What a home leaves when data it waited for comes. -/
theorem State.homeData_sound {s t : State} {line a : Nat} {d : Option Line} (h : s.homeData? line a d = some t) (hs : s.Sound) : t.Sound := by
  unfold State.homeData? at h
  split at h
  · cases h
    exact hs
  split at h
  · cases h
    exact hs
  dsimp only at h
  split at h
  · split at h
    · split at h
      · obtain ⟨u, hu, rfl⟩ := Option.map_eq_some_iff.1 h
        simp [hs, State.homeVictim_sound hu]
      · split at h <;> cases h <;> simp [hs]
    · obtain ⟨u, hu, rfl⟩ := Option.map_eq_some_iff.1 h
      simp [hs, State.homeVictim_sound hu]
  · obtain ⟨u, hu, rfl⟩ := Option.map_eq_some_iff.1 h
    simp [hs, State.homeVictim_sound hu]
  · cases h
    simp [hs]

theorem State.homeData_getD_sound {t u : State} {line a : Nat} {d : Option Line} (ht : t.Sound) (hu : u.Sound) :
    ((t.homeData? line a d).getD u).Sound := by
  cases h : t.homeData? line a d with
  | none => exact hu
  | some x => exact State.homeData_sound h ht

theorem execWbd_sound (m : CMsg) (s : State) (hs : s.Sound) : SoundAnswer (execWbd m s) :=
  State.onMsg_sound (fun _ ht => State.homeData_getD_sound ht hs) m _ hs

theorem execRspi_sound (m : CMsg) (s : State) (hs : s.Sound) : SoundAnswer (execRspi m s) :=
  State.onMsg_sound (fun _ ht => State.homeData_getD_sound ht ht) m _ hs

theorem execCack_sound (m : CMsg) (s : State) (hs : s.Sound) : SoundAnswer (execCack m s) := by
  refine State.onMsg_sound (fun t hs => ?_) m _ hs
  split
  · split
    · split <;> simp [hs]
    · exact hs
  · exact hs

@[simp] theorem State.hostSnoop_sound (s : State) (op half : Nat) (hs : s.Sound) : SoundAnswer (s.hostSnoop op half) := by
  simp [hs, State.hostSnoop]

theorem execGoReceive_sound (half : Nat) (g : Go) (s : State) (hs : s.Sound) : SoundAnswer (execGoReceive half g s) := by
  refine soundAnswer_when hs fun _ => ?_
  dsimp only
  repeat' split
  all_goals simp [hs]

theorem execHostDataReceive_sound (half : Nat) (data : BitVec 512) (poisoned : Bool) (s : State) (hs : s.Sound) :
    SoundAnswer (execHostDataReceive half data poisoned s) := by
  refine soundAnswer_when hs fun _ => ?_
  dsimp only
  repeat' split
  all_goals simp [hs]

/-! ### Commands of Machine/StreamCmds.lean -/

theorem execStreamCloseDrained_sound (n : Nat) (s : State) (hs : s.Sound) : SoundAnswer (execStreamCloseDrained n s) := by
  refine soundAnswer_when hs fun _ => ?_
  split <;> simp [hs]

theorem execMigrateDrained_sound (n : Nat) (s : State) (hs : s.Sound) : SoundAnswer (execMigrateDrained n s) := by
  refine soundAnswer_when hs fun _ => ?_
  dsimp only
  split <;> simp [hs]

theorem execStreamDrainTimeout_sound (n : Nat) (s : State) (hs : s.Sound) : SoundAnswer (execStreamDrainTimeout n s) := by
  refine soundAnswer_when hs fun _ => ?_
  dsimp only
  split <;> simp [hs]

theorem execParkEntry_sound (s : State) (hs : s.Sound) : SoundAnswer (execParkEntry s) := by
  refine soundAnswer_when hs fun _ => ?_
  split
  · extract_lets s1
    have h1 : s1.Sound := State.foldl_sound (fun t n ht => by simpa using ht) _ hs
    rw [State.finish_sound, State.limitReplies_sound]
    exact h1.with_pstate (by decide : (2 : Nat) ≤ 3)
  · exact hs

/-! ### Commands of Machine/Dispatcher.lean -/

theorem execRecordComplete_sound (n addr : Nat) (s : State) (hs : s.Sound) : SoundAnswer (execRecordComplete n addr s) := by
  refine soundAnswer_when hs fun _ => ?_
  extract_lets v
  split
  · exact hs
  extract_lets fin leave s1 lost put _
  have hleave (t : State) (stop : Bool) : (leave t stop).Sound = t.Sound := by simp [leave]
  have hlost (t : State) (cause : Nat) (ht : t.Sound) : (lost t cause).Sound := by simp [lost, hleave, ht]
  have hput (t : State) : (put t).Sound = t.Sound := by simp [put, hleave]
  split
  · split <;> simp [s1, hleave, hs]
  split
  · exact hs
  split
  · next h => simpa [hs] using congrArg BytesOut.Sound h
  · next h => exact hlost _ _ (by simpa [hs] using congrArg BytesOut.Sound h)
  · next h => exact hlost _ _ (by simpa [hs] using congrArg BytesOut.Sound h)
  · next h => simpa [hs, hput] using congrArg BytesOut.Sound h
  · next h => simpa [hs, hput] using congrArg BytesOut.Sound h

/-! ### Commands of Machine/Power.lean -/

theorem execMarginLow_sound (die tile : Nat) (covered : Bool) (s : State) (hs : s.Sound) : SoundAnswer (execMarginLow die tile covered s) := by
  unfold execMarginLow
  repeat' split
  all_goals simp [hs]

/-! ### Commands of Machine/Records.lean -/

theorem execLaunch_sound (n : Nat) (s : State) (hs : s.Sound) : SoundAnswer (execLaunch n s) := by
  refine soundAnswer_next.2 (State.take_sound (fun u ws hs => ?_) s n _ hs)
  split <;> simp [hs]

theorem execStandPlace_sound (launch die tile : Nat) (s : State) (hs : s.Sound) : SoundAnswer (execStandPlace launch die tile s) := by
  refine soundAnswer_when hs fun _ => ?_
  repeat' split
  all_goals simp [hs]

theorem execCopy_sound (n : Nat) (s : State) (hs : s.Sound) : SoundAnswer (execCopy n s) := by
  refine soundAnswer_next.2 (State.take_sound (fun u ws hs => ?_) s n _ hs)
  dsimp only
  split
  · simp [hs]
  · split <;> simp [hs]

theorem execWaitTimeout_sound (n : Nat) (s : State) (hs : s.Sound) : SoundAnswer (execWaitTimeout n s) := by
  refine soundAnswer_when hs fun _ => ?_
  split <;> simp [hs]

theorem execPhaseHint_sound (n : Nat) (s : State) (hs : s.Sound) : SoundAnswer (execPhaseHint n s) := by
  refine soundAnswer_next.2 (State.take_sound (fun u ws hs => ?_) s n _ hs)
  dsimp only
  split
  · simp [hs]
  split
  · simp [hs]
  · split <;> simp [hs]

theorem execOpRequest_sound (n : Nat) (s : State) (hs : s.Sound) : SoundAnswer (execOpRequest n s) := by
  refine soundAnswer_next.2 (State.take_sound (fun u ws hs => ?_) s n _ hs)
  dsimp only
  split
  · simp [hs]
  · split <;> simp [hs]

/-! ### Commands of Machine/Ridge.lean -/

theorem execLinkTrainingEnd_sound (link : Nat) (lanes : BitVec 4) (peer : Nat) (s : State) (hs : s.Sound) :
    SoundAnswer (execLinkTrainingEnd link lanes peer s) := by
  refine soundAnswer_when hs fun _ => ?_
  dsimp only
  split <;> simp [hs]

theorem execLinkRetrainEnd_sound (link : Nat) (lanes : BitVec 4) (s : State) (hs : s.Sound) : SoundAnswer (execLinkRetrainEnd link lanes s) := by
  refine soundAnswer_when hs fun _ => ?_
  dsimp only
  split <;> simp [hs]

theorem execRidgeMessageArrive_sound (link : Nat) (m : RMsg) (s : State) (hs : s.Sound) : SoundAnswer (execRidgeMessageArrive link m s) := by
  refine soundAnswer_when hs fun _ => ?_
  repeat' split
  all_goals simp [hs]

/-! ### Commands of Machine/Collective.lean -/

theorem execChunkReceive_sound (die : Nat) (bytes : List Byte) (s : State) (hs : s.Sound) : SoundAnswer (execChunkReceive die bytes s) := by
  refine soundAnswer_when hs fun _ => ?_
  extract_lets k
  split
  · simpa using hs
  split
  · next h => exact State.planGo_sound _ _ _ (by simpa [hs] using congrArg ChunkOut.Sound h)
  · next h => split <;> simpa [hs] using congrArg ChunkOut.Sound h

theorem execChunkHoldExpiry_sound (die cid chunk : Nat) (s : State) (hs : s.Sound) : SoundAnswer (execChunkHoldExpiry die cid chunk s) := by
  refine soundAnswer_when hs fun _ => ?_
  split <;> simp [hs]

theorem execChunkAnswer_sound (die cid step chunk : Nat) (a : ChunkAns) (s : State) (hs : s.Sound) : SoundAnswer (execChunkAnswer die cid step chunk a s) := by
  refine soundAnswer_when hs fun _ => ?_
  repeat' split
  all_goals simp [hs]

theorem execStepTimeout_sound (die cid step : Nat) (s : State) (hs : s.Sound) : SoundAnswer (execStepTimeout die cid step s) := by
  refine soundAnswer_when hs fun _ => ?_
  repeat' split
  all_goals simp [hs]

theorem execPlanComplete_sound (die cid : Nat) (s : State) (hs : s.Sound) : SoundAnswer (execPlanComplete die cid s) := by
  refine soundAnswer_when hs fun _ => ?_
  split <;> simp [hs]

/-! ### Commands of Machine/JobStart.lean -/

theorem execStartMsg_sound (m : StartMsg) (s : State) (hs : s.Sound) : SoundAnswer (execStartMsg m s) := by
  refine soundAnswer_when hs fun _ => ?_
  repeat' split
  all_goals simp [hs]

theorem execStartAck_sound (bid child : Nat) (s : State) (hs : s.Sound) : SoundAnswer (execStartAck bid child s) := by
  refine soundAnswer_when hs fun _ => ?_
  repeat' split
  all_goals simp [hs]

theorem execDoneMsg_sound (bid child : Nat) (s : State) (hs : s.Sound) : SoundAnswer (execDoneMsg bid child s) := by
  refine soundAnswer_when hs fun _ => ?_
  split <;> simp [hs]

theorem execUnreached_sound (bid member : Nat) (s : State) (hs : s.Sound) : SoundAnswer (execUnreached bid member s) := by
  refine soundAnswer_when hs fun _ => ?_
  split <;> simp [hs]

theorem execRefeed_sound (m : StartMsg) (s : State) (hs : s.Sound) : SoundAnswer (execRefeed m s) := by
  refine soundAnswer_when hs fun _ => ?_
  repeat' split
  all_goals simp [hs]

theorem execRefeedDone_sound (bid alt member : Nat) (s : State) (hs : s.Sound) : SoundAnswer (execRefeedDone bid alt member s) := by
  refine soundAnswer_when hs fun _ => ?_
  split <;> simp [hs]

theorem execTackTimeout_sound (bid child : Nat) (s : State) (hs : s.Sound) : SoundAnswer (execTackTimeout bid child s) := by
  refine soundAnswer_when hs fun _ => ?_
  repeat' split
  all_goals simp [hs]

theorem execTdoneTimeout_sound (bid child : Nat) (s : State) (hs : s.Sound) : SoundAnswer (execTdoneTimeout bid child s) := by
  refine soundAnswer_when hs fun _ => ?_
  split <;> simp [hs]

/-! ### Commands of Machine/DieOps.lean -/

theorem execDieResetDrainEnd_sound (die : Nat) (s : State) (hs : s.Sound) : SoundAnswer (execDieResetDrainEnd die s) := by
  refine soundAnswer_when hs fun _ => ?_
  dsimp only
  split <;> simp [hs]

/-! ### Commands of Machine/Maint.lean -/

theorem execDieReset_sound (q : DieResetReq) (s : State) (hs : s.Sound) : SoundAnswer (execDieReset q s) := by
  unfold execDieReset
  split <;> simp +contextual [hs]

theorem execMaintStatus_sound (p : Port) (k : Packet) (s : State) (hs : s.Sound) : SoundAnswer (execMaintStatus p k s) := by
  simp [hs, execMaintStatus]

theorem execWaitingActivityStart_sound (num : Nat) (s : State) (hs : s.Sound) : SoundAnswer (execWaitingActivityStart num s) := by
  refine soundAnswer_when hs fun _ => ?_
  split <;> simp [hs]

theorem execChannelRetrainComplete_sound (die chan lrep : Nat) (s : State) (hs : s.Sound) : SoundAnswer (execChannelRetrainComplete die chan lrep s) := by
  refine soundAnswer_when hs fun _ => ?_
  dsimp only
  split <;> simp [hs]

theorem execTileRetireDeadline_sound (die tile : Nat) (s : State) (hs : s.Sound) : SoundAnswer (execTileRetireDeadline die tile s) := by
  refine soundAnswer_when hs fun _ => ?_
  split <;> simp [hs]

theorem execActivityEnd_sound (num : Nat) (passed : Bool) (result : List Byte) (s : State) (hs : s.Sound) :
    SoundAnswer (execActivityEnd num passed result s) := by
  refine soundAnswer_when hs fun _ => ?_
  split <;> simp [hs]

/-! ### Commands of Machine/DebugCmds.lean -/

@[simp] theorem State.dbg_sound {f : State → State} (hf : ∀ u, u.Sound → (f u).Sound) (s : State) (q : DbgReq) (level : Nat) (ok : Bool) (hs : s.Sound) :
    SoundAnswer (s.dbg q level ok f) := by
  refine soundAnswer_when hs fun _ => ?_
  split
  · simp [hs]
  split
  · simp [hs]
  · split <;> simp [hs, hf]

theorem execDbgWrite_sound (q : DbgReq) (s : State) (hs : s.Sound) : SoundAnswer (execDbgWrite q s) := by
  refine State.dbg_sound (fun u hu => ?_) s q _ _ hs
  dsimp only
  rw [State.dbgEnd_sound]
  split
  · split
    · exact hu
    · simpa using hu
  · simp [hu]
  · exact hu.with_landing (hu.mod_landing _ fun st => Store.writeBytes_wf st _ _)
  · exact hu.with_dram (Store.writeBytes_wf _ _ _ hu.dram)

theorem execBkset_sound (q : DbgReq) (s : State) (hs : s.Sound) : SoundAnswer (execBkset q s) := by
  refine State.dbg_sound (fun u hs => ?_) s q _ _ hs
  split <;> simp [hs]

theorem execInject_sound (q : DbgReq) (s : State) (hs : s.Sound) : SoundAnswer (execInject q s) := by
  refine State.dbg_sound (fun u hu => ?_) s q _ _ hs
  dsimp only
  rw [State.dbgEnd_sound, State.count_sound]
  split
  · have ht := hu.tile q.die q.unit
    exact State.setTile_sound hu (ht.putLs (Store.inject_wf _ _ _ ht.ls))
  · exact hu.with_landing (hu.mod_landing _ fun st => Store.inject_wf st _ _)
  · exact hu.with_dram (Store.inject_wf _ _ _ hu.dram)

/-! ### Commands of Machine/Tally.lean -/

theorem execAvsbusSample_sound (rail : Nat) (f : AvsFrame) (s : State) (hs : s.Sound) : SoundAnswer (execAvsbusSample rail f s) := by
  refine soundAnswer_when hs fun _ => ?_
  split <;> simp [hs]

/-! ### Commands of Machine/Regs.lean -/

theorem execRegisterWrite_sound (by_ : RegWriter) (addr : Nat) (v : W64) (s : State) (hs : s.Sound) : SoundAnswer (execRegisterWrite by_ addr v s) := by
  unfold execRegisterWrite
  split <;> simp [hs]

/-! ### Commands of Machine/NodeCmds.lean -/

theorem execNodeCoreAccess_sound (core : Nat) (a : NodeAccess) (s : State) (hs : s.Sound) : SoundAnswer (execNodeCoreAccess core a s) := by
  refine soundAnswer_when hs fun _ => ?_
  repeat' split
  all_goals simp [hs]

theorem execApertureAccess_sound (core : Nat) (a : NodeAccess) (s : State) (hs : s.Sound) : SoundAnswer (execApertureAccess core a s) := by
  refine soundAnswer_when hs fun _ => ?_
  dsimp only
  split
  · simpa using hs
  split
  · simpa using hs
  split
  · next h => simpa [hs] using congrArg ApOut.Sound h
  · next t h =>
    have ht : t.Sound := by simpa [hs] using congrArg ApOut.Sound h
    rw [State.afterAq_sound]
    refine State.foldl_sound (fun u x hu => by simpa using hu) _ ?_
    split <;> simpa using ht

/-! ### Commands of Machine/ResumeCmds.lean -/

theorem execResumeComplete_sound (s : State) (hs : s.Sound) : SoundAnswer (execResumeComplete s) := by
  refine soundAnswer_when hs fun _ => ?_
  split <;> simp [hs]

/-! ### Commands of Machine/TimeCmds.lean -/

theorem execBeaconReceive_sound (b : Beacon) (s : State) (hs : s.Sound) : SoundAnswer (execBeaconReceive b s) := by
  refine soundAnswer_when hs fun _ => ?_
  split <;> simp [hs]

theorem execTelemetryPeriodEnd_sound (s : State) (hs : s.Sound) : SoundAnswer (execTelemetryPeriodEnd s) := by
  refine soundAnswer_when hs fun _ => ?_
  split <;> simp [hs]

end Sys2Proof.Machine
end

section
/-! SUPPORT. The invariant through every command. -/

namespace Sys2Proof.Machine

theorem doImageEnd_sound (p : Port) (k : Packet) (s : State) (hs : s.Sound) : (doImageEnd p k s).Sound := by
  unfold doImageEnd
  split
  · exact hs
  split
  · exact hs
  split
  · exact hs
  dsimp only
  split
  · exact s.dropImage_sound hs
  · exact State.measure_sound _ _ _ _ (hs.with_stage (by decide : (1 : Nat) ≤ 3))

theorem State.grantDebug_sound (s : State) (c : Challenge) (hs : s.Sound) : (s.grantDebug c).Sound := by
  have h0 : ({ s with cairn := { s.cairn with challenge := none } } : State).Sound := hs
  have hmeas (v : List Byte) := State.measure_sound _ 6 c.level v h0
  unfold State.grantDebug
  dsimp only
  split
  · refine State.measure_sound _ _ _ _ ?_
    split
    · exact State.releaseDebug_sound _ h0
    · exact h0
  split
  · exact hmeas _
  split
  · exact hmeas _
  · exact State.releaseDebug_sound _ (hmeas _)

theorem doDebugUnlock_sound (rand : List Byte) (p : Port) (k : Packet) (s : State) (hs : s.Sound) : (doDebugUnlock rand p k s).Sound := by
  unfold doDebugUnlock
  dsimp only
  split
  · repeat' split
    all_goals exact hs
  · repeat' split
    all_goals exact hs
  · split
    · exact hs
    split
    · split
      · exact s.grantDebug_sound _ hs
      · exact hs
    · exact hs
  · exact hs

theorem State.seal_sound (s : State) (q : Profile) (hs : s.Sound) : (s.seal q).Sound := by
  have h2 : (State.measure { s with
      cairn := { s.cairn with tjTrip := q.tj, hbmTrip := q.hbm, powerCeil := q.ceil, coolantAction := q.cool, supplyAction := q.supply,
                              armed := true, pending := none }
      plat := { s.plat with stage := 3 } } 5 0 (shake 64 q.bytes)).Sound := State.measure_sound _ _ _ _ (hs.with_stage (le_refl 3))
  unfold State.seal
  dsimp only
  split <;> exact h2

theorem doSafetyArm_sound (p : Port) (k : Packet) (s : State) (hs : s.Sound) : (doSafetyArm p k s).Sound := by
  unfold doSafetyArm
  split
  · exact hs
  · exact s.seal_sound _ hs

/-- The own part of every opcode keeps the invariant. -/
theorem ownPart_sound (op : Nat) (p : Port) (k : Packet) (s t : State) (ht : t.Sound) : (ownPart op p k s t).Sound := by
  unfold ownPart
  split
  case h_3 => exact doImageEnd_sound p k t ht
  case h_8 => exact doSafetyArm_sound p k t ht
  case h_24 => exact doDebugUnlock_sound _ p k t ht
  all_goals simp [ht]

theorem State.coldReset_sound (s : State) : s.coldReset.Sound := (State.sound_iff_inv State.reset).2 invariantAtReset

theorem execPwrGoodAssert_sound (straps : BitVec 8) (s : State) (hs : s.Sound) : SoundAnswer (execPwrGoodAssert straps s) :=
  soundAnswer_when hs fun _ => State.measure_sound _ _ _ _ s.coldReset_sound

theorem execCairnRestartComplete_sound (s : State) (hs : s.Sound) : SoundAnswer (execCairnRestartComplete s) := by
  refine soundAnswer_when hs fun _ => ?_
  dsimp only
  split
  · exact State.serve_sound _ _ _ _ (fun u hu => ownPart_sound _ _ _ _ u hu) hs
  · exact hs

theorem execPortBMessage_sound (op : Nat) (vendorOk : Bool) (k : Packet) (s : State) (hs : s.Sound) :
    SoundAnswer (execPortBMessage op vendorOk k s) := by
  refine soundAnswer_when hs fun _ => ?_
  split
  · simpa using hs
  split
  · exact State.ebior_sound (fun u hu => ownPart_sound _ _ _ _ u hu) _ _ _ ((State.drawn_sound s).mpr hs)
  · exact hs

theorem execPerstNAssert_sound (s : State) (hs : s.Sound) : SoundAnswer (execPerstNAssert s) :=
  soundAnswer_when hs fun _ => (s.windowReset_sound hs).with_stage hs.stage

theorem execCacheEnableClear_sound (s : State) (hs : s.Sound) : SoundAnswer (execCacheEnableClear s) := by
  refine soundAnswer_when hs fun _ => State.logEv_sound _ _ _ _ _ ?_
  have h1 : s.emptyHost.goSnoops.Sound := by simp [hs]
  exact h1

theorem execChanEvacBlockWritten_sound (die group : Nat) (s : State) (hs : s.Sound) : SoundAnswer (execChanEvacBlockWritten die group s) := by
  refine soundAnswer_when hs fun _ => ?_
  have hx (q : Place → Bool) : (s.scrubWhere q).1.Sound := s.scrubWhere_sound q hs
  dsimp only
  split
  · exact hs
  split
  · exact State.chanState_sound _ _ _ _ _ (State.chanState_sound _ _ _ _ _ (hx _))
  · exact hx _

theorem execTrapAnswerKill_sound (die : Nat) (id : BitVec 17) (s : State) (hs : s.Sound) : SoundAnswer (execTrapAnswerKill die id s) := by
  refine State.answer_sound (fun u c v _ hu => ?_) s die id hs
  have h1 : (u.setTile c.die c.tile { u.tile c.die c.tile with
      stands := alUpd (u.tile c.die c.tile).stands v.stand (fun x => { x with killed := true }) }).Sound := by simpa using hu
  exact State.killStand_sound _ _ _ _ h1

theorem execCollective_sound (n : Nat) (s : State) (hs : s.Sound) : SoundAnswer (execCollective n s) :=
  soundAnswer_when hs fun _ => State.take_sound (fun u ws hu => u.collectiveTake_sound n ws hu) _ n 8 (s.collectiveGo_sound n hs)

theorem execSt_sound (c : CrewId) (w : W64) (s : State) (hs : s.Sound) : SoundAnswer (execSt c w s) := by
  refine soundAnswer_next.2 (State.issue_sound (fun u i hu => ?_) s c w _ hs)
  dsimp only
  split
  · simp [hu]
  · rw [State.laneEnd_sound]
    exact State.foldl_sound (fun t a ht => by simp [ht]) _ (by simpa using hu)

theorem execEvictionWriteAck_sound (line : Nat) (s : State) (hs : s.Sound) : SoundAnswer (execEvictionWriteAck line s) := by
  refine soundAnswer_when hs fun _ => State.drainHome_sound _ _ (State.drainWays_sound _ _ _ ?_)
  simpa using hs

theorem execDeadNotice_sound (agent dst : Nat) (s : State) (hs : s.Sound) : SoundAnswer (execDeadNotice agent dst s) := by
  refine soundAnswer_when hs fun _ => ?_
  extract_lets s1
  have h1 : s1.Sound := hs
  split
  · exact s1.reclaim_sound agent h1
  · exact State.foldl_sound (fun t l ht => by simp [ht]) _ h1

theorem execTileLost_sound (die tile : Nat) (s : State) (hs : s.Sound) : SoundAnswer (execTileLost die tile s) := by
  have hgone := s.tileGone_sound die tile hs
  exact soundAnswer_when hs fun _ => by simp [hgone]

theorem execFoundationLost_sound (die : Nat) (s : State) (hs : s.Sound) : SoundAnswer (execFoundationLost die s) := by
  refine soundAnswer_when hs fun _ => ?_
  extract_lets s1 s2 s3 plat xlt s4 s5 s6
  have h1 : s1.Sound := State.foldl_sound (fun t k ht => by simp [ht]) _ hs
  clear_value s1
  have h3 : s3.Sound := by simp [s3, s2, h1]
  have h4 : s4.Sound := h3
  have h5 : s5.Sound := by simpa [s5] using h4
  have h6 : s6.Sound := by
    unfold s6
    split <;> simp [h5]
  simp [h6]

theorem execPatrolScrubVisit_sound (die chan unit : Nat) (crc : List (Nat × Nat)) (s : State) (hs : s.Sound) :
    SoundAnswer (execPatrolScrubVisit die chan unit crc s) :=
  soundAnswer_when hs fun _ => State.scrubWhere_sound _ _ (State.visitCrc_sound _ _ _ (by simpa using hs))

theorem execThresholdCrossed_sound (row die obj count : Nat) (s : State) (hs : s.Sound) : SoundAnswer (execThresholdCrossed row die obj count s) :=
  soundAnswer_when hs fun _ => State.logEv_sound _ _ _ _ _ (by simp [hs])

theorem execSignatureSample_sound (die : Nat) (x : SigSample) (s : State) (hs : s.Sound) : SoundAnswer (execSignatureSample die x s) := by
  refine soundAnswer_when hs fun _ => ?_
  extract_lets sig boost p d s1 s2 tally s3
  have h1 : s1.Sound := by simpa [s1] using hs
  have h2 : s2.Sound := State.foldl_sound (fun t j ht => by simpa using ht) _ h1
  clear_value s2
  have h3 : s3.Sound := h2
  rw [State.decideOp_sound]
  split
  · simpa using h3
  · exact h3

theorem execSupplyWarnAssert_sound (s : State) (hs : s.Sound) : SoundAnswer (execSupplyWarnAssert s) := by
  refine soundAnswer_when hs fun _ => ?_
  extract_lets power s0 times power0 p tally s1 s2 s3 power3
  have h0 : s0.Sound := hs
  have h2 : s2.Sound := (State.count_sound s1 _ _).mpr h0
  have h3 : s3.Sound := by
    unfold s3
    split
    · exact State.foldl_sound (fun t n ht => by simpa using ht) _ h2
    · exact h2
  clear_value s3
  split
  · exact h0
  split
  · exact State.logEv_sound _ _ _ _ _ h3
  · exact h3

theorem execSupplyEpisodeEnd_sound (s : State) (hs : s.Sound) : SoundAnswer (execSupplyEpisodeEnd s) := by
  refine soundAnswer_when hs fun _ => ?_
  simp only [State.decideAll_sound, State.raise_sound]
  exact State.logEv_sound _ _ _ _ _ hs

theorem execJunctionSample_sound (pairs : List Nat) (hub : Nat) (s : State) (hs : s.Sound) : SoundAnswer (execJunctionSample pairs hub s) := by
  refine soundAnswer_when hs fun _ => ?_
  extract_lets s1 p hottest run tally s2
  have h1 : s1.Sound := State.foldl_sound (fun t n ht => by simpa using ht) _ hs
  clear_value s1
  have h2 : s2.Sound := h1
  split
  · exact s2.halt_sound _ h2
  · exact h2

theorem execJunctionLevelExit_sound (die : Nat) (s : State) (hs : s.Sound) : SoundAnswer (execJunctionLevelExit die s) := by
  refine soundAnswer_when hs fun _ => ?_
  split
  · exact hs
  · exact hs

theorem execIdleEntry_sound (s : State) (hs : s.Sound) : SoundAnswer (execIdleEntry s) := by
  refine soundAnswer_when hs fun _ => ?_
  extract_lets s1
  have h1 : s1.Sound := State.foldl_sound (fun t n ht => by simpa using ht) _ hs
  exact h1.with_pstate (by decide : (1 : Nat) ≤ 3)

theorem execPowerSafetyNet_sound (s : State) (hs : s.Sound) : SoundAnswer (execPowerSafetyNet s) := by
  refine soundAnswer_when hs fun _ => State.logEv_sound _ _ _ _ _ ?_
  exact State.foldl_sound (fun t n ht => by simpa using ht) _ hs

theorem execLockstepMismatch_sound (s : State) (hs : s.Sound) : SoundAnswer (execLockstepMismatch s) := by
  refine soundAnswer_when hs fun _ => ?_
  extract_lets times cairn s1 s2 s3
  have h1 : s1.Sound := hs
  have h2 : s2.Sound := s1.logEv_sound _ _ _ _ h1
  have h3 : s3.Sound := s2.halt_sound _ h2
  split
  · exact h3
  · exact h2

@[simp] theorem State.tick_sound (s : State) : s.tick.Sound = s.Sound := by
  unfold State.tick
  split <;> rfl

/-- Every command answers a sound state on a sound state. -/
theorem exec_sound (c : Instr) {s : State} (hs : s.Sound) : SoundAnswer (exec c s) := by
  unfold exec
  cases c with
  | pwrGoodAssert straps => exact execPwrGoodAssert_sound straps s hs
  | pwrGoodLoss ns => exact soundAnswer_when hs fun _ => s.coldReset_sound
  | vddCairnLoss => exact soundAnswer_when hs fun _ => s.coldReset_sound
  | refclkCoreLoss => simp [execRefclkCoreLoss, hs]
  | refclkRidgeLoss => simp [execRefclkRidgeLoss, hs]
  | refclkPcieLoss => simp [execRefclkPcieLoss, hs]
  | portLinkBringup offers => exact execPortLinkBringup_sound offers s hs
  | portLinkRetrain _ => simp [execPortLinkRetrain, hs]
  | perstNAssert => exact execPerstNAssert_sound s hs
  | perstNDeassert => simp [execPerstNDeassert, hs]
  | functionLevelReset => simp [execFunctionLevelReset, hs]
  | cacheEnableClear => exact execCacheEnableClear_sound s hs
  | cacheEnableSet => simp [execCacheEnableSet, hs]
  | imageBegin _ _ => simp +contextual [execImageBegin, hs]
  | imageData _ _ => simp +contextual [execImageData, hs]
  | imageEnd p k => exact soundAnswer_next.2 (State.ebior_sound (doImageEnd_sound p k) _ p k hs)
  | memoryBringupEnd outcomes => exact execMemoryBringupEnd_sound outcomes s hs
  | configWrite _ _ => simp [execConfigWrite, hs]
  | configRead _ _ => simp [execConfigRead, hs]
  | configCommit _ _ _ => simp +contextual [execConfigCommit, hs]
  | safetyProfile _ _ => simp [execSafetyProfile, hs]
  | safetyArm p k => exact soundAnswer_next.2 (State.ebior_sound (doSafetyArm_sound p k) _ p k hs)
  | queryIdentity _ _ => simp [execQueryIdentity, hs]
  | attest _ _ => simp [execAttest, hs]
  | timeSet _ _ => simp [execTimeSet, hs]
  | timeRead _ _ => simp [execTimeRead, hs]
  | telemetryRead _ _ => simp [execTelemetryRead, hs]
  | eventLogRead _ _ => simp [execEventLogRead, hs]
  | maintStatus p k => exact execMaintStatus_sound p k s hs
  | maintAbort _ _ => simp +contextual [execMaintAbort, hs]
  | scrub _ => simp [execScrub, hs]
  | hbmRetrain _ => simp [execHbmRetrain, hs]
  | lpRetrain _ => simp [execLpRetrain, hs]
  | ridgeRetrain _ => simp [execRidgeRetrain, hs]
  | chanEvac _ => simp [execChanEvac, hs]
  | chanEvacBlockWritten die group => exact execChanEvacBlockWritten_sound die group s hs
  | wayTest _ => simp [execWayTest, hs]
  | tileRetire _ => simp [execTileRetire, hs]
  | tileRetireDeadline die tile => exact execTileRetireDeadline_sound die tile s hs
  | sensorCal _ => simp [execSensorCal, hs]
  | dieReset q => exact execDieReset_sound q s hs
  | dieResetDrainEnd die => exact execDieResetDrainEnd_sound die s hs
  | activityEnd num passed result => exact execActivityEnd_sound num passed result s hs
  | waitingActivityStart num => exact execWaitingActivityStart_sound num s hs
  | packagePark _ _ => simp [execPackagePark, hs]
  | parkEntry => exact execParkEntry_sound s hs
  | parkTimeout => simp [execParkTimeout, hs]
  | resume _ _ => simp [execResume, hs]
  | resumeComplete => exact execResumeComplete_sound s hs
  | streamOpen _ _ => simp [execStreamOpen, hs]
  | streamClose _ _ => simp [execStreamClose, hs]
  | streamCloseDrained n => exact execStreamCloseDrained_sound n s hs
  | streamMigrate _ _ => simp [execStreamMigrate, hs]
  | migrateDrained n => exact execMigrateDrained_sound n s hs
  | streamDrainTimeout n => exact execStreamDrainTimeout_sound n s hs
  | debugUnlockChallenge p k rand => exact soundAnswer_next.2 (State.ebior_sound (doDebugUnlock_sound rand p k) _ p k hs)
  | debugUnlockKey p k => exact soundAnswer_next.2 (State.ebior_sound (doDebugUnlock_sound _ p k) _ p k hs)
  | debugUnlockSignature p k => exact soundAnswer_next.2 (State.ebior_sound (doDebugUnlock_sound _ p k) _ p k hs)
  | challengeExpiry => simp [execChallengeExpiry, hs]
  | debugLock _ _ => simp +contextual [execDebugLock, hs]
  | powerLimitSet _ _ => simp [execPowerLimitSet, hs]
  | portBMessage op v k => exact execPortBMessage_sound op v k s hs
  | registerWrite by_ addr v => exact execRegisterWrite_sound by_ addr v s hs
  | routeEntryWrite _ _ => simp [execRouteEntryWrite, hs]
  | interruptEvent _ => simp [execInterruptEvent, hs]
  | apertureAccess core a => exact execApertureAccess_sound core a s hs
  | deviceRegisterAccessFault _ _ => simp [execDeviceRegisterAccessFault, hs]
  | trapAnswerReplay _ _ => simp [execTrapAnswerReplay, hs]
  | trapAnswerSkip _ _ => simp [execTrapAnswerSkip, hs]
  | trapAnswerKill die id => exact execTrapAnswerKill_sound die id s hs
  | trapHeadWrite _ _ => simp [execTrapHeadWrite, hs]
  | trapRecordWrite die => exact execTrapRecordWrite_sound die s hs
  | xltReplyWalk _ => simp [execXltReplyWalk, hs]
  | xltReplyError _ _ => simp +contextual [execXltReplyError, hs]
  | xltRingHeadWrite _ => simp [execXltRingHeadWrite, hs]
  | xltInvalPage _ _ => simp [execXltInvalPage, hs]
  | xltInvalSpace _ => simp [execXltInvalSpace, hs]
  | xltInvalAll => simp [execXltInvalAll, hs]
  | invalidationComplete => exact execInvalidationComplete_sound s hs
  | streamEheadWrite _ _ => simp [execStreamEheadWrite, hs]
  | streamCont _ => simp [execStreamCont, hs]
  | talTelHeadWrite _ => simp [execTalTelHeadWrite, hs]
  | memL2WayRead _ _ => simp [execMemL2WayRead, hs]
  | memStackTempRead _ => simp [execMemStackTempRead, hs]
  | colSatRead _ _ => simp [execColSatRead, hs]
  | dbgRead _ => simp +contextual [execDbgRead, hs]
  | dbgWrite q => exact execDbgWrite_sound q s hs
  | dbgHalt _ => simp +contextual [execDbgHalt, hs]
  | dbgRun _ => simp +contextual [execDbgRun, hs]
  | dbgStep _ => simp +contextual [execDbgStep, hs]
  | bkset q => exact execBkset_sound q s hs
  | bkclr _ => simp [execBkclr, hs]
  | inject q => exact execInject_sound q s hs
  | sample _ => simp [execSample, hs]
  | extest => simp [execExtest, hs]
  | idcode => simp [execIdcode, hs]
  | samplePreload => simp [execSamplePreload, hs]
  | clamp => simp [execClamp, hs]
  | highz => simp [execHighz, hs]
  | bypass _ => simp [execBypass, hs]
  | launch n => exact execLaunch_sound n s hs
  | standPlace launch die tile => exact execStandPlace_sound launch die tile s hs
  | standEnd _ _ _ => simp [execStandEnd, hs]
  | copy n => exact execCopy_sound n s hs
  | signal _ => simp [execSignal, hs]
  | wait _ => simp [execWait, hs]
  | waitTimeout n => exact execWaitTimeout_sound n s hs
  | phaseHint n => exact execPhaseHint_sound n s hs
  | opRequest n => exact execOpRequest_sound n s hs
  | flushRange _ => simp [execFlushRange, hs]
  | collective n => exact execCollective_sound n s hs
  | epoch _ => simp [execEpoch, hs]
  | link _ => simp [execLink, hs]
  | empty _ => simp [execEmpty, hs]
  | streamWake _ => simp [execStreamWake, hs]
  | recordComplete n addr => exact execRecordComplete_sound n addr s hs
  | mov _ _ => simp [execMov, hs]
  | sel _ _ => simp [execSel, hs]
  | sread _ _ => simp [execSread, hs]
  | iadd _ _ => simp [execIadd, hs]
  | isub _ _ => simp [execIsub, hs]
  | imul _ _ => simp [execImul, hs]
  | imulhi _ _ => simp [execImulhi, hs]
  | imulhu _ _ => simp [execImulhu, hs]
  | imad _ _ => simp [execImad, hs]
  | imin _ _ => simp [execImin, hs]
  | imax _ _ => simp [execImax, hs]
  | umin _ _ => simp [execUmin, hs]
  | umax _ _ => simp [execUmax, hs]
  | and _ _ => simp [execAnd, hs]
  | or _ _ => simp [execOr, hs]
  | xor _ _ => simp [execXor, hs]
  | not _ _ => simp [execNot, hs]
  | shl _ _ => simp [execShl, hs]
  | shr _ _ => simp [execShr, hs]
  | sar _ _ => simp [execSar, hs]
  | popc _ _ => simp [execPopc, hs]
  | clz _ _ => simp [execClz, hs]
  | bfx _ _ => simp [execBfx, hs]
  | isetp _ _ => simp [execIsetp, hs]
  | fadd _ _ => simp [execFadd, hs]
  | fsub _ _ => simp [execFsub, hs]
  | fmul _ _ => simp [execFmul, hs]
  | ffma _ _ => simp [execFfma, hs]
  | fmin _ _ => simp [execFmin, hs]
  | fmax _ _ => simp [execFmax, hs]
  | fsetp _ _ => simp [execFsetp, hs]
  | cvt _ _ => simp [execCvt, hs]
  | ld c w lost => exact execLd_sound c w lost s hs
  | st c w => exact execSt_sound c w s hs
  | bcopy _ _ => simp +contextual [execBcopy, hs]
  | nop _ _ => simp [execNop, hs]
  | bra _ _ => simp [execBra, hs]
  | brx _ _ => simp [execBrx, hs]
  | call c w => exact execCall_sound c w s hs
  | ret c w => exact execRet_sound c w s hs
  | exit _ _ => simp +contextual [execExit, hs]
  | trap _ _ => simp [execTrap, hs]
  | brk _ _ => simp [execBrk, hs]
  | bar _ _ => simp [execBar, hs]
  | fenceAcq _ _ => simp [execFenceAcq, hs]
  | fenceRel _ _ => simp [execFenceRel, hs]
  | fenceAr _ _ => simp [execFenceAr, hs]
  | atom _ _ => simp +contextual [execAtom, hs]
  | red _ _ => simp +contextual [execRed, hs]
  | redl _ _ => simp [execRedl, hs]
  | shfl _ _ => simp [execShfl, hs]
  | vote _ _ => simp [execVote, hs]
  | bwait c w => exact execBwait_sound c w s hs
  | waitf c w => exact execWaitf_sound c w s hs
  | pause _ _ => simp [execPause, hs]
  | waitConditionMet c => exact execWaitConditionMet_sound c s hs
  | mma _ _ => simp [execMma, hs]
  | mmap _ _ => simp [execMmap, hs]
  | accld _ _ => simp [execAccld, hs]
  | accst _ _ => simp [execAccst, hs]
  | mwait _ _ => simp [execMwait, hs]
  | matrixStart die tile transfer => exact execMatrixStart_sound die tile transfer s hs
  | matrixComplete die tile transfer => exact execMatrixComplete_sound die tile transfer s hs
  | eprun _ _ => simp [execEprun, hs]
  | vget _ _ => simp [execVget, hs]
  | vput _ _ => simp [execVput, hs]
  | vflags _ _ => simp [execVflags, hs]
  | vwait _ _ => simp [execVwait, hs]
  | elementStart die tile => exact execElementStart_sound die tile s hs
  | elementComplete die tile bad => exact execElementComplete_sound die tile bad s hs
  | buckerTurn b count => exact execBuckerTurn_sound b count s hs
  | heavyBuckerTake die b n addr => exact execHeavyBuckerTake_sound die b n addr s hs
  | indexListRead b => exact execIndexListRead_sound b s hs
  | flaggedFinalWrite b serial => exact execFlaggedFinalWrite_sound b serial s hs
  | descriptorComplete b serial => exact execDescriptorComplete_sound b serial s hs
  | copyDataPathError b serial cause addr => exact execCopyDataPathError_sound b serial cause addr s hs
  | homeAccess id errs => exact execHomeAccess_sound id errs s hs
  | l2FillReturn line crc => exact execL2FillReturn_sound line crc s hs
  | l1FillReturn id => exact execL1FillReturn_sound id s hs
  | evictionWriteIssue line crc => exact execEvictionWriteIssue_sound line crc s hs
  | evictionWriteAck line => exact execEvictionWriteAck_sound line s hs
  | cleanVictimOffer _ _ _ => simp [execCleanVictimOffer, hs]
  | wayDisable _ _ _ => simp [execWayDisable, hs]
  | hourBucketAdvance => simp [execHourBucketAdvance, hs]
  | nodeCoreAccess core a => exact execNodeCoreAccess_sound core a s hs
  | rds _ _ => simp [execRds, hs]
  | rdw _ _ => simp [execRdw, hs]
  | rdu _ _ => simp [execRdu, hs]
  | upg _ _ => simp [execUpg, hs]
  | vicd _ => simp [execVicd, hs]
  | vicc _ => simp [execVicc, hs]
  | rdc _ => simp [execRdc, hs]
  | wrReq _ => simp [execWrReq, hs]
  | atReq _ => simp [execAtReq, hs]
  | fwds _ => simp +contextual [execFwds, hs]
  | fwdu _ => simp +contextual [execFwdu, hs]
  | inv _ => simp +contextual [execInv, hs]
  | cur _ => simp +contextual [execCur, hs]
  | rcl _ => simp +contextual [execRcl, hs]
  | dataReceive _ => simp +contextual [execDataReceive, hs]
  | cmp _ => simp +contextual [execCmp, hs]
  | invack m => exact execInvack_sound m s hs
  | vcmp _ => simp +contextual [execVcmp, hs]
  | fwddone m => exact execFwddone_sound m s hs
  | wbd m => exact execWbd_sound m s hs
  | rspi m => exact execRspi_sound m s hs
  | cack m => exact execCack_sound m s hs
  | clusterHeartbeatTimeout _ => simp [execClusterHeartbeatTimeout, hs]
  | packageHeartbeatTimeout _ => simp [execPackageHeartbeatTimeout, hs]
  | clusterReset _ => simp [execClusterReset, hs]
  | deadNotice agent dst => exact execDeadNotice_sound agent dst s hs
  | reclamationComplete _ => simp [execReclamationComplete, hs]
  | snpinv _ => simp [execSnpinv, hs]
  | snpdata _ => simp [execSnpdata, hs]
  | snpcur _ => simp [execSnpcur, hs]
  | goReceive half g => exact execGoReceive_sound half g s hs
  | hostDataReceive half data poisoned => exact execHostDataReceive_sound half data poisoned s hs
  | hostLineEvict _ => simp [execHostLineEvict, hs]
  | translationMiss id => exact execTranslationMiss_sound id s hs
  | walkComplete index => exact execWalkComplete_sound index s hs
  | requestRecordWrite index => exact execRequestRecordWrite_sound index s hs
  | fillComplete index => exact execFillComplete_sound index s hs
  | tokenGrant _ _ _ => simp [execTokenGrant, hs]
  | tokenIdleReturn _ _ _ => simp [execTokenIdleReturn, hs]
  | tokenReturn id l => exact execTokenReturn_sound id l s hs
  | retryBackoffExpiry id => exact execRetryBackoffExpiry_sound id s hs
  | colModuleRetire _ _ => simp [execColModuleRetire, hs]
  | portSevered _ => simp [execPortSevered, hs]
  | serviceClockStop _ => simp [execServiceClockStop, hs]
  | computeDieLost _ => simp [execComputeDieLost, hs]
  | tileLost die tile => exact execTileLost_sound die tile s hs
  | foundationLost die => exact execFoundationLost_sound die s hs
  | flitReceive _ _ _ _ => simp [execFlitReceive, hs]
  | nakReceive _ _ => simp [execNakReceive, hs]
  | linkTrainingStart _ => simp [execLinkTrainingStart, hs]
  | linkTrainingEnd link lanes peer => exact execLinkTrainingEnd_sound link lanes peer s hs
  | linkRetrainEnd link lanes => exact execLinkRetrainEnd_sound link lanes s hs
  | lanePermanentFault _ _ => simp [execLanePermanentFault, hs]
  | linkFailover _ => simp [execLinkFailover, hs]
  | ridgeMessageArrive link m => exact execRidgeMessageArrive_sound link m s hs
  | chunkReceive die bytes => exact execChunkReceive_sound die bytes s hs
  | chunkHoldExpiry die cid chunk => exact execChunkHoldExpiry_sound die cid chunk s hs
  | chunkAnswer die cid step chunk a => exact execChunkAnswer_sound die cid step chunk a s hs
  | chunkTimeout _ _ _ _ => simp [execChunkTimeout, hs]
  | stepTimeout die cid step => exact execStepTimeout_sound die cid step s hs
  | planComplete die cid => exact execPlanComplete_sound die cid s hs
  | startMsg m => exact execStartMsg_sound m s hs
  | startAck bid child => exact execStartAck_sound bid child s hs
  | doneMsg bid child => exact execDoneMsg_sound bid child s hs
  | unreached bid member => exact execUnreached_sound bid member s hs
  | refeed m => exact execRefeed_sound m s hs
  | refeedDone bid alt member => exact execRefeedDone_sound bid alt member s hs
  | tackTimeout bid child => exact execTackTimeout_sound bid child s hs
  | tdoneTimeout bid child => exact execTdoneTimeout_sound bid child s hs
  | beaconSend _ => simp [execBeaconSend, hs]
  | beaconReceive b => exact execBeaconReceive_sound b s hs
  | delayExchange _ _ => simp [execDelayExchange, hs]
  | beaconLoss => simp [execBeaconLoss, hs]
  | stackTempSample _ _ _ => simp [execStackTempSample, hs]
  | stackLevelExit _ _ => simp [execStackLevelExit, hs]
  | lpddrTempSample _ _ _ => simp [execLpddrTempSample, hs]
  | patrolScrubVisit die chan unit crc => exact execPatrolScrubVisit_sound die chan unit crc s hs
  | thresholdCrossed row die obj count => exact execThresholdCrossed_sound row die obj count s hs
  | signatureSample die x => exact execSignatureSample_sound die x s hs
  | voltageStep _ => simp [execVoltageStep, hs]
  | voltageReported _ _ => simp [execVoltageReported, hs]
  | budgetExchange => simp [execBudgetExchange, hs]
  | grantReceive _ => simp [execGrantReceive, hs]
  | grantRaiseEffect _ => simp [execGrantRaiseEffect, hs]
  | grantTimeout _ => simp [execGrantTimeout, hs]
  | hintPrepare _ _ _ => simp [execHintPrepare, hs]
  | hintStart _ _ => simp [execHintStart, hs]
  | hintEnd _ _ => simp [execHintEnd, hs]
  | explorationSample _ => simp [execExplorationSample, hs]
  | marginLow die tile covered => exact execMarginLow_sound die tile covered s hs
  | stretchEnd _ _ => simp [execStretchEnd, hs]
  | stretchInterval _ _ _ => simp [execStretchInterval, hs]
  | supplyWarnAssert => exact execSupplyWarnAssert_sound s hs
  | supplyWarnDeassert => simp [execSupplyWarnDeassert, hs]
  | supplyEpisodeEnd => exact execSupplyEpisodeEnd_sound s hs
  | junctionSample pairs hub => exact execJunctionSample_sound pairs hub s hs
  | junctionLevelExit die => exact execJunctionLevelExit_sound die s hs
  | thermTrip => simp [execThermTrip, hs]
  | coolantOkDeassert => simp [execCoolantOkDeassert, hs]
  | coolantHalt => simp [execCoolantHalt, hs]
  | coolantOkAssert => simp [execCoolantOkAssert, hs]
  | idleEntry => exact execIdleEntry_sound s hs
  | idleExit => simp [execIdleExit, hs]
  | powerSafetyNet => exact execPowerSafetyNet_sound s hs
  | lockstepMismatch => exact execLockstepMismatch_sound s hs
  | cairnRestartComplete => exact execCairnRestartComplete_sound s hs
  | tallySample _ => simp [execTallySample, hs]
  | telemetryPeriodEnd => exact execTelemetryPeriodEnd_sound s hs
  | avsbusSample rail f => exact execAvsbusSample_sound rail f s hs
  | avsbusFrameTimeout _ => simp [execAvsbusFrameTimeout, hs]
  | heartbeat _ => simp [execHeartbeat, hs]
  | accessCompletionReceive id => exact execAccessCompletionReceive_sound id s hs
  | ridgeRequestBoundExpiry q => exact execRidgeRequestBoundExpiry_sound q s hs
  | refclkRidgeReturn => simp [execRefclkRidgeReturn, hs]
  | refclkPcieReturn => simp [execRefclkPcieReturn, hs]
  | channelRetrainComplete die chan lrep => exact execChannelRetrainComplete_sound die chan lrep s hs

end Sys2Proof.Machine
end

section
/-! The obligation that every step keeps the invariant. -/

namespace Sys2Proof.Machine

theorem step_of_pending {s : State} {c : Instr} {rest : List Instr} (h : s.pending = c :: rest) :
    step s = exec c { s with pending := rest } := stepRunsFrontCommand.2 s c rest h

/-- Settles O45: a command answers a sound state on the state with the rest of the queue, and a step with no command waiting changes none of
the parts that the invariant reads. -/
theorem stepKeepsInvariant : Obligations.StepKeepsInvariant := by
  unfold Obligations.StepKeepsInvariant
  intro s t hinv hstep
  have hs : s.Sound := (State.sound_iff_inv s).2 hinv
  refine (State.sound_iff_inv t).1 ?_
  cases hqueue : s.pending with
  | nil =>
    rw [step_of_idle hqueue] at hstep
    cases hstep
    exact s.tick_sound.mpr hs
  | cons c rest =>
    rw [step_of_pending hqueue] at hstep
    exact exec_sound c (s := { s with pending := rest }) hs t hstep

end Sys2Proof.Machine
end

section
/-! SUPPORT. What a decision of a die's controller chooses: the highest point that fits the budget (R374 step 2), and the move towards it. -/

namespace Sys2Proof.Machine

/-- The maximum folded over a list of numbers that holds 0 is the greatest of them. -/
theorem isGreatest_foldl_max {l : List Nat} (h0 : 0 ∈ l) : IsGreatest {k | k ∈ l} (l.foldl max 0) := by
  obtain ⟨m, hm⟩ : ∃ m, l.max? = some m := Option.ne_none_iff_exists'.1 (by simpa using List.ne_nil_of_mem h0)
  rw [List.foldl_max, hm, Option.getD_some, Nat.zero_max]
  exact List.max?_eq_some_iff.1 hm

/-- Step 2 of R374. -/
theorem DieFb.fit_isGreatest (d : DieFb) (t : Nat) : IsGreatest {k | k ≤ t ∧ (k = 0 ∨ d.pw k ≤ d.budget)} (d.fit t) := by
  simpa [DieFb.fit, Nat.lt_succ_iff] using isGreatest_foldl_max (l := (List.range (t + 1)).filter (fun k => k = 0 || decide (d.pw k ≤ d.budget))) (by simp)

section
variable {s : State} {n : Nat}

/-- A controller that moves down does so at once (R373). -/
theorem State.moveClock_op_of_le (h : (s.die n).goal ≤ (s.die n).op) : ((s.moveClock n).die n).op = (s.die n).goal := by
  simp [State.moveClock, h, State.setOp_die]

/-- A controller moves up only where the voltage target and the board's report have reached the point (R373). -/
theorem State.voltage_of_moveClock_up (h : (s.die n).op < ((s.moveClock n).die n).op) :
    opMv ((s.moveClock n).die n).op ≤ (s.die n).mv ∧ opMv ((s.moveClock n).die n).op ≤ (s.die n).rep := by
  unfold State.moveClock at h ⊢
  dsimp only at h ⊢
  split at h
  · next hle =>
    rw [State.setOp_die, if_pos rfl] at h
    exact absurd h (Nat.not_lt.2 hle)
  next hle =>
  rw [if_neg hle]
  split at h
  · next hv =>
    rw [if_pos hv, State.setOp_die, if_pos rfl]
    simp only [Bool.and_eq_true, decide_eq_true_eq] at hv
    exact hv.1
  · exact absurd h (Nat.lt_irrefl _)

/-- What a decision leaves: the target of step 1, the point of steps 2 and 3, and the clock where the move towards it takes it. -/
theorem State.decideOp_decided (h : s.decides n = true) {t : Nat} (ht : t = (s.die n).target s.now (some (s.die n).budget) (s.ceiling n)) :
    ((s.decideOp n).die n).tgt = t ∧ ((s.decideOp n).die n).goal = min ((s.die n).fit t) (s.ceiling n)
      ∧ ((s.decideOp n).die n).op
        = (((s.setDie n { s.die n with tgt := t, goal := min ((s.die n).fit t) (s.ceiling n) }).moveClock n).die n).op := by
  subst ht
  unfold State.decideOp
  rw [if_pos h]
  dsimp only
  rw [State.unmetHints_die _ n n, if_pos rfl, State.moveClock_die _ n n, if_pos rfl, State.setDie_die_self]
  exact ⟨rfl, rfl, rfl⟩

end

end Sys2Proof.Machine
end

section
/-! The obligation about the decisions of a die's controller. -/

namespace Sys2Proof.Machine

/-- Settles O10, from what a decision leaves and step 2 of R374 as a greatest element; the clock's rules are those of the move
towards the decided point. -/
theorem decisionObeysBudgetAndCeilings : Obligations.DecisionObeysBudgetAndCeilings := by
  unfold Obligations.DecisionObeysBudgetAndCeilings
  intro s n hs
  obtain ⟨htgt, hgoal, hop⟩ := State.decideOp_decided hs rfl
  rw [htgt, hgoal, hop]
  obtain ⟨⟨hle, hfits⟩, hmax⟩ := (s.die n).fit_isGreatest ((s.die n).target s.now (some (s.die n).budget) (s.ceiling n))
  refine ⟨Nat.min_le_right _ _, rfl, (Nat.min_le_left _ _).trans hle, fun hc => ?_, fun k hk hkc hkb => ?_, fun hdown => ?_, fun hup => ?_⟩
  · rw [Nat.min_eq_left hc]
    exact hfits
  · exact Nat.le_min.2 ⟨hmax ⟨hk, hkb⟩, hkc⟩
  · rw [State.moveClock_op_of_le] <;> simp [hdown]
  · simpa using State.voltage_of_moveClock_up (n := n) ((congrArg DieFb.op (State.setDie_die_self s n _)).trans_lt hup)

end Sys2Proof.Machine
end

section
/-! SUPPORT. A debug request at its level and target, and below its level (R415, R416). -/

namespace Sys2Proof.Machine

section
variable {s : State} {q : DbgReq} {level : Nat} {ok : Bool} {f : State → State}

theorem State.dbg_below (hserves : s.serves = true) (h : s.cairn.dbg < level) :
    s.dbg q level ok f = .next { s with dbgUnit := { s.dbgUnit with err := 1 } } :=
  (when_of_true hserves _ s).trans (congrArg _ (if_pos h))

theorem State.dbg_acts (hserves : s.serves = true) (h : level ≤ s.cairn.dbg) (hok : ok = true) (htarget : s.dbgTarget q = none) :
    s.dbg q level ok f = .next (f s) := by
  rw [State.dbg, when_of_true hserves, if_neg (Nat.not_lt.2 h), htarget, hok]
  rfl

end

section
variable (s : State) (q : DbgReq)

theorem exec_dbgRead_eq : exec (.dbgRead q) s = execDbgRead q s := (rfl)
theorem exec_dbgWrite_eq : exec (.dbgWrite q) s = execDbgWrite q s := (rfl)
theorem exec_dbgHalt_eq : exec (.dbgHalt q) s = execDbgHalt q s := (rfl)
theorem exec_dbgRun_eq : exec (.dbgRun q) s = execDbgRun q s := (rfl)
theorem exec_dbgStep_eq : exec (.dbgStep q) s = execDbgStep q s := (rfl)
theorem exec_bkset_eq : exec (.bkset q) s = execBkset q s := (rfl)
theorem exec_bkclr_eq : exec (.bkclr q) s = execBkclr q s := (rfl)
theorem exec_inject_eq : exec (.inject q) s = execInject q s := (rfl)
theorem exec_sample_eq : exec (.sample q) s = execSample q s := (rfl)

end

/-- All requests but READ and SAMPLE need level 2 (R416). -/
theorem exec_dbg_below {s : State} {q : DbgReq} (hserves : s.serves = true) (h : s.cairn.dbg < 2) {c : Instr}
    (hc : c ∈ [Instr.dbgWrite q, .dbgHalt q, .dbgRun q, .dbgStep q, .bkset q, .bkclr q, .inject q]) :
    exec c s = .next { s with dbgUnit := { s.dbgUnit with err := 1 } } := by
  simp only [List.mem_cons, List.not_mem_nil, or_false] at hc
  rcases hc with rfl | rfl | rfl | rfl | rfl | rfl | rfl
  all_goals simp only [exec_dbgWrite_eq, exec_dbgHalt_eq, exec_dbgRun_eq, exec_dbgStep_eq, exec_bkset_eq, exec_bkclr_eq, exec_inject_eq,
    execDbgWrite, execDbgHalt, execDbgRun, execDbgStep, execBkset, execBkclr, execInject, State.dbg_below hserves h]

/-! The forms of a request. -/

section
variable {q : DbgReq}

theorem dbgOnCluster_space (h : dbgOnCluster q = true) : q.space = 0 := by simp_all [dbgOnCluster]
theorem dbgOnCluster_of_space (h : q.space ≠ 0) : dbgOnCluster q = false := by simp [dbgOnCluster, h]

/-- A request to one tile names that tile alone. -/
theorem dbgTileList_of_onTile (h : dbgOnTile q false = true) : dbgTileList q = [q.unit] := by
  have hunit : q.unit < 68 := by simpa [dbgOnTile] using (Bool.and_eq_true_iff.1 h).2
  exact if_neg (by omega)

theorem dbgFile_of_regOk {top : Nat} (h : dbgRegOk q top = true) : dbgFile q ≤ top := by
  simp only [dbgRegOk, Bool.and_eq_true, decide_eq_true_eq] at h
  exact h.1.2

/-- The level of a READ that is not of a PC or of the active lanes is 2 (R416). -/
theorem dbgRead_level (h : (dbgFile q ≠ 3 ∧ dbgFile q ≠ 4) ∨ q.space ≠ 0 ∨ q.die = 4) :
    (if (dbgOnTile q false && q.space == 0 && ((dbgFile q) == 3 || (dbgFile q) == 4)) = true then 1 else 2) = 2 := by
  refine if_neg fun hseen => ?_
  simp only [dbgOnTile, Bool.and_eq_true, Bool.or_eq_true, beq_iff_eq, decide_eq_true_eq] at hseen
  omega

theorem dbgRead_level_le (c : Bool) : (if c = true then 1 else 2) ≤ 2 := by split <;> omega

end

/-- The lowest free breakpoint of a die (R417). -/
theorem State.freeBreakpoint {s : State} {die i : Nat} (hi : i < 8) (hfree : alFind s.dbgUnit.bk (die * 8 + i) = none)
    (hused : ∀ j < i, alFind s.dbgUnit.bk (die * 8 + j) ≠ none) :
    (List.range 8).find? (fun i => (alFind s.dbgUnit.bk (die * 8 + i)).isNone) = some i := by
  rw [List.find?_range_eq_some]
  exact ⟨by simp [hfree], by simpa using hi, fun j hj => by simpa using Option.ne_none_iff_isSome.1 (hused j hj)⟩

/-! What each request does at its level, on a fit target. -/

section
variable {s : State} {q : DbgReq} (hserves : s.serves = true) (hdbg : 2 ≤ s.cairn.dbg) (htarget : s.dbgTarget q = none)
include hserves hdbg htarget

theorem exec_dbgRead (hok : (if q.space = 0 then dbgOnCluster q || dbgRegOk q 4 else s.dbgStore q) = true) : exec (.dbgRead q) s = .next (
    if dbgOnCluster q then s.drawn.dbgData (Free.debugModule s.fresh) else if q.space = 0 then s.dbgData (s.dbgReg q) else s.dbgLoad q) := by
  rw [exec_dbgRead_eq, execDbgRead, State.dbg_acts hserves ((dbgRead_level_le _).trans hdbg) hok htarget]

theorem exec_dbgWrite_cluster (h : dbgOnCluster q = true) : exec (.dbgWrite q) s = .next (({ s with dbgUnit := { s.dbgUnit with
    cluster := alPut s.dbgUnit.cluster (q.unit * 2 ^ 48 + q.addr) s.dbgUnit.data } }).dbgEnd 0) := by
  have hspace := dbgOnCluster_space h
  rw [exec_dbgWrite_eq, execDbgWrite, State.dbg_acts hserves hdbg (by rw [if_pos hspace, h, Bool.true_or]) htarget]
  simp only [hspace, h, if_true]

theorem exec_dbgWrite_reg (hspace : q.space = 0) (h : dbgOnCluster q = false) (hreg : dbgRegOk q 2 = true) :
    exec (.dbgWrite q) s = .next ((s.dbgSetReg q s.dbgUnit.data).dbgEnd 0) := by
  rw [exec_dbgWrite_eq, execDbgWrite, State.dbg_acts hserves hdbg (by rw [if_pos hspace, hreg, Bool.or_true]) htarget]
  simp only [hspace, h, Bool.false_eq_true, if_false]

theorem exec_dbgHalt (hspace : q.space = 0) (htile : dbgOnTile q true = true) :
    exec (.dbgHalt q) s = .next (s.dbgTiles q (fun t => { t with halted := true, stepping := none })) := by
  rw [exec_dbgHalt_eq, execDbgHalt, State.dbg_acts hserves hdbg (by simp [hspace, htile]) htarget]

theorem exec_dbgRun (hspace : q.space = 0) (htile : dbgOnTile q true = true) :
    exec (.dbgRun q) s = .next (s.dbgTiles q (fun t => { t with halted := false, stepping := none })) := by
  rw [exec_dbgRun_eq, execDbgRun, State.dbg_acts hserves hdbg (by simp [hspace, htile]) htarget]

theorem exec_dbgStep (hspace : q.space = 0) (htile : dbgOnTile q false = true) (hslot : dbgSlot q < 48) (hhalt : (s.tile q.die q.unit).halted = true) :
    exec (.dbgStep q) s = .next ((s.setTile q.die q.unit { s.tile q.die q.unit with stepping := some (dbgSlot q) }).dbgEnd 0) := by
  rw [exec_dbgStep_eq, execDbgStep, State.dbg_acts hserves hdbg (by simp [hspace, htile, hslot]) htarget, State.dbgTiles, dbgTileList_of_onTile htile]
  simp [hhalt]

theorem exec_bkset (hdie : q.die < 4) {i : Nat} (hi : i < 8) (hfree : alFind s.dbgUnit.bk (q.die * 8 + i) = none)
    (hused : ∀ j < i, alFind s.dbgUnit.bk (q.die * 8 + j) ≠ none) :
    exec (.bkset q) s = .next (({ s with dbgUnit := { s.dbgUnit with bk := alPut s.dbgUnit.bk (q.die * 8 + i) q.addr } }).dbgData
      (BitVec.ofNat 64 i)) := by
  rw [exec_bkset_eq, execBkset, State.dbg_acts hserves hdbg (decide_eq_true hdie) htarget, State.freeBreakpoint hi hfree hused]

theorem exec_bkclr (hdie : q.die < 4) : exec (.bkclr q) s = .next (({ s with dbgUnit := { s.dbgUnit with
    bk := s.dbgUnit.bk.filter (fun e => !(e.1 / 8 == q.die && e.2 == q.addr)) } }).dbgEnd 0) := by
  rw [exec_bkclr_eq, execBkclr, State.dbg_acts hserves hdbg (decide_eq_true hdie) htarget]

section
variable (hstore : s.dbgStore q = true)
include hstore

theorem exec_dbgWrite_store (hspace : q.space ≠ 0) : exec (.dbgWrite q) s = .next (State.dbgEnd (match q.space with
    | 1 => s.writeLs q.die q.unit q.addr (leBytes 8 s.dbgUnit.data.toNat)
    | 2 => { s with landing := alMod {} s.landing q.die (fun t => t.writeBytes q.addr (leBytes 8 s.dbgUnit.data.toNat)) }
    | _ => { s with dram := s.dram.writeBytes q.addr (leBytes 8 s.dbgUnit.data.toNat) }) 0) := by
  rw [exec_dbgWrite_eq, execDbgWrite, State.dbg_acts hserves hdbg (by rw [if_neg hspace, hstore]) htarget]
  dsimp only
  split <;> simp_all

theorem exec_inject {n : Nat} (hn : n = wfld s.dbgUnit.data 0 2) (h12 : n = 1 ∨ n = 2) : exec (.inject q) s = .next (((match q.space with
    | 1 => s.setTile q.die q.unit ((s.tile q.die q.unit).putLs ((s.tile q.die q.unit).ls.inject q.addr n))
    | 2 => { s with landing := alMod {} s.landing q.die (fun t => t.inject q.addr n) }
    | _ => { s with dram := s.dram.inject q.addr n } : State).count
      (pairErr (if q.space = 3 then s.homeDie q.addr else q.die) 15)).dbgEnd 0) := by
  subst hn
  rw [exec_inject_eq, execInject]
  exact State.dbg_acts hserves hdbg (by simp [hstore, h12]) htarget

end

end

theorem exec_sample {s : State} {q : DbgReq} (hserves : s.serves = true) (hdbg : 1 ≤ s.cairn.dbg) (hspace : q.space = 0)
    (htarget : s.dbgTarget q = none) (hreg : dbgRegOk q 4 = true) (hfile : 3 ≤ dbgFile q) : exec (.sample q) s = .next (s.dbgData (s.dbgReg q)) := by
  have hle := dbgFile_of_regOk hreg
  rw [exec_sample_eq, execSample, State.dbg_acts hserves hdbg (by simp [hspace, hreg, show dbgFile q = 3 ∨ dbgFile q = 4 by omega]) htarget]

end Sys2Proof.Machine
end

section
/-! The obligation about the debug block's requests. -/

namespace Sys2Proof.Machine

/-- Settles O40, request by request, from what a request below its level and at its level does. That BKCLR's ADDR names the address whose
breakpoints are cleared is the model's reading (log entry 45). -/
theorem debugRequestsComplete : Obligations.DebugRequestsComplete := by
  unfold Obligations.DebugRequestsComplete
  refine ⟨fun s q hs => ⟨fun h c hc => ?_, fun h c hc => ?_, fun h hq => ?_⟩, fun s q hs hdbg ht => ⟨?_, ?_, ?_, ?_, ?_, ?_, ?_, ?_, ?_, ?_, ?_, ?_⟩,
    fun s q hs hdbg hspace ht => exec_sample hs hdbg hspace ht⟩
  · have hcases : c = .dbgRead q ∨ c ∈ [Instr.dbgWrite q, .dbgHalt q, .dbgRun q, .dbgStep q, .bkset q, .bkclr q, .inject q] ∨ c = .sample q := by
      simpa [or_assoc] using hc
    rcases hcases with rfl | hc | rfl
    · rw [exec_dbgRead_eq, execDbgRead, State.dbg_below hs (by split <;> omega)]
    · exact exec_dbg_below hs (by omega) hc
    · rw [exec_sample_eq, execSample, State.dbg_below hs (by omega)]
  · exact exec_dbg_below hs (by omega) hc
  · rw [exec_dbgRead_eq, execDbgRead, dbgRead_level hq, State.dbg_below hs (by omega)]
  · intro hspace hcl hreg
    rw [exec_dbgRead hs hdbg ht (by rw [if_pos hspace, hreg, Bool.or_true]), hcl, if_neg Bool.false_ne_true, if_pos hspace]
  · intro hcl
    refine ⟨?_, exec_dbgWrite_cluster hs hdbg ht hcl⟩
    rw [exec_dbgRead hs hdbg ht (by rw [if_pos (dbgOnCluster_space hcl), hcl, Bool.true_or]), hcl, if_pos rfl]
  · intro hspace hstore
    rw [exec_dbgRead hs hdbg ht (by rw [if_neg hspace, hstore]), dbgOnCluster_of_space hspace, if_neg Bool.false_ne_true, if_neg hspace]
  · exact exec_dbgWrite_reg hs hdbg ht
  · intro hspace hstore
    simp only [exec_dbgWrite_store hs hdbg ht hstore (by omega), hspace]
  · intro hspace hstore
    simp only [exec_dbgWrite_store hs hdbg ht hstore (by omega), hspace]
  · intro hspace hstore
    simp only [exec_dbgWrite_store hs hdbg ht hstore (by omega), hspace]
  · exact fun hspace htile => ⟨exec_dbgHalt hs hdbg ht hspace htile, exec_dbgRun hs hdbg ht hspace htile⟩
  · exact exec_dbgStep hs hdbg ht
  · exact fun hdie i => exec_bkset hs hdbg ht hdie
  · exact exec_bkclr hs hdbg ht
  · intro n hn h12 hstore
    have hinject := exec_inject hs hdbg ht hstore hn h12
    refine ⟨fun hspace => ?_, fun hspace => ?_, fun hspace => ?_⟩
    all_goals simp [hinject, hspace]

end Sys2Proof.Machine
end

section
/-! SUPPORT. A command whose condition holds, and the pins, clocks and resets of Cairn's part (chapters 12, 14, 15). -/

namespace Sys2Proof.Machine

/-- A command that is given by a condition and an effect has its effect where the condition holds. -/
theorem when_next {c : Bool} {f : State → State} {s t : State} (hc : c = true) (ht : f s = t) : when_ c f s = .next t := by rw [when_of_true hc, ht]

theorem coldReset_keeps_and_loses (s : State) : s.coldReset.fuses = s.fuses ∧ s.coldReset.pending = s.pending ∧ s.coldReset.plat.on = false
    ∧ s.coldReset.plat.thermTrip = s.plat.thermTrip ∧ s.coldReset.cairn = {} ∧ s.coldReset.dram = {} ∧ s.coldReset.cfg = {} :=
  ⟨rfl, rfl, rfl, rfl, rfl, rfl, rfl⟩

/-- A reset of the window while H holds no session leaves the port's busy bit, its SEQ and its count of ignored writes (R340). -/
theorem State.windowReset_of_no_session {s : State} (hs : s.cairn.session = none) (hc : s.cairn.cfgSession = none) :
    s.windowReset = { s with portH := { busy := s.portH.busy, discard := s.portH.busy, ign := s.portH.ign, seq := s.portH.seq } } := by
  simp [State.windowReset, hs, hc]

section
variable {s : State}

theorem exec_pwrGoodAssert (straps : BitVec 8) (hoff : s.plat.on = false) (htrip : s.plat.thermTrip = false) :
    ∃ t, exec (.pwrGoodAssert straps) s = .next t ∧ t.plat.on = true ∧ t.plat.stage = 0 ∧ t.plat.straps = straps
      ∧ t.cairn.lc = s.fuses.lc ∧ t.fuses = s.fuses ∧ t.pending = s.pending ∧ t.cairn.log.length = 1 ∧ t.dram = {} ∧ t.tiles = [] := by
  unfold exec execPwrGoodAssert
  exact ⟨_, when_next (by simp [hoff, htrip]) rfl, rfl, rfl, rfl, rfl, rfl, rfl, rfl, rfl, rfl⟩

theorem exec_refclkCoreLoss (hup : s.up = true) : exec .refclkCoreLoss s
    = .next (({ s with plat := { s.plat with coreLost := true } }).logEv 0x0015 255 3 [0, Free.refclkReason]) := by
  unfold exec execRefclkCoreLoss
  exact when_next hup rfl

theorem exec_refclkPcieLoss (hon : s.on = true) (hclk : s.plat.pcieClk = true) :
    exec .refclkPcieLoss s = .next { s with plat := { s.plat with pcieClk := false } } := by
  unfold exec execRefclkPcieLoss
  exact when_next (by simp [hon, hclk]) rfl

theorem exec_refclkPcieReturn (hon : s.on = true) (hclk : s.plat.pcieClk = false) :
    exec .refclkPcieReturn s = .next { s with plat := { s.plat with pcieClk := true } } := by
  unfold exec execRefclkPcieReturn
  exact when_next (by simp [hon, hclk]) rfl

theorem exec_perstNAssert (hon : s.on = true) (hperst : s.plat.perst = false) (hs : s.cairn.session = none) (hc : s.cairn.cfgSession = none) :
    exec .perstNAssert s = .next { s with
      portH := { busy := s.portH.busy, discard := s.portH.busy, ign := s.portH.ign, seq := s.portH.seq }
      plat := { s.plat with perst := true, pcieUp := false } } := by
  unfold exec execPerstNAssert
  exact when_next (by simp [hon, hperst]) (by rw [State.windowReset_of_no_session hs hc])

theorem exec_perstNDeassert (hon : s.on = true) (hperst : s.plat.perst = true) : exec .perstNDeassert s
    = .next { s with plat := { s.plat with perst := false, pcieUp := decide (s.plat.hpState = 1) || !s.plat.hpFails.isEmpty } } := by
  unfold exec execPerstNDeassert
  exact when_next (by simp [hon, hperst]) rfl

end

/-! The H–P link. -/

section
variable {s : State} (hup : s.up = true)
include hup

theorem exec_portLinkBringup {o : LinkOffer} {rest : List LinkOffer} (hstage : s.plat.stage = 0) (hstate : s.plat.hpState = 0) (ho : LinkOfferOk o = true) :
    exec (.portLinkBringup (o :: rest)) s = .next (({ s with
      plat := { s.plat with hpState := 1, hpHalf := o.rate == 16, pcieUp := !s.plat.perst && s.plat.pcieClk } }).measure
        3 o.rate (leBytes 8 o.ident.toNat ++ Free.linkParams o.rate)) := by
  unfold exec execPortLinkBringup
  exact when_next (by simp [hup, hstage, hstate]) (by simp [ho])

variable (hlink : s.plat.hpState = 1 ∨ s.hpTrains = true)
include hlink

theorem exec_portLinkRetrain_ok : exec (.portLinkRetrain true) s = .next { s with plat := { s.plat with hpState := 1 } } := by
  unfold exec execPortLinkRetrain
  exact when_next (by simp [hup, hlink]) rfl

/-- The third failure within 10 ms severs the link (R292). -/
theorem exec_portLinkRetrain_third {a b : Nat} (hfails : s.plat.hpFails = [a, b]) (ha : s.now < a + 10000000) (hb : s.now < b + 10000000) :
    exec (.portLinkRetrain false) s
      = .next ((({ s with plat := { s.plat with hpState := 3, hpFails := [], pcieUp := false } }).answerAll
          (fun r => decide (0x10000000000 ≤ r.pa / 128)) .host).logEv 0x000B 4 3 [16, 0]) := by
  unfold exec execPortLinkRetrain
  exact when_next (by simp [hup, hlink]) (by simp [hfails, ha, hb])

end

/-! The host path. -/

section
variable {s : State}

theorem exec_cacheEnableSet (hreach : s.reach .h = true) (hen : s.plat.cacheEn = false) (hoff : s.plat.cacheOff = false) :
    exec .cacheEnableSet s = .next { s with plat := { s.plat with cacheEn := true } } := by
  unfold exec execCacheEnableSet
  exact when_next (by simp [hreach, hen]) (by simp [hoff])

theorem exec_cacheEnableClear (hruns : s.runs = true) (hen : s.plat.cacheEn = true) :
    exec .cacheEnableClear s = .next (({ s.emptyHost.goSnoops with plat := { s.emptyHost.goSnoops.plat with cacheEn := false, cacheOff := true } }).logEv
      0x0016 4 1 [0, s.dirtyHost]) := by
  unfold exec execCacheEnableClear
  exact when_next (by simp [hruns, hen]) rfl

/-! Memory bring-up. -/

@[simp] theorem State.trainGroup_cairn (s : State) (outs : List ChanOutcome) (die g : Nat) : (s.trainGroup outs die g).cairn = s.cairn := by
  unfold State.trainGroup
  dsimp only
  rw [foldl_fixes State.cairn _ fun t k => by simp]

/-- A bring-up that no CONFIG_COMMIT waits for trains the channel groups and leaves memory holding zeros (R274). -/
theorem exec_memoryBringupEnd (os : List ChanOutcome) (hup : s.up = true) (hstage : s.plat.stage = 1) (hmem : s.plat.memUp = false)
    (hwait : s.cairn.commitWait = none) : ∃ t, exec (.memoryBringupEnd os) s = .next t ∧ t.dram = {} ∧ t.plat.memUp = true := by
  unfold exec execMemoryBringupEnd
  refine ⟨_, when_next (by simp [hup, hstage, hmem]) rfl, ?_⟩
  have hcairn : ((List.range 16).foldl (fun (t : State) i => t.trainGroup os (i / 4) (i % 4)) s).cairn = s.cairn :=
    foldl_fixes State.cairn _ (fun t i => t.trainGroup_cairn os _ _) _ _
  simp [hcairn, hwait]

/-! Cairn's own events. -/

theorem exec_lockstepMismatch_first (hon : s.on = true) (htimes : s.cairn.mismTimes = []) : exec .lockstepMismatch s
    = .next (({ s with cairn := { s.cairn with restarting := true, mism := satAdd 15 s.cairn.mism 1, mismTimes := [s.now] } }).logEv
      0x0012 4 1 [satAdd 15 s.cairn.mism 1]) := by
  unfold exec execLockstepMismatch
  exact when_next hon (by simp [htimes])

theorem exec_cairnRestartComplete_idle (hon : s.on = true) (hrestart : s.cairn.restarting = true) (hwait : s.cairn.waiting = none) :
    exec .cairnRestartComplete s = .next { s with cairn := { s.cairn with restarting := false } } := by
  unfold exec execCairnRestartComplete
  exact when_next (by simp [hon, hrestart]) (by simp [hwait])

theorem exec_challengeExpiry {c : Challenge} (hon : s.on = true) (hc : s.cairn.challenge = some c) (hdue : s.plat.stage < 2 ∨ c.until_ ≤ s.now) :
    exec .challengeExpiry s = .next { s with cairn := { s.cairn with challenge := none } } := by
  unfold exec execChallengeExpiry
  exact when_next (by simp [hon, hc, State.due_of_le hdue]) rfl

end

end Sys2Proof.Machine
end

section
/-! The obligations about pins and clocks, the host link, Cache_Enable, memory bring-up and Cairn's own events. -/

namespace Sys2Proof.Machine

/-- Settles O1, pin by pin: each command where its condition holds. A cold reset keeps the levels the board drives by the model's reading
(log entry 5). -/
theorem pinsAndClocksComplete : Obligations.PinsAndClocksComplete := by
  unfold Obligations.PinsAndClocksComplete
  refine ⟨fun s straps => exec_pwrGoodAssert straps, fun s ns hon hns => ?_, fun s ns hns => ?_, coldReset_keeps_and_loses, fun s => ?_,
    fun s hon => ?_, fun s => exec_refclkCoreLoss, fun s => exec_refclkPcieLoss, fun s => exec_refclkPcieReturn, fun s => exec_perstNAssert,
    fun s => exec_perstNDeassert, fun s hreach hs hc => ?_⟩
  · unfold exec execPwrGoodLoss
    exact when_next (by simp [hon, hns]) rfl
  · exact when_of_false (by simp [hns]) _ s
  · unfold exec execVddCairnLoss
    exact ⟨_, when_next rfl rfl, rfl, rfl, rfl⟩
  · unfold exec execThermTrip
    exact when_next hon rfl
  · unfold exec execFunctionLevelReset
    exact when_next hreach (State.windowReset_of_no_session hs hc)

/-- Settles O2, event by event: each command where its condition holds. Before the commit, where domain time stands still, a challenge may
expire at any moment by the model's reading (log entry 42). -/
theorem linksAndCairnComplete : Obligations.LinksAndCairnComplete := by
  unfold Obligations.LinksAndCairnComplete
  exact ⟨fun s o rest hup hstage hstate ho => ⟨_, exec_portLinkBringup hup hstage hstate ho, rfl, rfl, rfl⟩, fun s => exec_portLinkRetrain_ok,
    fun s a b hup hlink => exec_portLinkRetrain_third hup hlink, fun s => exec_cacheEnableSet, fun s => exec_cacheEnableClear, fun s os => exec_memoryBringupEnd os,
    fun s hon htimes => ⟨_, exec_lockstepMismatch_first hon htimes, rfl⟩, fun s => exec_cairnRestartComplete_idle,
    fun s c => exec_challengeExpiry⟩

end Sys2Proof.Machine
end

section
/-! SUPPORT. The own parts of the image and configuration commands (R346, R363 to R367). -/

namespace Sys2Proof.Machine

/-! What an accepted packet leaves of the parts that these commands read. -/

section
variable (s : State) (op : Nat) (p : Port) (k : Packet)

@[simp] theorem State.began_powerCeil : (s.began op p k).powerCeil = s.powerCeil := by cases p <;> rfl
@[simp] theorem State.began_keyVal (key : Nat) : (s.began op p k).keyVal key = s.keyVal key := by cases p <;> rfl
@[simp] theorem State.began_failedChans (die g : Nat) : (s.began op p k).failedChans die g = s.failedChans die g := by cases p <;> rfl
@[simp] theorem State.began_inconsistent : (s.began op p k).inconsistent = s.inconsistent := by cases p <;> rfl

end

/-! The firmware image. -/

section
variable {s : State} {p : Port} {k : Packet}

theorem exec_imageBegin (haccepts : s.accepts 0x0101 p k = true) (hstage : s.plat.stage = 0) (hsession : s.cairn.session = none)
    (hmax : byteFld (pktData k) 0 4 ≤ 67108864) (hmin : 4096 ≤ byteFld (pktData k) 0 4) (hmod : byteFld (pktData k) 0 4 % 16 = 0) :
    exec (.imageBegin p k) s = .next (({ (s.began 0x0101 p k).dropImage with
      cairn := { s.cairn with session := some (p, byteFld (pktData k) 0 4, 0) } }).finish p 0 []) :=
  congrArg Host.Outcome.next (State.ebior_replies haccepts (by
    simp [doImageBegin, State.dropImage, hstage, hsession, Nat.not_lt.2 hmax, Nat.not_lt.2 hmin, hmod]))

theorem exec_imageData {len got : Nat} (haccepts : s.accepts 0x0102 p k = true) (hsession : s.cairn.session = some (p, len, got))
    (hoff : byteFld (pktData k) 0 4 = got) (hfits : got + ((pktData k).drop 4).length ≤ len) :
    exec (.imageData p k) s = .next (({ s.began 0x0102 p k with
      cairn := { s.cairn with session := some (p, len, got + ((pktData k).drop 4).length) }
      landing := alMod {} s.landing 0 (fun st => st.writeBytes (imageBase + got) ((pktData k).drop 4)) }).finish p 0 []) :=
  congrArg Host.Outcome.next (State.ebior_replies haccepts (by
    rw [doImageData, State.began_cairn, hsession]
    dsimp only
    rw [if_neg (not_not.2 rfl), if_neg (not_not.2 hoff), if_neg (Nat.not_lt.2 hfits), State.began_landing]))

/-- What the checks of R364 come to for an image in order, of a slot not revoked, whose key is the fused one: its signature. -/
theorem imgCheck_of_keyed {f : Fuses} {img : List Byte} {len : Nat} (hok : imgOk img len = true)
    (hrevoked : bitOf f.revoked.toNat (byteFld img 7 1) = false)
    (hkey : nth none f.keyHash (byteFld img 7 1) = some (shake 32 ((img.drop 256).take 1952))) :
    imgCheck f img len
      = if Free.mldsaVerify ((img.drop 256).take 1952) (imgDigest img) ((img.drop (byteFld img 20 4)).take 3309) then none else some 0x0101 := by
  simp only [imgCheck, hok, hrevoked, hkey, ne_eq, not_true, Bool.not_true, Bool.false_eq_true, if_false]
  split <;> simp_all

theorem exec_imageEnd {len got : Nat} {img : List Byte} (haccepts : s.accepts 0x0103 p k = true) (hsession : s.cairn.session = some (p, len, got))
    (hwhole : len ≤ got) (himg : img = (alGet {} s.landing 0).readBytes imageBase len) (hok : imgOk img len = true)
    (hrevoked : bitOf s.fuses.revoked.toNat (byteFld img 7 1) = false)
    (hkey : nth none s.fuses.keyHash (byteFld img 7 1) = some (shake 32 ((img.drop 256).take 1952))) :
    exec (.imageEnd p k) s = .next (
      if Free.mldsaVerify ((img.drop 256).take 1952) (imgDigest img) ((img.drop (byteFld img 20 4)).take 3309) then
        (({ s.began 0x0103 p k with
            fuses := { s.fuses with revoked := s.fuses.revoked ||| BitVec.ofNat 4 (imgRevoke img) }
            cairn := { s.cairn with session := none, keyslot := byteFld img 7 1, fwVersion := byteFld img 8 8 }
            plat := { s.plat with stage := 1 }
            jtag := {} }).measure 2 (byteFld img 7 1) (imgDigest img)).finish p 0 (leBytes 1 (byteFld img 7 1))
      else (s.began 0x0103 p k).dropImage.finish p 0x0101 []) := by
  have hcheck := imgCheck_of_keyed hok hrevoked hkey
  split
  · next hv =>
    rw [if_pos hv] at hcheck
    exact congrArg Host.Outcome.next (State.ebior_replies haccepts (by simp [doImageEnd, hsession, Nat.not_lt.2 hwhole, ← himg, hcheck]))
  · next hv =>
    rw [if_neg hv] at hcheck
    exact congrArg Host.Outcome.next (State.ebior_replies haccepts (by simp [doImageEnd, hsession, Nat.not_lt.2 hwhole, ← himg, hcheck]))

/-! The configuration. -/

theorem exec_configWrite {c : Config} {rt : Sparse W64} {m : Nat} (haccepts : s.accepts 0x0201 p k = true) (hsession : s.cairn.cfgSession.getD p = p)
    (hentries : applyEntries k.plen (pktData k) s.cfg s.rdgRoute s.powerCeil 0 = .ok (c, rt, m)) :
    exec (.configWrite p k) s = .next (({ s.began 0x0201 p k with
      cfg := c, rdgRoute := rt, cairn := { s.cairn with cfgSession := some p } }).finish p 0 (leBytes 2 m)) :=
  congrArg Host.Outcome.next (State.ebior_replies haccepts (by simp [doConfigWrite, hsession, hentries]))

theorem exec_configRead {v : List Byte} (haccepts : s.accepts 0x0202 p k = true) (hkey : byteFld (pktData k) 0 2 ≠ 3)
    (hval : s.keyVal (byteFld (pktData k) 0 2) = some v) : exec (.configRead p k) s = .next ((s.began 0x0202 p k).finish p 0 v) :=
  congrArg Host.Outcome.next (State.ebior_replies haccepts (by simp [doConfigRead, hkey, hval]))

end

section
variable {s : State} (hchans : (List.range 16).all (fun i => decide (s.failedChans (i / 4) (i % 4) < 2)) = true)
include hchans

/-- No group has two failed channels. -/
theorem State.failedChans_lt {i : Nat} (hi : i < 16) : s.failedChans (i / 4) (i % 4) < 2 := by
  simp only [List.all_eq_true, List.mem_range, decide_eq_true_eq] at hchans
  exact hchans i hi

theorem State.logFailedGroups_of_none : s.logFailedGroups = s := by
  unfold State.logFailedGroups
  rw [List.filter_eq_nil_iff.2 fun i hi => by simpa using State.failedChans_lt hchans (List.mem_range.1 hi)]
  rfl

/-- The steps of R367 after memory is up commit a consistent configuration. -/
theorem commitSteps_commits (hcons : s.inconsistent = none) (hen : s.plat.cacheEn = true) (bad : List (Nat × Nat × Nat)) :
    commitSteps bad s = (0, [], s.commit bad) := by
  have hfailed : (List.range 16).any (fun i => decide (2 ≤ s.failedChans (i / 4) (i % 4))) = false :=
    List.any_eq_false.2 fun i hi => by simpa using State.failedChans_lt hchans (List.mem_range.1 hi)
  simp [commitSteps, hfailed, State.logFailedGroups_of_none hchans, hcons, hen]

end

theorem exec_configCommit {s : State} {p : Port} {k : Packet} (bad : List (Nat × Nat × Nat)) (haccepts : s.accepts 0x0203 p k = true)
    (hsession : s.cairn.cfgSession.getD p = p) (hkeys : requiredKeys.all (fun key => !((s.keyVal key).getD []).isEmpty) = true)
    (hmem : s.plat.memUp = true) (hchans : (List.range 16).all (fun i => decide (s.failedChans (i / 4) (i % 4) < 2)) = true)
    (hcons : s.inconsistent = none) (hen : s.plat.cacheEn = true) :
    exec (.configCommit p k bad) s = .next (((s.began 0x0203 p k).commit bad).finish p 0 []) := by
  have hnone : requiredKeys.find? (fun key => ((s.keyVal key).getD []).isEmpty) = none :=
    List.find?_eq_none.2 fun key hkey => by simpa using List.all_eq_true.1 hkeys key hkey
  have hsteps := commitSteps_commits (s := s.began 0x0203 p k) (by simpa using hchans) (by simpa using hcons) (by simpa using hen) bad
  exact congrArg Host.Outcome.next (State.ebior_replies haccepts (by simp [doConfigCommit, hsession, hnone, hmem, hsteps]))

/-- After the commit the package is at STAGE 2, with empty landing stores and no activity (R367). -/
theorem State.commit_stage_landing_acts (s : State) (bad : List (Nat × Nat × Nat)) :
    (s.commit bad).plat.stage = 2 ∧ (s.commit bad).landing = [] ∧ (s.commit bad).acts = [] := by
  unfold State.commit
  dsimp only
  simp only [State.measure_plat, State.measure_landing, State.measure_acts, and_self]

end Sys2Proof.Machine
end

section
/-! The obligation about the image and configuration commands. -/

namespace Sys2Proof.Machine

/-- Settles O6, command by command: what each one's own part does where its checks pass. Signature verification is an opaque constant
(log entry 6). -/
theorem imageAndConfigurationComplete : Obligations.ImageAndConfigurationComplete := by
  unfold Obligations.ImageAndConfigurationComplete
  exact ⟨fun s p k => exec_imageBegin, fun s p k len got => exec_imageData, fun s p k len got img => exec_imageEnd,
    fun s p k c rt m => exec_configWrite, fun s p k v => exec_configRead, fun s p k bad haccepts hsession hkeys hmem hchans hcons hen =>
      ⟨exec_configCommit bad haccepts hsession hkeys hmem hchans hcons hen, State.commit_stage_landing_acts _ _⟩⟩

end Sys2Proof.Machine
end

section
/-! SUPPORT. The own parts of the safety, identity, debug and power-limit commands (chapters 14, 15 and 17). -/

namespace Sys2Proof.Machine

section
variable (s : State) (op : Nat) (p : Port) (k : Packet)

@[simp] theorem State.began_attestReport (nonce : List Byte) : (s.began op p k).attestReport nonce = s.attestReport nonce := by cases p <;> rfl
@[simp] theorem State.began_levelPermitted (level key : Nat) : (s.began op p k).levelPermitted level key = s.levelPermitted level key := by
  cases p <;> rfl

end

/-- A measurement changes nothing of Cairn but its log. -/
theorem Cairn.measure_eq (c : Cairn) (now typ arg : Nat) (value : List Byte) :
    c.measure now typ arg value = { c with log := (c.measure now typ arg value).log } := by
  unfold Cairn.measure
  dsimp only
  split <;> rfl

/-! Safety registers (R407, R408). -/

section
variable {s : State} {p : Port} {k : Packet}

theorem exec_safetyProfile (haccepts : s.accepts 0x0301 p k = true) (htj1 : 106 ≤ byteFld (pktData k) 0 1) (htj2 : byteFld (pktData k) 0 1 ≤ 118)
    (hhbm1 : 96 ≤ byteFld (pktData k) 1 1) (hhbm2 : byteFld (pktData k) 1 1 ≤ 100) (hceil1 : 600 ≤ byteFld (pktData k) 2 2)
    (hceil2 : byteFld (pktData k) 2 2 ≤ 2800) (hcool : byteFld (pktData k) 4 1 ≤ 1) (hsupply : byteFld (pktData k) 5 1 ≤ 1) :
    exec (.safetyProfile p k) s = .next (({ s.began 0x0301 p k with cairn := { s.cairn with pending := some {
      tj := byteFld (pktData k) 0 1, hbm := byteFld (pktData k) 1 1, ceil := byteFld (pktData k) 2 2, cool := byteFld (pktData k) 4 1,
      supply := byteFld (pktData k) 5 1, bytes := pktData k } } }).finish p 0 []) :=
  congrArg Host.Outcome.next (State.ebior_replies haccepts (by
    simp [doSafetyProfile, htj1, htj2, hhbm1, hhbm2, hceil1, hceil2, hcool, hsupply]))

theorem exec_safetyArm {q : Profile} (haccepts : s.accepts 0x0302 p k = true) (hq : s.cairn.pending = some q) :
    exec (.safetyArm p k) s = .next (((s.began 0x0302 p k).seal q).finish p 0 (leBytes 8 ((s.began 0x0302 p k).seal q).safeStatus)) :=
  congrArg Host.Outcome.next (State.ebior_replies haccepts (by simp [doSafetyArm, hq]))

theorem State.seal_safety_stage (q : Profile) :
    (s.seal q).cairn.safety = { tjTrip := q.tj, hbmTrip := q.hbm, ceil := q.ceil, cool := q.cool, supply := q.supply, armed := true }
      ∧ (s.seal q).plat.stage = 3 := by
  unfold State.seal
  dsimp only
  split <;> exact ⟨by simp [State.measure, Cairn.measure_safety], rfl⟩

/-! Identity (R349, R370). -/

theorem exec_queryIdentity (haccepts : s.accepts 0x0401 p k = true) :
    exec (.queryIdentity p k) s = .next ((s.began 0x0401 p k).finish p 0 (leBytes 2 0x4000 ++ leBytes 1 0 ++ leBytes 1 s.plat.stage
      ++ leBytes 4 Free.enterprise ++ dieSetId ++ leBytes 8 (if s.plat.stage = 0 then 0 else s.cairn.fwVersion))) :=
  congrArg Host.Outcome.next (State.ebior_replies haccepts (by rw [doQueryIdentity, State.began_plat, State.began_cairn]))

theorem exec_attest_first (haccepts : s.accepts 0x0402 p k = true) (hlc : s.cairn.lc = 1) (hid : s.cairn.idErased = false)
    (hoff : byteFld (pktData k) 32 4 = 0) : exec (.attest p k) s = .next (({ s.began 0x0402 p k with
      cairn := { s.cairn with report := some (s.attestReport ((pktData k).take 32)) } }).finish p 0
        (reportPart (s.attestReport ((pktData k).take 32)) 0)) :=
  congrArg Host.Outcome.next (State.ebior_replies haccepts (by simp [doAttest, hlc, hid, hoff]))

/-! Debug (R411, R413, R414). -/

theorem exec_debugUnlockChallenge {rand : List Byte} {level key : Nat} (haccepts : s.accepts 0x0A01 p k = true)
    (hphase : byteFld (pktData k) 0 1 = 0) (hlevel : byteFld (pktData k) 1 1 = level) (hkey : byteFld (pktData k) 2 1 = key)
    (hrefc : s.cairn.refc < 16) (hmem : level ∈ [1, 2, 0x10, 0x11, 0x12]) (hle : key ≤ 4) (hperm : s.levelPermitted level key = true)
    (hfused : (s.fuses.keyFor key).isSome = true) :
    exec (.debugUnlockChallenge p k rand) s = .next (({ s.began 0x0A01 p k with cairn := { s.cairn with challenge := some {
      port := p, level := level, key := key, value := padTo 32 rand, pk := none, until_ := s.now + 10000000000 } } }).finish p 0 (padTo 32 rand)) := by
  subst hlevel hkey
  refine congrArg Host.Outcome.next (State.ebior_replies haccepts ?_)
  unfold doDebugUnlock
  simp only [hphase, State.began_cairn, State.began_fuses, State.began_levelPermitted, State.began_now, hperm, hmem, Nat.not_le.2 hrefc,
    Nat.not_lt.2 hle, Option.isNone_eq_false_iff.2 hfused, not_true, or_self, Bool.not_true, Bool.false_eq_true, if_false]

section
variable {c : Challenge} (haccepts : s.accepts 0x0A01 p k = true) (hc : s.cairn.challenge = some c) (hport : c.port = p)
  (hlevel : c.level = byteFld (pktData k) 1 1) (hkey : c.key = byteFld (pktData k) 2 1) (hmem : c.level ∈ [1, 2, 0x10, 0x11, 0x12]) (hle : c.key ≤ 4)
include haccepts hc hport hlevel hkey hmem hle

theorem exec_debugUnlockKey (hphase : byteFld (pktData k) 0 1 = 1) (hpk : c.pk = none)
    (hfused : s.fuses.keyFor c.key = some (shake 32 (((pktData k).drop 4).take 1952))) :
    exec (.debugUnlockKey p k) s = .next (({ s.began 0x0A01 p k with cairn := { s.cairn with challenge := some { c with
      pk := some (((pktData k).drop 4).take 1952) } } }).finish p 0 []) := by
  refine congrArg Host.Outcome.next (State.ebior_replies haccepts ?_)
  unfold doDebugUnlock
  simp only [hphase, State.began_cairn, State.began_fuses, hc, ← hlevel, ← hkey, hport, hmem, Nat.not_lt.2 hle, hpk, hfused, not_true, or_self,
    and_self, if_true, if_false]

theorem exec_debugUnlockSignature {pk : List Byte} (hphase : byteFld (pktData k) 0 1 = 2) (hpk : c.pk = some pk)
    (hpad : byteFld (pktData k) 3313 3 = 0) : exec (.debugUnlockSignature p k) s = .next (
      if Free.mldsaVerify pk (unlockMessage s.cairn.lc c) (((pktData k).drop 4).take 3309) then ((s.began 0x0A01 p k).grantDebug c).finish p 0 []
      else (s.began 0x0A01 p k).refuseUnlock.finish p 0x0A01 []) := by
  have hown (rand : List Byte) : doDebugUnlock rand p k (s.began 0x0A01 p k)
      = if Free.mldsaVerify pk (unlockMessage s.cairn.lc c) (((pktData k).drop 4).take 3309) then .reply 0 [] ((s.began 0x0A01 p k).grantDebug c)
        else .reply 0x0A01 [] (s.began 0x0A01 p k).refuseUnlock := by
    unfold doDebugUnlock
    simp only [hphase, State.began_cairn, hc, ← hlevel, ← hkey, hport, hmem, Nat.not_lt.2 hle, hpk, hpad, not_true, or_self,
      Option.isSome_some, Option.getD_some, true_and, if_false]
  split
  · next hv => exact congrArg Host.Outcome.next (State.ebior_replies haccepts ((hown _).trans (if_pos hv)))
  · next hv => exact congrArg Host.Outcome.next (State.ebior_replies haccepts ((hown _).trans (if_neg hv)))

end

/-- DEBUG_LOCK closes the level and releases what debug held (R414). -/
theorem exec_debugLock (haccepts : s.accepts 0x0A02 p k = true) : ∃ u : State, exec (.debugLock p k) s = .next (u.finish p 0 [])
    ∧ u.cairn.dbg = 0 ∧ u.cairn.dkey = 7 ∧ u.dbgUnit.bk = [] ∧ (∀ e ∈ u.tiles, e.2.halted = false ∧ e.2.stepping = none) := by
  refine ⟨_, congrArg Host.Outcome.next (State.ebior_replies haccepts rfl), ?_⟩
  simp only [State.drawn_cairn, State.drawn_dbgUnit, State.drawn_tiles, State.measure]
  rw [Cairn.measure_eq]
  exact ⟨rfl, rfl, rfl, List.forall_mem_map.2 fun e _ => ⟨rfl, rfl⟩⟩

/-! The power limit (R375). -/

theorem exec_powerLimitSet (haccepts : s.accepts 0x0B01 p k = true) (hmin : 600 ≤ byteFld (pktData k) 0 2)
    (hmax : byteFld (pktData k) 0 2 ≤ s.powerCeil) (hstate : s.power.pstate ≤ 1) :
    exec (.powerLimitSet p k) s = .next { s.began 0x0B01 p k with power := { s.power with
      newLimit := some (byteFld (pktData k) 0 2), supl := false, limitPorts := s.power.limitPorts ++ [p] } } :=
   congrArg Host.Outcome.next (State.ebior_holds haccepts (by
    simp [doPowerLimitSet, Nat.not_lt.2 hmin, Nat.not_lt.2 hmax, hstate]))

end

end Sys2Proof.Machine
end

section
/-! The obligation about the safety, identity, attestation, debug and power-limit commands. -/

namespace Sys2Proof.Machine

/-- Settles O7, command by command: what each one's own part does where its checks pass. ML-DSA, the stepping's identity and the bytes of
DEBUG_LOCK's measurement are opaque constants (log entries 6 and 7). -/
theorem safetyAndDebugCommandsComplete : Obligations.SafetyAndDebugCommandsComplete := by
  unfold Obligations.SafetyAndDebugCommandsComplete
  exact ⟨fun s p k => exec_safetyProfile, fun s p k q haccepts hq => ⟨exec_safetyArm haccepts hq, State.seal_safety_stage q⟩,
    fun s p k => exec_queryIdentity, fun s p k => exec_attest_first,
    fun s p k rand level key haccepts hphase => exec_debugUnlockChallenge haccepts hphase,
    fun s p k c haccepts hphase hc hport hlevel hkey hmem hle => exec_debugUnlockKey haccepts hc hport hlevel hkey hmem hle hphase,
    fun s p k c pk haccepts hphase hc hport hlevel hkey hmem hle => exec_debugUnlockSignature haccepts hc hport hlevel hkey hmem hle hphase,
    fun s p k => exec_debugLock, fun s p k => exec_powerLimitSet⟩

end Sys2Proof.Machine
end

section
/-! SUPPORT. The own parts of the time, telemetry, maintenance-status, stream, Park and Resume commands, and messages on port B. -/

namespace Sys2Proof.Machine

section
variable (s : State) (op : Nat) (p : Port) (k : Packet)

@[simp] theorem State.began_actOf (num : Nat) : (s.began op p k).actOf num = s.actOf num := by cases p <;> rfl
@[simp] theorem State.began_stream (n : Nat) : (s.began op p k).stream n = s.stream n := by cases p <;> rfl
@[simp] theorem State.began_placementOk (slots : List (Option Nat)) (masks : List W64) :
    (s.began op p k).placementOk slots masks = s.placementOk slots masks := by cases p <;> rfl
@[simp] theorem State.began_cooled : (s.began op p k).cooled = s.cooled := by cases p <;> rfl

end

/-! Time and telemetry (R425, R428, R430). -/

section
variable {s : State} {p : Port} {k : Packet}

theorem exec_timeSet_ahead (haccepts : s.accepts 0x0501 p k = true) (hsync : s.time.sync ≤ 1) (hv : s.now < byteFld (pktData k) 0 8) :
    exec (.timeSet p k) s = .next ((({ s.began 0x0501 p k with
      time := { s.time with fine := byteFld (pktData k) 0 8 * 100000, slew := 0 } }).count 5).finish p 0 []) :=
  congrArg Host.Outcome.next (State.ebior_replies haccepts (by simp [doTimeSet, Nat.not_lt.2 hsync, hv, hv.le]))

theorem exec_timeSet_behind (haccepts : s.accepts 0x0501 p k = true) (hsync : s.time.sync ≤ 1) (hv : byteFld (pktData k) 0 8 < s.now) :
    exec (.timeSet p k) s = .next (({ s.began 0x0501 p k with
      time := { s.time with slew := s.time.fine - byteFld (pktData k) 0 8 * 100000 } }).finish p 0 []) :=
  congrArg Host.Outcome.next (State.ebior_replies haccepts (by simp [doTimeSet, Nat.not_lt.2 hsync, Nat.not_le.2 hv]))

theorem exec_timeRead (haccepts : s.accepts 0x0502 p k = true) :
    exec (.timeRead p k) s = .next ((s.began 0x0502 p k).finish p 0 (leBytes 8 s.now ++ leBytes 1 s.time.sync)) :=
  congrArg Host.Outcome.next (State.ebior_replies haccepts (by simp [doTimeRead]))

theorem exec_telemetryRead {first n : Nat} (haccepts : s.accepts 0x0601 p k = true) (hfirst : byteFld (pktData k) 0 2 = first)
    (hn : byteFld (pktData k) 2 2 = n) (h1 : 1 ≤ n) (h127 : n ≤ 127) (hend : first + n ≤ 2048) :
    exec (.telemetryRead p k) s = .next ((s.began 0x0601 p k).finish p 0
      (leBytes 8 s.tally.stamp ++ ((List.range n).map (fun j => leBytes 8 (s.tally.read (first + j)).toNat)).flatten)) := by
  subst hfirst hn
  refine congrArg Host.Outcome.next (State.ebior_replies haccepts ?_)
  rw [doTelemetryRead, State.began_tally]
  rw [if_neg (by omega), if_neg (Nat.not_lt.2 hend)]

/-! Maintenance status and MAINT_ABORT (R433, R436). -/

theorem exec_maintStatus (haccepts : s.accepts 0x0702 p k = true) :
    exec (.maintStatus p k) s = .next ((s.began 0x0702 p k).finish p 0 (s.acts.flatMap Act.bytes)) :=
  congrArg Host.Outcome.next (State.ebior_replies haccepts (by rw [State.began_acts]))

theorem exec_maintAbort_begun {a : Act} (haccepts : s.accepts 0x0703 p k = true) (ha : s.actOf (byteFld (pktData k) 0 2) = some a)
    (hcode : abortable a.code = true) (hbegun : a.begun = true) :
    exec (.maintAbort p k) s = .next (((s.began 0x0703 p k).setAct { a with aborting := true }).finish p 0 []) :=
  congrArg Host.Outcome.next (State.ebior_replies haccepts (by simp [doMaintAbort, ha, hcode, hbegun]))

/-! Streams (R350, R357 to R359). -/

theorem exec_streamOpen {n cls space srsz first sring : Nat} (haccepts : s.accepts 0x0901 p k = true)
    (hn : byteFld (pktData k) 0 1 = n) (hn63 : n ≤ 63) (hcls : byteFld (pktData k) 1 1 = cls) (hcls1 : cls ≤ 1)
    (hspace : byteFld (pktData k) 2 1 = space) (hspace15 : space ≤ 15) (hsrsz : byteFld (pktData k) 3 1 = srsz) (hsrsz4 : 4 ≤ srsz)
    (hsrsz12 : srsz ≤ 12) (hfirst : byteFld (pktData k) 4 8 = first) (hfirst64 : first % 64 = 0) (hfirst52 : first < 2 ^ 52)
    (hsring : byteFld (pktData k) 12 8 = sring) (hsring32 : sring % 32 = 0) (hsring52 : sring < 2 ^ 52) (hclosed : (s.stream n).state = 0)
    (hheld : (s.stream n).heldBy p = false) (hplace : s.placementOk (parseSlots (pktData k) 24).1 (parseSlots (pktData k) 24).2 = true)
    (hwins : winsOk (parseWins (pktData k) 60) = true) :
    exec (.streamOpen p k) s = .next (((s.began 0x0901 p k).setStream n {
      state := 1, cls := cls, space := space, srsz := srsz, sring := sring, next := first, slots := (parseSlots (pktData k) 24).1,
      masks := (parseSlots (pktData k) 24).2, wins := parseWins (pktData k) 60 }).finish p 0 []) := by
  subst hn hcls hspace hsrsz hfirst hsring
  refine congrArg Host.Outcome.next (State.ebior_replies haccepts ?_)
  rw [doStreamOpen]
  rw [if_neg (by omega)]
  simp [hclosed, hheld, hplace, hwins]

theorem exec_streamClose {n : Nat} (haccepts : s.accepts 0x0902 p k = true) (hn : byteFld (pktData k) 0 1 = n) (hn63 : n ≤ 63)
    (hopen : (s.stream n).state ≠ 0) (hheld : (s.stream n).heldBy p = false) :
    exec (.streamClose p k) s = .next ((s.began 0x0902 p k).setStream n { s.stream n with state := 5, drain := some {
      migrate := false, port := p, stopped := (s.stream n).err, slots := (s.stream n).slots, masks := (s.stream n).masks, wins := none,
      until_ := s.now + 1000000 * byteFld (pktData k) 4 4 } }) := by
  subst hn
  exact congrArg Host.Outcome.next (State.ebior_holds haccepts (by simp [doStreamClose, Nat.not_lt.2 hn63, hopen, hheld]))

theorem exec_streamMigrate {n : Nat} (haccepts : s.accepts 0x0903 p k = true) (hn : byteFld (pktData k) 0 1 = n) (hn63 : n ≤ 63)
    (hopen : (s.stream n).state ≠ 0) (hheld : (s.stream n).heldBy p = false)
    (hplace : s.placementOk (parseSlots (pktData k) 8).1 (parseSlots (pktData k) 8).2 = true)
    (hwins : winsOk (if bitOf (byteFld (pktData k) 1 1) 0 then parseWins (pktData k) 44 else []) = true) :
    exec (.streamMigrate p k) s = .next ((s.began 0x0903 p k).setStream n { s.stream n with state := 5, drain := some {
      migrate := true, port := p, stopped := (s.stream n).err, slots := (parseSlots (pktData k) 8).1, masks := (parseSlots (pktData k) 8).2,
      wins := if bitOf (byteFld (pktData k) 1 1) 0 then some (parseWins (pktData k) 44) else none
      until_ := s.now + 1000000 * byteFld (pktData k) 4 4 } }) := by
  subst hn
  have hget : (if bitOf (byteFld (pktData k) 1 1) 0 then some (parseWins (pktData k) 44) else none).getD []
      = if bitOf (byteFld (pktData k) 1 1) 0 then parseWins (pktData k) 44 else [] := by split <;> rfl
  exact congrArg Host.Outcome.next (State.ebior_holds haccepts (by
    simp [doStreamMigrate, Nat.not_lt.2 hn63, hopen, hheld, hplace, hget, hwins]))

/-! Park and Resume (R350, R402). -/

theorem exec_packagePark (haccepts : s.accepts 0x0802 p k = true) (hstate : s.power.pstate ≤ 1) (hpark : s.power.parking = none)
    (h1 : 1 ≤ byteFld (pktData k) 0 4) (h10000 : byteFld (pktData k) 0 4 ≤ 10000) (hacts : s.acts = []) :
    exec (.packagePark p k) s = .next { s.began 0x0802 p k with power := { s.power with
      parking := some p, parkUntil := s.now + 1000000 * byteFld (pktData k) 0 4 } } := by
  refine congrArg Host.Outcome.next (State.ebior_holds haccepts ?_)
  rw [doPackagePark]
  dsimp only
  rw [if_neg (by rw [State.began_power, hpark]; simp; omega), if_neg (by omega), if_neg (by rw [State.began_power]; omega)]
  simp [hacts]

section
variable (haccepts : s.accepts 0x0803 p k = true) (hidle : s.power.resuming = none)
include haccepts hidle

theorem exec_resume_park (hstate : s.power.pstate = 2) :
    exec (.resume p k) s = .next { s.began 0x0803 p k with power := { s.power with resuming := some p } } :=
  congrArg Host.Outcome.next (State.ebior_holds haccepts (by simp [doResume, hidle, hstate]))

/-- Once R402 allows it, RESUME from Halt is accepted. -/
theorem exec_resume_halt (hstate : s.power.pstate = 3) (hmism : s.power.mismHalt = false)
    (hcause : ¬ (s.power.lasth = 1 ∧ s.cairn.coolantAction = 1)) (hcoolant : s.plat.coolant = true)
    (hsince : s.power.coolSince + 2000000000 ≤ s.now) (hcooled : s.power.lasth = 2 ∨ s.power.lasth = 3 → s.cooled = true) :
    exec (.resume p k) s = .next { s.began 0x0803 p k with power := { s.power with resuming := some p } } := by
  refine congrArg Host.Outcome.next (State.ebior_holds haccepts ?_)
  have hnot : ¬ ((s.power.lasth = 2 ∨ s.power.lasth = 3) ∧ s.cooled = false) := fun ⟨hl, hc⟩ => by simp [hcooled hl] at hc
  simp [doResume, hidle, hstate, hmism, hcause, hcoolant, Nat.not_lt.2 hsince, hnot]

end

end

/-! Messages on port B (R345). -/

/-- An opcode that Table 14.4 does not list is unsupported once its CRC is right. -/
theorem ebCheck_of_unlisted {op : Nat} {k : Packet} (hcrc : k.crc.toNat = pktCrc k op) (hlist : ebPorts op = none) (p : Port) (stage : Nat) :
    ebCheck op p k stage = some 2 := by
  simp [ebCheck, hcrc, hlist]

section
variable {s : State} {k : Packet} (hon : s.on = true)
include hon

theorem exec_portBMessage_ignored (h : s.portB.busy = true ∨ s.cairn.restarting = true) (op : Nat) (v : Bool) :
    exec (.portBMessage op v k) s = .next (s.count (svc 12)) := by
  unfold exec execPortBMessage
  exact when_next hon (if_pos (by simpa using h))

section
variable (hfree : s.portB.busy = false) (hrun : s.cairn.restarting = false)
include hfree hrun

theorem exec_portBMessage (op : Nat) : exec (.portBMessage op true k) s = .next (s.drawn.ebior op .b k (ownPart op .b k s)) := by
  unfold exec execPortBMessage
  exact when_next hon (by simp [hfree, hrun])

theorem exec_portBMessage_foreign (op : Nat) : exec (.portBMessage op false k) s = .next s := by
  unfold exec execPortBMessage
  exact when_next hon (by simp [hfree, hrun])

/-- A MAINT_START on port B is the command of its activity code. -/
theorem exec_portBMessage_maint {code : Nat} (hcode : byteFld (pktData k) 0 1 = code) :
    exec (.portBMessage 0x0701 true k) s = .next (s.drawn.maintStart code .b k) := by
  rw [exec_portBMessage hon hfree hrun, State.maintStart]
  rw [if_neg fun h => h.2.2 hcode]
  rfl

theorem exec_portBMessage_unlisted {op : Nat} (hreach : s.reach .b = true) (hcrc : k.crc.toNat = pktCrc k op) (hlist : ebPorts op = none) :
    exec (.portBMessage op true k) s = .next ((s.drawn.began op .b k).finish .b 2 []) := by
  rw [exec_portBMessage hon hfree hrun]
  exact congrArg Host.Outcome.next (State.ebior_refused (s := s.drawn) _ hreach hfree hrun (ebCheck_of_unlisted hcrc hlist _ _))

end

end

end Sys2Proof.Machine
end

section
/-! The obligations about the time, telemetry, event-log, maintenance-status, stream, Park and Resume commands and port B. -/

namespace Sys2Proof.Machine

/-- Settles O8, command by command: what each one's own part does where its checks pass. -/
theorem timeLogAndMaintenanceCommandsComplete : Obligations.TimeLogAndMaintenanceCommandsComplete := by
  unfold Obligations.TimeLogAndMaintenanceCommandsComplete
  exact ⟨fun s p k => exec_timeSet_ahead, fun s p k => exec_timeSet_behind, fun s p k => exec_timeRead, fun s p k first n => exec_telemetryRead,
    fun s p k => exec_eventLogRead_held, fun s p k => exec_eventLogRead_overwritten, fun s p k => exec_maintStatus,
    fun s p k a => exec_maintAbort_begun⟩

/-- Settles O9, command by command: what each one's own part does where its checks pass, and a message on port B as the packet it is there.
The free values drawn for what a message does not carry are the model's reading (log entry 44). -/
theorem streamAndParkCommandsComplete : Obligations.StreamAndParkCommandsComplete := by
  unfold Obligations.StreamAndParkCommandsComplete
  refine ⟨fun s p k n cls space srsz first sring => exec_streamOpen, fun s p k n => exec_streamClose, fun s p k n => exec_streamMigrate,
    fun s p k => exec_packagePark, fun s p k => exec_resume_park, fun s p k => exec_resume_halt, fun s k hon hfree hrun => ?_,
    fun s op v k hon h => exec_portBMessage_ignored hon h op v⟩
  have hmsg := exec_portBMessage (k := k) hon hfree hrun
  have hmaint (code : Nat) := exec_portBMessage_maint (k := k) (code := code) hon hfree hrun
  exact ⟨hmsg _, hmsg _, hmsg _, hmsg _, hmsg _, hmsg _, hmsg _, hmsg _, hmsg _, hmsg _, hmsg _, hmsg _, hmsg _, hmsg _,
    hmaint 1, hmaint 2, hmaint 3, hmaint 4, hmaint 5, hmaint 6, hmaint 7, hmaint 8, hmaint 9,
    hmsg _, hmsg _, hmsg _, hmsg _, hmsg _, hmsg _, hmsg _, hmsg _, hmsg _, hmsg _, hmsg _,
    fun op => exec_portBMessage_unlisted hon hfree hrun, exec_portBMessage_foreign hon hfree hrun⟩

end Sys2Proof.Machine
end

section
/-! SUPPORT. Firebreak's samples, voltage steps, budget exchanges and grants (chapter 16). -/

namespace Sys2Proof.Machine

/-! States that differ in the controllers and in Tally alone. -/

def State.SameButRates (s t : State) : Prop := t = { s with fb := t.fb, tally := t.tally }

theorem State.SameButRates.trans {s t u : State} (h1 : s.SameButRates t) (h2 : t.SameButRates u) : s.SameButRates u :=
  Eq.trans h2 (by rw [h1])

theorem State.sameButRates_setDie (s : State) (n : Nat) (d : DieFb) : s.SameButRates (s.setDie n d) := rfl
theorem State.sameButRates_tally (s : State) (a : Tally) : s.SameButRates { s with tally := a } := rfl
theorem State.die_with_tally (s : State) (a : Tally) (n : Nat) : ({ s with tally := a } : State).die n = s.die n := rfl

theorem State.die_with_power (s : State) (w : PowerSt) (n : Nat) : ({ s with power := w } : State).die n = s.die n := rfl
theorem State.port_with_power (s : State) (w : PowerSt) (p : Port) : ({ s with power := w } : State).port p = s.port p := by cases p <;> rfl

theorem State.count_eq (s : State) (k n : Nat) : s.count k n = { s with tally := (s.count k n).tally } := by
  unfold State.count
  split <;> rfl

theorem State.sameButRates_count (s : State) (k n : Nat) : s.SameButRates (s.count k n) := by
  unfold State.SameButRates
  rw [State.count_fb]
  exact s.count_eq k n

@[simp] theorem State.count_sigs (s : State) (k n : Nat) : (s.count k n).tally.sigs = s.tally.sigs := by
  unfold State.count Tally.bump
  split <;> rfl

/-! Samples and the voltage (R373, R378, R382, R384). -/

/-- The counts of a signature sample taken into Tally. -/
def State.sampleCounts (s : State) (die : Nat) (counts : List Nat) : State :=
  (List.range 16).foldl (fun t j => t.count (dieAct die j) (nth 0 counts j)) s

/-- The controller after a signature sample, before its decision. -/
def DieFb.sampled (d : DieFb) (p : Nat) (x : SigSample) : DieFb :=
  { (d.learn (signature x.counts) p (workRate x.counts)).regate p with pwr := p, boost := decide (x.requests * 5 < x.refusals * 100), explore := false }

/-- The state in which the decision of a signature sample is taken, but for the count of boosted samples. -/
def State.sampleTaken (s : State) (die : Nat) (x : SigSample) : State :=
  let u := ((s.setDie die ((s.die die).sampled (s.tally.diePower die) x)).count (dieAct die 18)
    ((s.die die).gated * 100 * opMHz (s.die die).op / 8)).sampleCounts die x.counts
  { u with tally := { u.tally with sigs := alPut u.tally.sigs die (signature x.counts) } }

/-- The state in which the decision of a signature sample is taken. -/
def State.sampled (s : State) (die : Nat) (x : SigSample) : State :=
  if decide (x.requests * 5 < x.refusals * 100) then (s.sampleTaken die x).count (dieAct die 22) else s.sampleTaken die x

section
variable (s : State) (die : Nat) (x : SigSample)

theorem State.sameButRates_sampleCounts (counts : List Nat) : s.SameButRates (s.sampleCounts die counts) :=
  foldl_holds (p := s.SameButRates) (fun w _ hw => hw.trans (w.sameButRates_count _ _)) _ rfl

@[simp] theorem State.sampleCounts_die (counts : List Nat) (n : Nat) : (s.sampleCounts die counts).die n = s.die n :=
  foldl_fixes (State.die · n) _ (fun w _ => w.count_die _ _ _) _ _

theorem State.sameButRates_sampleTaken : s.SameButRates (s.sampleTaken die x) :=
  (((s.sameButRates_setDie die _).trans (State.sameButRates_count _ _ _)).trans (State.sameButRates_sampleCounts _ _ _)).trans
    (State.sameButRates_tally _ _)

theorem State.sampleTaken_die : (s.sampleTaken die x).die die = (s.die die).sampled (s.tally.diePower die) x := by
  rw [State.sampleTaken, State.die_with_tally, State.sampleCounts_die, State.count_die, State.setDie_die_self]

theorem State.sampleTaken_sigs : alGet 0 (s.sampleTaken die x).tally.sigs die = signature x.counts := by simp [State.sampleTaken]

theorem State.sameButRates_sampled : s.SameButRates (s.sampled die x) := by
  unfold State.sampled
  split
  · exact (s.sameButRates_sampleTaken die x).trans (State.sameButRates_count _ _ _)
  · exact s.sameButRates_sampleTaken die x

theorem State.sampled_die : (s.sampled die x).die die = (s.die die).sampled (s.tally.diePower die) x := by
  unfold State.sampled
  split
  · rw [State.count_die, s.sampleTaken_die]
  · exact s.sampleTaken_die die x

theorem State.sampled_sigs : alGet 0 (s.sampled die x).tally.sigs die = signature x.counts := by
  unfold State.sampled
  split
  · rw [State.count_sigs, s.sampleTaken_sigs]
  · exact s.sampleTaken_sigs die x

end

section
variable {s : State} {die : Nat} (hserves : s.serves = true) (hlive : s.dieLive die = true)
include hserves hlive

theorem exec_signatureSample (x : SigSample) : exec (.signatureSample die x) s = .next ((s.sampled die x).decideOp die) := by
  unfold exec execSignatureSample
  refine when_next (by simp [hserves, hlive]) ?_
  simp only [State.sampled, State.sampleTaken, State.sampleCounts, DieFb.sampled]

theorem exec_voltageStep_up (hwarn : s.power.warn = false) (hmv : (s.die die).mv < s.wantMv die) (hrail : s.tally.railMax.contains die = false) :
    exec (.voltageStep die) s = .next (s.setDie die { s.die die with mv := (s.die die).mv + 5 }) := by
  unfold exec execVoltageStep
  refine when_next (by simp [hserves, hlive, hwarn]) ?_
  dsimp only
  rw [if_pos hmv, if_neg (by rw [hrail]; exact Bool.false_ne_true)]

theorem exec_voltageStep_down (hwarn : s.power.warn = false) (hmv : s.wantMv die < (s.die die).mv) (hop : opMv (s.die die).op < (s.die die).mv) :
    exec (.voltageStep die) s = .next (s.setDie die { s.die die with mv := (s.die die).mv - 5 }) := by
  unfold exec execVoltageStep
  refine when_next (by simp [hserves, hlive, hwarn]) ?_
  dsimp only
  rw [if_neg hmv.le.not_gt, if_pos ⟨hmv, hop⟩]

theorem exec_voltageReported (mv : Nat) (hwarn : s.power.warn = false) (hstate : s.power.pstate = 0) :
    exec (.voltageReported die mv) s = .next ((s.setDie die { s.die die with rep := mv }).moveClock die) := by
  unfold exec execVoltageReported
  exact when_next (by simp [hserves, hlive]) (by simp [hwarn, hstate])

/-! Grants (R377, R378). -/

theorem exec_grantReceive_lower {g : Nat} (hg : (s.die die).grant = some g) (hle : g ≤ (s.die die).budget) : exec (.grantReceive die) s = .next
    ((s.setDie die { s.die die with budget := g, grant := none, raise := none, lastGrant := s.now }).decideOp die) := by
  unfold exec execGrantReceive
  exact when_next (by simp [hserves, hlive, hg]) (by simp [hg, hle])

theorem exec_grantReceive_higher {g : Nat} (hg : (s.die die).grant = some g) (hlt : (s.die die).budget < g) : exec (.grantReceive die) s = .next
    (s.setDie die { s.die die with grant := none, raise := some g, raiseAt := s.power.exchanged + 50000, lastGrant := s.now }) := by
  unfold exec execGrantReceive
  exact when_next (by simp [hserves, hlive, hg]) (by simp [hg, Nat.not_le.2 hlt])

theorem exec_grantRaiseEffect {g : Nat} (hg : (s.die die).raise = some g) (hdue : s.plat.stage < 2 ∨ (s.die die).raiseAt ≤ s.now) :
    exec (.grantRaiseEffect die) s = .next ((s.setDie die { s.die die with budget := g, raise := none }).decideOp die) := by
  unfold exec execGrantRaiseEffect
  exact when_next (by simp [hserves, hlive, hg, State.due_of_le hdue]) (by simp [hg])

theorem exec_grantTimeout (h : (s.die die).lastGrant + 200000 ≤ s.now) :
    exec (.grantTimeout die) s = .next (s.setDie die { s.die die with budget := (s.die die).floor, raise := none }) := by
  unfold exec execGrantTimeout
  exact when_next (by simp [hserves, hlive, h]) rfl

end

theorem exec_explorationSample {s : State} {die k : Nat} {e : Phase} (hdecides : s.decides die = true) (hentry : (s.die die).entry = some k)
    (hphase : alFind (s.die die).phase k = some e) (hpos : 0 < (s.die die).choice (some (s.die die).budget) (s.ceiling die))
    (hobs : nth 0 e.obs ((s.die die).choice (some (s.die die).budget) (s.ceiling die) - 1) = 0) (htime : (s.die die).explored + 10000000 ≤ s.now)
    (hup : max (s.die die).request (s.die die).hintMin < (s.die die).choice (some (s.die die).budget) (s.ceiling die))
    (hboost : (s.die die).boost = false) :
    exec (.explorationSample die) s = .next ((s.setDie die { s.die die with explore := true, explored := s.now }).decideOp die) := by
  unfold exec execExplorationSample
  have hphase' : (s.die die).entry.bind (alFind (s.die die).phase) = some e := by rw [hentry, Option.bind_some, hphase]
  dsimp only
  rw [hphase']
  refine when_next ?_ rfl
  simp only [hdecides, hpos, hobs, htime, hup, hboost, decide_true, Bool.not_false, Bool.and_self]

/-! Budget exchanges (R375, R377). -/

@[simp] theorem State.setDie_port (s : State) (n : Nat) (d : DieFb) (p : Port) : (s.setDie n d).port p = s.port p := by cases p <;> rfl

/-- A port whose window was not reset holds the reply that ends its command. -/
theorem State.finish_reply {s : State} {p : Port} (h : (s.port p).discard = false) (st : Nat) (r : List Byte) :
    ((s.finish p st r).port p).reply = some { status := st, seq := (s.port p).seq, results := r } := by
  unfold State.finish
  dsimp only
  rw [if_neg (by simp [h])]
  cases p with
  | h =>
    dsimp only
    repeat' split
    all_goals rfl
  | b => rfl
  | n => simp [State.port, State.setPort]

/-- Taking up an accepted limit answers the ports that wait for it and changes the power state's limit. -/
theorem State.takeLimit_keeps {β : Type} {s : State} (F : State → β) (hf : ∀ (t : State) p st r, F (t.finish p st r) = F t)
    (hp : ∀ w, F { s with power := w } = F s) : F s.takeLimit = F s := by
  unfold State.takeLimit
  split
  · split
    · rw [foldl_fixes F _ fun t q => hf t q _ _, hp]
    · rfl
  · rfl

theorem State.takeLimit_of_none {s : State} (h : s.power.newLimit = none) : s.takeLimit = s := by
  simp [State.takeLimit, h]

theorem State.takeLimit_of_some {s : State} {l : Nat} (h : s.power.newLimit = some l) (hstate : s.power.pstate ≤ 1) :
    s.takeLimit = s.power.limitPorts.foldl (fun (t : State) q => t.finish q 0 (leBytes 2 l))
      { s with power := { s.power with limit := l, newLimit := none, limitPorts := [] } } := by
  simp [State.takeLimit, h, hstate]

theorem State.markHints_keeps {β : Type} (s : State) (F : State → β) (hf : ∀ (t : State) n d, F (t.setDie n d) = F t) : F s.markHints = F s :=
  foldl_fixes F _ (fun t n => hf t n _) _ _

theorem State.sendGrants_keeps {β : Type} (s : State) (gs : List (Nat × Int)) (F : State → β) (hf : ∀ (t : State) n d, F (t.setDie n d) = F t) :
    F (s.sendGrants gs) = F s :=
  foldl_fixes F _ (fun t (g : Nat × Int) => hf t g.1 _) _ _

theorem State.sendGrants_die_of_not_mem {gs : List (Nat × Int)} {n : Nat} (h : n ∉ gs.map Prod.fst) (s : State) :
    (s.sendGrants gs).die n = s.die n := by
  induction gs generalizing s with
  | nil => rfl
  | cons g gs ih =>
    obtain ⟨hg, hgs⟩ : n ≠ g.1 ∧ n ∉ gs.map Prod.fst := by simpa using h
    exact (ih hgs _).trans (by rw [State.setDie_die, if_neg hg])

theorem State.sendGrants_grant {gs : List (Nat × Int)} {n : Nat} {g : Int} (hnodup : (gs.map Prod.fst).Nodup) (h : (n, g) ∈ gs) (s : State) :
    ((s.sendGrants gs).die n).grant = some g.toNat := by
  induction gs generalizing s with
  | nil => exact absurd h List.not_mem_nil
  | cons x gs ih =>
    obtain ⟨hx, hgs⟩ := List.nodup_cons.1 hnodup
    rcases List.mem_cons.1 h with rfl | hmem
    · exact (congrArg DieFb.grant (State.sendGrants_die_of_not_mem hx _)).trans (by rw [State.setDie_die_self])
    · exact ih hgs hmem _

/-- A fold that appends one grant for each die grants the dies in their order. -/
theorem map_fst_foldl_append {α β γ : Type} (f : List (Nat × α) × β → Nat × γ → List (Nat × α) × β)
    (hf : ∀ acc e, (f acc e).1.map Prod.fst = acc.1.map Prod.fst ++ [e.1]) (l : List (Nat × γ)) (acc : List (Nat × α) × β) :
    (l.foldl f acc).1.map Prod.fst = acc.1.map Prod.fst ++ l.map Prod.fst := by
  induction l generalizing acc with
  | nil => simp
  | cons e l ih => rw [List.foldl_cons, ih, hf, List.map_cons, List.append_assoc, List.singleton_append]

/-- Each live die gets one grant (R377). -/
theorem grants_dies_perm (limit : Nat) (fixed : Int) (reserve now : Nat) (dies : List (Nat × DieFb × Nat)) :
    ((grants limit fixed reserve now dies).map Prod.fst).Perm (dies.map Prod.fst) := by
  unfold grants
  dsimp only
  rw [List.map_append, map_fst_foldl_append _ (fun acc e => by simp), List.map_nil, List.nil_append, List.map_map]
  have h := (List.filter_append_perm (fun e : Nat × DieFb × Nat => e.2.1.hinted now) dies).map Prod.fst
  rwa [List.map_append] at h

theorem State.grantList_dies_perm (s : State) : (s.grantList.map Prod.fst).Perm s.liveDies := by
  have h := grants_dies_perm s.power.limit ((s.power.pwr : Int) - ((s.liveDies.map (fun n => (s.die n).pwr)).foldl (· + ·) 0 : Nat))
    (s.cfg.pacedReserve.getD 0) s.now (s.liveDies.map (fun n => (n, s.die n, s.ceiling n)))
  rwa [List.map_map, show (Prod.fst ∘ fun n => (n, s.die n, s.ceiling n)) = id from rfl, List.map_id] at h

theorem State.grantList_nodup (s : State) : (s.grantList.map Prod.fst).Nodup :=
  s.grantList_dies_perm.nodup_iff.2 (List.nodup_range.filter _)

/-- The state in which the grants of a budget exchange are worked out, and that in which they have been sent. -/
def State.exchangeMarked (s : State) : State := s.takeLimit.markHints
def State.exchangeSent (s : State) : State := s.exchangeMarked.sendGrants s.exchangeMarked.grantList

/-- The state after a budget exchange. -/
def State.exchange (s : State) : State := { s.exchangeSent with power := { s.exchangeSent.power with exchanged := s.now } }

theorem exec_budgetExchange {s : State} (hserves : s.serves = true) (hstate : s.power.pstate ≤ 2) : exec .budgetExchange s = .next s.exchange := by
  unfold exec execBudgetExchange
  refine when_next (by simp [hserves, hstate]) ?_
  simp only [State.exchange, State.exchangeSent, State.exchangeMarked]

section
variable (s : State)

theorem State.exchangeMarked_keeps {β : Type} (F : State → β) (hf : ∀ (t : State) n d, F (t.setDie n d) = F t) : F s.exchangeMarked = F s.takeLimit :=
  State.markHints_keeps _ F hf

theorem State.exchangeSent_keeps {β : Type} (F : State → β) (hf : ∀ (t : State) n d, F (t.setDie n d) = F t) : F s.exchangeSent = F s.takeLimit :=
  (State.sendGrants_keeps _ _ F hf).trans (s.exchangeMarked_keeps F hf)

theorem State.exchange_die (n : Nat) : s.exchange.die n = s.exchangeSent.die n := by
  rw [State.exchange, State.die_with_power]

theorem State.exchange_tiles : s.exchange.tiles = s.tiles := by
  unfold State.exchange
  rw [s.exchangeSent_keeps State.tiles fun _ _ _ => rfl, State.takeLimit_keeps State.tiles State.finish_tiles fun _ => rfl]

theorem State.exchange_dram : s.exchange.dram = s.dram := by
  unfold State.exchange
  rw [s.exchangeSent_keeps State.dram fun _ _ _ => rfl, State.takeLimit_keeps State.dram State.finish_dram fun _ => rfl]

theorem State.exchange_power : s.exchange.power = { s.takeLimit.power with exchanged := s.now } := by
  rw [State.exchange, s.exchangeSent_keeps State.power fun _ _ _ => rfl]

theorem State.exchange_port (p : Port) : s.exchange.port p = s.takeLimit.port p := by
  rw [State.exchange, State.port_with_power, s.exchangeSent_keeps (State.port · p) fun t n d => t.setDie_port n d p]

theorem State.exchangeMarked_liveDies : s.exchangeMarked.liveDies = s.liveDies := by
  have h := (s.exchangeMarked_keeps State.plat fun _ _ _ => rfl).trans (State.takeLimit_keeps State.plat State.finish_plat fun _ => rfl)
  exact List.filter_congr fun n _ => by rw [State.dieLive, State.dieLive, h]

end

section
variable {s : State}

theorem State.exchange_grant {n : Nat} {g : Int} (h : (n, g) ∈ s.exchangeMarked.grantList) : (s.exchange.die n).grant = some g.toNat := by
  rw [State.exchange_die]
  exact State.sendGrants_grant (State.grantList_nodup _) h _

/-- Every live die is sent a grant (R377). -/
theorem State.exchange_grant_isSome {n : Nat} (hn : n < 4) (hlive : s.dieLive n = true) : (s.exchange.die n).grant.isSome = true := by
  have hmem : n ∈ s.exchangeMarked.grantList.map Prod.fst := by
    rw [(State.grantList_dies_perm _).mem_iff, State.exchangeMarked_liveDies]
    exact List.mem_filter.2 ⟨List.mem_range.2 hn, hlive⟩
  obtain ⟨⟨m, g⟩, hg, rfl⟩ := List.mem_map.1 hmem
  rw [State.exchange_grant hg]
  rfl

theorem State.exchange_power_of_none (h : s.power.newLimit = none) : s.exchange.power = { s.power with exchanged := s.now } := by
  rw [State.exchange_power, State.takeLimit_of_none h]

section
variable {l : Nat} (h : s.power.newLimit = some l) (hstate : s.power.pstate ≤ 1)
include h hstate

theorem State.exchange_power_of_some :
    s.exchange.power = { s.power with limit := l, newLimit := none, limitPorts := [], exchanged := s.now } := by
  rw [State.exchange_power, State.takeLimit_of_some h hstate, foldl_fixes State.power _ fun t q => t.finish_power q _ _]

/-- The port that waits for the exchange is answered with the limit (R375). -/
theorem State.exchange_reply {p : Port} (hports : s.power.limitPorts = [p]) (hdiscard : (s.port p).discard = false) :
    (s.exchange.port p).reply = some { status := 0, seq := (s.port p).seq, results := leBytes 2 l } := by
  rw [State.exchange_port, State.takeLimit_of_some h hstate, hports]
  rw [← s.port_with_power { s.power with limit := l, newLimit := none, limitPorts := [] }] at hdiscard ⊢
  exact State.finish_reply hdiscard 0 _

end

end

end Sys2Proof.Machine
end

section
/-! The obligation about samples, voltage steps, budget exchanges and grants. -/

namespace Sys2Proof.Machine

/-- Settles O11, event by event. That grants are rounded down to whole watts and keep back only the other dies' floors, and that learning
rounds its predictions, are the model's choices (log entries 12 and 50). -/
theorem samplesAndBudgetsComplete : Obligations.SamplesAndBudgetsComplete := by
  unfold Obligations.SamplesAndBudgetsComplete
  refine ⟨fun s die x hserves hlive => ⟨_, exec_signatureSample hserves hlive x, s.sameButRates_sampled die x, s.sampled_die die x,
      s.sampled_sigs die x⟩, fun s die k e => exec_explorationSample, fun s die => exec_voltageStep_up, fun s die => exec_voltageStep_down,
    fun s die mv hserves hlive => exec_voltageReported hserves hlive mv, fun s hserves hstate => ?_, fun s die g hserves hlive => exec_grantReceive_lower hserves hlive,
    fun s die g hserves hlive => exec_grantReceive_higher hserves hlive, fun s die g hserves hlive => exec_grantRaiseEffect hserves hlive, fun s die => exec_grantTimeout⟩
  exact ⟨_, exec_budgetExchange hserves hstate, s.exchange_tiles, s.exchange_dram, State.exchange_power_of_none,
    fun l h hrun => ⟨State.exchange_power_of_some h hrun, fun p => State.exchange_reply h hrun⟩, fun n => State.exchange_grant_isSome,
    fun n g h => State.exchange_grant (List.mem_of_find?_eq_some h)⟩

end Sys2Proof.Machine
end

section
/-! SUPPORT. Hints, timing-margin stretches and supply-warning episodes (R386, R387, R390, R392, R393). -/

namespace Sys2Proof.Machine

section
variable {s : State} {die : Nat} (hserves : s.serves = true) (hlive : s.dieLive die = true)
include hserves hlive

section
variable {i : Nat} {h : Hint} (hh : (s.die die).hints[i]? = some h)
include hh

theorem exec_hintPrepare_mark (ht : h.t ≤ s.now + 200000) : exec (.hintPrepare die i false) s
    = .next (s.setDie die { s.die die with hints := updNth (s.die die).hints i (fun h => { h with marked := true }) }) := by
  unfold exec execHintPrepare
  exact when_next (by simp [hserves, hlive, hh, ht]) rfl

theorem exec_hintPrepare_raise (ht : h.t ≤ s.now + 40000) : exec (.hintPrepare die i true) s
    = .next (s.setDie die { s.die die with hints := updNth (s.die die).hints i (fun h => { h with raised := true }) }) := by
  unfold exec execHintPrepare
  exact when_next (by simp [hserves, hlive, hh, ht]) rfl

theorem exec_hintStart (hforce : h.inForce = false) (ht : h.t ≤ s.now) (hstate : s.power.pstate ≤ 1) (hwarn : s.power.warn = false) :
    exec (.hintStart die i) s = .next ((s.setDie die { s.die die with
      hints := updNth (s.die die).hints i (fun h => { h with inForce := true, marked := true, raised := true, unmet := false }) }).decideOp die) := by
  unfold exec execHintStart
  exact when_next (by simp [hserves, hlive, hh, ht, hforce]) (by simp [State.hintForce, hstate, hwarn])

theorem exec_hintEnd (hforce : h.inForce = true) (ht : h.t + h.dur * 1000 ≤ s.now) :
    exec (.hintEnd die i) s = .next ((s.setDie die { s.die die with hints := (s.die die).hints.eraseIdx i }).decideOp die) := by
  unfold exec execHintEnd
  exact when_next (by simp [hserves, hlive, hh, ht, hforce]) rfl

end

theorem exec_marginLow_covered {tile : Nat} (htile : tile < 68) : exec (.marginLow die tile true) s = .next
    ((s.setTile die tile { s.tile die tile with stretched := true }).count (dieAct die 16) (if (s.tile die tile).stretched then 0 else 1)) := by
  have he : exec (.marginLow die tile true) s = execMarginLow die tile true s := rfl
  rw [he, execMarginLow, if_pos (by simp [hserves, hlive, htile]), if_pos rfl]
  cases (s.tile die tile).stretched <;> rfl

theorem exec_stretchEnd {tile : Nat} (htile : (s.tile die tile).stretched = true) :
    exec (.stretchEnd die tile) s = .next (s.setTile die tile { s.tile die tile with stretched := false }) := by
  unfold exec execStretchEnd
  exact when_next (by simp [hserves, hlive, htile]) rfl

theorem exec_stretchInterval {stretched total : Nat} (h : total < stretched * 10) : exec (.stretchInterval die stretched total) s
    = .next ((s.setDie die { s.die die with lowered := some (s.now + 10000000) }).count (dieAct die 17)) := by
  unfold exec execStretchInterval
  exact when_next (by simp [hserves, hlive, h]) rfl

end

/-- No controller decides in a supply episode (R393). -/
theorem State.decides_of_warn {s : State} (h : s.power.warn = true) (n : Nat) : s.decides n = false := by
  simp [State.decides, h]

/-- The power state as a supply episode begins. -/
def State.warnPower (s : State) : PowerSt :=
  let times := s.now :: s.power.episTimes.filter (fun t => decide (s.now < t + 1000000000))
  ({ s.power with warnPin := true, warn := true, warnAt := s.now, epis := satAdd 65535 s.power.epis 1, episTimes := times.take 4 } : PowerSt).capped

/-- The state of a supply episode as it begins, before the clocks fall to OP0. -/
def State.warned (s : State) : State :=
  ({ s with power := s.warnPower, tally := { s.tally with episodeSeen := true } } : State).count 3

/-- The clocks of the tiles fall to OP0 once there is an image. -/
def State.warnClocked (s : State) : State :=
  if 1 ≤ s.plat.stage then (List.range 4).foldl (fun (t : State) n => t.setOp n 0) s.warned else s.warned

section
variable {s : State}

theorem State.warnClocked_keeps {β : Type} (F : State → β) (hF : ∀ (t : State) n, F (t.setOp n 0) = F t) : F s.warnClocked = F s.warned := by
  unfold State.warnClocked
  split
  · exact foldl_fixes F _ hF _ _
  · rfl

theorem State.warnClocked_power : s.warnClocked.power = s.warnPower :=
  (State.warnClocked_keeps State.power fun t n => t.setOp_power n 0).trans (State.count_power ..)

theorem State.warnClocked_cairn : s.warnClocked.cairn = s.cairn :=
  (State.warnClocked_keeps State.cairn fun t n => t.setOp_cairn n 0).trans (State.count_cairn ..)

theorem State.warnClocked_die (hstage : 1 ≤ s.plat.stage) {n : Nat} (hn : n < 4) : s.warnClocked.die n = { s.die n with op := 0 } := by
  rw [State.warnClocked, if_pos hstage, State.allOp0_die, if_pos hn, State.warned, State.count_die]
  rfl

theorem exec_supplyWarnAssert (hon : s.on = true) (hstate : s.power.pstate ≠ 3) (hwarn : s.power.warn = false) (hact : s.cairn.supplyAction = 0) :
    exec .supplyWarnAssert s = .next s.warnClocked := by
  unfold exec execSupplyWarnAssert
  refine when_next hon ?_
  dsimp only
  rw [if_neg (by simp [hstate, hwarn])]
  refine if_neg fun h : s.warnClocked.cairn.supplyAction = 1 ∧ _ => ?_
  rw [State.warnClocked_cairn, hact] at h
  exact absurd h.1 Nat.zero_ne_one

theorem exec_supplyWarnDeassert (hon : s.on = true) (hpin : s.power.warnPin = true) :
    exec .supplyWarnDeassert s = .next { s with power := { s.power with warnPin := false, warnOff := s.now } } := by
  unfold exec execSupplyWarnDeassert
  exact when_next (by simp [hon, hpin]) rfl

theorem exec_supplyEpisodeEnd (hon : s.on = true) (hwarn : s.power.warn = true) (hpin : s.power.warnPin = false)
    (hdue : s.plat.stage < 2 ∨ s.power.warnOff + 50000 ≤ s.now) :
    exec .supplyEpisodeEnd s = .next ((((({ s with power := ({ s.power with warn := false }).capped }).logEv 0x000F 255 1
      [s.now - s.power.warnAt]).raise 78).decideAll)) := by
  unfold exec execSupplyEpisodeEnd
  exact when_next (by simp [hon, hwarn, hpin, State.due_of_le hdue]) rfl

end

end Sys2Proof.Machine
end

section
/-! The obligation about hints, timing-margin stretches and supply-warning episodes. -/

namespace Sys2Proof.Machine

/-- Settles O12, event by event. That a supply episode ends at any moment before the commit, where domain time stands still, and that a
stretch ends whenever its command comes, are the model's readings (log entry 42). -/
theorem hintsDroopAndSupplyComplete : Obligations.HintsDroopAndSupplyComplete := by
  unfold Obligations.HintsDroopAndSupplyComplete
  refine ⟨fun s die i h hs hl => exec_hintPrepare_mark hs hl, fun s die i h hs hl => exec_hintPrepare_raise hs hl,
    fun s die i h hs hl => exec_hintStart hs hl, fun s die i h hs hl => exec_hintEnd hs hl, fun s die tile hs hl => exec_marginLow_covered hs hl,
    fun s die tile hs hl => exec_stretchEnd hs hl, fun s die stretched total hs hl => exec_stretchInterval hs hl,
    fun s hon hstate hwarn hact => ⟨_, exec_supplyWarnAssert hon hstate hwarn hact, ?_⟩, fun s => exec_supplyWarnDeassert,
    fun s => exec_supplyEpisodeEnd⟩
  have hwarned : s.warnClocked.power.warn = true := by rw [State.warnClocked_power]; rfl
  refine ⟨hwarned, ?_, ?_, ?_, ?_, State.decides_of_warn hwarned, fun hstage n hn => ?_⟩
  · rw [State.warnClocked_power]; rfl
  · rw [State.warnClocked_power]; rfl
  · rw [State.warnClocked_power]
    exact Nat.min_le_right _ _
  · rw [State.warnClocked_power]; rfl
  · rw [State.warnClocked_die hstage hn]
    exact ⟨rfl, rfl⟩

end Sys2Proof.Machine
end

section
/-! SUPPORT. Tally's samples, hours and telemetry periods, AVSBus frames, heartbeats and domain time (chapter 18). -/

namespace Sys2Proof.Machine

section
variable {s : State}

/-! Samples and AVSBus frames (R425, R443, R444). -/

theorem exec_tallySample (levels : List (Nat × W64)) (hruns : s.runs = true) (hstage : 1 ≤ s.plat.stage) :
    ∃ t : State, exec (.tallySample levels) s = .next t ∧ t = { s with tally := t.tally, power := { s.power with pwr := t.power.pwr } }
      ∧ t.tally.sample = t.tally.live ∧ t.tally.stamp = s.now ∧ t.tally.pcnt = s.tally.pcnt + 1
      ∧ t.tally.fbPower = (railSum s.fbRail :: s.tally.fbPower).take 10
      ∧ t.power.pwr = t.tally.fbPower.foldl (· + ·) 0 / t.tally.fbPower.length / 1000
      ∧ t.tally.live = (levels.filter (fun e => sensorLevel e.1) ++ (0, BitVec.ofNat 64 (railSum s.tally.railMw)) :: s.ownLevels).foldl
          (fun m e => alPut m e.1 e.2) s.tally.live := by
  unfold exec execTallySample
  exact ⟨_, when_next (by simp [hruns, hstage]) rfl, rfl, rfl, rfl, rfl, rfl, rfl, rfl⟩

section
variable {rail : Nat} (hon : s.on = true) (hrail : rail < 16)
include hon hrail

theorem exec_avsbusSample_ok (mv ma : Nat) : ∃ t : State, exec (.avsbusSample rail (.ok mv ma)) s = .next t ∧ t = { s with tally := t.tally }
    ∧ alFind t.tally.rails rail = some (mv, ma) ∧ rail ∉ t.tally.railMax ∧ alGet 0 t.tally.railAt rail = s.now
    ∧ alGet 0 t.tally.live (64 + 3 * rail) = BitVec.ofNat 64 mv ∧ alGet 0 t.tally.live (65 + 3 * rail) = BitVec.ofNat 64 ma
    ∧ alGet 0 t.tally.live (66 + 3 * rail) = BitVec.ofNat 64 (mv * ma / 1000) := by
  unfold exec execAvsbusSample
  refine ⟨_, when_next (by simp [hon, hrail]) rfl, rfl, alFind_alPut_self .., by simp, alGet_alPut_self .., ?_, ?_, alGet_alPut_self ..⟩
  · exact (alGet_alPut_ne _ _ _ _ _ (by omega)).trans ((alGet_alPut_ne _ _ _ _ _ (by omega)).trans (alGet_alPut_self ..))
  · exact (alGet_alPut_ne _ _ _ _ _ (by omega)).trans (alGet_alPut_self ..)

theorem exec_avsbusSample_bad : exec (.avsbusSample rail .bad) s = .next (s.count (svc 19)) := by
  unfold exec execAvsbusSample
  exact when_next (by simp [hon, hrail]) rfl

theorem exec_avsbusFrameTimeout (hmax : rail ∉ s.tally.railMax) (hdue : s.plat.stage < 2 ∨ alGet 0 s.tally.railAt rail + 1000000 ≤ s.now) :
    exec (.avsbusFrameTimeout rail) s = .next { s with tally := { s.tally with railMax := rail :: s.tally.railMax } } := by
  unfold exec execAvsbusFrameTimeout
  exact when_next (by simp [hon, hrail, hmax, State.due_of_le hdue]) rfl

end

/-! The telemetry ring's HEAD, hours and heartbeats (R428, R432, R336). -/

section
variable (hserves : s.serves = true)
include hserves

theorem exec_talTelHeadWrite_within {v : W64}
    (h : (wfld v 0 32 + 2 ^ 32 - s.tally.head) % 2 ^ 32 ≤ (s.tally.tail + 2 ^ 32 - s.tally.head) % 2 ^ 32) :
    ∃ t : State, exec (.talTelHeadWrite v) s = .next t ∧ t = { s with tally := { s.tally with head := wfld v 0 32, notify := t.tally.notify } } := by
  unfold exec execTalTelHeadWrite
  exact ⟨_, when_next hserves (if_pos h), rfl⟩

theorem exec_talTelHeadWrite_beyond {v : W64}
    (h : (s.tally.tail + 2 ^ 32 - s.tally.head) % 2 ^ 32 < (wfld v 0 32 + 2 ^ 32 - s.tally.head) % 2 ^ 32) :
    exec (.talTelHeadWrite v) s = .next (s.count (svc 18)) := by
  unfold exec execTalTelHeadWrite
  exact when_next hserves (if_neg (Nat.not_le.2 h))

/-- The bucket of the hour entered starts empty. -/
theorem exec_hourBucketAdvance (h : s.tally.hour < s.now / 3600000000000) :
    ∃ t : State, exec .hourBucketAdvance s = .next t ∧ t.tally.hour = s.now / 3600000000000
      ∧ t = { s with tally := t.tally, slices := t.slices, chans := t.chans }
      ∧ (∀ e ∈ t.tally.windows, e ∈ s.tally.windows ∧ e.1 % 32 ≠ s.now / 3600000000000 % 24) := by
  unfold exec execHourBucketAdvance
  refine ⟨_, when_next (by simp [hserves, h]) rfl, rfl, rfl, fun e he => ?_⟩
  obtain ⟨hmem, hnot⟩ := List.mem_filter.1 he
  refine ⟨hmem, fun hhour => ?_⟩
  simp only [List.contains_eq_mem, List.mem_map, List.mem_range, Bool.not_eq_true', decide_eq_false_iff_not] at hnot
  exact hnot ⟨0, by omega, hhour.symm⟩

theorem exec_heartbeat_cluster (k : Nat) : exec (.heartbeat (.cluster k)) s = .next { s with beats := alPut s.beats k s.now } := by
  unfold exec execHeartbeat
  exact when_next hserves (if_neg nofun)

theorem exec_heartbeat_foundation (k : Nat) : exec (.heartbeat (.foundation k)) s = .next { s with beats := alPut s.beats (32 + k) s.now } := by
  unfold exec execHeartbeat
  exact when_next hserves (if_neg nofun)

theorem exec_heartbeat_other {k : Nat} (hk : k ≠ s.mySlot) :
    exec (.heartbeat (.package k)) s = .next { s with beats := alPut s.beats (16 + k) s.now } := by
  unfold exec execHeartbeat
  exact when_next hserves (if_neg (by simpa using hk))

/-- The package's own heartbeat goes to every package of the set (R336). -/
theorem exec_heartbeat_own : exec (.heartbeat (.package s.mySlot)) s
    = .next (s.peers.foldl (fun (t : State) p => t.sendMgt p none) { s with beats := alPut s.beats (16 + s.mySlot) s.now }) := by
  unfold exec execHeartbeat
  exact when_next hserves (if_pos rfl)

/-! Beacons (R426). -/

theorem exec_beaconSend {link : Nat} (hlink : link < 64) (hup : (s.link link).up = true) (hsync : s.time.sync ≠ 0) :
    exec (.beaconSend link) s = .next (({ s with time := { s.time with sent := alMod 0 s.time.sent link (· + 1) } }).ridgeSend link
      { dest := (s.link link).peer, src := s.masterNow, vc := 1, hops := 6, req := s.now, acc := none, ans := none }) := by
  unfold exec execBeaconSend
  exact when_next (by simp [hserves, hlink, hup, hsync]) rfl

section
variable {b : Beacon} {i : Nat} (hlink : b.link < 64) (hup : (s.link b.link).up = true) (hparent : s.parentLink b.master = some b.link)
  (hi : indexWhere (· == b.master) s.timeMasters = some i)
include hlink hup hparent hi

theorem exec_beaconReceive_earlier (h : i < s.time.master) : exec (.beaconReceive b) s
    = .next (({ s with time := { s.time with master := i, sync := 2, good := 0, bad := 0 } }).takeBeacon b) := by
  unfold exec execBeaconReceive
  exact when_next (by simp [hserves, hlink, hup, hparent]) (by rw [hi]; exact if_pos h)

theorem exec_beaconReceive_own (h : i = s.time.master) (hsync : s.time.sync ≠ 1) : exec (.beaconReceive b) s = .next (s.takeBeacon b) := by
  unfold exec execBeaconReceive
  exact when_next (by simp [hserves, hlink, hup, hparent]) (by rw [hi]; exact (if_neg h.not_lt).trans (if_pos ⟨h, hsync⟩))

end

theorem exec_delayExchange {link : Nat} (delay : Nat) (hlink : link < 64) (hup : (s.link link).up = true) :
    exec (.delayExchange link delay) s = .next { s with time := { s.time with delay := alPut s.time.delay link delay } } := by
  unfold exec execDelayExchange
  exact when_next (by simp [hserves, hlink, hup]) rfl

section
variable (hsync : s.time.sync ≠ 1) (hheard : s.time.heard + 1000000 ≤ s.now)
include hsync hheard

theorem exec_beaconLoss_next {m : Nat} (hm : s.nextMaster = some m) : exec .beaconLoss s = .next { s with time := { s.time with
    heard := s.now, good := 0, bad := 0, master := m
    sync := (if nth 0 s.timeMasters m = s.myAddr then 1 else if s.time.sync = 0 then 0 else 4) } } := by
  unfold exec execBeaconLoss
  exact when_next (by simp [hserves, hsync, hheard]) (by simp [hm])

theorem exec_beaconLoss_none (hm : s.nextMaster = none) : exec .beaconLoss s = .next { s with time := { s.time with
    heard := s.now, good := 0, bad := 0, sync := (if s.time.sync = 0 then 0 else 4) } } := by
  unfold exec execBeaconLoss
  exact when_next (by simp [hserves, hsync, hheard]) (by simp [hm])

end

end

/-! Telemetry periods (R432). -/

/-- A record that has landed advances TAIL and answers no access. -/
theorem State.telemetryLanded_tail_reqs (used thr : Nat) :
    (s.telemetryLanded used thr).tally.tail = (s.tally.tail + 1) % 2 ^ 32 ∧ (s.telemetryLanded used thr).reqs = s.reqs := by
  unfold State.telemetryLanded
  dsimp only
  split
  · rw [State.raise_tally, State.raise_reqs]
    exact ⟨rfl, rfl⟩
  · exact ⟨rfl, rfl⟩

/-- The state from which a period's record is written: as it is while the record of the period is on its way, with a new period begun else
(log entry 57). -/
def State.periodEnded (s : State) : State :=
  if s.reqs.any (fun e => e.2.who == .unit .hub 2) then s
  else { s with tally := { s.tally.newPeriod with skip := 0, last := s.tally.live, realCe := 0, realUe := 0 } }

section
variable (hup : s.up = true) (hstage : 2 ≤ s.plat.stage)
include hup hstage

theorem exec_telemetryPeriodEnd_full {c : Nat × Nat × Nat × Nat} (hcfg : s.cfg.telemetry = some c)
    (hfull : 2 ^ c.2.1 ≤ (s.tally.tail + 2 ^ 32 - s.tally.head) % 2 ^ 32) : exec .telemetryPeriodEnd s = .next s.skipPeriod := by
  unfold exec execTelemetryPeriodEnd
  exact when_next (by simp [hup, hstage]) (by rw [hcfg]; exact if_pos (.inr hfull))

section
variable {w : State} {base log2 per thr : Nat} {done : Bool} (hcfg : s.cfg.telemetry = some (base, log2, per, thr)) (hstate : s.power.pstate ≠ 3)
  (hroom : (s.tally.tail + 2 ^ 32 - s.tally.head) % 2 ^ 32 < 2 ^ log2)
  (hw : s.periodEnded.ringWrite .hub 2 (base + s.tally.tail % 2 ^ log2 * 256) s.telemetryRecord = (done, w))
include hcfg hstate hroom hw

theorem exec_telemetryPeriodEnd_room : exec .telemetryPeriodEnd s
    = .next (if done then w.telemetryLanded ((s.tally.tail + 2 ^ 32 - s.tally.head) % 2 ^ 32) thr else w) := by
  have he : exec .telemetryPeriodEnd s = execTelemetryPeriodEnd s := rfl
  rw [he, execTelemetryPeriodEnd]
  refine when_next (by simp [hup, hstage]) ?_
  dsimp only
  rw [hcfg]
  dsimp only
  rw [if_neg (not_or.2 ⟨hstate, Nat.not_le.2 hroom⟩), show (if s.reqs.any (fun e => e.2.who == .unit .hub 2) then s
    else { s with tally := { s.tally.newPeriod with skip := 0, last := s.tally.live, realCe := 0, realUe := 0 } }) = s.periodEnded from rfl, hw]

theorem exec_telemetryPeriodEnd_lands : ∃ t : State, exec .telemetryPeriodEnd s = .next t
    ∧ (done = true → t.tally.tail = (w.tally.tail + 1) % 2 ^ 32 ∧ t.reqs = w.reqs) ∧ (done = false → t = w) := by
  refine ⟨_, exec_telemetryPeriodEnd_room hup hstage hcfg hstate hroom hw, fun hd => ?_, fun hd => ?_⟩
  · rw [if_pos hd]
    exact w.telemetryLanded_tail_reqs _ _
  · rw [hd]
    rfl

end

end

end

end Sys2Proof.Machine
end

section
/-! The obligation about samples, AVSBus frames, beacons, hour buckets, heartbeats and telemetry periods. -/

namespace Sys2Proof.Machine

/-- Settles O14, event by event. That a frame may time out at any moment before the commit (log entry 42), that a package's own heartbeat goes
to every package of the set (log entry 52), the next reachable backup and the later-named master (log entry 41), and that a period's command
is taken up again while its record is on its way (log entry 57) are the model's readings. -/
theorem timeAndTallyEventsComplete : Obligations.TimeAndTallyEventsComplete := by
  unfold Obligations.TimeAndTallyEventsComplete
  refine ⟨fun s levels => exec_tallySample levels, fun s rail mv ma hon hrail => exec_avsbusSample_ok hon hrail mv ma,
    fun s rail => exec_avsbusSample_bad, fun s rail => exec_avsbusFrameTimeout, fun s v hs => exec_talTelHeadWrite_within hs,
    fun s v hs => exec_talTelHeadWrite_beyond hs, fun s => exec_hourBucketAdvance,
    fun s k hs => ⟨exec_heartbeat_cluster hs k, exec_heartbeat_other hs, exec_heartbeat_own hs, exec_heartbeat_foundation hs k⟩,
    fun s link hs => exec_beaconSend hs, fun s b i hs hlink hup hparent hi => ⟨exec_beaconReceive_earlier hs hlink hup hparent hi,
      exec_beaconReceive_own hs hlink hup hparent hi⟩, fun s link delay hs => exec_delayExchange hs delay,
    fun s m hs hsync hheard => exec_beaconLoss_next hs hsync hheard, fun s => exec_beaconLoss_none,
    fun s w base log2 per thr done hup hstage hcfg hstate hroom => ⟨fun hreq hw => ?_, fun hreq hw => ?_⟩,
    fun s c hup hstage => exec_telemetryPeriodEnd_full hup hstage⟩
  · exact exec_telemetryPeriodEnd_lands hup hstage hcfg hstate hroom (by rw [State.periodEnded, if_pos hreq, hw])
  · exact exec_telemetryPeriodEnd_lands hup hstage hcfg hstate hroom (by rw [State.periodEnded, if_neg (by simp [hreq]), hw])

end Sys2Proof.Machine
end

section
/-! SUPPORT. Drained streams, Park and Resume, wakes, EHEAD and CONT (chapter 13's streams, R350, R355 to R359, R399, R402). -/

namespace Sys2Proof.Machine

section
variable {s : State}

/-! Drains (R358, R359). -/

theorem Stream.drained_of_empty {v : Stream} {d : Drain} (hd : v.drain = some d) (hempty : v.flights = []) : v.drained d.migrate = some d := by
  simp [Stream.drained, hd, hempty]

section
variable {n : Nat} {d : Drain} (hserves : s.serves = true) (hd : (s.stream n).drain = some d)
include hserves hd

theorem exec_streamCloseDrained (hmigrate : d.migrate = false) (hempty : (s.stream n).flights = []) : exec (.streamCloseDrained n) s
    = .next (((((s.unitQuit (ofStream n)).dropWatch n).setStream n {}).dropHints n).finish d.port 0 []) := by
  have hdrained : (s.stream n).drained false = some d := hmigrate ▸ Stream.drained_of_empty hd hempty
  unfold exec execStreamCloseDrained
  exact when_next (by simp [hserves, hdrained]) (by rw [hdrained])

theorem exec_migrateDrained (hmigrate : d.migrate = true) (hempty : (s.stream n).flights = []) : exec (.migrateDrained n) s
    = .next (((((s.unitQuit (ofStream n)).dropWatch n).setStream n { s.stream n with
      state := (if d.stopped then 4 else 1), epoch := ((s.stream n).epoch + 1) % 65536, slots := d.slots, masks := d.masks,
      wins := d.wins.getD (s.stream n).wins, watch := none, woken := false, err := d.stopped, drain := none }).dropHints n).finish
      d.port 0 (leBytes 2 (((s.stream n).epoch + 1) % 65536))) := by
  have hdrained : (s.stream n).drained true = some d := hmigrate ▸ Stream.drained_of_empty hd hempty
  unfold exec execMigrateDrained
  exact when_next (by simp [hserves, hdrained]) (by dsimp only; rw [hdrained])

theorem exec_streamDrainTimeout (hdue : s.plat.stage < 2 ∨ d.until_ ≤ s.now) : exec (.streamDrainTimeout n) s
    = .next ((s.setStream n { s.stream n with state := 4, err := d.stopped, drain := none }).finish d.port 0x0905 []) := by
  unfold exec execStreamDrainTimeout
  exact when_next (by simp [hserves, hd, State.due_of_le hdue]) (by dsimp only; rw [hd])

end

/-! Park (R350, R399). -/

/-- All four clocks at OP0, the package in Park, and its port not yet answered. -/
def State.parked (s : State) : State :=
  ({ s.allOp0 with power := { s.allOp0.power with pstate := 2, parking := none } }).limitReplies

theorem State.parked_power : s.parked.power = { s.power with pstate := 2, parking := none, limitPorts := [] } := by
  rw [State.parked, State.limitReplies_power, State.allOp0_power]

theorem State.parked_op {n : Nat} (hn : n < 4) : (s.parked.die n).op = 0 := by
  rw [State.parked, State.die, State.limitReplies_fb, ← State.die, State.die_with_power, s.allOp0_op hn]

theorem exec_parkEntry {p : Port} (hserves : s.serves = true) (hstate : s.power.pstate ≤ 1) (hpark : s.power.parking = some p)
    (hflights : ∀ e ∈ s.streams, e.2.flights = []) (hacts : ∀ a ∈ s.acts, Act.code a ≠ 9) (hreset : s.plat.resetting = []) :
    exec .parkEntry s = .next (s.parked.finish p 0 []) := by
  unfold exec execParkEntry
  refine when_next ?_ ?_
  · simpa [hserves, hstate, hpark, hreset, List.all_eq_true] using ⟨fun n v h => hflights (n, v) h, hacts⟩
  · rw [hpark, State.parked, State.allOp0]

theorem exec_parkTimeout {p : Port} (hup : s.up = true) (hpark : s.power.parking = some p)
    (hdue : s.plat.stage < 2 ∨ s.power.parkUntil ≤ s.now) :
    exec .parkTimeout s = .next (({ s with power := { s.power with parking := none } }).finish p 0x0802 []) := by
  unfold exec execParkTimeout
  exact when_next (by simp [hup, hpark, State.due_of_le hdue]) (by rw [State.endPark, hpark])

/-! Resume (R402). -/

/-- A map over the values of a finite map that keeps the default. -/
theorem alGet_map {α : Type} {d : α} {f : α → α} (hd : f d = d) (t : Sparse α) (n : Nat) :
    alGet d (t.map (fun e => (e.1, f e.2))) n = f (alGet d t n) := by
  unfold alGet
  induction t with
  | nil => exact hd.symm
  | cons e t ih =>
    rw [List.map_cons, alFind, alFind]
    split
    · rfl
    · exact ih

theorem State.lateHints_die (n : Nat) :
    s.lateHints.die n = { s.die n with hints := (s.die n).hints.filter (fun h => h.inForce || decide (s.now ≤ h.t)) } :=
  alGet_map (f := fun d : DieFb => { d with hints := d.hints.filter (fun h => h.inForce || decide (s.now ≤ h.t)) }) rfl s.fb n

theorem State.lateHints_op (n : Nat) : (s.lateHints.die n).op = (s.die n).op := by rw [State.lateHints_die]
theorem State.lateHints_hints (n : Nat) :
    (s.lateHints.die n).hints = (s.die n).hints.filter (fun h => h.inForce || decide (s.now ≤ h.t)) := by rw [State.lateHints_die]
theorem State.lateHints_power : s.lateHints.power = s.power := (rfl)

theorem State.allOp0_now : s.allOp0.now = s.now :=
  foldl_fixes State.now _ (fun t n => by rw [State.now, State.setOp_time, State.now]) _ _

/-- The package in Run at OP0, with the pending hints gone whose T has passed, and the port not yet answered. -/
def State.backInRun (s : State) : State :=
  ({ s with power := { s.power with pstate := 0, resuming := none } } : State).allOp0.lateHints

theorem exec_resumeComplete {p : Port} (hup : s.up = true) (hresume : s.power.resuming = some p) (hstate : s.power.pstate ≠ 3) :
    exec .resumeComplete s = .next (s.backInRun.finish p 0 []) := by
  unfold exec execResumeComplete
  refine when_next (by simp [hup, hresume]) ?_
  rw [hresume]
  simp only [hstate, decide_false, Bool.false_eq_true, if_false, State.backInRun, State.allOp0]

theorem State.backInRun_power : s.backInRun.power = { s.power with pstate := 0, resuming := none } := by
  rw [State.backInRun, State.lateHints_power, State.allOp0_power]

theorem State.backInRun_die {n : Nat} (hn : n < 4) :
    (s.backInRun.die n).op = 0 ∧ ∀ h ∈ (s.backInRun.die n).hints, h.inForce = true ∨ s.now ≤ h.t := by
  constructor
  · rw [State.backInRun, State.lateHints_op, State.allOp0_op _ hn]
  · intro h hh
    rw [State.backInRun, State.lateHints_hints, List.mem_filter, State.allOp0_now] at hh
    exact (Bool.or_eq_true _ _ ▸ hh.2).imp_right of_decide_eq_true

/-! Wakes, EHEAD and CONT (R355, R356). -/

section
variable {n : Nat} (hserves : s.serves = true) (hn : n < 64)
include hserves hn

theorem exec_streamWake_parked (hstate : (s.stream n).state = 2) (hwake : (s.stream n).woken = true ∨ (s.stream n).watch = none) :
    exec (.streamWake n) s = .next (s.setStream n { s.stream n with state := 1, watch := none, woken := false }) := by
  unfold exec execStreamWake
  exact when_next (by simp [hserves, hn]) (by simp [hstate, hwake])

theorem exec_streamWake_running (hstate : (s.stream n).state ≠ 2) (hwake : (s.stream n).woken = true) :
    exec (.streamWake n) s = .next (s.setStream n { s.stream n with watch := none, woken := false }) := by
  unfold exec execStreamWake
  exact when_next (by simp [hserves, hn]) (by simp [hstate, hwake])

theorem exec_streamWake_idle (hwoken : (s.stream n).woken = false) (hwatch : (s.stream n).state ≠ 2 ∨ (s.stream n).watch ≠ none) :
    exec (.streamWake n) s = .next s.releaseWatches := by
  unfold exec execStreamWake
  refine when_next (by simp [hserves, hn]) (if_neg ?_)
  rw [hwoken]
  rcases hwatch with h | h <;> simp [h]

theorem exec_streamEheadWrite {v : W64} (h : ((s.stream n).etail + 2 ^ 32 - wfld v 0 32) % 2 ^ 32 ≤ 2 ^ (s.stream n).srsz) :
    exec (.streamEheadWrite n v) s = .next (s.setStream n { s.stream n with ehead := wfld v 0 32 }) := by
  unfold exec execStreamEheadWrite
  exact when_next (by simp [hserves, hn]) (if_pos h)

theorem exec_streamCont_error (hstate : (s.stream n).state = 4) (herr : (s.stream n).err = true) :
    exec (.streamCont n) s = .next (s.setStream n { s.stream n with
      state := (if (s.stream n).flights.any (fun f => f.typ == 4) then 3 else 1), err := false }) := by
  unfold exec execStreamCont
  exact when_next (by simp [hserves, hn]) (if_pos ⟨hstate, herr⟩)

theorem exec_streamCont_other (h : (s.stream n).state ≠ 4 ∨ (s.stream n).err = false) : exec (.streamCont n) s = .next s := by
  unfold exec execStreamCont
  refine when_next (by simp [hserves, hn]) (if_neg fun hh => ?_)
  rcases h with h | h
  · exact h hh.1
  · exact Bool.false_ne_true (h.symm.trans hh.2)

end

end

end Sys2Proof.Machine
end

section
/-! The obligation about the ends of drains, Park, Resume, wakes, EHEAD and CONT. -/

namespace Sys2Proof.Machine

/-- Settles O15, event by event. That a wake which finds nothing to wake sends refused releases again is the model's reading (log entry 35),
and so is that a drain's or Park's time may run out at any moment before the commit (log entry 42). -/
theorem streamEndsAndWakesComplete : Obligations.StreamEndsAndWakesComplete := by
  unfold Obligations.StreamEndsAndWakesComplete
  exact ⟨fun s n d => exec_streamCloseDrained, fun s n d => exec_migrateDrained, fun s n d => exec_streamDrainTimeout,
    fun s p hserves hstate hpark hflights hacts hreset =>
      ⟨_, exec_parkEntry hserves hstate hpark hflights hacts hreset, State.parked_power, fun n => State.parked_op⟩,
    fun s p => exec_parkTimeout, fun s p hup hresume hstate =>
      ⟨_, exec_resumeComplete hup hresume hstate, State.backInRun_power, fun n => State.backInRun_die⟩,
    fun s n => exec_streamWake_parked, fun s n => exec_streamWake_running, fun s n => exec_streamWake_idle,
    fun s n v hserves hn => exec_streamEheadWrite hserves hn, fun s n => exec_streamCont_error, fun s n => exec_streamCont_other⟩

end Sys2Proof.Machine
end

section
/-! SUPPORT. Collective plans, their chunks and the answers to them (R322 to R330). -/

namespace Sys2Proof.Machine

/-! COLLECTIVE records (R322, R323). -/

section
variable {s : State} {n : Nat}

theorem exec_collective (hserves : s.serves = true) (hn : n < 64) :
    exec (.collective n) s = .next ((s.collectiveGo n).take n 8 (fun u ws => u.collectiveTake n ws)) := by
  unfold exec execCollective
  exact when_next (by simp [hserves, hn]) rfl

/-- A stream that takes no record leaves only its plans in flight to go on. -/
theorem exec_collective_goes (hserves : s.serves = true) (hn : n < 64) (htakes : (s.collectiveGo n).takes n = false) :
    exec (.collective n) s = .next (s.collectiveGo n) := by
  rw [exec_collective hserves hn, State.take, htakes]
  rfl

/-- A record whose plan can be read starts it. -/
theorem State.collectiveTake_plan {u v t : State} {ws w all : List W64} (halign : wfld (nth 0 ws 1) 0 52 % 64 = 0)
    (hhead : u.readKeep (.stream n (u.stream n).next) (u.stream n).space (wfld (nth 0 ws 1) 0 52) 8 = .ok w v) (hop : planOp w ≠ 5)
    (hall : v.readKeep (.stream n (u.stream n).next) (u.stream n).space (wfld (nth 0 ws 1) 0 52) (8 + 2 * planNstep w) = .ok all t) :
    u.collectiveTake n ws = t.planStart n ws all := by
  rw [State.collectiveTake]
  dsimp only
  rw [if_neg (not_not.2 halign), hhead]
  dsimp only
  rw [if_neg hop, hall]

/-- A valid plan on a die that works, with room on its engine, starts there and makes what progress it can. -/
theorem State.planStart_valid {t : State} {ws all : List W64} {d : Nat} (hheader : headerValid all = true)
    (hsteps : ((List.range (planNstep all)).map (fun i => planStep (nth 0 all (8 + 2 * i)) (nth 0 all (9 + 2 * i)))).all
      (stepValid (planOp all) (wfld (nth 0 all 3) 0 40)) = true) (hslot : nth none (t.stream n).slots (wfld (nth 0 ws 2) 0 2) = some d)
    (hlive : t.dieLive d = true) (hroom : (alGet [] t.plans d).length < 16) :
    t.planStart n ws all = ({ t.start n (t.newFlight (t.stream n).next ws) with
      plans := alMod [] (t.start n (t.newFlight (t.stream n).next ws)).plans d (fun l => l ++ [t.newPlan n (t.stream n).next (t.stream n).space all
        ((List.range (planNstep all)).map (fun i => planStep (nth 0 all (8 + 2 * i)) (nth 0 all (9 + 2 * i))))]) }).planGo d (planCid all) := by
  rw [State.planStart]
  dsimp only
  rw [hheader, hsteps, hslot]
  dsimp only
  rw [hlive, if_neg (by decide), if_neg (by decide), if_neg (Nat.not_le.2 hroom)]
  rfl

end

/-! Chunks that arrive (R324, R326, R327). -/

section
variable {s : State} {die : Nat} {k : Chunk} {p : Plan} (hplan : s.planOf die k.cid = some p)
include hplan

/-- A chunk that each of its steps has is acknowledged and left. -/
theorem State.landChunk_duplicate (hsteps : p.stepsFor k ≠ []) (hlanded : ∀ i ∈ p.stepsFor k, (i, k.chunk) ∈ p.landed) :
    s.landChunk die k = .taken (s.answerChunk die k .ack) := by
  have hnone : (p.stepsFor k).find? (fun i => !(p.landed.contains (i, k.chunk))) = none :=
    List.find?_eq_none.2 fun i hi => by simpa using hlanded i hi
  rw [State.landChunk, hplan]
  dsimp only
  rw [hnone]
  exact if_neg (by simpa using hsteps)

/-- A chunk of a step that copies, once its turn has come, is written to DBUF, noted as landed and acknowledged. -/
theorem State.landChunk_copy {i : Nat} {t : PStep} {u : State} {x : List Byte} {q : List Nat} {ys : List Req}
    (hfind : (p.stepsFor k).find? (fun i => !(p.landed.contains (i, k.chunk))) = some i) (hready : p.ready i k.chunk = true)
    (hstep : p.steps[i]? = some t) (hkind : t.kind = 2)
    (hwrite : s.unitWrites (writeReqs (.engine die k.cid i) .bwrite p.space (p.dbuf + 4096 * k.chunk) k.payload k.psn) = .ok x q ys u) :
    s.landChunk die k = .taken ((u.setPlan die { p with
      landed := p.landed ++ [(i, k.chunk)], poisoned := p.poisoned || k.psn, prog := alPut p.prog i u.now }).answerChunk die k .ack) := by
  rw [State.landChunk, hplan]
  dsimp only
  rw [hfind]
  dsimp only
  rw [hready, hstep, if_neg (by decide), if_pos (by simpa using hkind), hwrite]
  rfl

end

/-- A chunk of no plan is held. -/
theorem State.landChunk_planless {s : State} {die : Nat} {k : Chunk} (hplan : s.planOf die k.cid = none) : s.landChunk die k = .held s := by
  rw [State.landChunk, hplan]

section
variable {s : State} {die : Nat} {b : List Byte} (hruns : s.engineRuns die = true)
include hruns

theorem exec_chunkReceive_bad (hbad : chunkGood b = false) : exec (.chunkReceive die b) s = .next (s.answerChunk die (chunkAt b) .nack) := by
  unfold exec execChunkReceive
  exact when_next hruns (if_pos (by rw [hbad]; rfl))

section
variable (hgood : chunkGood b = true)
include hgood

theorem exec_chunkReceive_taken {u : State} (hland : s.landChunk die (chunkAt b) = .taken u) :
    exec (.chunkReceive die b) s = .next (u.planGo die (chunkAt b).cid) := by
  unfold exec execChunkReceive
  exact when_next hruns (by simp [hgood, hland])

theorem exec_chunkReceive_held {u : State} (hland : s.landChunk die (chunkAt b) = .held u) (hroom : (alGet [] u.holds die).length < 256) :
    exec (.chunkReceive die b) s = .next { u with holds := alMod [] u.holds die (fun l => l ++ [(u.now, chunkAt b)]) } := by
  unfold exec execChunkReceive
  exact when_next hruns (by simp [hgood, hland, Nat.not_le.2 hroom])

theorem exec_chunkReceive_busy {u : State} (hland : s.landChunk die (chunkAt b) = .held u) (hfull : 256 ≤ (alGet [] u.holds die).length) :
    exec (.chunkReceive die b) s = .next (u.answerChunk die (chunkAt b) .busy) := by
  unfold exec execChunkReceive
  exact when_next hruns (by simp [hgood, hland, hfull])

end

theorem exec_chunkHoldExpiry {cid chunk : Nat} {e : Nat × Chunk} (hplan : s.planOf die cid = none)
    (he : (alGet [] s.holds die).find? (fun e => e.2.cid == cid && e.2.chunk == chunk && decide (e.1 + 100000000 ≤ s.now)) = some e) :
    exec (.chunkHoldExpiry die cid chunk) s
      = .next (({ s with holds := alMod [] s.holds die (fun l => l.erase e) }).answerChunk die e.2 .nack) := by
  unfold exec execChunkHoldExpiry
  exact when_next (by simp [hruns, hplan]) (by rw [he])

end

/-! Answers (R327, R328). -/

/-- A chunk that is answered gives its tokens back and nothing else. -/
theorem State.chunkBack_planOf (s : State) (o : OutChunk) (die cid : Nat) : (s.chunkBack o).planOf die cid = s.planOf die cid := by
  unfold State.chunkBack
  split <;> rfl

section
variable {s : State} {die cid step chunk : Nat} {p : Plan} {o : OutChunk} (hplan : s.planOf die cid = some p)
  (ho : p.out.find? (fun o => o.step == step && o.chunk == chunk) = some o)
include hplan ho

/-- The chunk as it goes out again: unchanged after BUSY, else with TRY one higher. -/
theorem State.resend_eq (busy : Bool) (htry : busy = true ∨ o.try_ < 3) : s.resend die cid step chunk busy
    = (s.chunkBack o).sendAgain die cid { o with try_ := if busy then o.try_ else o.try_ + 1, levels := none } := by
  have hnot : ¬ (!busy && decide (3 ≤ o.try_)) = true := by
    rcases htry with h | h
    · simp [h]
    · simp [Nat.not_le.2 h]
  rw [State.resend, hplan]
  dsimp only
  rw [ho]
  dsimp only
  rw [if_neg hnot]
  cases busy <;> rfl

theorem State.resend_exhausted (htry : 3 ≤ o.try_) : s.resend die cid step chunk false = s.planError die cid 0 := by
  rw [State.resend, hplan]
  dsimp only
  rw [ho]
  exact if_pos (by simpa using htry)

end

section
variable {s : State} {die cid : Nat} {p : Plan} {o : OutChunk} {t : PStep} (hplan : s.planOf die cid = some p) (ht : p.steps[o.step]? = some t)
include hplan ht

theorem State.sendAgain_sent {lv : Option (Nat × Nat)} {u : State} (h : s.sendChunk die t.peer (s.chunkOf die cid o) = .sent lv u) :
    s.sendAgain die cid o = u.setPlan die { p with out := p.out.map (fun y =>
      if y.step = o.step ∧ y.chunk = o.chunk then { o with owed := false, levels := lv, sent := s.now } else y) } := by
  rw [State.sendAgain, hplan]
  dsimp only
  rw [ht]
  dsimp only
  rw [h]

theorem State.sendAgain_refused {u : State} (h : s.sendChunk die t.peer (s.chunkOf die cid o) = .refused u) :
    s.sendAgain die cid o = u.setPlan die { p with out := p.out.map (fun y =>
      if y.step = o.step ∧ y.chunk = o.chunk then { o with owed := true, levels := none } else y) } := by
  rw [State.sendAgain, hplan]
  dsimp only
  rw [ht]
  dsimp only
  rw [h]

theorem State.sendAgain_unreachable (h : s.sendChunk die t.peer (s.chunkOf die cid o) = .unreachable) :
    s.sendAgain die cid o = s.planError die cid 2 := by
  rw [State.sendAgain, hplan]
  dsimp only
  rw [ht]
  dsimp only
  rw [h]

end

section
variable {s : State} {die cid step chunk : Nat} {p : Plan} {o : OutChunk} (hruns : s.engineRuns die = true) (hplan : s.planOf die cid = some p)
  (ho : p.out.find? (fun o => o.step == step && o.chunk == chunk) = some o)
include hruns hplan ho

/-- ACK retires the chunk. -/
theorem exec_chunkAnswer_ack : exec (.chunkAnswer die cid step chunk .ack) s = .next (((s.chunkBack o).setPlan die { p with
    out := p.out.filter (fun o => !(o.step == step && o.chunk == chunk)), acked := p.acked ++ [(step, chunk)],
    prog := alPut p.prog step s.now }).planGo die cid) := by
  unfold exec execChunkAnswer
  exact when_next hruns (by rw [hplan]; dsimp only; rw [ho])

theorem exec_chunkAnswer_busy : exec (.chunkAnswer die cid step chunk .busy) s = .next (s.resend die cid step chunk true) := by
  unfold exec execChunkAnswer
  exact when_next hruns (by rw [hplan]; dsimp only; rw [ho])

theorem exec_chunkAnswer_nack : exec (.chunkAnswer die cid step chunk .nack) s = .next (s.resend die cid step chunk false) := by
  unfold exec execChunkAnswer
  exact when_next hruns (by rw [hplan]; dsimp only; rw [ho])

theorem exec_chunkTimeout (howed : o.owed = false) (hsent : o.sent + 50000 ≤ s.now) :
    exec (.chunkTimeout die cid step chunk) s = .next (s.resend die cid step chunk false) := by
  have hany : p.out.any (fun o => o.step == step && o.chunk == chunk && !o.owed && decide (o.sent + 50000 ≤ s.now)) = true :=
    List.any_eq_true.2 ⟨o, List.mem_of_find?_eq_some ho, by
      have hfound := List.find?_some ho
      simp_all⟩
  unfold exec execChunkTimeout
  exact when_next hruns (if_pos (by rw [hplan]; exact hany))

/-- BUSY, NACK and 50 µs without an answer send the chunk again: with its TRY after BUSY. -/
theorem exec_resends {i : Instr} {busy : Bool} (hi : (i = .chunkAnswer die cid step chunk .busy ∧ busy = true)
    ∨ (i = .chunkAnswer die cid step chunk .nack ∧ busy = false)
    ∨ (i = .chunkTimeout die cid step chunk ∧ busy = false ∧ o.owed = false ∧ o.sent + 50000 ≤ s.now)) :
    exec i s = .next (s.resend die cid step chunk busy) := by
  rcases hi with ⟨rfl, rfl⟩ | ⟨rfl, rfl⟩ | ⟨rfl, rfl, howed, hsent⟩
  · exact exec_chunkAnswer_busy hruns hplan ho
  · exact exec_chunkAnswer_nack hruns hplan ho
  · exact exec_chunkTimeout hruns hplan ho howed hsent

end

/-! Ends of plans (R329, R330). -/

section
variable {s : State} {die cid : Nat} {p : Plan} (hruns : s.engineRuns die = true) (hplan : s.planOf die cid = some p)
include hruns hplan

theorem exec_stepTimeout {step : Nat} {t : PStep} (ht : p.steps[step]? = some t) (hdone : p.stepDone step t = false)
    (hdue : alGet p.since p.prog step + (if p.tmo = 0 then 10000000000 else 1000 * p.tmo) ≤ s.now) :
    exec (.stepTimeout die cid step) s = .next (s.planError die cid 1) := by
  unfold exec execStepTimeout
  exact when_next hruns (by rw [hplan]; dsimp only; rw [ht]; exact if_pos (by simp [hdone, hdue]))

theorem exec_planComplete (hdone : ∀ k t, p.steps[k]? = some t → p.stepDone k t = true) : exec (.planComplete die cid) s
    = .next ((s.dropPlan die cid).finFlight p.stream p.addr (if p.poisoned then 6 else 0) (if p.poisoned then BitVec.ofNat 64 cid else 0)) := by
  unfold exec execPlanComplete
  refine when_next hruns ?_
  rw [hplan]
  refine if_pos (List.all_eq_true.2 fun k _ => ?_)
  split
  · next t ht => exact hdone k t ht
  · rfl

end

/-- A plan in error gives up its tokens and accesses, leaves DBUF unspecified, and completes its record so (R329). -/
theorem State.planError_eq {s : State} {die cid : Nat} {p : Plan} (hplan : s.planOf die cid = some p) (cause : Nat) {u : State}
    (hu : u = (p.out.foldl State.chunkBack s).unitQuit (fun w => match w with | .engine d c _ => d == die && c == cid | _ => false)) :
    s.planError die cid cause
      = ((((u.ruin die p.space p.dbuf p.nbytes).dropPlan die cid).finFlight p.stream p.addr 5 (BitVec.ofNat 64 cid)).logEv 0x000D die 2 [cid, cause]).raise 77 := by
  rw [State.planError, hplan, hu] <;> rfl

end Sys2Proof.Machine
end

section
/-! The obligation about collective plans and their chunks. -/

namespace Sys2Proof.Machine

/-- Settles O18, event by event. After BUSY the chunk is sent again in the same step (log entry 69), and the contents that an error leaves in
DBUF are free values (log entry 61): the model's readings. -/
theorem collectivesComplete : Obligations.CollectivesComplete := by
  unfold Obligations.CollectivesComplete
  refine ⟨fun s u v t n d ws w all hserves hn hrec halign hhead hop hall hheader hsteps hslot hlive hroom => ⟨_, rfl, ?_⟩,
    fun s n => exec_collective_goes, fun s die b => exec_chunkReceive_bad, fun s die b hruns hgood hplan => ⟨fun hroom => ?_, fun hfull => ?_⟩,
    fun s die b k p hruns hgood hk hplan => ⟨fun hsteps hlanded => ?_, fun i t u x q ys hfind hready hstep hkind hwrite => ?_⟩,
    fun s die cid chunk e hruns => exec_chunkHoldExpiry hruns, fun s die cid step chunk p o hruns hplan ho => ⟨exec_chunkAnswer_ack hruns hplan ho,
      fun i busy hi => ⟨fun hbusy htry => ?_, fun t o1 htry ht ho1 => ?_⟩⟩, fun s die cid step p t hruns hplan => exec_stepTimeout hruns hplan,
    fun s u die cid cause p hplan => State.planError_eq hplan cause, fun s die cid p => exec_planComplete⟩
  · rw [exec_collective hserves hn, State.take_of_recordFor hrec, State.collectiveTake_plan halign hhead hop hall,
      State.planStart_valid hheader hsteps hslot hlive hroom]
  · exact exec_chunkReceive_held hruns hgood (State.landChunk_planless hplan) hroom
  · exact exec_chunkReceive_busy hruns hgood (State.landChunk_planless hplan) hfull
  · subst hk
    exact exec_chunkReceive_taken hruns hgood (State.landChunk_duplicate hplan hsteps hlanded)
  · subst hk
    exact exec_chunkReceive_taken hruns hgood (State.landChunk_copy hplan hfind hready hstep hkind hwrite)
  · rw [exec_resends hruns hplan ho hi, hbusy, State.resend_exhausted hplan ho htry]
  · obtain ⟨rfl, rfl⟩ : o.step = step ∧ o.chunk = chunk := by simpa using List.find?_some ho
    have hback : (s.chunkBack o).planOf die cid = some p := (s.chunkBack_planOf o die cid).trans hplan
    have hexec := exec_resends hruns hplan ho hi
    rw [State.resend_eq hplan ho busy htry, ← ho1] at hexec
    obtain ⟨hstep, hchunk⟩ : o1.step = o.step ∧ o1.chunk = o.chunk := by rw [ho1]; exact ⟨rfl, rfl⟩
    rw [← hstep] at ht
    refine ⟨fun lv u h => ?_, fun u h => ?_, fun h => ?_⟩
    · rw [hexec, State.sendAgain_sent hback ht h, hstep, hchunk]
    · rw [hexec, State.sendAgain_refused hback ht h, hstep, hchunk]
    · rw [hexec, State.sendAgain_unreachable hback ht h]

end Sys2Proof.Machine
end

section
/-! SUPPORT. Ridge links and the messages that they carry (R307 to R318, R448). -/

namespace Sys2Proof.Machine

/-! Training and retraining (R307, R312). -/

section
variable {s : State} {link : Nat} (htrains : s.trains link = true)
include htrains

theorem exec_linkTrainingStart (hdown : (s.link link).state = 0) :
    exec (.linkTrainingStart link) s = .next (s.linkState link ({ s.link link with state := 1, lanes := 0 }).fresh) := by
  unfold exec execLinkTrainingStart
  exact when_next (by simp [htrains, hdown]) rfl

section
variable {peer : Nat} {lanes : BitVec 4} (hstate : (s.link link).state = 1)
include hstate

theorem exec_linkTrainingEnd_up {st : Nat} (hup : upState (lanes &&& ~~~(s.link link).faulty) = some st) : exec (.linkTrainingEnd link lanes peer) s
    = .next (s.linkState link ({ s.link link with state := st, lanes := lanes &&& ~~~(s.link link).faulty, peer := peer % 2 ^ 20 }).fresh) := by
  unfold exec execLinkTrainingEnd
  exact when_next (by simp [htrains, hstate]) (by dsimp only; rw [hup])

theorem exec_linkTrainingEnd_down (hdown : upState (lanes &&& ~~~(s.link link).faulty) = none) : exec (.linkTrainingEnd link lanes peer) s
    = .next (s.linkState link ({ s.link link with state := 0, lanes := 0 }).fresh) := by
  unfold exec execLinkTrainingEnd
  exact when_next (by simp [htrains, hstate]) (by dsimp only; rw [hdown])

end

section
variable {lanes m new : BitVec 4} {v : Link} (hv : v = s.link link) (hstate : v.state = 4) (hreplay : v.replay = [])
  (hm : m = lanes &&& ~~~v.faulty) (hnew : new = ~~~lanes &&& ~~~v.faulty)
include hv hstate hreplay hm hnew

theorem exec_linkRetrainEnd_up {st : Nat} {u : State} (hup : upState m = some st)
    (hu : u = s.linkState link ({ v with faulty := v.faulty ||| new, revive := false, state := st, lanes := m }).fresh) :
    exec (.linkRetrainEnd link lanes) s = .next (if new = 0 ∧ ¬ v.revive then u else u.laneEvent link (laneCount m)) := by
  subst hv hm hnew hu
  unfold exec execLinkRetrainEnd
  exact when_next (by simp [htrains, hstate, hreplay]) (by dsimp only; rw [hup])

theorem exec_linkRetrainEnd_retired (hdown : upState m = none) : exec (.linkRetrainEnd link lanes) s = .next ((s.linkState link { v with
    faulty := v.faulty ||| new, revive := false, state := 5, lanes := 0 }).laneEvent link (laneCount m)) := by
  subst hv hm hnew
  unfold exec execLinkRetrainEnd
  exact when_next (by simp [htrains, hstate, hreplay]) (by dsimp only; rw [hdown])

end

end

/-! Flits (R308, R309). -/

/-- A link's view after a flit's credit. -/
def Link.credited (v : Link) (f : Flit) : Link := if f.ccnt = 0 then v else { v with credit := alMod 0 v.credit f.cvc (· + f.ccnt) }

/-- A flit that is discarded: in error, out of sequence, or after one that owes a NAK. -/
def Flit.bad (f : Flit) (v : Link) : Bool := !f.crcOk || (f.typ == 0 && f.seq != v.rx) || (v.nak.isSome && f.typ != 0)

/-- What a flit does to its link: discarded, owing a NAK; else taken. -/
def State.flitTaken (s : State) (link : Nat) (f : Flit) : State :=
  if f.bad (s.link link) then s.setLink link { s.link link with nak := some (((s.link link).rx + 4095) % 4096) }
  else if f.typ = 3 then s
  else
    let v := (s.link link).credited f
    let w := if f.typ = 0 then { v with rx := (v.rx + 1) % 4096, nak := none } else v
    let t := s.setLink link (if f.ackv && f.typ != 2 then { w with replay := released f.ack w.replay } else w)
    if f.typ = 2 then t.nakOn link f.ack else t

section
variable {s : State} {link : Nat} (hserves : s.serves = true) (hlink : link < 64) (hup : (s.link link).up = true)
include hserves hlink hup

theorem exec_flitReceive (bytes : List Byte) (fecC fecU : Nat) : exec (.flitReceive link bytes fecC fecU) s
    = .next (((s.count (1536 + 4 * link + 2) fecC).count (1536 + 4 * link + 3) fecU).flitTaken link (flitOf bytes)) := by
  unfold exec execFlitReceive
  exact when_next (by simp [hserves, hlink, hup]) rfl

theorem exec_nakReceive (last : Nat) : exec (.nakReceive link last) s = .next (s.nakOn link last) := by
  unfold exec execNakReceive
  exact when_next (by simp [hserves, hlink, hup]) rfl

end

section
variable {s : State} {link : Nat} {f : Flit} {v w : Link} (hv : v = s.link link)
include hv

theorem State.flitTaken_bad (h : f.crcOk = false ∨ (f.typ = 0 ∧ f.seq ≠ v.rx) ∨ (v.nak ≠ none ∧ f.typ ≠ 0)) :
    s.flitTaken link f = s.setLink link { v with nak := some ((v.rx + 4095) % 4096) } := by
  subst hv
  refine if_pos ?_
  simpa [Flit.bad, Option.isSome_iff_ne_none, or_assoc] using h

section
variable (hw : w = v.credited f) (hcrc : f.crcOk = true)
include hw hcrc

theorem State.flitTaken_data (htyp : f.typ = 0) (hseq : f.seq = v.rx) : s.flitTaken link f = s.setLink link { w with
    rx := (w.rx + 1) % 4096, nak := none, replay := if f.ackv then released f.ack w.replay else w.replay } := by
  subst hv hw
  have hgood : f.bad (s.link link) = false := by simp [Flit.bad, hcrc, htyp, hseq]
  rw [State.flitTaken, hgood]
  cases f.ackv <;> simp [htyp]

theorem State.flitTaken_idle (htyp : f.typ = 1) (hnak : v.nak = none) : s.flitTaken link f = s.setLink link { w with
    replay := if f.ackv then released f.ack w.replay else w.replay } := by
  subst hv hw
  have hgood : f.bad (s.link link) = false := by simp [Flit.bad, hcrc, htyp, hnak]
  rw [State.flitTaken, hgood]
  cases f.ackv <;> simp [htyp]

theorem State.flitTaken_nak (htyp : f.typ = 2) (hnak : v.nak = none) : s.flitTaken link f = (s.setLink link w).nakOn link f.ack := by
  subst hv hw
  have hgood : f.bad (s.link link) = false := by simp [Flit.bad, hcrc, htyp, hnak]
  rw [State.flitTaken, hgood]
  simp [htyp]

end

end

/-- A NAK replays what follows the last good flit; the fourth replay of one flit retrains the link. -/
theorem State.nakOn_eq {s u : State} {link last : Nat} {sent again : List (Nat × Nat × RMsg)}
    (hsent : sent = (released last (s.link link).replay).take 512)
    (hagain : again = sent.map (fun e => (e.1, e.2.1 + 1, e.2.2)) ++ (released last (s.link link).replay).drop 512)
    (hu : u = ((s.setLink link { s.link link with replay := again, retry := satAdd 65535 (s.link link).retry sent.length }).count
      (1536 + 4 * link) sent.length).count (svc 9) (sent.filter (fun e => e.2.1 == 0)).length) :
    s.nakOn link last = if again.any (fun e => decide (4 ≤ e.2.1)) then u.linkRetrain link else u := by
  subst hsent hagain hu
  simp only [State.nakOn]

/-! Faults, the reference clock and failover (R312, R314, R448). -/

section
variable {s : State}

theorem exec_lanePermanentFault {u : State} {link lane : Nat} {f : BitVec 4} (hserves : s.serves = true) (hlink : link < 64) (hlane : lane < 4)
    (hstate : (s.link link).state ≠ 5) (hf : f = (s.link link).faulty ||| (1#4 <<< lane)) (hu : u = s.setLink link { s.link link with faulty := f }) :
    exec (.lanePermanentFault link lane) s = .next (if f = (s.link link).faulty then s else if 2 ≤ laneCount f then u.linkRetire link
      else if (s.link link).up then (u.laneEvent link 3).linkRetrain link else u.laneEvent link 3) := by
  subst hf hu
  unfold exec execLanePermanentFault
  exact when_next (by simp [hserves, hlink, hlane, hstate]) (by simp only [State.laneFault])

theorem exec_refclkRidgeLoss (hon : s.on = true) (hclk : s.plat.ridgeClk = true) : exec .refclkRidgeLoss s
    = .next ((List.range 64).foldl (fun (t : State) l => t.linkDown l) { s with plat := { s.plat with ridgeClk := false } }) := by
  have he : exec .refclkRidgeLoss s = execRefclkRidgeLoss s := rfl
  rw [he, execRefclkRidgeLoss, when_of_true (by simp [hon, hclk])]

theorem exec_refclkRidgeReturn (hon : s.on = true) (hclk : s.plat.ridgeClk = false) :
    exec .refclkRidgeReturn s = .next { s with plat := { s.plat with ridgeClk := true } } := by
  unfold exec execRefclkRidgeReturn
  exact when_next (by simp [hon, hclk]) rfl

theorem exec_linkFailover {link : Nat} (hserves : s.serves = true) (hlink : link < 64) (hup : (s.link link).up = false) :
    exec (.linkFailover link) s = .next ((s.link link).replay.foldl (fun (t : State) e => t.failoverOne link e)
      (s.setLink link { s.link link with replay := [] })) := by
  unfold exec execLinkFailover
  exact when_next (by simp [hserves, hlink, hup]) (by simp only [State.failover])

end

/-! Messages (R315, R317, R318). -/

/-- What a message for a listed unit of this package does there. -/
def State.deliver (s : State) (link : Nat) (m : RMsg) : State :=
  match m.acc, m.ans, m.coh, m.dead with
  | some a, _, _, _ => s.remoteStart link m a
  | none, some _, some c, _ => s.unreached c.src (s.lineHere c.hpkg c.line)
  | none, some r, none, _ =>
    (match s.req m.req with
     | some q => if q.stage = .sent ∧ (ridgeOf q.levels).isSome then s.reply q.id (accResultOf r) else s
     | none => s)
  | none, none, some c, _ => s.cohArrive c
  | none, none, none, some a => s.noticesHere [a]
  | none, none, none, none => { s with rdgIn := s.rdgIn ++ [m] }

/-- What a message that arrives on a link does. -/
def State.arrive (s : State) (link : Nat) (m : RMsg) : State :=
  if m.dest / 1024 = s.myAddr / 1024 then
    if !(unitListed (m.dest / 128 % 8) (m.dest % 128)) then s.count (svc 11) else s.deliver link m
  else if m.hops = 0 then (s.count (svc 10)).goesNoFurther m
  else
    match s.egress (m.dest / 1024) (msgHash m) with
    | some k => if link / 16 = k / 16 ∨ (s.colRoute (link / 16) (k / 16) 0).isSome then s.ridgeSend k m else s.goesNoFurther m
    | none => s.goesNoFurther m

section
variable {s : State} {link : Nat} {m : RMsg}

theorem exec_ridgeMessageArrive (hserves : s.serves = true) (hlink : link < 64) (hup : (s.link link).up = true) :
    exec (.ridgeMessageArrive link m) s = .next (s.arrive link m) := by
  unfold exec execRidgeMessageArrive
  exact when_next (by simp [hserves, hlink, hup]) rfl

section
variable (hdest : m.dest / 1024 = s.myAddr / 1024)
include hdest

theorem State.arrive_unlisted (h : unitListed (m.dest / 128 % 8) (m.dest % 128) = false) : s.arrive link m = s.count (svc 11) := by
  simp only [State.arrive, hdest, h, Bool.not_false, if_true]

theorem State.arrive_listed (h : unitListed (m.dest / 128 % 8) (m.dest % 128) = true) : s.arrive link m = s.deliver link m := by
  simp only [State.arrive, hdest, h, Bool.not_true, Bool.false_eq_true, if_true, if_false]

end

theorem State.deliver_acc {a : RAcc} (ha : m.acc = some a) : s.deliver link m = s.remoteStart link m a := by
  simp only [State.deliver, ha]

section
variable (hacc : m.acc = none)
include hacc

theorem State.deliver_ans {x : RAns} {q : Req} (hans : m.ans = some x) (hcoh : m.coh = none) (hreq : s.req m.req = some q) (hsent : q.stage = .sent)
    (hridge : (ridgeOf q.levels).isSome = true) : s.deliver link m = s.reply q.id (accResultOf x) := by
  simp only [State.deliver, hacc, hans, hcoh, hreq, hsent, hridge, and_self, if_true]

variable (hans : m.ans = none)
include hans

theorem State.deliver_coh {c : CMsg} (hcoh : m.coh = some c) : s.deliver link m = { s with msgs := s.msgs ++ [{ c with line := s.lineHere c.hpkg c.line }] } := by
  simp only [State.deliver, hacc, hans, hcoh, State.cohArrive]

variable (hcoh : m.coh = none)
include hcoh

theorem State.deliver_dead {a : Nat} (hdead : m.dead = some a) : s.deliver link m = s.noticesHere [a] := by
  simp only [State.deliver, hacc, hans, hcoh, hdead]

theorem State.deliver_unit (hdead : m.dead = none) : s.deliver link m = { s with rdgIn := s.rdgIn ++ [m] } := by
  simp only [State.deliver, hacc, hans, hcoh, hdead]

end

section
variable (hdest : m.dest / 1024 ≠ s.myAddr / 1024)
include hdest

theorem State.arrive_forwarded {k : Nat} (hhops : m.hops ≠ 0) (hegress : s.egress (m.dest / 1024) (msgHash m) = some k)
    (hroute : link / 16 = k / 16 ∨ (s.colRoute (link / 16) (k / 16) 0).isSome = true) : s.arrive link m = s.ridgeSend k m := by
  rw [State.arrive, if_neg hdest, if_neg hhops, hegress]
  exact if_pos hroute

theorem State.arrive_exhausted (hhops : m.hops = 0) : s.arrive link m = (s.count (svc 10)).goesNoFurther m := by
  rw [State.arrive, if_neg hdest, if_pos hhops]

end

end

end Sys2Proof.Machine
end

section
/-! The obligation about Ridge links and messages. -/

namespace Sys2Proof.Machine

/-- Settles O33, event by event: links that train and retrain, flits, faults, and messages that arrive. How the hop limit stands in an arriving
message is the model's reading (log entry 40). -/
theorem ridgeLinksComplete : Obligations.RidgeLinksComplete := by
  unfold Obligations.RidgeLinksComplete
  refine ⟨fun s link => exec_linkTrainingStart, fun s link peer lanes m htrains hstate hm => ⟨fun st hup => ?_, fun hdown => ?_⟩,
    fun s link lanes m new v htrains hv hstate hreplay hm hnew => ⟨fun st u => exec_linkRetrainEnd_up htrains hv hstate hreplay hm hnew,
      exec_linkRetrainEnd_retired htrains hv hstate hreplay hm hnew⟩,
    fun s u link fecC fecU bytes f v w hserves hlink hup hf hu hv hw => ?_,
    fun s u link last sent again hserves hlink hup hsent hagain hu => ?_,
    fun s u link lane f => exec_lanePermanentFault, fun s => exec_refclkRidgeLoss, fun s => exec_refclkRidgeReturn, fun s link => exec_linkFailover,
    fun s link m hserves hlink hup hdest => ?_, fun s link k m hserves hlink hup hdest => ?_⟩
  · subst hm
    exact exec_linkTrainingEnd_up htrains hstate hup
  · subst hm
    exact exec_linkTrainingEnd_down htrains hstate hdown
  · rw [exec_flitReceive hserves hlink hup, ← hf, ← hu]
    exact ⟨fun h => congrArg _ (State.flitTaken_bad hv h), fun hcrc htyp hseq => congrArg _ (State.flitTaken_data hv hw hcrc htyp hseq),
      fun hcrc htyp hnak => congrArg _ (State.flitTaken_idle hv hw hcrc htyp hnak),
      fun hcrc htyp hnak => congrArg _ (State.flitTaken_nak hv hw hcrc htyp hnak)⟩
  · rw [exec_nakReceive hserves hlink hup, State.nakOn_eq hsent hagain hu]
  · rw [exec_ridgeMessageArrive hserves hlink hup]
    refine ⟨fun h => congrArg _ (State.arrive_unlisted hdest h), fun h => ?_⟩
    rw [State.arrive_listed hdest h]
    exact ⟨fun a ha => congrArg _ (State.deliver_acc ha),
      fun x q hacc hans hcoh hreq hsent hridge => congrArg _ (State.deliver_ans hacc hans hcoh hreq hsent hridge),
      fun c hacc hans hcoh => congrArg _ (State.deliver_coh hacc hans hcoh),
      fun a hacc hans hcoh hdead => congrArg _ (State.deliver_dead hacc hans hcoh hdead),
      fun hacc hans hcoh hdead => congrArg _ (State.deliver_unit hacc hans hcoh hdead)⟩
  · rw [exec_ridgeMessageArrive hserves hlink hup]
    exact ⟨fun hhops hegress hroute => congrArg _ (State.arrive_forwarded hdest hhops hegress hroute),
      fun hhops => congrArg _ (State.arrive_exhausted hdest hhops)⟩

end Sys2Proof.Machine
end

section
/-! SUPPORT. The broadcast tree of a job start: its messages and the times after which a member is lost (R331 to R335, R439). -/

namespace Sys2Proof.Machine

/-- The acknowledged members of a broadcast once a child has answered. -/
def Bcast.ackedWith (b : Bcast) (child : Nat) : List Nat := if child ∈ b.acked then b.acked else b.acked ++ [child]

theorem Bcast.with_acked (b : Bcast) (child : Nat) :
    (if b.acked.contains child then b else { b with acked := b.acked ++ [child] }) = { b with acked := b.ackedWith child } := by
  unfold Bcast.ackedWith
  by_cases h : child ∈ b.acked
  · rw [if_pos (List.contains_iff_mem.2 h), if_pos h]
  · rw [if_neg (fun hc => h (List.contains_iff_mem.1 hc)), if_neg h]

/-- A member's re-feed that stands in a state, as the model looks for it. -/
theorem Bcast.refeed_any {b : Bcast} {child st : Nat} {r : Refeed} (hr : r ∈ b.refeeds) (halt : r.alt = child) (hst : r.state = st) :
    b.refeeds.any (fun r => r.alt == child && r.state == st) = true :=
  List.any_eq_true.2 ⟨r, hr, by simp [halt, hst]⟩

section
variable {s : State} (hserves : s.serves = true)
include hserves

/-! START and REFEED (R332, R334, R439). -/

section
variable {m : StartMsg}

section
variable {u : State} {base log2 : Nat} (hnew : s.bcastOf m.bid = none) (hring : s.cfg.startRing = some (base, log2))
include hnew hring

theorem exec_startMsg_new {b : Bcast} (hput : s.ringWrite .hub 3 (base + 4096 * (s.starts % 2 ^ log2)) m.payload = (true, u))
    (hb : b = { bid := m.bid, root := none, parents := [m.sender], index := m.index, n := m.n, f := m.f, members := m.members
                payload := m.payload, children := firstChildren m.f m.n m.index u.now, refeeds := [], acked := [], unreached := []
                refed := [], doneSent := false, dbuf := 0, space := 0 }) :
    exec (.startMsg m) s = .next ((b.children.foldl (fun (t : State) c => t.sendStart b c.index)
      (((({ u with starts := u.starts + 1 }).logEv 0x000E 4 0 [m.bid, s.starts % 2 ^ log2, m.payload.length, m.sender]).addBcast b).bcSend
        m.bid 1 m.sender m.index)).settle m.bid) := by
  subst hb
  unfold exec execStartMsg
  exact when_next hserves (by
    dsimp only
    rw [hnew, hring]
    dsimp only
    rw [hput]
    rfl)

theorem exec_startMsg_unwritten (hput : s.ringWrite .hub 3 (base + 4096 * (s.starts % 2 ^ log2)) m.payload = (false, u)) :
    exec (.startMsg m) s = .next u := by
  unfold exec execStartMsg
  exact when_next hserves (by
    dsimp only
    rw [hnew, hring]
    dsimp only
    rw [hput]
    rfl)

end

section
variable {u : State} {b : Bcast} (hheld : s.bcastOf m.bid = some b)
include hheld

theorem exec_startMsg_again (hu : u = (s.setBcast { b with
      parents := if b.parents.contains m.sender then b.parents else b.parents ++ [m.sender] }).bcSend m.bid 1 m.sender b.index) :
    exec (.startMsg m) s = .next (if b.doneSent then u.bcSend m.bid 2 m.sender b.index else u) := by
  subst hu
  unfold exec execStartMsg
  exact when_next hserves (by dsimp only; rw [hheld])

section
variable (hu : u = s.bcSend m.bid 1 m.sender b.index)
include hu

theorem exec_refeed_new (hchild : b.childState m.index = none) : exec (.refeed m) s = .next ((u.setBcast { b with
    children := b.children ++ [({ index := m.index, state := 0, since := s.now } : Child)], refed := b.refed ++ [m.index] }).sendStart b m.index) := by
  subst hu
  unfold exec execRefeed
  exact when_next hserves (by dsimp only; rw [hheld]; dsimp only; rw [hchild])

theorem exec_refeed_child {st : Nat} (hchild : b.childState m.index = some st) :
    exec (.refeed m) s = .next (if 3 ≤ st then u.bcSend m.bid 5 m.sender m.index
      else u.setBcast { b with refed := if m.index ∈ b.refed then b.refed else b.refed ++ [m.index] }) := by
  subst hu
  unfold exec execRefeed
  exact when_next hserves (by dsimp only; rw [hheld]; dsimp only; rw [hchild]; simp only [List.contains_iff_mem])

end

end

end

/-! ACK, DONE, UNREACHED, REFEED_DONE and the two times (R333, R334). -/

section
variable {bid : Nat} {b : Bcast} (hheld : s.bcastOf bid = some b)
include hheld

section
variable {child : Nat}

theorem exec_startAck_child (hchild : b.childState child = some 0 ∨ b.childState child = some 1) :
    exec (.startAck bid child) s = .next (s.setBcast ({ b with acked := b.ackedWith child }.setChild child 2 s.now)) := by
  unfold exec execStartAck
  refine when_next hserves ?_
  dsimp only
  rw [hheld]
  dsimp only
  rw [Bcast.with_acked]
  rcases hchild with h | h
  · rw [h]; rfl
  · rw [h]; rfl

theorem exec_startAck_refeed {k : Nat} (hchild : b.childState child = none)
    (hrefeed : indexWhere (fun (r : Refeed) => r.alt == child && r.state == 0) b.refeeds = some k) :
    exec (.startAck bid child) s = .next (s.setBcast { b with
      acked := b.ackedWith child, refeeds := updNth b.refeeds k (fun r => { r with state := 1, since := s.now }) }) := by
  unfold exec execStartAck
  exact when_next hserves (by
    dsimp only
    rw [hheld]
    dsimp only
    rw [Bcast.with_acked, hchild]
    dsimp only
    rw [hrefeed])

theorem exec_doneMsg {st : Nat} (hchild : b.childState child = some st) (hst : st < 3) :
    exec (.doneMsg bid child) s = .next ((s.childEnd b child 3).settle bid) := by
  unfold exec execDoneMsg
  exact when_next hserves (by rw [hheld]; exact if_pos (by simp [hchild, hst]))

section
variable (hsilent : b.silent child s.now b.tack 0 = true)
include hsilent

theorem exec_tackTimeout_again (hchild : b.childState child = some 0) :
    exec (.tackTimeout bid child) s = .next ((s.setBcast (b.setChild child 1 s.now)).sendStart b child) := by
  unfold exec execTackTimeout
  exact when_next hserves (by rw [hheld]; dsimp only; rw [if_neg (by simp [hsilent]), hchild]; rfl)

theorem exec_tackTimeout_lost (hchild : b.childState child = some 1) : exec (.tackTimeout bid child) s = .next (s.lose b child) := by
  unfold exec execTackTimeout
  exact when_next hserves (by rw [hheld]; dsimp only; rw [if_neg (by simp [hsilent]), hchild]; rfl)

theorem exec_tackTimeout_refeed {r : Refeed} (hchild : b.childState child = none) (hr : r ∈ b.refeeds) (halt : r.alt = child) (hst : r.state = 0) :
    exec (.tackTimeout bid child) s = .next (s.lose b child) := by
  unfold exec execTackTimeout
  exact when_next hserves (by
    rw [hheld]
    dsimp only
    rw [if_neg (by simp [hsilent]), hchild]
    exact if_pos (Bcast.refeed_any hr halt hst))

end

section
variable (hsilent : b.silent child s.now b.tdone 1 = true)
include hsilent

/-- A child, or an alternate parent, that waits for nothing but DONE is lost when TDONE has passed (R333, R334). -/
theorem exec_tdoneTimeout_of_waiting
    (hwaits : b.childState child = some 2 ∨ b.refeeds.any (fun r => r.alt == child && r.state == 1) = true) :
    exec (.tdoneTimeout bid child) s = .next (s.lose b child) := by
  unfold exec execTdoneTimeout
  exact when_next hserves (by
    rw [hheld]
    dsimp only
    rw [if_neg (by simp [hsilent])]
    exact if_pos (by simpa only [Bool.or_eq_true, beq_iff_eq] using hwaits))

end

end

theorem exec_unreached {member : Nat} (hroot : b.root ≠ none) (hmember : member ≠ 0) (hn : member < b.n) :
    exec (.unreached bid member) s = .next ((s.rootUnreached bid member).settle bid) := by
  unfold exec execUnreached
  exact when_next hserves (by
    rw [hheld]
    exact if_pos (by simp [Option.isSome_iff_ne_none, hroot, hmember, hn]))

theorem exec_refeedDone {alt member : Nat} : exec (.refeedDone bid alt member) s = .next ((s.setBcast { b with
    refeeds := b.refeeds.map (fun r => if r.alt = alt ∧ r.sub = member ∧ r.state < 2 then { r with state := 2 } else r) }).settle bid) := by
  unfold exec execRefeedDone
  exact when_next hserves (by rw [hheld])

end

end

end Sys2Proof.Machine
end

section
/-! The obligation about job starts. -/

namespace Sys2Proof.Machine

/-- Settles O34, message by message. That the broadcast a START makes holds TACK and TDONE 0 on a package that is not the root, so that its
children time out at once, is the model's reading (log entry 39). -/
theorem jobStartsComplete : Obligations.JobStartsComplete := by
  unfold Obligations.JobStartsComplete
  exact ⟨fun s u m base log2 b hserves hnew hring hput hb => exec_startMsg_new hserves hnew hring hput hb,
    fun s u m base log2 hserves => exec_startMsg_unwritten hserves,
    fun s u m b hserves hheld => exec_startMsg_again hserves hheld,
    fun s bid child b a hserves hheld ha => by
      subst ha
      exact ⟨exec_startAck_child hserves hheld, fun k => exec_startAck_refeed hserves hheld⟩,
    fun s bid child st b hserves hheld => exec_doneMsg hserves hheld,
    fun s bid member b hserves hheld => exec_unreached hserves hheld,
    fun s u m b hserves hheld hu => ⟨exec_refeed_new hserves hheld hu, fun st => exec_refeed_child hserves hheld hu⟩,
    fun s bid alt member b hserves hheld => exec_refeedDone hserves hheld,
    fun s bid child b hserves hheld =>
      ⟨fun hsilent => ⟨exec_tackTimeout_again hserves hheld hsilent, exec_tackTimeout_lost hserves hheld hsilent,
        fun r => exec_tackTimeout_refeed hserves hheld hsilent⟩,
      fun hsilent => ⟨fun hchild => exec_tdoneTimeout_of_waiting hserves hheld hsilent (.inl hchild),
        fun r hr halt hst => exec_tdoneTimeout_of_waiting hserves hheld hsilent (.inr (Bcast.refeed_any hr halt hst))⟩⟩⟩

end Sys2Proof.Machine
end

section
/-! SUPPORT. Format A integer arithmetic: a product, minimum or condition of the model in the terms of Table 3.8. -/

namespace Sys2Proof.Machine

/-- A signed condition holds of the difference exactly when it holds between the two values (R52). -/
theorem cmpHolds_sub (x y : Int) : cmpHolds 0 (x - y) = decide (x = y) ∧ cmpHolds 1 (x - y) = decide (x ≠ y)
    ∧ cmpHolds 2 (x - y) = decide (x < y) ∧ cmpHolds 3 (x - y) = decide (x ≤ y)
    ∧ cmpHolds 4 (x - y) = decide (y < x) ∧ cmpHolds 5 (x - y) = decide (y ≤ x) := by
  simp only [cmpHolds, decide_eq_decide]
  omega

/-- An instruction whose command is an issue of its own key has the effect of its body. -/
theorem effect_of_issue {cmd : CrewId → W64 → Instr} {key : Nat} {f : CrewId → W64 → State → Issue → State} {eff : State → Issue → State}
    (hx : ∀ c w s, exec (cmd c w) s = .next (s.issue c w key (f c w))) (he : ∀ u i, f i.c i.w u i = eff u i) : Effect cmd key eff := by
  intro s u c w i h
  obtain ⟨rfl, rfl⟩ := State.issues_issue h
  rw [hx, State.issue_of_issues h, he]

/-- SREAD writes its special register, index 13 latching the high half of domain time as well (R68). -/
theorem effect_sread : Effect .sread 0x02 (fun u i => u.done i (if wfld i.w 32 4 = 13
    then { i.each (wfld i.w 16 8) 1 (fun l => u.special i.c i.v l 13) with dtimeHi := BitVec.ofNat 32 (u.now / 2 ^ 32) }
    else i.each (wfld i.w 16 8) 1 (fun l => u.special i.c i.v l (wfld i.w 32 4)))) :=
  effect_of_issue (fun _ _ _ => rfl) fun u i => by
    by_cases hk : wfld i.w 32 4 = 13
    · simp only [hk]
    · simp only [if_neg hk]

theorem exec_umin (c : CrewId) (w : W64) (s : State) :
    exec (.umin c w) s = s.formatA c w 0x10 (fun _ a b _ => if a ≤ b then a else b) := rfl

theorem exec_umax (c : CrewId) (w : W64) (s : State) :
    exec (.umax c w) s = s.formatA c w 0x11 (fun _ a b _ => if a ≤ b then b else a) := rfl

/-- BFX shifts down by the position and keeps the width, 0 meaning 32 (R78). -/
theorem bfx_eq (a b : Nat) : fld a (fld b 0 5) (if fld b 8 5 = 0 then 32 else fld b 8 5)
    = a / 2 ^ (b % 32) % 2 ^ (if b / 256 % 32 = 0 then 32 else b / 256 % 32) := by
  simp only [fld, Nat.shiftRight_eq_div_pow, Nat.reducePow, Nat.div_one]

theorem exec_bfx (c : CrewId) (w : W64) (s : State) : exec (.bfx c w) s
    = s.formatA c w 0x1B (fun _ a b _ => a / 2 ^ (b % 32) % 2 ^ (if b / 256 % 32 = 0 then 32 else b / 256 % 32)) := by
  simp only [← bfx_eq]
  rfl

end Sys2Proof.Machine
end

section
/-! The obligation about format A integer instructions. -/

namespace Sys2Proof.Machine

/-- Settles O19: every command but SEL, SREAD and ISETP is a function of its type and sources, and its clause is that function. -/
theorem integerInstructionsComplete : Obligations.IntegerInstructionsComplete := by
  unfold Obligations.IntegerInstructionsComplete
  refine ⟨effectA_of_formatA fun _ _ _ => rfl, effect_of_issue (fun _ _ _ => rfl) fun _ _ => rfl, effect_sread,
    effectA_of_formatA fun _ _ _ => rfl, effectA_of_formatA fun _ _ _ => rfl, effectA_of_formatA fun _ _ _ => rfl,
    effectA_of_formatA fun _ _ _ => rfl, effectA_of_formatA fun _ _ _ => rfl, effectA_of_formatA fun _ _ _ => rfl,
    effectA_of_formatA fun _ _ _ => rfl, effectA_of_formatA fun _ _ _ => rfl, effectA_of_formatA exec_umin,
    effectA_of_formatA exec_umax, effectA_of_formatA fun _ _ _ => rfl, effectA_of_formatA fun _ _ _ => rfl,
    effectA_of_formatA fun _ _ _ => rfl, effectA_of_formatA fun _ _ _ => rfl, effectA_of_formatA fun _ _ _ => rfl,
    effectA_of_formatA fun _ _ _ => rfl, effectA_of_formatA fun _ _ _ => rfl, effectA_of_formatA fun _ _ _ => rfl,
    effectA_of_formatA fun _ _ _ => rfl, effectA_of_formatA exec_bfx, effect_of_formatP fun _ _ _ => rfl, fun n a b => ?_⟩
  obtain ⟨heq, hne, hlt, hle, hgt, hge⟩ := cmpHolds_sub (signed n a) (signed n b)
  exact ⟨heq, hne, hlt, hle, hgt, hge, rfl, rfl, rfl, rfl⟩

end Sys2Proof.Machine
end

section
/-! SUPPORT. Crew instructions as one kind: each of the 65 issues under its own key, and does nothing while its crew may not issue. -/

namespace Sys2Proof.Machine

/-- The command issues an instruction of a crew: nothing but an issue happens in its step (R73). -/
def IssuesOnly (op : CrewId → W64 → Instr) : Prop :=
  ∀ c w s, ∃ key ready f, exec (op c w) s = .next (s.issueIf c w key ready f)

/-- The 65 crew instructions; `lost` are the L1 sectors in which a load meets an uncorrectable error. -/
def crewInstrs (lost : List Nat) : List (CrewId → W64 → Instr) :=
  [Instr.mov, .sel, .sread, .iadd, .isub, .imul, .imulhi, .imulhu, .imad, .imin, .imax, .umin, .umax, .and, .or, .xor, .not,
    .shl, .shr, .sar, .popc, .clz, .bfx, .isetp, .fadd, .fsub, .fmul, .ffma, .fmin, .fmax, .fsetp, .cvt,
    fun c w => .ld c w lost, .st, .bcopy, .nop, .bra, .brx, .call, .ret, .exit, .trap, .brk, .bar, .fenceAcq, .fenceRel,
    .fenceAr, .atom, .red, .redl, .shfl, .vote, .bwait, .waitf, .pause, .mma, .mmap, .accld, .accst, .mwait, .eprun, .vget,
    .vput, .vflags, .vwait]

theorem crewInstrs_issueOnly (lost : List Nat) : ∀ op ∈ crewInstrs lost, IssuesOnly op := by
  simp only [crewInstrs, List.forall_mem_cons, List.not_mem_nil, IsEmpty.forall_iff, implies_true, and_true]
  and_intros
  all_goals exact fun c w s => ⟨_, _, _, rfl⟩

section
variable {s : State} {c : CrewId}

/-- A crew that may issue: the package is in Run, the die and tile run, the crew is there, unparked and with no open fence, and its path is ready
or an instruction that the path has left is replayed. -/
theorem State.runs_of_issuable {v : Crew} {l : Launch} (h : s.issuable c = some (v, l)) :
    s.crew c = some v ∧ s.serves = true ∧ s.power.pstate = 0 ∧ s.dieLive c.die = true
      ∧ ((s.tile c.die c.tile).halted = false ∨ (s.tile c.die c.tile).stepping = some c.slot) ∧ v.parked = none ∧ v.fence = none
      ∧ ((∃ p, v.paths[v.cur]? = some p ∧ p.wait = .none) ∨ v.replay ≠ none) := by
  obtain ⟨hv, hl⟩ := State.issuable_crew h
  unfold State.issuable at h
  simp only [hv, hl, Option.ite_none_right_eq_some] at h
  obtain ⟨hc, -⟩ := h
  simp only [Bool.and_eq_true, decide_eq_true_eq, Bool.or_eq_true, Bool.not_eq_true', beq_iff_eq, Option.isNone_iff_eq_none] at hc
  obtain ⟨⟨⟨⟨⟨⟨⟨hserves, hrun⟩, hlive⟩, htile⟩, hparked⟩, hready⟩, hfence⟩, -⟩ := hc
  refine ⟨hv, hserves, hrun, hlive, htile, hparked, hfence, ?_⟩
  cases hp : v.paths[v.cur]? with
  | none => simp [hp] at hready
  | some p =>
    by_cases hw : p.wait = .none
    · exact .inl ⟨p, rfl, hw⟩
    · exact .inr fun hn => by simp [hp, hw, hn] at hready

/-- A fence whose conditions do not hold stays (R180). -/
theorem State.tryFence_of_unmet (h : ∀ v k sc, s.crew c = some v → v.fence = some (k, sc) → s.fenceMet c k sc = false) :
    s.tryFence c = s := by
  unfold State.tryFence
  split
  · rfl
  · rename_i k sc hf
    obtain ⟨v, hv, hfence⟩ := Option.bind_eq_some_iff.mp hf
    simp [h v k sc hv hfence]

/-- While its crew may not issue and no fence of it completes, an instruction does nothing (R73). -/
theorem State.issueIf_of_still (hissue : s.issuable c = none) (hfence : s.tryFence c = s) (w : W64) (key : Nat)
    (ready : State → Crew → Bool) (f : State → Issue → State) : s.issueIf c w key ready f = s := by
  simp only [State.issueIf, hissue, hfence, ite_self]

end

end Sys2Proof.Machine
end

section
/-! SUPPORT. An instruction at hand in a crew's instruction buffer issues. -/

namespace Sys2Proof.Machine

section
variable {s : State} {c : CrewId} {v : Crew} {l : Launch}

/-- A crew of a launch on a die and tile that run, unparked, with no open fence and no failed access, whose path is ready, may issue. -/
theorem State.issuable_of_ready {p : Path} (hserves : s.serves = true) (hrun : s.power.pstate = 0) (hlive : s.dieLive c.die = true)
    (htile : (s.tile c.die c.tile).halted = false) (hcrew : s.crew c = some v) (hlaunch : s.launchOf c = some l) (hparked : v.parked = none)
    (hfence : v.fence = none) (hgroups : ∀ g ∈ v.groups, g.fault = 0) (hpath : v.paths[v.cur]? = some p) (hwait : p.wait = .none) :
    s.issuable c = some (v, l) := by
  simpa [State.issuable, hcrew, hlaunch, hserves, hrun, hlive, htile, hparked, hfence, hpath, hwait] using hgroups

/-- A word that the instruction buffer holds at an aligned address of the virtual space is fetched at once (R75, R83). -/
theorem State.fetch_of_buffered {pc : Nat} {w : W64} (space lid : Nat) (halign : pc % 8 = 0) (hspace : pc < 2 ^ 52)
    (hbuf : (s.tile c.die c.tile).ibuf.find? (fun e => e.1 == pc) = some (pc, w)) : s.fetch c space pc lid w = .ok s := by
  have hpc : ¬ (pc % 8 ≠ 0 ∨ 2 ^ 52 ≤ pc) := by omega
  simp only [State.fetch, if_neg hpc, hbuf, if_pos]

/-- The checks pass for a legal word whose unit is allotted and whose registers exist and are at hand (R66, R72, R77). -/
theorem State.passes_of_legal {i : Issue} (hlegal : illegalOp i.w = false) (hacc : wfld i.w 0 3 = 2 → l.acc ≠ 0)
    (hee : wfld i.w 0 3 = 3 → l.ee ≠ 0) (hregs : regTrap l.nreg (namesOf i.w) = none)
    (hfree : ∀ e ∈ namesOf i.w, s.pendingReg i.c e.1 e.2.1 e.2.2 = false) : s.passes i l = some (i, s.stepped i.c) := by
  have hpend : (namesOf i.w).any (fun e => s.pendingReg i.c e.1 e.2.1 e.2.2) = false :=
    List.any_eq_false.mpr fun e he => by simp [hfree e he]
  refine if_neg ?_
  simp only [hlegal, hregs, hpend, Bool.or_eq_true, Bool.and_eq_true, beq_iff_eq, Option.isSome_none, Bool.false_eq_true, false_or, or_false]
  exact fun h => h.elim (fun ha => hacc ha.1 ha.2) (fun he => hee he.1 he.2)

/-- A crew that may issue, with no half-submitted BCOPY and nothing to replay, issues the word it fetches for the lanes that meet the guard, where
no breakpoint stands. -/
theorem State.issues_of_fetched {w : W64} {x : Issue × State} (hlisted : listed (opKey w) = true) (hissue : s.issuable c = some (v, l))
    (hsub : v.subLeft = none) (hreplay : v.replay = none) (hfetch : s.fetch c l.space v.pc l.id w = .ok s) (hpart : v.part w ≠ 0)
    (hbreak : s.breakAt c.die v.pc = none)
    (hpasses : s.passes { c := c, w := w, pc := v.pc, active := v.active, part := v.part w, late := false, v := v } l = some x) :
    s.issues c w (opKey w) = some x := by
  have hgo : ¬ (v.part w = 0 ∨ (s.breakAt c.die v.pc).isSome = true) := by
    rw [hbreak]
    exact fun h => h.elim hpart (by simp)
  rw [State.issues, if_pos ⟨rfl, hlisted⟩]
  simp only [hissue, hsub, hreplay, hfetch, if_neg hgo, hpasses]

end

end Sys2Proof.Machine
end

section
/-! The obligation about crews that may not issue. -/

namespace Sys2Proof.Machine

/-- Settles O51: every crew instruction is an issue, and an issue asks first whether its crew may issue. That a command whose condition does not
hold leaves the state as it was is log entry 2; that any crew whose condition holds may be the one to issue is log entry 57. -/
theorem crewsThatMayNotIssueDoNothing : Obligations.CrewsThatMayNotIssueDoNothing := by
  unfold Obligations.CrewsThatMayNotIssueDoNothing
  refine ⟨fun s c w lost op hop hfence hstill => ?_,
    fun s c w v l p hserves hrun hlive htile hcrew hlaunch hparked hfence hgroups hsub hreplay hpath hwait halign hspace hbuf hpart hbreak hlisted
      hlegal hacc hee hregs hfree => ?_⟩
  · obtain ⟨key, ready, f, hx⟩ := crewInstrs_issueOnly lost op hop c w s
    have hissue : s.issuable c = none := by
      rw [Option.eq_none_iff_forall_not_mem]
      rintro ⟨v, l⟩ hvl
      obtain ⟨hv, hserves, hrun, hlive, htile, hparked, hopen, hready⟩ := State.runs_of_issuable hvl
      rcases hstill with h | h | h | ⟨hhalt, hstep⟩ | h | ⟨u, hu, h⟩
      · simp [h] at hserves
      · exact h hrun
      · simp [h] at hlive
      · exact htile.elim (fun h => by simp [h] at hhalt) hstep
      · simp [h] at hv
      · obtain rfl : u = v := Option.some.inj (hu.symm.trans hv)
        rcases h with h | h | ⟨hwaits, hnone⟩
        · simp [hparked] at h
        · simp [hopen] at h
        · exact hready.elim (fun ⟨p, hp, hw⟩ => hwaits p hp hw) (fun hr => hr hnone)
    rw [hx, State.issueIf_of_still hissue (State.tryFence_of_unmet hfence)]
  · exact State.issues_of_fetched hlisted (State.issuable_of_ready hserves hrun hlive htile hcrew hlaunch hparked hfence hgroups hpath hwait) hsub
      hreplay (State.fetch_of_buffered _ _ halign hspace hbuf) hpart hbreak (State.passes_of_legal hlegal hacc hee hregs hfree)

end Sys2Proof.Machine
end

section
/-! SUPPORT. Register files and predicates: what a write changes, register by register (R66). -/

namespace Sys2Proof.Machine

section
variable (v : Crew) (uni : Bool) (lane r n x : Nat)

/-- A register's place in the table of a crew's g registers, with no two registers at one place. -/
theorem gKey_inj {lane lane' r r' : Nat} (hr : r < 256) (hr' : r' < 256) : lane' * 256 + r' = lane * 256 + r ↔ lane' = lane ∧ r' = r := by
  omega

theorem Crew.set_p : (v.set uni lane r x).p = v.p := by
  unfold Crew.set
  split_ifs <;> rfl

theorem Crew.setN_p : (v.setN uni lane r n x).p = v.p := by
  unfold Crew.setN
  split
  · rfl
  · generalize List.range n = l
    induction l generalizing v with
    | nil => rfl
    | cons k l ih => rw [List.foldl_cons, ih, Crew.set_p]

theorem Crew.setN_getP (lane' j : Nat) : (v.setN uni lane r n x).getP lane' j = v.getP lane' j := by
  simp only [Crew.getP, Crew.setN_p]

/-- A g register after a write of a register. -/
theorem Crew.set_getG {lane' r' : Nat} (hr : r < 255) (hr' : r' < 255) :
    (v.set uni lane r x).getG lane' r' = if uni = false ∧ lane' = lane ∧ r' = r then BitVec.ofNat 32 x else v.getG lane' r' := by
  have h255 : r' ≠ 255 := by omega
  cases uni with
  | true => simp [Crew.set, Crew.getG, hr.ne]
  | false => simp [Crew.set, Crew.getG, hr.ne, h255, alGet_alPut, gKey_inj (show r < 256 by omega) (show r' < 256 by omega)]

/-- A u register after a write of a register. -/
theorem Crew.set_getU {r' : Nat} (hr : r < 255) (hr' : r' < 255) :
    (v.set uni lane r x).getU r' = if uni = true ∧ r' = r then BitVec.ofNat 32 x else v.getU r' := by
  have h255 : r' ≠ 255 := by omega
  cases uni with
  | true => simp [Crew.set, Crew.getU, hr.ne, h255, alGet_alPut]
  | false => simp [Crew.set, Crew.getU, hr.ne]

end

/-- The writes of a group one after the other keep whatever each of them keeps. -/
theorem Crew.setN_keeps {β : Type} (F : Crew → β) {uni : Bool} {lane r n x : Nat}
    (h : ∀ (v : Crew) k, k < n → F (v.set uni lane (r + k) (fld x (32 * k) 32)) = F v) (v : Crew) : F (v.setN uni lane r n x) = F v := by
  unfold Crew.setN
  split
  · rfl
  · have hall : ∀ k ∈ List.range n, k < n := fun k hk => List.mem_range.mp hk
    generalize List.range n = l at hall
    induction l generalizing v with
    | nil => rfl
    | cons k l ih =>
      rw [List.foldl_cons, ih _ fun j hj => hall j (List.mem_cons_of_mem _ hj), h v k (hall k List.mem_cons_self)]

/-- A g register that a group does not hold is as before. -/
theorem Crew.setN_getG_other {uni : Bool} {lane r n lane' r' : Nat} (hr : r + n ≤ 255) (hr' : r' < 255)
    (h : uni = true ∨ lane' ≠ lane ∨ r' < r ∨ r + n ≤ r') (v : Crew) (x : Nat) : (v.setN uni lane r n x).getG lane' r' = v.getG lane' r' := by
  refine Crew.setN_keeps (fun u => u.getG lane' r') (fun u k hk => ?_) v
  rw [Crew.set_getG u uni lane (r + k) _ (by omega) hr', if_neg]
  rintro ⟨rfl, rfl, rfl⟩
  simp at h
  omega

/-- A u register that a group does not hold is as before. -/
theorem Crew.setN_getU_other {uni : Bool} {lane r n r' : Nat} (hr : r + n ≤ 255) (hr' : r' < 255)
    (h : uni = false ∨ r' < r ∨ r + n ≤ r') (v : Crew) (x : Nat) : (v.setN uni lane r n x).getU r' = v.getU r' := by
  refine Crew.setN_keeps (fun u => u.getU r') (fun u k hk => ?_) v
  rw [Crew.set_getU u uni lane (r + k) _ (by omega) hr', if_neg]
  rintro ⟨rfl, rfl⟩
  simp at h
  omega

section
variable (v : Crew) (uni : Bool) (lane : Nat)

theorem Crew.setN_255 (n x : Nat) : v.setN uni lane 255 n x = v := rfl
theorem Crew.getN_255 (n : Nat) : v.getN uni lane 255 n = 0 := rfl

/-- A register of either file as it reads after it or another was written. -/
theorem Crew.get_set {r r' : Nat} (hr : r < 255) (hr' : r' < 255) (x : Nat) :
    (v.set uni lane r x).get uni lane r' = if r' = r then x % 2 ^ 32 else v.get uni lane r' := by
  cases uni with
  | true =>
    simp only [Crew.get, if_true, Crew.set_getU v true lane r x hr hr', true_and]
    split <;> simp
  | false =>
    simp only [Crew.get, Bool.false_eq_true, if_false, Crew.set_getG v false lane r x hr hr', true_and]
    split <;> simp

theorem sum_range_one (f : Nat → Nat) : ((List.range 1).map f).foldl (· + ·) 0 = f 0 := Nat.zero_add _
theorem sum_range_two (f : Nat → Nat) : ((List.range 2).map f).foldl (· + ·) 0 = f 0 + f 1 := congrArg (· + f 1) (Nat.zero_add _)

/-- A group of one register reads and writes as its register does. -/
theorem Crew.getN_one {r : Nat} (hr : r ≠ 255) : v.getN uni lane r 1 = v.get uni lane r := by
  rw [Crew.getN, if_neg hr, sum_range_one, Nat.mul_zero, pow_zero, mul_one, Nat.add_zero]

theorem Crew.setN_one {r : Nat} (hr : r ≠ 255) (x : Nat) : v.setN uni lane r 1 x = v.set uni lane r (fld x 0 32) := by
  rw [Crew.setN, if_neg hr]
  rfl

/-- A pair holds the low half in its first register. -/
theorem Crew.getN_two {r : Nat} (hr : r ≠ 255) : v.getN uni lane r 2 = v.get uni lane r + v.get uni lane (r + 1) * 2 ^ 32 := by
  rw [Crew.getN, if_neg hr, sum_range_two, Nat.mul_zero, pow_zero, mul_one, mul_one, Nat.add_zero]

theorem Crew.setN_two {r : Nat} (hr : r ≠ 255) (x : Nat) :
    v.setN uni lane r 2 x = (v.set uni lane r (fld x 0 32)).set uni lane (r + 1) (fld x 32 32) := by
  rw [Crew.setN, if_neg hr]
  rfl

/-- A group of at most two registers reads as it was written. -/
theorem Crew.getN_setN {r n : Nat} (hn : n ≤ 2) (hr : r + n ≤ 255) (x : Nat) :
    (v.setN uni lane r n x).getN uni lane r n = x % 2 ^ (32 * n) := by
  obtain rfl | rfl | rfl : n = 0 ∨ n = 1 ∨ n = 2 := by omega
  · rw [Nat.mul_zero, pow_zero, Nat.mod_one, Crew.getN, List.range_zero]
    exact ite_self 0
  · have h0 : r < 255 := by omega
    rw [Crew.setN_one v uni lane h0.ne, Crew.getN_one _ uni lane h0.ne, Crew.get_set v uni lane h0 h0, if_pos rfl, fld, Nat.shiftRight_zero,
      Nat.mod_mod, mul_one]
  · have h0 : r < 255 := by omega
    have h1 : r + 1 < 255 := by omega
    rw [Crew.setN_two v uni lane h0.ne, Crew.getN_two _ uni lane h0.ne, Crew.get_set _ uni lane h1 h0, Crew.get_set _ uni lane h1 h1,
      Crew.get_set v uni lane h0 h0, if_neg (by omega), if_pos rfl, if_pos rfl, fld, fld, Nat.shiftRight_zero, Nat.shiftRight_eq_div_pow]
    omega

end

end Sys2Proof.Machine
end

section
/-! SUPPORT. Predicates (Table 3.1). -/

namespace Sys2Proof.Machine

theorem bitOf_eq_testBit (w k : Nat) : bitOf w k = w.testBit k := by
  rw [bitOf, fld, pow_one, Nat.testBit_eq_decide_div_mod_eq, Nat.shiftRight_eq_div_pow, beq_eq_decide]

/-- Putting a bit keeps what stands below its place and, shifted out of it, what stands above. -/
theorem setFld_bit (w j : Nat) (b : Bool) : setFld w j 1 (b2n b) = 2 ^ j * Nat.bit b (w / 2 ^ j / 2) + w % 2 ^ j := by
  have hw : w = 2 ^ j * (2 * (w / 2 ^ j / 2) + w / 2 ^ j % 2) + w % 2 ^ j := by rw [Nat.div_add_mod, Nat.div_add_mod]
  have hb : b2n b % 2 = b.toNat := by cases b <;> rfl
  rw [setFld, fld, pow_one, Nat.shiftRight_eq_div_pow, hb, Nat.bit_val, Nat.mul_add]
  rw [Nat.mul_add] at hw
  have hclear := Nat.mul_comm (2 ^ j) (w / 2 ^ j % 2)
  have hput := Nat.mul_comm (2 ^ j) b.toNat
  omega

/-- A predicate byte as it reads after a bit was put. -/
theorem bitOf_setFld (w j k : Nat) (b : Bool) : bitOf (setFld w j 1 (b2n b)) k = if k = j then b else bitOf w k := by
  rw [setFld_bit, bitOf_eq_testBit, bitOf_eq_testBit, Nat.testBit_two_pow_mul_add _ (Nat.mod_lt _ (Nat.two_pow_pos j))]
  obtain h | rfl | h := Nat.lt_trichotomy k j
  · rw [if_pos h, if_neg h.ne, Nat.testBit_mod_two_pow, decide_eq_true h, Bool.true_and]
  · simp
  · obtain ⟨m, rfl⟩ : ∃ m, k = j + (m + 1) := ⟨k - j - 1, by omega⟩
    rw [if_neg (by omega), if_neg (by omega), Nat.add_sub_cancel_left, Nat.testBit_bit_succ, ← Nat.testBit_succ, Nat.testBit_div_two_pow,
      Nat.add_comm]

section
variable (v : Crew) (lane j : Nat) (x : Bool)

theorem Crew.setP_seven : v.setP lane 7 x = v := rfl
theorem Crew.getP_seven : v.getP lane 7 = true := rfl

/-- A predicate as it reads after one was written. -/
theorem Crew.getP_setP {j j' : Nat} (hj : j < 7) (hj' : j' < 7) (lane' : Nat) :
    (v.setP lane j x).getP lane' j' = if lane' = lane ∧ j' = j then x else v.getP lane' j' := by
  have hbyte (b : Nat) : bitOf (b % 2 ^ 8) j' = bitOf b j' := by
    rw [bitOf_eq_testBit, bitOf_eq_testBit, Nat.testBit_mod_two_pow, decide_eq_true (by omega), Bool.true_and]
  simp only [Crew.getP, Crew.setP, if_neg hj.ne, if_neg hj'.ne, alGet_alPut]
  by_cases h : lane' = lane
  · subst h
    simp only [if_true, BitVec.toNat_ofNat, hbyte, bitOf_setFld, true_and]
  · simp only [h, false_and, if_false]

/-- A predicate write leaves both register files. -/
theorem Crew.setP_files : (v.setP lane j x).g = v.g ∧ (v.setP lane j x).u = v.u := by
  unfold Crew.setP
  split <;> exact ⟨rfl, rfl⟩

end

end Sys2Proof.Machine
end

section
/-! The obligation about register files. -/

namespace Sys2Proof.Machine

/-- Settles O55: a group is written register by register, each at a place of its own, and a predicate as one bit of its lane's byte. -/
theorem registerFilesHoldWhatIsWritten : Obligations.RegisterFilesHoldWhatIsWritten := by
  unfold Obligations.RegisterFilesHoldWhatIsWritten
  refine ⟨fun v uni lane r n x hn hr hlane => Crew.getN_setN v uni lane hn hr x, fun v uni lane r n x lane' r' hr hr' hlane hlane' => ?_,
    fun v uni lane n x => ⟨Crew.setN_255 v uni lane n x, Crew.getN_255 v uni lane n⟩, fun v lane j lane' j' x hj hj' => ?_,
    fun v lane j lane' r x => ?_⟩
  · exact ⟨fun h => Crew.setN_getG_other hr hr' h v x, fun h => Crew.setN_getU_other hr hr' h v x,
      fun j => Crew.setN_getP v uni lane r n x lane' j⟩
  · refine ⟨?_, fun hother => ?_, Crew.setP_seven v lane x, Crew.getP_seven v lane⟩
    · rw [Crew.getP_setP v lane x hj hj, if_pos ⟨rfl, rfl⟩]
    · rw [Crew.getP_setP v lane x hj hj', if_neg fun h => hother.elim (· h.1) (· h.2)]
  · obtain ⟨hg, hu⟩ := Crew.setP_files v lane j x
    exact ⟨by simp only [Crew.getG, hg], by simp only [Crew.getU, hu]⟩

end Sys2Proof.Machine
end

section
/-! SUPPORT. A stand as it is placed: its crews, its slot and its launch (R63, R67). -/

namespace Sys2Proof.Machine

/-- Entries put at consecutive keys are found, each at its key. -/
theorem alFind_foldl_alPut {α : Type} (f : Nat → α) (base n : Nat) (t : Sparse α) {k : Nat} (hk : k < n) :
    alFind ((List.range n).foldl (fun a j => alPut a (base + j) (f j)) t) (base + k) = some (f k) := by
  induction n with
  | zero => omega
  | succ n ih =>
    rw [List.range_succ, List.foldl_append, List.foldl_cons, List.foldl_nil, alFind_alPut]
    by_cases h : k = n
    · rw [if_pos (by omega), h]
    · rw [if_neg (by omega)]
      exact ih (by omega)

theorem State.setTile_tile_self (s : State) (die k : Nat) (t : Tile) : (s.setTile die k t).tile die k = t := alGet_alPut_self ..

section
variable (stand index entry : Nat)

/-- A crew as it starts reads zero in every register (R67). -/
theorem newCrew_getG (lane r : Nat) : (newCrew stand index entry).getG lane r = 0 := by
  unfold Crew.getG
  split <;> rfl

theorem newCrew_getU (r : Nat) : (newCrew stand index entry).getU r = 0 := by
  unfold Crew.getU
  split <;> rfl

/-- A crew as it starts reads zero in p0 to p6, and one in p7 (R67, Table 3.1). -/
theorem newCrew_getP (lane : Nat) {j : Nat} (hj : j ≠ 7) : (newCrew stand index entry).getP lane j = false := by
  rw [Crew.getP, if_neg hj]
  simp [newCrew, alGet_nil, bitOf, fld]

end

section
variable (s : State) (lid : Nat) (l : Launch) (die tile slot : Nat)

/-- The state in which a launch's stand is placed: the tile is made ready when another launch had it. -/
def State.readyFor : State := if (s.tile die tile).launch = some lid then s else s.readyTile lid l.progs (die, tile)

/-- The tile with a stand placed: its launch, crews, element context and stand slot are the stand's. -/
def Tile.withStand (t : Tile) : Tile := { t with
  launch := some lid
  crews := (List.range l.crews).foldl (fun (a : Sparse Crew) k => alPut a (slot * l.crews + k) (newCrew slot k l.entry)) t.crews
  ctx := if l.ee = 1 then alMod {} t.ctx slot (fun (x : ECtx) => { x with flags := 0 }) else t.ctx
  stands := alPut t.stands slot { launch := lid, index := l.next, killed := false, lost := false } }

theorem State.placeStand_tile : (s.placeStand lid l die tile slot).tile die tile
    = ((s.readyFor lid l die tile).tile die tile).withStand lid l slot :=
  State.setTile_tile_self _ die tile _

/-- Each crew of a placed stand starts new in its slot, whatever the slot held. -/
theorem State.placeStand_crew {k : Nat} (hk : k < l.crews) :
    (s.placeStand lid l die tile slot).crew { die := die, tile := tile, slot := slot * l.crews + k } = some (newCrew slot k l.entry) := by
  rw [State.crew, State.placeStand_tile]
  exact alFind_foldl_alPut (fun j => newCrew slot j l.entry) (slot * l.crews) l.crews _ hk

theorem State.placeStand_stand : alFind ((s.placeStand lid l die tile slot).tile die tile).stands slot
    = some { launch := lid, index := l.next, killed := false, lost := false } := by
  rw [State.placeStand_tile]
  exact alFind_alPut_self ..

theorem State.placeStand_launch : alFind (s.placeStand lid l die tile slot).launches lid = some { l with next := l.next + 1 } :=
  alFind_alPut_self ..

end

end Sys2Proof.Machine
end

section
/-! The obligation about crews as they start. -/

namespace Sys2Proof.Machine

/-- Settles O54: a placed stand's crew slots are overwritten with new crews. -/
theorem crewsStartAtZero : Obligations.CrewsStartAtZero := by
  unfold Obligations.CrewsStartAtZero
  intro s lid l die tile slot k hk
  exact ⟨newCrew slot k l.entry, State.placeStand_crew s lid l die tile slot hk, newCrew_getG slot k l.entry, newCrew_getU slot k l.entry,
    fun lane j hj => newCrew_getP slot k l.entry lane (by omega), fun _ => rfl⟩

end Sys2Proof.Machine
end

section
/-! SUPPORT. Launches that start, stands that end, copies that go in flight, and flushes (R63–R65, R149, R193, R195). -/

namespace Sys2Proof.Machine

/-! LAUNCH. -/

/-- A tile of a launch as the launch starts: readied when it holds no stand, else its L1 emptied (R193). -/
def State.launchTile (l : Launch) (progs : List (List W64)) (t : State) (e : Nat × Nat) : State :=
  if (t.tile e.1 e.2).stands.isEmpty then t.readyTile l.id progs e else t.flushL1 e.1 e.2

/-- A launch as it starts: its tiles, its record and its number (R69, R354). -/
def State.launched (u : State) (n : Nat) (ws : List W64) (l : Launch) (progs : List (List W64)) : State :=
  ({ l.tiles.foldl (State.launchTile l progs) u with
      launches := alPut (l.tiles.foldl (State.launchTile l progs) u).launches l.id { l with progs := progs }
      launchNum := (l.tiles.foldl (State.launchTile l progs) u).launchNum + 1 } : State).start n (u.newFlight l.addr ws)

theorem exec_launch_starts {s u u' : State} {n : Nat} {ws tab : List W64} {l : Launch} (hrec : s.recordFor n 1 = some (ws, u))
    (hshape : u.launchOfRec n ws u.launchNum = .ok l)
    (hread : u.readKeep (.stream n (u.stream n).next) l.space (wfld (nth 0 ws 4) 0 52) (48 * wfld (nth 0 ws 4) 52 7) = .ok tab u')
    (hprogs : (images (wfld (nth 0 ws 4) 52 7) tab).all programOk = true) (hopen : ∃ e ∈ l.tiles, u'.tileOpen l.id l.paced e = true) :
    exec (.launch n) s = .next (u'.launched n ws l (images (wfld (nth 0 ws 4) 52 7) tab)) := by
  have hx : exec (.launch n) s = execLaunch n s := rfl
  have hany : l.tiles.any (fun e => u'.tileOpen l.id l.paced e) = true := List.any_eq_true.mpr hopen
  rw [hx, execLaunch, State.take_of_recordFor hrec]
  simp only [hshape, State.launchGo, hread, hprogs, hany, Bool.not_true, Bool.false_eq_true, if_false]
  rfl

/-! STAND_PLACE and STAND_END. -/

theorem exec_standPlace_places {s : State} {launch die tile slot : Nat} {l : Launch} (hserves : s.serves = true) (hrun : s.power.pstate = 0)
    (hlaunch : alFind s.launches launch = some l) (hclosed : l.closed = false) (hnext : l.next < l.total) (htile : (die, tile) ∈ l.tiles)
    (hopen : s.tileOpen launch l.paced (die, tile) = true)
    (hslot : (List.range l.per).find? (fun k => (alFind (s.tile die tile).stands k).isNone) = some slot) :
    exec (.standPlace launch die tile) s = .next (s.placeStand launch l die tile slot) := by
  unfold exec execStandPlace
  refine when_next (by simp [hserves, hrun]) ?_
  have hgo : (l.closed || decide (l.total ≤ l.next) || !(l.tiles.contains (die, tile)) || !(s.tileOpen launch l.paced (die, tile))) = false := by
    simp [hclosed, htile, hopen, hnext]
  simp only [hlaunch, hgo, Bool.false_eq_true, if_false, hslot]

theorem exec_standEnd_ends {s : State} {die tile slot : Nat} (hserves : s.serves = true) (hreset : die ∉ s.plat.resetting)
    (hover : ∀ e ∈ (s.tile die tile).crews, e.2.stand = slot → s.crewOver { die := die, tile := tile, slot := e.1 } e.2 = true) :
    exec (.standEnd die tile slot) s = .next (s.freeStand die tile slot) := by
  unfold exec execStandEnd
  refine when_next (by simp [hserves, hreset]) (if_pos (List.all_eq_true.mpr fun e he => ?_))
  obtain ⟨hmem, hstand⟩ := List.mem_filter.mp he
  exact hover e hmem (beq_iff_eq.mp hstand)

/-- The end of a launch touches its stream only. -/
theorem State.launchDone_tile (s : State) (lid die tile : Nat) : (s.launchDone lid).tile die tile = s.tile die tile := by
  unfold State.launchDone
  split
  · rfl
  · split <;> rfl

/-- A stand that ends frees its slot and its crews' slots (R64, R82). -/
theorem State.freeStand_tile {s : State} {die tile slot : Nat} {x : Stand} (hstand : alFind (s.tile die tile).stands slot = some x) :
    (s.freeStand die tile slot).tile die tile = { s.tile die tile with
      stands := alDel (s.tile die tile).stands slot, crews := (s.tile die tile).crews.filter (fun e => e.2.stand != slot) } := by
  simp only [State.freeStand, hstand, State.launchDone_tile]
  exact State.setTile_tile_self ..

/-! COPY. -/

theorem exec_copy_starts {s u : State} {n d : Nat} {ws : List W64} (hrec : s.recordFor n 2 = some (ws, u))
    (hmin : 1 ≤ wfld (nth 0 ws 2) 0 13) (hmax : wfld (nth 0 ws 2) 0 13 ≤ 4096) (halign : wfld (nth 0 ws 1) 0 6 = 0)
    (hmask : wfld (nth 0 ws 2) 16 8 ≠ 0) (hslot : nth none (u.stream n).slots (wfld (nth 0 ws 2) 13 2) = some d) :
    exec (.copy n) s = .next (u.start n { u.newFlight (u.stream n).next ws with die := d }) := by
  have hx : exec (.copy n) s = execCopy n s := rfl
  have hgo : ¬ (wfld (nth 0 ws 2) 0 13 = 0 ∨ 4096 < wfld (nth 0 ws 2) 0 13 ∨ wfld (nth 0 ws 1) 0 6 ≠ 0 ∨ wfld (nth 0 ws 2) 16 8 = 0) := by
    omega
  rw [hx, execCopy, State.take_of_recordFor hrec]
  simp only [if_neg hgo, hslot]

/-! FLUSH_RANGE. -/

/-- A FLUSH_RANGE that the stream works on does its work, when the stream takes no other after it. -/
theorem exec_flushRange {s w t : State} {n : Nat} {f : Flight} (hwork : s.worksOn n 7 (fun _ => true) = some (f, w)) (ht : w.flushGo n f = t)
    (hnext : s.openFlight n 7 = none ∨ t.takes n = false) : exec (.flushRange n) s = .next t := by
  subst ht
  exact congrArg _ (State.attempt_of_worksOn hwork (fun u f => u.flushGo n f) hnext)

/-- The first address past a flush's range, and past what of it lies in the page it has come to (R195). -/
def Flight.flushStop (f : Flight) : Nat := wfld (nth 0 f.words 1) 0 52 + (nth 0 f.words 2).toNat
def Flight.flushPast (f : Flight) : Nat := min f.flushStop ((f.pos / 2 ^ 25 + 1) * 2 ^ 25)

theorem Flight.not_stop_le {f : Flight} (h : f.pos < f.flushStop) : ¬ (wfld (nth 0 f.words 1) 0 52 + (nth 0 f.words 2).toNat ≤ f.pos) :=
  Nat.not_le.mpr h

theorem State.flushGo_atEnd {s : State} {n : Nat} {f : Flight} (h : f.flushStop ≤ f.pos) : s.flushGo n f = s.finFlight n f.addr 0 0 := if_pos h

/-- The lines of its page that a flush finds to be flushed: every one of them when another package is their home, else the dirty ones. -/
def State.flushLines (u : State) (f : Flight) (pa : Nat) : List Nat :=
  if (u.remoteOf (u.region pa)).isSome then
    (List.range ((pa + (f.flushPast - f.pos) + 127) / 128 - pa / 128)).map (fun k => pa / 128 + k)
  else u.dirtyLines (pa / 128) ((pa + (f.flushPast - f.pos) + 127) / 128)

section
variable {s u : State} {n : Nat} {f : Flight} (hstop : f.pos < f.flushStop) (hspace : f.pos < 2 ^ 52)
include hstop hspace

theorem State.flushGo_finds (hlines : f.lines = none) : s.flushGo n f = s.flushFind n f f.flushPast := by
  rw [State.flushGo]
  simp only [if_neg (Flight.not_stop_le hstop), if_neg (Nat.not_le.mpr hspace), hlines]
  rfl

end

section
variable {s u : State} {n : Nat} {f : Flight}

/-- A page that is mapped to memory: its lines to be flushed are noted. -/
theorem State.flushFind_mapped {pa : Nat} (hx : s.unitXlat (.stream n f.addr) .flush (s.stream n).space f.pos = .hit pa u)
    (hmapped : u.region pa ≠ .unmapped) (hmemory : u.region pa ≠ .regs) :
    s.flushFind n f f.flushPast = u.onFlush n f (fun x => { x with
      lines := some ((u.flushLines f pa).map (fun l => f.pos / 2 ^ 25 * 2 ^ 25 + l * 128 % 2 ^ 25)) }) := by
  simp only [State.flushFind, hx]
  split <;> simp_all [State.flushLines]

theorem State.flushFind_unmapped (hx : s.unitXlat (.stream n f.addr) .flush (s.stream n).space f.pos = .fail u) :
    s.flushFind n f f.flushPast = u.finFlight n f.addr 8 (BitVec.ofNat 64 f.pos) := by
  simp only [State.flushFind, hx]

end

section
variable {s u : State} {n : Nat} {f : Flight} {vas : List Nat} {l : List (Req × AccResult)} (hstop : f.pos < f.flushStop)
  (hspace : f.pos < 2 ^ 52) (hlines : f.lines = some vas) (hdone : s.unitAll (flushReqs n f (s.stream n).space vas) = .done l u)
include hstop hspace hlines hdone

/-- When a page's flushes have all ended well the flush moves past it, and is over at its range's end. -/
theorem State.flushGo_moves (hok : firstFail l = none) : s.flushGo n f =
    if f.flushStop ≤ f.flushPast then ((u.unitEnd (flushReqs n f (s.stream n).space vas)).onFlush n f (fun x =>
        { x with pos := f.flushPast, lines := none })).finFlight n f.addr 0 0
      else (u.unitEnd (flushReqs n f (s.stream n).space vas)).onFlush n f (fun x => { x with pos := f.flushPast, lines := none }) := by
  rw [State.flushGo]
  simp only [if_neg (Flight.not_stop_le hstop), if_neg (Nat.not_le.mpr hspace), hlines, hdone, hok]
  rfl

/-- A flush that failed ends the record with its address. -/
theorem State.flushGo_fails {k a : Nat} (hfail : firstFail l = some (k, a)) :
    s.flushGo n f = (u.unitEnd (flushReqs n f (s.stream n).space vas)).finFlight n f.addr 8 (BitVec.ofNat 64 a) := by
  rw [State.flushGo]
  simp only [if_neg (Flight.not_stop_le hstop), if_neg (Nat.not_le.mpr hspace), hlines, hdone, hfail]

end

end Sys2Proof.Machine
end

section
/-! The obligation about launches, stands, copies and flushes. -/

namespace Sys2Proof.Machine

/-- Settles O16, record by record. That a launch starts as soon as one of its tiles takes its stands, and readies then only the tiles that hold no
stand, is the model's reading (log entry 34); that the L1s of all its tiles are emptied before is R193. -/
theorem launchesAndStandsComplete : Obligations.LaunchesAndStandsComplete := by
  unfold Obligations.LaunchesAndStandsComplete
  refine ⟨fun s u u' n ws tab l hrec hshape hread hprogs hopen => ⟨_, rfl, exec_launch_starts hrec hshape hread hprogs hopen⟩,
    fun s launch die tile slot l hserves hrun hlaunch hclosed hnext htile hopen hslot =>
      ⟨exec_standPlace_places hserves hrun hlaunch hclosed hnext htile hopen hslot, State.placeStand_stand .., State.placeStand_launch ..⟩,
    fun s die tile slot x hserves hreset hover hstand => ⟨exec_standEnd_ends hserves hreset hover, State.freeStand_tile hstand⟩,
    fun s u n d ws hrec hmin hmax halign hmask hslot => exec_copy_starts hrec hmin hmax halign hmask hslot,
    fun s u n ws hopen hrec hbytes => ?noBytes, fun s n f stop past hserves hn hopen hs hp hstop hspace => ?inFlight⟩
  case noBytes =>
    have hwork : s.worksOn n 7 (fun _ => true) = some (u.newFlight (u.stream n).next ws, u.start n (u.newFlight (u.stream n).next ws)) := by
      simp only [State.worksOn, hopen, hrec, if_true]
    refine exec_flushRange hwork (State.flushGo_atEnd ?_) (.inl hopen)
    simp only [Flight.flushStop, State.newFlight, hbytes, Nat.add_zero, le_refl]
  case inFlight =>
    have hwork : s.worksOn n 7 (fun _ => true) = some (f, s) := by
      simp only [State.worksOn, hopen, hserves, hn, decide_true, Bool.and_true, if_true]
    have hgo (t : State) (ht : s.flushGo n f = t) (hnext : t.takes n = false) : exec (.flushRange n) s = .next t :=
      exec_flushRange hwork ht (.inr hnext)
    subst hp hs
    exact ⟨fun u t pa hlines hx hmapped hmemory ht =>
        hgo t ((State.flushGo_finds hstop hspace hlines).trans ((State.flushFind_mapped hx hmapped hmemory).trans ht.symm)),
      fun u t hlines hx ht => hgo t ((State.flushGo_finds hstop hspace hlines).trans ((State.flushFind_unmapped hx).trans ht.symm)),
      fun u t vas l hlines hdone hok ht => hgo t ((State.flushGo_moves hstop hspace hlines hdone hok).trans ht.symm),
      fun u t vas l k a hlines hdone hfail ht => hgo t ((State.flushGo_fails hstop hspace hlines hdone hfail).trans ht.symm)⟩

end Sys2Proof.Machine
end

section
/-! SUPPORT. Lanes and masks, and where the lanes of a path go (R84). -/

namespace Sys2Proof.Machine

theorem mem_lanesOf {m : LaneMask} {l : Nat} : l ∈ lanesOf m ↔ l < 32 ∧ m.getLsbD l = true := by
  rw [lanesOf, bitsOf, List.mem_filter, List.mem_range, bitOf_eq_testBit, BitVec.getLsbD]

/-- The mask of lanes, from a mask that holds some already. -/
theorem getLsbD_foldl_mask (ls : List Nat) (m : LaneMask) {l : Nat} (hl : l < 32) :
    (ls.foldl (fun a k => a ||| (1#32 <<< k)) m).getLsbD l = (m.getLsbD l || decide (l ∈ ls)) := by
  induction ls generalizing m with
  | nil => simp
  | cons k ls ih =>
    rw [List.foldl_cons, ih, BitVec.getLsbD_or, BitVec.getLsbD_shiftLeft, BitVec.getLsbD_one]
    have hbit : (decide (l < 32) && !decide (l < k) && decide (l - k = 0)) = decide (l = k) := by
      rw [decide_eq_true hl, Bool.true_and, ← decide_not, ← Bool.decide_and, decide_eq_decide]
      omega
    simp [hbit, Bool.or_assoc]

/-- A mask is the mask of its lanes. -/
theorem maskOf_lanesOf (m : LaneMask) : maskOf (lanesOf m) = m := by
  refine BitVec.eq_of_getLsbD_eq fun l hl => ?_
  rw [maskOf, getLsbD_foldl_mask _ _ hl]
  simp [mem_lanesOf, hl]

theorem lanesOf_ne_nil {m : LaneMask} (h : m ≠ 0) : lanesOf m ≠ [] := fun hn => h (by rw [← maskOf_lanesOf m, hn]; rfl)

/-- Lanes that all go one way are one group, of the mask of them. -/
theorem groupLanes_const {f : Nat → Nat × Nat} {x : Nat × Nat} {ls : List Nat} (h : ls ≠ []) (hf : ∀ l ∈ ls, f l = x) :
    groupLanes f ls = [(x.1, x.2, maskOf ls)] := by
  induction ls using List.reverseRecOn with
  | nil => exact absurd rfl h
  | append_singleton ls k ih =>
    have hk : f k = x := hf k (by simp)
    by_cases hls : ls = []
    · simp [hls, groupLanes, indexWhere, maskOf, hk]
    · replace ih := ih hls fun l hl => hf l (List.mem_append_left _ hl)
      unfold groupLanes at ih ⊢
      rw [List.foldl_append, ih]
      simp [indexWhere, updNth, maskOf, hk]

end Sys2Proof.Machine
end

section
/-! SUPPORT. What branches, calls, returns, exits and the two trap instructions do when they issue (R83, R84, R91). -/

namespace Sys2Proof.Machine

/-- A branch that all lanes of its path take to one target leaves one path. -/
theorem State.branch_together (u : State) {i : Issue} (t : Nat) (hpart : i.part = i.active) (hactive : i.active ≠ 0) :
    u.branch i (fun _ => t) = u.setCrew i.c (i.v.split [(t, i.v.frame, i.active)] (decide (t ≤ i.pc))) := by
  have hne := lanesOf_ne_nil hactive
  have hgroup : groupLanes (fun l => (if (lanesOf i.part).contains l then t else i.pc + 8, i.v.frame)) (lanesOf i.active)
      = [(t, i.v.frame, i.active)] := by
    rw [groupLanes_const (x := (t, i.v.frame)) hne, maskOf_lanesOf]
    exact fun l hl => by simp [hpart, hl]
  have hyields : (lanesOf i.part).any (fun _ => decide (t ≤ i.pc)) = decide (t ≤ i.pc) := by
    obtain ⟨k, ls, hk⟩ := List.exists_cons_of_ne_nil hne
    rw [hpart, hk]
    simp
  simp only [State.branch, hgroup, hyields, List.length_singleton, if_true]

/-- A frame is pushed under the executing path's while the stack is not full (R84). -/
theorem Crew.push_of_room {v : Crew} (h : v.frames.length < 32) (rcv : Nat) (call : Bool) :
    v.push rcv call = some ({ v with frames := v.frames ++ [{ id := v.nextFrame, rcv := rcv, call := call, parent := v.frame }],
                                     nextFrame := v.nextFrame + 1 }, v.nextFrame) := if_neg (Nat.not_le.mpr h)

theorem Crew.push_of_full {v : Crew} (h : 32 ≤ v.frames.length) (rcv : Nat) (call : Bool) : v.push rcv call = none := if_pos h

section
variable {s u : State} {c : CrewId} {w : W64} {i : Issue}

section
variable (h : s.issues c w 0x403 = some (i, u))
include h

theorem exec_call_of_room (hroom : i.v.frames.length < 32) : exec (.call c w) s = .next (u.setCrew c (({ i.v with
        frames := i.v.frames ++ [({ id := i.v.nextFrame, rcv := i.pc + 8, call := true, parent := i.v.frame } : Frame)]
        nextFrame := i.v.nextFrame + 1 }).split (groupLanes (fun l => if (lanesOf i.part).contains l then
          (addOff i.pc (8 * off24 w 16), i.v.nextFrame) else (i.pc + 8, i.v.frame)) (lanesOf i.active))
        (decide (addOff i.pc (8 * off24 w 16) ≤ i.pc)))) := by
  have hx : exec (.call c w) s = execCall c w s := rfl
  rw [hx, execCall, State.issue_of_issues h]
  simp only [Crew.push_of_room hroom]

theorem exec_call_of_full (hfull : 32 ≤ i.v.frames.length) : exec (.call c w) s = .next (u.trap i i.active 0x0A 0) := by
  have hx : exec (.call c w) s = execCall c w s := rfl
  rw [hx, execCall, State.issue_of_issues h]
  simp only [Crew.push_of_full hfull]

end

section
variable (h : s.issues c w 0x404 = some (i, u))
include h

theorem exec_ret_of_frame {f : Frame} (hf : i.v.frames.find? (fun f => f.id == i.v.frame && f.call) = some f) :
    exec (.ret c w) s = .next (u.setCrew c (i.v.split (groupLanes (fun l =>
      (if (lanesOf i.part).contains l then f.rcv else i.pc + 8, i.v.frame)) (lanesOf i.active)) false)) := by
  have hx : exec (.ret c w) s = execRet c w s := rfl
  rw [hx, execRet, State.issue_of_issues h]
  simp only [hf]

theorem exec_ret_of_none (hf : i.v.frames.find? (fun f => f.id == i.v.frame && f.call) = none) :
    exec (.ret c w) s = .next (u.trap i i.part 0x0A 1) := by
  have hx : exec (.ret c w) s = execRet c w s := rfl
  rw [hx, execRet, State.issue_of_issues h]
  simp only [hf]

end

section
variable (h : s.issues c w 0x405 = some (i, u))
include h

theorem exec_exit_of_some (hleft : i.active &&& ~~~i.part ≠ 0) : exec (.exit c w) s = .next (u.setCrew c (({ i.v with
    paths := updNth i.v.paths i.v.cur (fun p => { p with lanes := i.active &&& ~~~i.part }) }).advance false)) := by
  have hx : exec (.exit c w) s = execExit c w s := rfl
  rw [hx, execExit, State.issue_of_issues h]
  exact congrArg _ (if_pos hleft)

theorem exec_exit_of_all (hleft : i.active &&& ~~~i.part = 0) : exec (.exit c w) s = .next ((u.setCrew c (({ i.v with
    paths := i.v.paths.eraseIdx i.v.cur
    cur := if i.v.cur = 0 then (i.v.paths.eraseIdx i.v.cur).length - 1 else i.v.cur - 1 }).after true)).crewGone c) := by
  have hx : exec (.exit c w) s = execExit c w s := rfl
  rw [hx, execExit, State.issue_of_issues h]
  exact congrArg _ (if_neg (not_not.mpr hleft))

end

end

theorem State.setCrew_crew_self (s : State) (c : CrewId) (v : Crew) : (s.setCrew c v).crew c = some v := by
  rw [State.crew, State.setCrew, State.setTile_tile_self]
  exact alFind_alPut_self ..

/-- The generations of a tile's slots do not touch its crews. -/
theorem State.setTile_gens_crew (s : State) (c : CrewId) (g : Sparse Nat) :
    (s.setTile c.die c.tile { s.tile c.die c.tile with gens := g }).crew c = s.crew c := by
  rw [State.crew, State.setTile_tile_self]
  rfl

/-- A crew that parks holds its trap, dated now and with no record yet, and joins the end of its die's queue (R91, R92). -/
theorem State.parkCrew_parks {s : State} {c : CrewId} {v : Crew} (h : s.crew c = some v) (t : Trap) :
    (s.parkCrew c t).crew c = some { v with parked := some { t with time := s.now, recorded := false } }
      ∧ alGet [] (s.parkCrew c t).trapWait c.die = alGet [] s.trapWait c.die ++ [c] := by
  simp only [State.parkCrew, h]
  exact ⟨(State.setTile_gens_crew (s.setCrew c _) c _).trans (State.setCrew_crew_self ..), alGet_alMod_self ..⟩

theorem State.trap_parks (u : State) (i : Issue) (m : LaneMask) (k : Nat) (d : W64) :
    (u.trap i m k d).crew i.c = some { i.v with parked := some {
        cause := k, instr := i.w, pc := i.pc, active := i.active, fault := m, first := lowest m, detail := d, late := i.late, time := u.now,
        recorded := false } }
      ∧ alGet [] (u.trap i m k d).trapWait i.c.die = alGet [] u.trapWait i.c.die ++ [i.c] :=
  State.parkCrew_parks (State.setCrew_crew_self u i.c i.v) _

end Sys2Proof.Machine
end

section
/-! The obligation about control instructions. -/

namespace Sys2Proof.Machine

/-- Settles O21. That the lanes outside a CALL's participating set go on at PC + 8 in their own frame is the model's reading (log entry 26), as is
that a dividing branch backwards yields (log entry 65). -/
theorem controlInstructionsComplete : Obligations.ControlInstructionsComplete := by
  unfold Obligations.ControlInstructionsComplete
  exact ⟨effect_of_issue (fun _ _ _ => rfl) fun _ _ => rfl, effect_of_issue (fun _ _ _ => rfl) fun _ _ => rfl,
    effect_of_issue (fun _ _ _ => rfl) fun _ _ => rfl, fun u i t hpart hactive => State.branch_together u t hpart hactive,
    fun s u c w i h hroom => exec_call_of_room h hroom, fun s u c w i h hfull => exec_call_of_full h hfull,
    fun s u c w i f h hf => exec_ret_of_frame h hf, fun s u c w i h hf => exec_ret_of_none h hf,
    fun s u c w i h hleft => exec_exit_of_some h hleft, fun s u c w i h hleft => exec_exit_of_all h hleft,
    effect_of_issue (fun _ _ _ => rfl) fun _ _ => rfl, effect_of_issue (fun _ _ _ => rfl) fun _ _ => rfl, State.trap_parks⟩

end Sys2Proof.Machine
end

section
/-! SUPPORT. Loads, stores, atomics, reductions and copies whose lanes pass every check (R71, R79, R80, R188). -/

namespace Sys2Proof.Machine

/-- When no lane fails a check, every lane's access goes ahead. -/
theorem filter_laneCheck_of_noFaults {sp : Bool} {win : Nat × Nat} {n : Nat} {l : List LaneAcc} (h : laneFaults sp win n l = []) :
    l.filter (fun a => (laneCheck sp win n a.addr).isNone) = l := by
  rw [laneFaults, List.filterMap_eq_nil_iff] at h
  exact List.filter_eq_self.mpr fun a ha => by simpa using h a ha

theorem State.laneEnd_nil (s : State) (i : Issue) (v : Crew) : s.laneEnd i v [] = s.done i v := rfl

/-- The crew of an instruction whose global accesses have all started: they are one more group. -/
def Issue.started (i : Issue) (whole : LaneMask) : Crew := { i.v with groups := i.v.groups ++ [i.group whole []], nextGrp := i.v.nextGrp + 1 }

/-- Global accesses that all pass start one by one, the path having moved on (R80). -/
theorem State.globalAccs_of_noFaults {s : State} {i : Issue} {whole : LaneMask} {n : Nat} {l : List LaneAcc} (mk : Nat → LaneAcc → Req)
    (h : laneFaults true (0, 0) n l = []) : s.globalAccs i whole n l mk
      = (l.foldl (fun (t : State) a => (t.startReq (mk i.v.nextGrp a)).1) (s.done i (i.started whole))).raiseGroup i.c := by
  simp only [State.globalAccs, h, filter_laneCheck_of_noFaults h]
  rfl

section
variable {s u u' : State} {c : CrewId} {w : W64} {i : Issue} {v : Crew}

section
variable {lost : List Nat} (h : s.issues c w 0x100 = some (i, u))
include h

theorem exec_ld_local (hsp : wfld w 59 1 = 0) (hok : laneFaults false (u.windowOf c i.v) (sizeOf_ w) (i.ldst (sizeOf_ w)) = [])
    (hload : (i.ldst (sizeOf_ w)).foldl (localLoad i (sizeOf_ w)) (u, i.v, []) = (u', v, [])) :
    exec (.ld c w lost) s = .next (u'.done i v) := by
  have hx : exec (.ld c w lost) s = execLd c w lost s := rfl
  rw [hx, execLd, State.issue_of_issues h]
  simp only [hsp, zero_ne_one, if_false, hok, filter_laneCheck_of_noFaults hok, hload, State.laneEnd_nil]

theorem exec_ld_global (hsp : wfld w 59 1 = 1) (hok : laneFaults true (0, 0) (sizeOf_ w) (i.ldst (sizeOf_ w)) = []) :
    exec (.ld c w lost) s = .next (((i.ldst (sizeOf_ w)).foldl (fun (t : State) a => (t.startReq
      { laneReq c i.v.nextGrp .load (u.spaceOf c) (sizeOf_ w) a with
        dst := wfld w 16 8, uni := uniOf w, sx := wfld w 60 1 == 1, lost := lost }).1) (u.done i (i.started i.whole))).raiseGroup c) := by
  obtain ⟨rfl, rfl⟩ := State.issues_issue h
  have hx : exec (.ld i.c i.w lost) s = execLd i.c i.w lost s := rfl
  rw [hx, execLd, State.issue_of_issues h]
  simp only [if_pos hsp, State.globalAccs_of_noFaults _ hok]

end

section
variable (h : s.issues c w 0x101 = some (i, u))
include h

theorem exec_st_local (hsp : wfld w 59 1 = 0)
    (hok : laneFaults false (u.windowOf c i.v) (sizeOf_ w) (u.laneOrder (i.ldst (sizeOf_ w))) = []) :
    exec (.st c w) s = .next (((u.laneOrder (i.ldst (sizeOf_ w))).foldl
      (fun (t : State) a => t.writeLs c.die c.tile a.addr (leBytes (sizeOf_ w) a.data)) (u.ordered (i.ldst (sizeOf_ w)))).done i i.v) := by
  have hx : exec (.st c w) s = execSt c w s := rfl
  rw [hx, execSt, State.issue_of_issues h]
  simp only [hsp, zero_ne_one, if_false, State.ordered_windowOf, hok, filter_laneCheck_of_noFaults hok, State.laneEnd_nil]

theorem exec_st_global (hsp : wfld w 59 1 = 1) (hok : laneFaults true (0, 0) (sizeOf_ w) (u.laneOrder (i.ldst (sizeOf_ w))) = []) :
    exec (.st c w) s = .next (((u.laneOrder (i.ldst (sizeOf_ w))).foldl (fun (t : State) a => (t.startReq
        (laneReq c i.v.nextGrp .store (u.spaceOf c) (sizeOf_ w) a)).1)
      ((u.ordered (i.ldst (sizeOf_ w))).done i (i.started i.whole))).raiseGroup c) := by
  obtain ⟨rfl, rfl⟩ := State.issues_issue h
  have hx : exec (.st i.c i.w) s = execSt i.c i.w s := rfl
  rw [hx, execSt, State.issue_of_issues h]
  simp only [if_pos hsp, State.globalAccs_of_noFaults _ hok, State.ordered_spaceOf]

end

/-- ATOM (`returns`) and RED on local store, whose lanes all pass. -/
theorem State.atomOrRed_local {returns : Bool} (hsp : wfld i.w 56 1 = 0)
    (hok : laneFaults false (u.windowOf i.c i.v) (atomicSize (typeOf i.w)) (u.laneOrder i.atoms) = [])
    (hdone : (u.laneOrder i.atoms).foldl (localAtom i returns) (u.ordered i.atoms, i.v, []) = (u', v, [])) :
    u.atomOrRed i returns = u'.done i v := by
  simp only [State.atomOrRed, hsp, zero_ne_one, if_false, State.ordered_windowOf, hok, filter_laneCheck_of_noFaults hok, hdone, State.laneEnd_nil]

/-- An ATOM or RED is an issue of its key. -/
theorem exec_atom_or_red {returns : Bool} (h : s.issues c w (if returns then 0x502 else 0x503) = some (i, u)) :
    exec (if returns then .atom c w else .red c w) s = .next (u.atomOrRed i returns) := by
  cases returns with
  | true => exact congrArg Host.Outcome.next (State.issue_of_issues h fun s i => s.atomOrRed i true)
  | false => exact congrArg Host.Outcome.next (State.issue_of_issues h fun s i => s.atomOrRed i false)

theorem State.atomOrRed_global {returns : Bool} (hsp : wfld i.w 56 1 = 1)
    (hok : laneFaults true (0, 0) (atomicSize (typeOf i.w)) (u.laneOrder i.atoms) = []) :
    u.atomOrRed i returns = ((u.laneOrder i.atoms).foldl (fun (t : State) a => (t.startReq
        { laneReq i.c i.v.nextGrp (if returns then .atomic else .red) (u.spaceOf i.c) (atomicSize (typeOf i.w)) a with
          sub := wfld i.w 52 4, ty := typeOf i.w, dst := (if returns then wfld i.w 16 8 else 255), uni := uniOf i.w }).1)
      ((u.ordered i.atoms).done i (i.started i.whole))).raiseGroup i.c := by
  simp only [State.atomOrRed, if_pos hsp, State.globalAccs_of_noFaults _ hok, State.ordered_spaceOf]

/-- REDL starts one request of the whole line at its address, each participating lane giving its 4 bytes (R191). -/
theorem exec_redl_starts (h : s.issues c w 0x504 = some (i, u)) (hspace : i.v.getN true 0 (wfld w 24 8) 2 < 2 ^ 52)
    (halign : i.v.getN true 0 (wfld w 24 8) 2 % 128 = 0) :
    exec (.redl c w) s = .next (((u.done i (i.started i.part)).startReq
      { laneReq c i.v.nextGrp .redl (u.spaceOf c) 128 {
          lane := lowest i.part, addr := i.v.getN true 0 (wfld w 24 8) 2, cmp := 0,
          data := (lanesOf i.part).foldl (fun x l => x + (i.immB l 1 % 2 ^ 32) * 2 ^ (32 * l)) 0 } with
        mask := i.part.zeroExtend 128, ty := typeOf w }).1.raiseGroup c) := by
  obtain ⟨rfl, rfl⟩ := State.issues_issue h
  have hok (d : Nat) :
      laneFaults true (0, 0) 128 [{ lane := lowest i.part, addr := i.v.getN true 0 (wfld i.w 24 8) 2, data := d, cmp := 0 }] = [] := by
    simpa [laneFaults, laneCheck, halign] using hspace
  have hx : exec (.redl i.c i.w) s = execRedl i.c i.w s := rfl
  rw [hx, execRedl, State.issue_of_issues h]
  simp only [State.globalAccs_of_noFaults _ (hok _), List.foldl_cons, List.foldl_nil]

/-- A BCOPY whose lanes have all submitted is done, its copies counted (R81). -/
theorem exec_bcopy_submits {n : Nat} (h : s.issues c w 0x102 = some (i, u))
    (hsubmit : u.submitLanes i (wfld w 16 4) i.lanes [] i.v.copies = (u', [], [], n)) :
    exec (.bcopy c w) s = .next (u'.done { i with v := { i.v with copies := n, subLeft := none } } { i.v with copies := n, subLeft := none }) := by
  have hx : exec (.bcopy c w) s = execBcopy c w s := rfl
  rw [hx, execBcopy, State.issue_of_issues h]
  simp only [State.issues_fresh h, hsubmit, List.isEmpty_nil, if_true, State.laneEnd_nil]

end

end Sys2Proof.Machine
end

section
/-! The obligation about accesses and copies of crews. -/

namespace Sys2Proof.Machine

/-- Settles O22: with no lane that fails a check, each command's body is its access alone. The order of lanes that meet at a location is R172's
unspecified one (log entry 60). -/
theorem crewAccessesComplete : Obligations.CrewAccessesComplete := by
  unfold Obligations.CrewAccessesComplete
  refine ⟨fun s u u' c w lost i v h hsp hok hload => exec_ld_local h hsp hok hload, fun s u c w i h hsp hok => exec_st_local h hsp hok,
    fun s u u' c w i v h hsp hok hdone => ?atom, fun s u u' c w i v h hsp hok hdone => ?red,
    fun s u c w lost i h hsp hok => exec_ld_global h hsp hok, fun s u c w i h hsp hok => exec_st_global h hsp hok,
    fun s u c w i returns h hsp hok => ?atomic, fun s u c w i h hspace halign => exec_redl_starts h hspace halign,
    fun s u u' c w i n h hsubmit => exec_bcopy_submits h hsubmit⟩
  case atom =>
    obtain ⟨rfl, rfl⟩ := State.issues_issue h
    exact (exec_atom_or_red (returns := true) h).trans (congrArg _ (State.atomOrRed_local hsp hok hdone))
  case red =>
    obtain ⟨rfl, rfl⟩ := State.issues_issue h
    exact (exec_atom_or_red (returns := false) h).trans (congrArg _ (State.atomOrRed_local hsp hok hdone))
  case atomic =>
    obtain ⟨rfl, rfl⟩ := State.issues_issue h
    exact (exec_atom_or_red h).trans (congrArg _ (State.atomOrRed_global hsp hok))

end Sys2Proof.Machine
end

section
/-! SUPPORT. Barriers, fences, shuffles, votes and waits as they issue, and the end of a wait (R85–R90, R180). -/

namespace Sys2Proof.Machine

/-! FENCE. -/

section
variable (u : State) (i : Issue)

/-- An acquire notes its scope and, at system scope, how many host snoops have come (R180). -/
theorem State.fenceOf_acquires {k : Nat} (hk : k ≠ 2) : u.fenceOf i k
    = (u.done i { i.v with fence := some (k, wfld i.w 52 2), snoops := if wfld i.w 52 2 = 3 then u.snoopIn else 0 }).tryFence i.c := by
  simp only [State.fenceOf, hk, ne_eq, not_false_eq_true, true_and]

theorem State.fenceOf_releases :
    u.fenceOf i 2 = (u.done i { i.v with fence := some (2, wfld i.w 52 2), snoops := 0 }).tryFence i.c := rfl

end

section
variable {s : State} {c : CrewId} {v : Crew} {k sc : Nat} (hcrew : s.crew c = some v)
include hcrew

/-- The conditions of a crew's open fence (Table 7.3). -/
theorem State.fenceMet_iff : s.fenceMet c k sc = true ↔
    (∀ r ∈ s.crewReqs c, (k = 2 ∧ sc = 0) ∨ (r.kind ≠ .load ∧ r.kind ≠ .atomic) ∨ (k = 2 ∧ r.readDone = true))
      ∧ (k = 1 ∨ sc = 0 ∨ ∀ r ∈ s.crewReqs c, r.kind.writes = false) ∧ v.snoops ≤ s.snoopOut := by
  have hreads : ((k == 2 && sc == 0) || (s.crewReqs c).all (fun r => (r.kind != .load && r.kind != .atomic) || (k == 2 && r.readDone))) = true ↔
      ∀ r ∈ s.crewReqs c, (k = 2 ∧ sc = 0) ∨ (r.kind ≠ .load ∧ r.kind ≠ .atomic) ∨ (k = 2 ∧ r.readDone = true) := by
    simp only [Bool.or_eq_true, Bool.and_eq_true, beq_iff_eq, List.all_eq_true, bne_iff_ne]
    by_cases h : k = 2 ∧ sc = 0 <;> simp [h]
  have hwrites : (k == 1 || sc == 0 || (s.crewReqs c).all (fun r => !r.kind.writes)) = true ↔
      (k = 1 ∨ sc = 0 ∨ ∀ r ∈ s.crewReqs c, r.kind.writes = false) := by
    simp only [Bool.or_eq_true, beq_iff_eq, List.all_eq_true, Bool.not_eq_true', or_assoc]
  simp only [State.fenceMet, hcrew, Option.map_some, Option.getD_some, Bool.and_eq_true, hreads, hwrites, decide_eq_true_eq, and_assoc]

variable (hfence : v.fence = some (k, sc))
include hfence

/-- A fence whose conditions hold is complete, and an acquire wider than the crew empties the L1 of its tile (R180, R203). -/
theorem State.tryFence_of_met (hserves : s.serves = true) (hmet : s.fenceMet c k sc = true) : s.tryFence c =
    if k ≠ 2 ∧ 1 ≤ sc then (s.onCrew c (fun v => { v with fence := none, snoops := 0 })).flushL1 c.die c.tile
      else s.onCrew c (fun v => { v with fence := none, snoops := 0 }) := by
  simp only [State.tryFence, hcrew, Option.bind_some, hfence, hserves, hmet, Bool.and_self, if_true]

theorem State.tryFence_of_not_met (hmet : ¬ s.fenceMet c k sc = true) : s.tryFence c = s :=
  State.tryFence_of_unmet fun v' k' sc' hv hf => by
    obtain rfl : v = v' := Option.some.inj (hcrew.symm.trans hv)
    obtain ⟨rfl, rfl⟩ : k = k' ∧ sc = sc' := by simpa [hfence] using hf
    simpa using hmet

end

/-! VOTE. -/

/-- The register that a lane's MATCH compares: a pair for INT64 (log entry 64). -/
def Issue.matchKey (i : Issue) (l : Nat) : Nat := i.read l (wfld i.w 24 8) (if typeOf i.w = 13 then 2 else 1)

/-- What VOTE does, by its sub-operation: ALL, ANY, BALLOT, MATCH (R88). -/
theorem exec_vote_of_issues {s u : State} {c : CrewId} {w : W64} {i : Issue} (h : s.issues c w 0x506 = some (i, u)) :
    exec (.vote c w) s = .next (
      if wfld i.w 52 4 = 0 then
        u.done i ((lanesOf i.part).foldl (fun (v : Crew) l => v.setP l (wfld i.w 16 3)
          (decide (∀ k ∈ lanesOf i.part, i.v.getP k (wfld i.w 24 3) = true))) i.v)
      else if wfld i.w 52 4 = 1 then
        u.done i ((lanesOf i.part).foldl (fun (v : Crew) l => v.setP l (wfld i.w 16 3)
          (decide (∃ k ∈ lanesOf i.part, i.v.getP k (wfld i.w 24 3) = true))) i.v)
      else if wfld i.w 52 4 = 2 then
        u.done i (i.each (wfld i.w 16 8) 1 (fun _ => (maskOf ((lanesOf i.part).filter (fun l => i.v.getP l (wfld i.w 24 3)))).toNat))
      else u.done i (i.each (wfld i.w 16 8) 1 (fun l =>
        (maskOf ((lanesOf i.part).filter (fun k => i.matchKey k == i.matchKey l))).toNat))) := by
  obtain ⟨-, rfl⟩ := State.issues_issue h
  have hx : exec (.vote c i.w) s = execVote c i.w s := rfl
  have hall : (lanesOf i.part).all (fun l => i.v.getP l (wfld i.w 24 3)) = decide (∀ k ∈ lanesOf i.part, i.v.getP k (wfld i.w 24 3) = true) := by
    rw [Bool.eq_iff_iff, List.all_eq_true, decide_eq_true_eq]
  have hany : (lanesOf i.part).any (fun l => i.v.getP l (wfld i.w 24 3)) = decide (∃ k ∈ lanesOf i.part, i.v.getP k (wfld i.w 24 3) = true) := by
    rw [Bool.eq_iff_iff, List.any_eq_true, decide_eq_true_eq]
  rw [hx, execVote, State.issue_of_issues h]
  simp only [hall, hany]
  obtain h0 | h1 | h2 | h3 : wfld i.w 52 4 = 0 ∨ wfld i.w 52 4 = 1 ∨ wfld i.w 52 4 = 2 ∨ 2 < wfld i.w 52 4 := by omega
  · simp only [h0, zero_le, if_true]
  · simp only [h1, le_refl, one_ne_zero, if_true, if_false]
  · simp only [h2, Nat.not_ofNat_le_one, OfNat.ofNat_ne_zero, OfNat.ofNat_ne_one, if_true, if_false]
  · simp only [if_neg (show ¬ wfld i.w 52 4 ≤ 1 by omega), if_neg h3.ne', if_neg (show wfld i.w 52 4 ≠ 0 by omega),
      if_neg (show wfld i.w 52 4 ≠ 1 by omega), Issue.matchKey]

/-! SHFL. -/

/-- What SHFL gives a lane: the source lane's A, or its own where that lane is none or does not participate (R88). -/
def Issue.shuffled (i : Issue) (l : Nat) : Nat :=
  match shflSrc (wfld i.w 52 4) l (i.immB l 1) with
  | some k => i.read (if k ∈ lanesOf i.part then k else l) (wfld i.w 24 8) 1
  | none => i.read l (wfld i.w 24 8) 1

theorem exec_shfl_of_issues {s u : State} {c : CrewId} {w : W64} {i : Issue} (h : s.issues c w 0x505 = some (i, u)) :
    exec (.shfl c w) s = .next (u.done i (i.each (wfld i.w 16 8) 1 i.shuffled)) := by
  obtain ⟨-, rfl⟩ := State.issues_issue h
  have hx : exec (.shfl c i.w) s = execShfl c i.w s := rfl
  rw [hx, execShfl, State.issue_of_issues h]
  refine congrArg (fun f => Host.Outcome.next (u.done i (i.each (wfld i.w 16 8) 1 f))) (funext fun l => ?_)
  unfold Issue.shuffled
  cases shflSrc (wfld i.w 52 4) l (i.immB l 1) with
  | none => rfl
  | some k => by_cases hk : k ∈ lanesOf i.part <;> simp [hk]

/-! BWAIT and WAITF. -/

section
variable {s u : State} {c : CrewId} {w : W64} {i : Issue}

theorem exec_bwait_waits (h : s.issues c w 0x507 = some (i, u)) (hnone : i.v.copyErr = []) :
    exec (.bwait c w) s = .next (u.setCrew c (i.v.waitOn (.copies (wfld w 32 8)))) := by
  have hx : exec (.bwait c w) s = execBwait c w s := rfl
  rw [hx, execBwait, State.issue_of_issues h]
  simp only [hnone]

theorem exec_bwait_reports {k : Nat} {d : W64} {x : Nat × Nat} {rest : List (Nat × W64 × Nat × Nat)} (h : s.issues c w 0x507 = some (i, u))
    (herr : i.v.copyErr = (k, d, x) :: rest) :
    exec (.bwait c w) s = .next (u.trap { i with v := { i.v with copyErr := rest } } i.part k d) := by
  have hx : exec (.bwait c w) s = execBwait c w s := rfl
  rw [hx, execBwait, State.issue_of_issues h]
  simp only [herr]

/-- A WAITF whose addresses all pass waits for its words (R90). -/
theorem exec_waitf_waits (h : s.issues c w 0x508 = some (i, u))
    (hok : ∀ k ∈ i.lanes, laneCheck false (u.windowOf c i.v) 4 (i.read k (wfld w 24 8) 1) = none) :
    exec (.waitf c w) s = .next (u.setCrew c (i.v.waitOn (.word
      (i.lanes.map (fun k => (i.read k (wfld w 24 8) 1, BitVec.ofNat 32 (i.immB k 1))))))) := by
  have hx : exec (.waitf c w) s = execWaitf c w s := rfl
  have hnone : laneFaults false (u.windowOf c i.v) 4 (i.lanes.map (fun k =>
      ({ lane := k, addr := i.read k (wfld w 24 8) 1, data := i.immB k 1, cmp := 0 } : LaneAcc))) = [] := by
    rw [laneFaults, List.filterMap_eq_nil_iff]
    intro a ha
    obtain ⟨k, hk, rfl⟩ := List.mem_map.mp ha
    rw [hok k hk, Option.map_none]
  rw [hx, execWaitf, State.issue_of_issues h]
  simp only [hnone, List.head?_nil, List.map_map]
  rfl

end

/-! WAIT_CONDITION_MET. -/

section
variable {s : State} {c : CrewId} {v : Crew} (hcrew : s.crew c = some v) (hserves : s.serves = true) (hparked : v.parked = none)
include hcrew hserves hparked

/-- A crew's path `k` that waits goes on past its wait, merging where it reaches a reconvergence point (R84, R85). -/
def Crew.pathGoesOn (v : Crew) (k : Nat) : Crew :=
  ({ v with paths := updNth v.paths k (fun p => v.park? { p with pc := p.pc + 8, wait := .none }) }).settle (v.frames.length + 1)

theorem exec_waitConditionMet_path {k : Nat} (hfence : v.fence = none)
    (hpath : indexWhere ((s.accstStep c.die c.tile).waitMet c v) v.paths = some k) :
    exec (.waitConditionMet c) s = .next ((s.accstStep c.die c.tile).setCrew c
      (if (v.paths[v.cur]?).any (fun p => p.wait == .none) then v.pathGoesOn k else (v.pathGoesOn k).select)) := by
  have hx : exec (.waitConditionMet c) s = execWaitConditionMet c s := rfl
  have hgo : (!s.serves || v.parked.isSome) = false := by simp [hserves, hparked]
  have hopen : v.fence.isSome = false := by simp [hfence]
  simp only [hx, execWaitConditionMet, hcrew, hgo, hopen, hpath, Bool.false_eq_true, if_false]
  cases hcur : v.paths[v.cur]? with
  | none => rfl
  | some p => by_cases hw : p.wait = .none <;> simp [hw, Crew.pathGoesOn]

theorem exec_waitConditionMet_fence (hfence : v.fence.isSome = true) : exec (.waitConditionMet c) s = .next (s.tryFence c) := by
  have hx : exec (.waitConditionMet c) s = execWaitConditionMet c s := rfl
  have hgo : (!s.serves || v.parked.isSome) = false := by simp [hserves, hparked]
  simp only [hx, execWaitConditionMet, hcrew, hgo, hfence, Bool.false_eq_true, if_false, if_true]

end

end Sys2Proof.Machine
end

section
/-! The obligation about synchronisation instructions. -/

namespace Sys2Proof.Machine

/-- Settles O23, instruction by instruction; the clauses about fences are the conditions of Table 7.3. That the command at which a wait ends tries
the fence of a crew held at one is the model's reading (log entry 62). -/
theorem synchronisationInstructionsComplete : Obligations.SynchronisationInstructionsComplete := by
  unfold Obligations.SynchronisationInstructionsComplete
  refine ⟨effect_of_issue (fun _ _ _ => rfl) fun _ _ => rfl,
    effect_of_issue (fun _ _ _ => rfl) fun u i => State.fenceOf_acquires u i (by decide), effect_of_issue (fun _ _ _ => rfl) State.fenceOf_releases,
    effect_of_issue (fun _ _ _ => rfl) fun u i => State.fenceOf_acquires u i (by decide), fun s u c w i h => exec_shfl_of_issues h,
    fun s u c w i h => exec_vote_of_issues h, fun s u c w i h hnone => exec_bwait_waits h hnone,
    fun s u c w i k x d rest h herr => exec_bwait_reports h herr, fun s u c w i h hok => exec_waitf_waits h hok,
    effect_of_issue (fun _ _ _ => rfl) fun _ _ => rfl,
    fun s c v k hcrew hserves hparked hfence hpath => ⟨_, rfl, exec_waitConditionMet_path hcrew hserves hparked hfence hpath⟩,
    fun s c v hcrew hserves hparked hfence => exec_waitConditionMet_fence hcrew hserves hparked hfence,
    fun s c v k sc hserves hcrew hfence => ?fences⟩
  case fences =>
    have hmet := State.fenceMet_iff (k := k) (sc := sc) hcrew
    have hstays (h : ¬ s.fenceMet c k sc = true) : s.tryFence c = s := State.tryFence_of_not_met hcrew hfence h
    refine ⟨fun hreads hwrites hsnoops => State.tryFence_of_met hcrew hfence hserves (hmet.mpr ⟨hreads, hwrites, hsnoops⟩),
      fun hsnoops => hstays fun h => ?_, fun hkind hscope ⟨r, hr, hw⟩ => hstays fun h => ?_, fun hkind ⟨r, hr, hread⟩ => hstays fun h => ?_⟩
    · exact absurd (hmet.mp h).2.2 (by omega)
    · rcases (hmet.mp h).2.1 with h1 | h0 | hnone
      · exact hkind h1
      · omega
      · simp [hnone r hr] at hw
    · rcases (hmet.mp h).1 r hr with h2 | hother | h2
      · exact hkind h2.1
      · exact hread.elim hother.1 hother.2
      · exact hkind h2.1

end Sys2Proof.Machine
end

section
/-! SUPPORT. Answers to traps, the ring of trap records, and HEAD (R91–R96). -/

namespace Sys2Proof.Machine

/-! Answers (R93, R94). -/

theorem exec_trapAnswerReplay (die : Nat) (id : BitVec 17) (s : State) : exec (.trapAnswerReplay die id) s = s.answer die id (fun s c v t =>
    s.resumed c { v.unpark with replay := if t.cause = 9 then none else some (t.fault, t.instr, if t.late then some t.pc else none) }) := rfl

theorem exec_trapAnswerSkip (die : Nat) (id : BitVec 17) (s : State) : exec (.trapAnswerSkip die id) s = s.answer die id (fun s c v t =>
    s.resumed c (if t.late then v.unpark else v.unpark.advance false)) := rfl

theorem exec_trapAnswerKill (die : Nat) (id : BitVec 17) (s : State) : exec (.trapAnswerKill die id) s = s.answer die id (fun s c v _ =>
    (s.setTile c.die c.tile { s.tile c.die c.tile with
      stands := alUpd (s.tile c.die c.tile).stands v.stand (fun x => { x with killed := true }) }).killStand c.die c.tile v.stand) := rfl

section
variable {s : State} {die : Nat} {id : BitVec 17} (hserves : s.serves = true)
include hserves

/-- An answer to a crew parked with the generation it names takes effect. -/
theorem State.answer_of_parked {v : Crew} {t : Trap} (hcrew : s.crew (trapCrew die id) = some v) (hparked : v.parked = some t)
    (hgen : fld id.toNat 13 4 = s.genOf (trapCrew die id)) (f : State → CrewId → Crew → Trap → State) :
    s.answer die id f = .next (f s (trapCrew die id) v t) := by
  simp only [State.answer, hserves, Bool.not_true, Bool.false_eq_true, if_false, hcrew, hparked, if_pos hgen]

/-- Any other answer is stale, and counted (R94). -/
theorem State.answer_of_stale (hstale : ∀ v t, s.crew (trapCrew die id) = some v → v.parked = some t →
      fld id.toNat 13 4 ≠ s.genOf (trapCrew die id)) (f : State → CrewId → Crew → Trap → State) :
    s.answer die id f = .next (s.count (svc 1)) := by
  simp only [State.answer, hserves, Bool.not_true, Bool.false_eq_true, if_false]
  cases hcrew : s.crew (trapCrew die id) with
  | none => rfl
  | some v =>
    cases hparked : v.parked with
    | none => simp only [hparked]
    | some t => simp only [hparked, if_neg (hstale v t hcrew hparked)]

/-! HEAD (R96). -/

theorem exec_trapHeadWrite_within {v : W64} (h : (alGet 0 s.trapTail die + 2 ^ 32 - wfld v 0 32) % 2 ^ 32 ≤ s.trapSize die) :
    exec (.trapHeadWrite die v) s = .next { s with trapHead := alPut s.trapHead die (wfld v 0 32) } := by
  unfold exec execTrapHeadWrite
  exact when_next hserves (if_pos h)

theorem exec_trapHeadWrite_beyond {v : W64} (h : s.trapSize die < (alGet 0 s.trapTail die + 2 ^ 32 - wfld v 0 32) % 2 ^ 32) :
    exec (.trapHeadWrite die v) s = .next (s.count (svc 2)) := by
  unfold exec execTrapHeadWrite
  exact when_next hserves (if_neg (Nat.not_le.mpr h))

/-! The ring (R92, R96). -/

/-- The oldest parked crew's record has landed: it leaves the queue, TAIL advances, and the die's source fires. -/
def State.trapRecorded (u : State) (die tail : Nat) (c : CrewId) (rest : List CrewId) : State :=
  (({ u with trapWait := alPut u.trapWait die rest, trapTail := alPut u.trapTail die ((tail + 1) % 2 ^ 32) } : State).onCrew c
    (fun x => { x with parked := x.parked.map (fun y => { y with recorded := true }) })).raise (64 + die)

section
variable {c : CrewId} {rest : List CrewId} {v : Crew} {t : Trap} (hwait : alGet [] s.trapWait die = c :: rest) (hcrew : s.crew c = some v)
  (hparked : v.parked = some t)
include hwait hcrew hparked

theorem exec_trapRecordWrite_room {base log2 : Nat} {b : Bool} {u : State} (hroom : s.trapUsed die < s.trapSize die)
    (hring : alFind s.cfg.trapRing die = some (base, log2))
    (hput : s.ringWrite (.service die) 0 (base + alGet 0 s.trapTail die % s.trapSize die * 64) ((s.trapWords c v t).flatMap (leBytes 8)) = (b, u)) :
    exec (.trapRecordWrite die) s = .next (if b then u.trapRecorded die (alGet 0 s.trapTail die) c rest else u) := by
  unfold exec execTrapRecordWrite
  refine when_next hserves ?_
  simp only [hwait, hcrew, hparked, if_neg (Nat.not_le.mpr hroom), hring, Option.map_some, Option.getD_some, hput]
  rfl

theorem exec_trapRecordWrite_full (hfull : s.trapSize die ≤ s.trapUsed die) : exec (.trapRecordWrite die) s = .next s := by
  unfold exec execTrapRecordWrite
  refine when_next hserves ?_
  simp only [hwait, hcrew, hparked, if_pos hfull]

end

end

end Sys2Proof.Machine
end

section
/-! The obligation about trap records and answers. -/

namespace Sys2Proof.Machine

/-- Settles O27: the three answers are one match of identity and generation with three effects. -/
theorem trapAnswersComplete : Obligations.TrapAnswersComplete := by
  unfold Obligations.TrapAnswersComplete
  refine ⟨fun s die id c v t hserves hc hcrew hparked hgen => ?_, fun s die id hserves hstale => ?_,
    fun s die v hserves h => exec_trapHeadWrite_within hserves h, fun s die v hserves h => exec_trapHeadWrite_beyond hserves h,
    fun s u die base log2 c rest v t b hserves hwait hcrew hparked hroom hring hput =>
      exec_trapRecordWrite_room hserves hwait hcrew hparked hroom hring hput,
    fun s die c rest v t hserves hwait hcrew hparked hfull => exec_trapRecordWrite_full hserves hwait hcrew hparked hfull⟩
  · subst hc
    have hanswer := State.answer_of_parked hserves hcrew hparked hgen
    exact ⟨(exec_trapAnswerReplay ..).trans (hanswer _), (exec_trapAnswerSkip ..).trans (hanswer _), (exec_trapAnswerKill ..).trans (hanswer _)⟩
  · have hanswer := State.answer_of_stale hserves hstale
    exact ⟨(exec_trapAnswerReplay ..).trans (hanswer _), (exec_trapAnswerSkip ..).trans (hanswer _), (exec_trapAnswerKill ..).trans (hanswer _)⟩

end Sys2Proof.Machine
end

section
/-! SUPPORT. Grants, returns and retries of admission, the completion of accesses by their requester, and ports that degrade (R289, R294–R296,
R303, R314). -/

namespace Sys2Proof.Machine

/-! Tokens (R294). -/

theorem exec_tokenGrant_grants {s : State} {q : Source} {l : Level} {count : Nat} (hserves : s.serves = true) (hmin : 1 ≤ count) (hmax : count ≤ 16)
    (hpool : s.issued l + count ≤ s.pool l) (hlive : s.sourceLive q = true) (hturn : s.inTurn q l = true) :
    exec (.tokenGrant q l count) s = .next ((((s.granted q l).setIssued l (s.issued l + count)).addHeld q l count).retryNow q l) := by
  unfold exec execTokenGrant
  exact when_of_true (by simp [hserves, hmin, hmax, hpool, hlive, hturn]) _ s

theorem exec_tokenIdleReturn_returns {s : State} {q : Source} {l : Level} {count : Nat} (hserves : s.serves = true) (hmin : 1 ≤ count)
    (hidle : count ≤ ((s.heldSince q l).filter (fun t => decide (t + 1000 ≤ s.now))).length) :
    exec (.tokenIdleReturn q l count) s = .next ((s.setHeld q l ((s.heldSince q l).drop count)).setIssued l (s.issued l - count)) := by
  unfold exec execTokenIdleReturn
  have hheld : count ≤ s.idleHeld q l := hidle
  exact when_of_true (by simp [hserves, hmin, hheld]) _ s

section
variable {s : State} {id : Nat} {r : Req} (hserves : s.serves = true) (hreq : s.req id = some r)
include hserves hreq

theorem exec_tokenReturn_returns {l : Level} {x : AccResult} (hreplied : r.stage = .replied x) (hlevel : l ∈ r.levels) :
    exec (.tokenReturn id l) s = .next ((s.setReq { r with levels := r.levels.erase l }).giveBack l) := by
  unfold exec execTokenReturn
  refine when_next hserves ?_
  simp only [hreq, hreplied, List.contains_iff_mem.mpr hlevel, if_true]

/-! Admission (R293, R296). -/

theorem exec_retryBackoffExpiry {n : Nat} (hback : r.stage = .backoff n) : exec (.retryBackoffExpiry id) s = .next (s.tryAdmit id) := by
  unfold exec execRetryBackoffExpiry
  refine when_next hserves ?_
  simp only [hreq, hback]

end

/-- An access that stays in its package, or before which nothing is to leave it, is not held back (R173, R317). -/
theorem State.notHeldBack {s : State} {r : Req} {ls : List Level} (h : ridgeOf ls = none ∨ s.unsent r = false) :
    ((ridgeOf ls).isSome && s.unsent r) = false := by
  rcases h with h | h <;> simp [h]

/-- A source that holds a token of every level lacks none. -/
theorem State.lacksNone {s : State} {q : Source} {ls : List Level} (h : ∀ l ∈ ls, s.holds_ q l ≠ 0) :
    ls.find? (fun l => s.holds_ q l == 0) = none := by
  simpa using h

section
variable {s : State} {id : Nat} {r : Req} {ls : List Level} (hreq : s.req id = some r)
include hreq

/-- An access that lacks a token of a level is refused (R296). -/
theorem State.tryAdmit_refused {l : Level} (hsent : ridgeOf ls = none ∨ s.unsent r = false) (hroute : s.route r.who.source r.pa = .go ls)
    (hlacks : ls.find? (fun l => s.holds_ r.who.source l == 0) = some l) : s.tryAdmit id = s.refuse r l := by
  simp only [State.tryAdmit, hreq, hroute, State.notHeldBack hsent, Bool.false_eq_true, if_false, hlacks]

variable (hholds : ∀ l ∈ ls, s.holds_ r.who.source l ≠ 0)
include hholds

theorem State.tryAdmit_sent (hroute : s.route r.who.source r.pa = .go ls) (hridge : ridgeOf ls = none) :
    s.tryAdmit id = (s.takeTokens r.who.source ls).setReq { r with levels := ls, stage := .sent } := by
  simp only [State.tryAdmit, hreq, hroute, hridge, Option.isSome_none, Bool.false_and, Bool.false_eq_true, if_false, State.lacksNone hholds]

theorem State.tryAdmit_crosses {k : Nat} (hsent : s.unsent r = false) (hroute : s.route r.who.source r.pa = .go ls) (hridge : ridgeOf ls = some k) :
    s.tryAdmit id = ((s.takeTokens r.who.source ls).setReq { r with levels := ls, stage := .sent }).ridgeSend k
      (((s.takeTokens r.who.source ls).setReq { r with levels := ls, stage := .sent }).ridgeMsg r) := by
  simp only [State.tryAdmit, hreq, hroute, hridge, hsent, Bool.and_false, Bool.false_eq_true, if_false, State.lacksNone hholds]

theorem State.tryAdmit_answered {x : AccResult} (hsent : ridgeOf ls = none ∨ s.unsent r = false)
    (hroute : s.route r.who.source r.pa = .answer ls x) :
    s.tryAdmit id = ((s.takeTokens r.who.source ls).answered { r with levels := ls } x).countDecode r.who.source x := by
  simp only [State.tryAdmit, hreq, hroute, State.notHeldBack hsent, Bool.false_eq_true, if_false, State.lacksNone hholds]

end

/-! Completions (R75, R180, R201, R204, R295). -/

section
variable {s : State} {id : Nat} {r : Req} (hserves : s.serves = true) (hreq : s.req id = some r)
include hserves hreq

theorem exec_l1FillReturn_delivers {lane grp : Nat} {c : CrewId} {l : Line} (hwho : r.who = .lane c lane grp) (hkind : r.kind = .load)
    (hreplied : r.stage = .replied (.line l)) : exec (.l1FillReturn id) s = .next ((if r.noInstall then s
      else (s.setTile c.die c.tile ((s.tile c.die c.tile).l1Put (s.l1Sets c.die c.tile) (r.pa / 128) l)).olderFills c.die c.tile r).deliverLane
        c lane grp r (.line l)) := by
  unfold exec execL1FillReturn
  refine when_next hserves ?_
  simp only [hreq, hwho, hkind, hreplied]

section
variable {x : AccResult} (hreplied : r.stage = .replied x)
include hreplied

theorem exec_accessCompletionReceive_lane {c : CrewId} {lane grp : Nat} (hwho : r.who = .lane c lane grp)
    (hother : r.kind ≠ .load ∨ ∀ l, x ≠ .line l) : exec (.accessCompletionReceive id) s = .next (s.deliverLane c lane grp r x) := by
  unfold exec execAccessCompletionReceive
  refine when_next hserves ?_
  simp only [hreq, hwho, hreplied]
  split
  · rename_i l hkind
    exact absurd hother (by simp [hkind])
  · rfl

theorem exec_accessCompletionReceive_remote {src q link : Nat} (hwho : r.who = .remote src q link) :
    exec (.accessCompletionReceive id) s = .next ((s.respond src q (r.pa / 128) x.cross).dropReq id) := by
  unfold exec execAccessCompletionReceive
  refine when_next hserves ?_
  simp only [hreq, hwho, hreplied]

theorem exec_accessCompletionReceive_aperture {core : Nat} (hwho : r.who = .aperture core) :
    exec (.accessCompletionReceive id) s = .next (s.deliverCore core r x) := by
  unfold exec execAccessCompletionReceive
  refine when_next hserves ?_
  simp only [hreq, hwho, hreplied]

theorem exec_accessCompletionReceive_copy {b : BuckerId} {serial : Nat} (hwho : r.who = .bucker b serial) (hwrites : r.kind.writes = true)
    (hok : x.fails = false) : exec (.accessCompletionReceive id) s = .next (s.dropReq id) := by
  unfold exec execAccessCompletionReceive
  refine when_next hserves ?_
  simp only [hreq, hwho, hreplied, hwrites, hok, Bool.not_false, Bool.and_self, Bool.or_true, if_true]

theorem exec_accessCompletionReceive_fetched {c : CrewId} {lanes : LaneMask} {l : Line} (hwho : r.who = .fetch c lanes) (hkept : r.noInstall = false)
    (hline : x = .line l) (hclean : l.pmask = 0) : exec (.accessCompletionReceive id) s = .next (s.fetched c r l) := by
  subst hline
  unfold exec execAccessCompletionReceive
  refine when_next hserves ?_
  simp only [hreq, hwho, hreplied, hkept, Bool.false_eq_true, if_false, if_pos hclean]

/-- What a unit has given up is dropped as it comes back. -/
theorem exec_accessCompletionReceive_givenUp (hgone : r.noInstall = true)
    (hwho : (∃ q k, r.who = .unit q k) ∨ (∃ a b, r.who = .stream a b) ∨ (∃ a b g, r.who = .engine a b g) ∨ ∃ c g, r.who = .fetch c g) :
    exec (.accessCompletionReceive id) s = .next (s.dropReq id) := by
  unfold exec execAccessCompletionReceive
  refine when_next hserves ?_
  rcases hwho with ⟨_, _, hw⟩ | ⟨_, _, hw⟩ | ⟨_, _, _, hw⟩ | ⟨_, _, hw⟩ <;> simp only [hreq, hw, hreplied, hgone, if_true]

end

/-! Requests whose answer was discarded (R314). -/

theorem exec_ridgeRequestBoundExpiry_access {link : Nat} (hsent : r.stage = .sent) (hridge : ridgeOf r.levels = some link) :
    exec (.ridgeRequestBoundExpiry (.access id)) s = .next (s.answered r .unreachable) := by
  unfold exec execRidgeRequestBoundExpiry
  refine when_next hserves ?_
  simp only [hreq, hsent, hridge, Option.isSome_some, and_self, if_true, State.reply]

end

theorem exec_ridgeRequestBoundExpiry_line {s : State} {a line : Nat} (hserves : s.serves = true) (hhome : s.homeHere line = false) :
    exec (.ridgeRequestBoundExpiry (.line a line)) s = .next (s.unreached a line) := by
  unfold exec execRidgeRequestBoundExpiry
  exact when_next hserves (if_neg (by simp [hhome]))

/-! Ports (R289, R303). -/

theorem exec_colModuleRetire_degrades {s u : State} {port n : Nat} (hup : s.up = true) (hport : s.colUp port = true)
    (hu : u = s.setPorts port (fun c => { c with
      mods := c.mods - 1, mret := min 15 (c.mret + 1), state := 2, crcr := satAdd 65535 c.crcr n })) :
    exec (.colModuleRetire port n) s = .next ((if port < 12 ∧ 0 < n then
        (if (s.colPort port).mods - 1 < 8 then u.sever port else u).count (pairErr (port / 3) 19) n
      else if (s.colPort port).mods - 1 < 8 then u.sever port else u).logEv
        0x000B (if 12 ≤ port then 4 else 8 + port / 3) 2 [port, (s.colPort port).mods - 1]) := by
  subst hu
  unfold exec execColModuleRetire
  exact when_of_true (by simp [hup, hport]) _ s

theorem exec_portSevered_severs {s : State} {port : Nat} (hup : s.up = true) (hport : (s.colPort port).state ≠ 3) :
    exec (.portSevered port) s = .next (s.sever port) := by
  unfold exec execPortSevered
  exact when_of_true (by simp [hup, hport]) _ s

end Sys2Proof.Machine
end

section
/-! The obligation about admission. -/

namespace Sys2Proof.Machine

/-- Settles O29, command by command. That a grant and the end of a back-off come whenever their command does is log entry 42; that the answer of
an access which its unit has given up is dropped is log entry 69. -/
theorem admissionCommandsComplete : Obligations.AdmissionCommandsComplete := by
  unfold Obligations.AdmissionCommandsComplete
  refine ⟨fun s q l count hserves hmin hmax hpool hlive hturn => exec_tokenGrant_grants hserves hmin hmax hpool hlive hturn,
    fun s q l count hserves hmin hidle => exec_tokenIdleReturn_returns hserves hmin hidle,
    fun s u id l r x hserves hreq hreplied hlevel hu => ?tokenReturn, fun s id n r q ls hserves hreq hback hq hsent => ?retry,
    fun s t id lane grp c r l hserves hreq hwho hkind hreplied ht => ?fill, fun s id r x hserves hreq hreplied => ?completion,
    fun s u v port n hup hport hu hv => ?retire, fun s port hup hport => exec_portSevered_severs hup hport,
    fun s id link r hserves hreq hsent hridge => exec_ridgeRequestBoundExpiry_access hserves hreq hsent hridge,
    fun s a line hserves hhome => exec_ridgeRequestBoundExpiry_line hserves hhome⟩
  case tokenReturn =>
    subst hu
    exact exec_tokenReturn_returns hserves hreq hreplied hlevel
  case retry =>
    subst hq
    have hretry := exec_retryBackoffExpiry hserves hreq hback
    exact ⟨fun l hroute hlacks => hretry.trans (congrArg _ (State.tryAdmit_refused hreq hsent hroute hlacks)),
      fun hroute hholds hridge => hretry.trans (congrArg _ (State.tryAdmit_sent hreq hholds hroute hridge)),
      fun k u hroute hholds hridge hu => by
        subst hu
        have hunsent : s.unsent r = false := hsent.resolve_left (by simp [hridge])
        exact hretry.trans (congrArg _ (State.tryAdmit_crosses hreq hholds hunsent hroute hridge)),
      fun x hroute hholds => hretry.trans (congrArg _ (State.tryAdmit_answered hreq hholds hsent hroute))⟩
  case fill =>
    subst ht
    exact exec_l1FillReturn_delivers hserves hreq hwho hkind hreplied
  case completion =>
    exact ⟨fun c lane grp hwho hother => exec_accessCompletionReceive_lane hserves hreq hreplied hwho hother,
      fun src q link hwho => exec_accessCompletionReceive_remote hserves hreq hreplied hwho,
      fun core hwho => exec_accessCompletionReceive_aperture hserves hreq hreplied hwho,
      fun b serial hwho hwrites hok => exec_accessCompletionReceive_copy hserves hreq hreplied hwho hwrites hok,
      fun c g l hwho hkept hline hclean => exec_accessCompletionReceive_fetched hserves hreq hreplied hwho hkept hline hclean,
      fun hgone hwho => exec_accessCompletionReceive_givenUp hserves hreq hreplied hgone hwho⟩
  case retire =>
    subst hv
    exact exec_colModuleRetire_degrades hup hport hu

end Sys2Proof.Machine
end

section
/-! SUPPORT. Bucker copies: a turn, heavy descriptors, index lists, flags, completion and failing writes (R148, R149, R154, R163–R168). -/

namespace Sys2Proof.Machine

/-! Turns (R148, R163). -/

section
variable {s t : State} {b : BuckerId} {d : Desc} {count : Nat} (hruns : s.buckerRuns b = true) (hturn : s.hasTurn b = true)
  (hmovable : s.movable b = some d)
include hruns hturn hmovable

theorem exec_buckerTurn_waits (hreads : s.unitAll (d.reads b (d.turnOf (min (d.turnEnd count) (cdTotal d.words)))) = .wait t) :
    exec (.buckerTurn b count) s = .next t := by
  unfold exec execBuckerTurn
  refine when_next (by simp [hruns, hturn]) ?_
  simp only [hmovable, hreads]

theorem exec_buckerTurn_moves {got : List (Req × AccResult)}
    (hreads : s.unitAll (d.reads b (d.turnOf (min (d.turnEnd count) (cdTotal d.words)))) = .done got t) :
    exec (.buckerTurn b count) s = .next (t.turnMove b d (min (d.turnEnd count) (cdTotal d.words)) got) := by
  unfold exec execBuckerTurn
  refine when_next (by simp [hruns, hturn]) ?_
  simp only [hmovable, hreads]

end

/-- The writes of a turn into local and landing store: those that earlier turns kept back, and its own cut at sector ends. -/
def Desc.landing (d : Desc) (m : Moving) : List CopyW := d.part ++ (m.ws.filter (fun x => decide (x.sp ≤ 1))).flatMap CopyW.cut

/-- A write's sector is written now: the writes cover it, or nothing after `fin` goes into it (R163). -/
def Desc.sectorDue (d : Desc) (fin : Nat) (all : List CopyW) (x : CopyW) : Bool :=
  coversSector (all.filter (fun y => y.sector == x.sector)) x.sector.2.2 || !(d.writesLater fin x.sector)

/-- The writes into local and landing store that a turn makes now. -/
def Desc.dueNow (d : Desc) (fin : Nat) (all : List CopyW) : List CopyW := all.filter (fun x => d.sectorDue fin all x)

/-- The descriptor past a turn, holding the writes that the turn kept back. -/
def Desc.pastTurn (d : Desc) (fin : Nat) (all : List CopyW) : Desc :=
  { d with pos := fin, part := all.filter (fun x => !(d.sectorDue fin all x)) }

/-- The next channel of a tile's Buckers has the turn (R148). -/
def State.passTurn (u : State) (b : BuckerId) : State :=
  match b with
  | .tile die n ch => u.setTile die n { u.tile die n with turn := (ch + 1) % 16 }
  | .heavy _ _ => u

section
variable {t g : State} {b : BuckerId} {d : Desc} {fin : Nat} {got : List (Req × AccResult)} (hreads : (t.moves b d fin got).wait = false)
include hreads

/-- For want of a token at a landing store the turn waits (R146). -/
theorem State.turnMove_lacksToken
    (hland : (t.moves b d fin got).s.landEnter b (d.dueNow fin (d.landing (t.moves b d fin got)))
      = (false, g)) : t.turnMove b d fin got = g := by
  simp only [Desc.dueNow, Desc.landing, Desc.sectorDue] at hland
  simp only [State.turnMove, hreads, Bool.false_eq_true, if_false, hland, Bool.not_false, if_true]

/-- With its tokens, and with no error, poison or draw, a turn ends its reads, notes its place, writes, and passes on. -/
theorem State.turnMove_writes
    (hland : (t.moves b d fin got).s.landEnter b (d.dueNow fin (d.landing (t.moves b d fin got)))
      = (true, g)) (herr : (t.moves b d fin got).err = none) (hbad : (t.moves b d fin got).bad = []) (hrows : (t.moves b d fin got).rows = 0)
    (hrnd : cdRnd d.words ≠ 2) : t.turnMove b d fin got
      = State.passTurn ((((g.readsOver b d.serial).putDesc b (d.pastTurn fin (d.landing (t.moves b d fin got)))).putSectors b
          (d.dueNow fin (d.landing (t.moves b d fin got)))).putWrites b
            (d.pastTurn fin (d.landing (t.moves b d fin got))) ((t.moves b d fin got).ws.filter (fun x => decide (1 < x.sp)))) b := by
  simp only [Desc.dueNow, Desc.landing, Desc.sectorDue] at hland
  simp only [State.turnMove, hreads, Bool.false_eq_true, if_false, hland, Bool.not_true, herr, hbad, hrows, if_neg hrnd, List.eraseDups_nil,
    List.filter_nil, List.length_nil, Nat.add_zero, if_true, List.append_nil]
  cases b <;> rfl

end

/-! Heavy Buckers (R149, R159). -/

theorem exec_heavyBuckerTake_takes {s u : State} {die b n addr : Nat} {f : Flight} {ws : List W64} (hb : b < 8)
    (hruns : s.buckerRuns (.heavy die b) = true) (hfree : s.evacHolds die b = false)
    (hflight : (s.stream n).flights.find? (fun f => f.addr == addr && f.typ == 2 && f.fin.isNone) = some f) (hdie : f.die = die)
    (hmask : bitOf (wfld (nth 0 f.words 2) 16 8) b = true) (hleft : f.handed < wfld (nth 0 f.words 2) 0 13)
    (hfirst : ∀ x ∈ (s.stream n).flights.takeWhile (fun x => x.addr != addr), x.typ ≠ 2)
    (hmoved : (s.descs (.heavy die b)).all Desc.moved = true) (hread : s.descRead n (s.stream n) f = .ok ws u)
    (hcheck : cdCheck ws none (s.stream n).wins = none) :
    exec (.heavyBuckerTake die b n addr) s = .next (({ u.setDescs (.heavy die b) (u.descs (.heavy die b) ++
        [{ newDesc u.serial ws with stream := n, recAddr := addr, index := f.handed, wins := (s.stream n).wins, space := (s.stream n).space }]) with
      serial := u.serial + 1 }).onCopy n addr (fun x => { x with handed := x.handed + 1 })) := by
  have hearlier : ((s.stream n).flights.takeWhile (fun x => x.addr != addr)).any (fun x =>
      x.typ == 2 && x.fin.isNone && (bitOf (wfld (nth 0 x.words 2) 16 8) b && x.die == die)
        && decide (x.handed < wfld (nth 0 x.words 2) 0 13)) = false :=
    List.any_eq_false.mpr fun x hx => by simp [hfirst x hx]
  have hgo : (!(bitOf (wfld (nth 0 f.words 2) 16 8) b && f.die == die) || false || decide (wfld (nth 0 f.words 2) 0 13 ≤ f.handed)
      || !((s.descs (.heavy die b)).all Desc.moved)) = false := by
    simpa [hdie, hmoved] using ⟨hmask, hleft⟩
  unfold exec execHeavyBuckerTake
  refine when_next (by simp [hb, hruns, hfree]) ?_
  simp only [hflight, hearlier, hgo, Bool.false_eq_true, if_false, hread, hcheck]

/-! Index lists (R154, R455). -/

theorem indexWhere_eq_none {α : Type} {p : α → Bool} {l : List α} (h : ∀ a ∈ l, p a = false) : indexWhere p l = none := by
  induction l with
  | nil => rfl
  | cons a l ih =>
    rw [indexWhere, h a List.mem_cons_self, ih fun x hx => h x (List.mem_cons_of_mem a hx)]
    rfl

section
variable {s u : State} {b : BuckerId} {d : Desc} {l : List (Option W32)} {r : Option (Nat × Nat)} (hruns : s.buckerRuns b = true)
  (hactive : s.activeDesc b = some d) (hindexed : cdIndexed d.words = true) (hnone : d.idx = none) (hread : s.idxRead b d = (some l, r, u))
include hruns hactive hindexed hnone hread

theorem exec_indexListRead_holds (hok : r = none) (hlate : cdLateBad d.words l (d.lsBase, d.lsSize) d.wins = false) (hclean : none ∉ l) :
    exec (.indexListRead b) s = .next (u.putDesc b { d with idx := some l }) := by
  subst hok
  have hgo : (!(cdIndexed d.words) || d.idx.isSome) = false := by simp [hindexed, hnone]
  have hpoison : indexWhere (fun (x : Option W32) => x.isNone) l = none :=
    indexWhere_eq_none fun x hx => by
      cases x with
      | none => exact absurd hx hclean
      | some i => rfl
  unfold exec execIndexListRead
  refine when_next hruns ?_
  simp only [hactive, hgo, Bool.false_eq_true, if_false, hread, hlate, hpoison]

theorem exec_indexListRead_fails (hlate : cdLateBad d.words l (d.lsBase, d.lsSize) d.wins = true) :
    exec (.indexListRead b) s = .next ((u.putDesc b { d with idx := some l, pos := cdTotal d.words }).copyErrAt b
      { d with idx := some l, pos := cdTotal d.words } 5 d.where_) := by
  have hgo : (!(cdIndexed d.words) || d.idx.isSome) = false := by simp [hindexed, hnone]
  unfold exec execIndexListRead
  refine when_next hruns ?_
  simp only [hactive, hgo, Bool.false_eq_true, if_false, hread, hlate, if_true]

end

/-! Flags (R165). -/

theorem exec_flaggedFinalWrite_writes {s g : State} {b : BuckerId} {serial : Nat} {d : Desc} {x : CopyW} (hruns : s.buckerRuns b = true)
    (hdesc : s.descOf b serial = some d) (hflag : cdFlag d.words = true) (hfirst : d.flagIssued = false) (hkept : s.flagLost b d = false)
    (hready : s.flagReady b d = true)
    (hx : x = { sp := cdFsp d.words, die := (cdLoc (cdFsp d.words) (cdFaddr d.words)).1, off := (cdLoc (cdFsp d.words) (cdFaddr d.words)).2,
                n := 4, val := cdFval d.words, poisoned := false }) (hland : s.landEnter b [x] = (true, g)) :
    exec (.flaggedFinalWrite b serial) s = .next (if x.sp ≤ 1 then (g.putDesc b { d with flagIssued := true }).putSectors b [x]
      else (g.putDesc b { d with flagIssued := true }).putRun b { d with flagIssued := true } x) := by
  subst hx
  have hgo : (cdFlag d.words && !d.flagIssued && !(s.flagLost b d) && s.flagReady b d) = true := by simp [hflag, hfirst, hkept, hready]
  unfold exec execFlaggedFinalWrite
  refine when_next hruns ?_
  simp only [hdesc, hgo, if_true, hland, Bool.not_true, Bool.false_eq_true, if_false]

/-! Completion (R81, R166). -/

section
variable {s : State} {b : BuckerId} {serial : Nat} {d : Desc} (hserves : s.serves = true) (hdesc : s.descOf b serial = some d)

/-- A descriptor is over when its data has landed and its flag, if it has one, is issued or lost. -/
theorem State.descriptorOver (hlanded : s.dataLanded b d = true)
    (hflag : cdFlag d.words = false ∨ d.flagIssued = true ∨ s.flagLost b d = true) :
    (s.dataLanded b d && (!(cdFlag d.words) || d.flagIssued || s.flagLost b d)) = true := by
  rcases hflag with h | h | h <;> simp [hlanded, h]

include hserves hdesc

section
variable (hlanded : s.dataLanded b d = true) (hflag : cdFlag d.words = false ∨ d.flagIssued = true ∨ s.flagLost b d = true)
include hlanded hflag

theorem exec_descriptorComplete_tile {die tile ch : Nat} {c : CrewId} (hb : b = .tile die tile ch) (hcrew : d.crew = some c) :
    exec (.descriptorComplete b serial) s = .next ((s.setDescs b ((s.descs b).filter (fun x => x.serial != serial))).onCrew c
      (fun v => { v with copies := v.copies - 1 })) := by
  subst hb
  unfold exec execDescriptorComplete
  refine when_next hserves ?_
  simp only [hdesc, State.descriptorOver hlanded hflag, if_true, hcrew]

theorem exec_descriptorComplete_heavy {die k : Nat} (hb : b = .heavy die k) :
    exec (.descriptorComplete b serial) s = .next ((s.setDescs b ((s.descs b).filter (fun x => x.serial != serial))).onCopy d.stream d.recAddr
      (fun f => { f with finished := f.finished + 1 })) := by
  subst hb
  unfold exec execDescriptorComplete
  refine when_next hserves ?_
  simp only [hdesc, State.descriptorOver hlanded hflag, if_true]

end

/-! Writes that fail (R168). -/

theorem exec_copyDataPathError_discards {cause addr : Nat} {r : Req} {x : AccResult} (hout : s.copyOut b serial = [r]) (haddr : r.va = addr)
    (hreplied : r.stage = .replied x) (hfails : x.fails = true) (hcause : copyCause x = cause) :
    exec (.copyDataPathError b serial cause addr) s = .next ((s.dropReq r.id).copyErrAt b d cause addr) := by
  unfold exec execCopyDataPathError
  refine when_next hserves ?_
  simp only [hout, hdesc, haddr, hreplied, hfails, hcause, List.find?_cons_of_pos, beq_self_eq_true, Bool.and_self]

end

end Sys2Proof.Machine
end

section
/-! The obligation about Bucker copies. -/

namespace Sys2Proof.Machine

/-- Settles O26, event by event: each clause is the branch of its command that its hypotheses select. -/
theorem copyEnginesComplete : Obligations.CopyEnginesComplete := by
  unfold Obligations.CopyEnginesComplete
  refine ⟨fun s t b count fin d got hruns hturn hmovable hfin => ?turn,
    fun s die b n addr f u ws hb hruns hfree hflight hdie hmask hleft hfirst hmoved hread hcheck =>
      exec_heavyBuckerTake_takes hb hruns hfree hflight hdie hmask hleft hfirst hmoved hread hcheck,
    fun s u b d l r hruns hactive hindexed hnone hread =>
      ⟨fun hok hlate hclean => exec_indexListRead_holds hruns hactive hindexed hnone hread hok hlate hclean,
        fun hlate => exec_indexListRead_fails hruns hactive hindexed hnone hread hlate⟩,
    fun s g b serial d x hruns hdesc hflag hfirst hkept hready hx hland =>
      exec_flaggedFinalWrite_writes hruns hdesc hflag hfirst hkept hready hx hland,
    fun s die tile ch serial d c hserves hdesc hcrew hlanded hflag => exec_descriptorComplete_tile hserves hdesc hlanded hflag rfl hcrew,
    fun s die b serial d hserves hdesc hlanded hflag => exec_descriptorComplete_heavy hserves hdesc hlanded hflag rfl,
    fun s b serial cause addr d r x hserves hout hdesc haddr hreplied hfails hcause =>
      exec_copyDataPathError_discards hserves hdesc hout haddr hreplied hfails hcause⟩
  case turn =>
    subst hfin
    refine ⟨exec_buckerTurn_waits hruns hturn hmovable, fun m all out hreads hm hwait hall hout => ?_⟩
    have hx := exec_buckerTurn_moves hruns hturn hmovable hreads
    subst hm hall hout
    exact ⟨fun g hland => hx.trans (congrArg _ (State.turnMove_lacksToken hwait hland)),
      fun g hland herr hbad hrows hrnd =>
        ⟨_, _, rfl, rfl, hx.trans (congrArg _ (State.turnMove_writes hwait hland herr hbad hrows hrnd))⟩⟩

end Sys2Proof.Machine
end
